-- ==== Sys2Proof/Word.lean ====
section
/-! DEFINITION. The word type of the part (payload and tag, spec 00_scope.md R2, R12) and the type of sparse tables that
State is built from. Operations on tables are in Machine/Tab.lean. -/
namespace Sys2Proof

/-- One 32-bit payload or register value. -/
abbrev W32 := BitVec 32
/-- One byte lane, one tag byte. -/
abbrev Byte := BitVec 8

/-- A tagged word: 32-bit payload with its 8-bit tag (R2, R46: kind in [7:5], unit in [4:0]). -/
structure Word where
  pay : W32
  tag : Byte
deriving DecidableEq, Repr, Inhabited

/-- A sparse table: entries by number; a number without an entry stands for the default its reader names. -/
abbrev Tab (α : Type) := List (Nat × α)

end Sys2Proof
end

