-- ==== Sys2Proof/Syntax.lean ====
section
/-! DEFINITION. The commands of the block: one constructor of Instr per row of spec/opcode_table.json, with the operands the
row needs (DESIGN CHOICE, log entry 1). Core instructions carry the logical core and the fields of their encoding (R91); Deck rows carry the
number of the transaction; host commands carry where their request lies; event rows carry what the event measures. -/
namespace Sys2Proof

/-- A logical core number (R22). -/
abbrev CoreId := BitVec 11
/-- A bent number (R22). -/
abbrev BentId := BitVec 7
/-- A logical slot of a bent (R22). -/
abbrev SlotId := BitVec 4
/-- A register field of an encoding (R91). -/
abbrev Reg := BitVec 5
/-- A requester ID (R221). -/
abbrev ReqId := BitVec 12
/-- A BIU source number; 192 to 255 name no source (R192). -/
abbrev SrcId := BitVec 8
/-- A DDR5 channel (R17). -/
abbrev ChanId := BitVec 2
/-- A span (R22). -/
abbrev SpanId := BitVec 3

/-- A host port (R307). -/
inductive Port where | a | b
deriving DecidableEq, Repr, Inhabited

/-- A Viaduct port (R373). -/
inductive ViaPort where | up | dn
deriving DecidableEq, Repr, Inhabited

/-- Where the request of a host command lies: a port's request buffer, or the forward buffer's slot of an origin unit and
port (R337, R392). -/
inductive CmdSrc where
  | port (p : Port)
  | fwd (unit : BitVec 4) (p : Port)
deriving DecidableEq, Repr, Inhabited

/-- A register's place as a requester names it: a device word address (R240), or a byte offset of a port's BAR0 (R313) with
the requester ID of the PCI Express request (R322) and the number of bytes that its byte enables name. -/
inductive RegLoc where
  | dev (req : ReqId) (addr : W32)
  | bar0 (p : Port) (rid : BitVec 16) (off : BitVec 16) (bytes : BitVec 13)
deriving DecidableEq, Repr, Inhabited

/-- What a read of a stored word finds in its stored bits (R242). -/
inductive Found where
  | good
  | single (bit : BitVec 6)
  | uncorrectable
deriving DecidableEq, Repr, Inhabited

/-- What the reads of a command find, word by word (R242); a word past the end of the list is good. A DDR5 access of n words finds word i at
number i and the line of its tag at number n + i (R276); a pop of n words finds the side bits of word i at number n + i (R291). -/
abbrev Finds := List Found

/-- A bank of on-chip SRAM: of a bent, or of a Deck SRAM slice (R247, R250). -/
inductive SramRef where
  | bent (b : BentId)
  | deck (s : SpanId)
deriving DecidableEq, Repr, Inhabited

/-- How far an interrupt entry goes in one command (DESIGN CHOICE, log entry 9): the whole of it, only to step 12, or from step 13 on. -/
inductive EntryPhase where | whole | accept | claim
deriving DecidableEq, Repr, Inhabited

/-- The bundled-data stages that carry near-miss detectors (R171). -/
inductive Stage where | ex | me
deriving DecidableEq, Repr, Inhabited

/-- The header of a received Viaduct flit but for its type (R379). -/
structure FlitHdr where
  seq : BitVec 12
  ack : BitVec 12
  nak : Bool
  cf : Bool
  cls : BitVec 2
  dest : BitVec 4
  src : BitVec 4
  credit : Byte
deriving DecidableEq, Repr, Inhabited

/-- The types of a Deck transaction (R217). -/
inductive TxnType where | rd | wr | tw | fill | qop | evt
deriving DecidableEq, Repr, Inhabited

/-- One word of a write: its payload and tag, its 4-bit lane mask and its tag-write bit (R217). -/
structure WordPart where
  addr : W32
  lanes : BitVec 4
  tagWr : Bool
  word : Word
deriving DecidableEq, Repr, Inhabited

/-- The answers of a Deck target (R218). -/
inductive Resp where
  | data (d : Bool) (words : List Word)
  | ack (d : Bool)
  | retry
  | notPresent
  | error (detail : BitVec 4) (addr : W32)
deriving DecidableEq, Repr, Inhabited

/-- What ends P1 (R425). -/
inductive P1Cause where
  | delivery | deck | doorbell | i3c | raise
  | l1Exit (p : Port)
deriving DecidableEq, Repr, Inhabited

/-- What starts a cold reset (R407, R417). -/
inductive ColdCause where | por | pin | wake
deriving DecidableEq, Repr, Inhabited

/-- What the set-up of a DDR5 channel with modules finds (R269, R279): how many DIMMs, whether they are alike and of supported options alone, the
highest speed that all of them support (as DDR_CFG.SPEED codes it), x4 devices, two ranks, the regions they hold, and the speeds at which
training succeeds (bit i for code i + 1). -/
structure ChanSetup where
  dimms : BitVec 2
  supported : Bool
  speed : BitVec 2
  x4 : Bool
  rank2 : Bool
  regions : Nat
  trains : BitVec 3
deriving DecidableEq, Repr, Inhabited

/-- What BOOT finds (R411): the slot results, the channels that hold modules, the configuration set's register writes. -/
structure BootReport where
  revokes : Bool
  ms : BitVec 16
  ddr : List (ChanId × ChanSetup)
  cfg : List (W32 × W32)
deriving DecidableEq, Repr, Inhabited

/-- What COMMISSION finds (R414, R415): failing physical cores, failing bents, failing rows of SRAM banks, grades when grading ran, the
calibration of each bent (the process monitor's count at code 100, and the delays), the first failing crossing. -/
structure CommReport where
  badSlots : List (BentId × BitVec 5)
  badBents : List BentId
  badRows : List (SramRef × BitVec 3 × BitVec 11)
  curves : List (BentId × Nat × BitVec 16 × BitVec 16)
  grades : List (BentId × BitVec 4 × BitVec 4)
  calib : List (BentId × BitVec 16 × BitVec 4 × BitVec 4)
  xFail : Option Byte
deriving DecidableEq, Repr, Inhabited

/-- The commands. -/
inductive Instr where
  -- core arithmetic (R99 to R102, R141)
  | add (c : CoreId) (rd ra rb : Reg)
  | addf (c : CoreId) (rd ra rb : Reg)
  | addfs (c : CoreId) (rd ra rb : Reg)
  | sub (c : CoreId) (rd ra rb : Reg)
  | subf (c : CoreId) (rd ra rb : Reg)
  | subfs (c : CoreId) (rd ra rb : Reg)
  | addi (c : CoreId) (rd ra : Reg) (imm : BitVec 15)
  | subi (c : CoreId) (rd ra : Reg) (imm : BitVec 15)
  | mul (c : CoreId) (rd ra rb : Reg)
  | muli (c : CoreId) (rd ra : Reg) (imm : BitVec 15)
  | mulf (c : CoreId) (rd ra rb : Reg)
  | mulfs (c : CoreId) (rd ra rb : Reg)
  | macf (c : CoreId) (rd ra rb : Reg)
  | macfs (c : CoreId) (rd ra rb : Reg)
  | div (c : CoreId) (rd ra rb : Reg)
  | divf (c : CoreId) (rd ra rb : Reg)
  | divComplete (c : CoreId)
  -- compare (R103 to R105)
  | cmp (c : CoreId) (ra rb : Reg)
  | cmpi (c : CoreId) (ra : Reg) (imm : BitVec 15)
  | cset (c : CoreId) (rd ra rb : Reg) (fn : BitVec 10)
  -- logical and shift (R106)
  | and (c : CoreId) (rd ra rb : Reg)
  | or (c : CoreId) (rd ra rb : Reg)
  | xor (c : CoreId) (rd ra rb : Reg)
  | not (c : CoreId) (rd ra : Reg)
  | andi (c : CoreId) (rd ra : Reg) (imm : BitVec 15)
  | ori (c : CoreId) (rd ra : Reg) (imm : BitVec 15)
  | xori (c : CoreId) (rd ra : Reg) (imm : BitVec 15)
  | shl (c : CoreId) (rd ra rb : Reg)
  | shr (c : CoreId) (rd ra rb : Reg)
  | sar (c : CoreId) (rd ra rb : Reg)
  | shli (c : CoreId) (rd ra : Reg) (imm : BitVec 15)
  | shri (c : CoreId) (rd ra : Reg) (imm : BitVec 15)
  | sari (c : CoreId) (rd ra : Reg) (imm : BitVec 15)
  -- moves and tags (R108, R109)
  | mov (c : CoreId) (rd ra : Reg)
  | movu (c : CoreId) (rd : Reg) (imm : BitVec 20)
  | tget (c : CoreId) (rd ra : Reg)
  | tset (c : CoreId) (rd ra : Reg) (t : Byte)
  | tchk (c : CoreId) (ra : Reg) (t : Byte) (m : BitVec 2)
  | ttst (c : CoreId) (ra : Reg) (t : Byte) (m : BitVec 2)
  -- memory (R110, R111, R121)
  | ldw (c : CoreId) (rd ra : Reg) (off : BitVec 15) (found : Finds)
  | stw (c : CoreId) (rs ra : Reg) (off : BitVec 15)
  | stag (c : CoreId) (rs ra : Reg) (off : BitVec 15)
  | ld16 (c : CoreId) (pd pa : Reg) (off : BitVec 15) (found : Finds)
  | st16 (c : CoreId) (ps pa : Reg) (off : BitVec 15)
  -- compact arithmetic (R121)
  | adc (c : CoreId) (rd ra rb : Reg)
  | sbc (c : CoreId) (rd ra rb : Reg)
  | rlc (c : CoreId) (rd ra : Reg)
  | rrc (c : CoreId) (rd ra : Reg)
  | add16 (c : CoreId) (pd pa pb : Reg)
  | addi16 (c : CoreId) (pd pa : Reg) (imm : BitVec 15)
  -- control transfer (R112)
  | bc (c : CoreId) (cc : BitVec 5) (off : BitVec 20)
  | bt (c : CoreId) (ra : Reg) (off : BitVec 20)
  | bf (c : CoreId) (ra : Reg) (off : BitVec 20)
  | call (c : CoreId) (rd : Reg) (off : BitVec 20)
  | jmp (c : CoreId) (rd ra : Reg)
  -- system (R115)
  | wait (c : CoreId)
  | reti (c : CoreId)
  | signal (c : CoreId) (ra : Reg) (n : BitVec 4)
  | fence (c : CoreId)
  | mfpsr (c : CoreId) (rd : Reg)
  | mtpsr (c : CoreId) (ra : Reg)
  | di (c : CoreId)
  | ei (c : CoreId)
  | undefinedOpcode (c : CoreId) (word : W32)
  -- store buffer and Deck responses (R138, R218)
  | storeBufferSend (c : CoreId) (found : Finds)
  | deckDataReturn (id : Nat)
  | deckAckReturn (id : Nat)
  | deckRetryReturn (id : Nat)
  | retryResend (id : Nat)
  | deckNotPresentReturn (id : Nat)
  | deckErrorReturn (id : Nat)
  -- Deck targets (R217)
  | deckRd (id : Nat) (found : Finds)
  | deckWr (id : Nat) (found : Finds)
  | deckTw (id : Nat) (found : Finds)
  | deckEvt (id : Nat)
  | deckStarve (id : Nat)
  -- fetch and pace (R133, R152, R157)
  | lineFill (b : BentId) (line : Nat) (found : Finds)
  | pacedFetchDelivery (c : CoreId) (found : Finds)
  | paceUnderrun (c : CoreId)
  -- bent interrupt unit (R199, R145, R208, R192)
  | biuOffer (b : BentId)
  | interruptEntry (c : CoreId) (ph : EntryPhase)
  | takeover (c : CoreId)
  | alarmMatch (b : BentId) (k : BitVec 5)
  | timebasePulse (k : BitVec 2)
  | coreUngateDone (b : BentId) (slot : SlotId)
  | biuSwset (req : ReqId) (b : BentId) (val : W32)
  | biuAlmcmpWrite (req : ReqId) (b : BentId) (k : BitVec 5) (val : W32)
  -- deadlines and the Scribe (R169 to R189)
  | deadlineMiss (b : BentId) (slot : SlotId) (entry : BitVec 2)
  | nearMiss (b : BentId) (pslot : BitVec 5) (stage : Stage)
  | timingLate (b : BentId) (pslot : BitVec 5) (stage : Stage)
  | scribeControlPeriod (b : BentId) (actual : BitVec 7) (count : BitVec 16)
  | budgetEvaluation (fixed : Nat) (pest : List (BentId × BitVec 16))
  | regFault (b : BentId) (code : BitVec 7)
  | sensorSample (readings : List (Bool × BitVec 16))
  -- queues (R284)
  | push (id : Nat)
  | pushs (id : Nat)
  | pushe (id : Nat)
  | pushse (id : Nat)
  | pop (id : Nat) (found : Finds)
  | itemlen (id : Nat)
  | space (id : Nat)
  | status (id : Nat)
  | mark (id : Nat)
  | rewind (id : Nat)
  | release (id : Nat)
  | queCtlFlush (req : ReqId) (q : BitVec 10) (val : W32)
  | queueFlushDone (q : BitVec 10)
  -- crossings (R300)
  | xingUnstable (d : Byte)
  -- SRAM errors and repair (R251 to R254)
  | scrubRead (m : SramRef) (off : BitVec 20) (found : Found)
  | rowRepairSwitch (m : SramRef) (bank : BitVec 3)
  | spareRecordWrite
  -- code store writes (R264)
  | cstWrite (req : ReqId)
  | cstErase (req : ReqId)
  | cstBankWriteDone (matched : Bool)
  | cstInvalidateDone
  -- DDR5 (R274 to R279, R529)
  | ddrTaginitDone (ch : ChanId)
  | ddrPatrolScrub (ch : ChanId) (line : BitVec 31) (loc : BitVec 7) (found : Found)
  | ddrSoftPpr (ch : ChanId) (row : Nat) (dimm : Bool) (room : Bool)
  | ddrTempPoll (ch : ChanId) (temp : Byte)
  | pmicAlert (ch : ChanId) (dimm : Bool) (status : Byte)
  | ddrFail (ch : ChanId)
  -- PCI Express (R308 to R328)
  | pciHdb (p : Port) (rid : BitVec 16) (b : BentId) (val : W32)
  | bar2PayloadWrite (p : Port) (off : BitVec 28) (data : List (Option Byte))
  | bar2PayloadRead (p : Port) (off : BitVec 28) (words : BitVec 11)
  | bar2TagWrite (p : Port) (off : BitVec 28) (tags : List Byte)
  | bar2TagRead (p : Port) (off : BitVec 28) (count : BitVec 13)
  | bar4Write (p : Port) (off : BitVec 36) (data : List (Option Byte))
  | bar4Read (p : Port) (off : BitVec 36) (count : BitVec 13)
  | pciConfigWrite (p : Port) (rid : BitVec 16) (reg : BitVec 10) (val : W32)
  | perst (p : Port)
  | flr (p : Port)
  | dlDown (p : Port)
  | ptmDialogue (p : Port) (host : Option (BitVec 64))
  | msixPendingSend (p : Port) (vec : BitVec 11)
  -- I3C management target (R329)
  | i3cDynamicAddress (addr : BitVec 7)
  | i3cPrivateWrite (data : List Byte)
  | i3cPrivateRead (n : BitVec 13)
  -- the port semaphore (R331)
  | semAcq (p : Port) (rid : BitVec 16) (val : W32)
  | semHb (p : Port) (rid : BitVec 16) (val : W32)
  | semRel (p : Port) (rid : BitVec 16) (val : W32)
  | semLeaseExpiry
  -- command packets (R339, R372)
  | cmdDb (p : Port) (rid : BitVec 16) (val : W32)
  | cmdForwardTimeout (p : Port)
  | creplyReceive (v : ViaPort) (h : FlitHdr) (p : Port) (final : Bool) (st : BitVec 16) (detail : BitVec 16) (seq elapsed : W32)
      (payload : List W32)
  | devInfo (src : CmdSrc)
  | devStatus (src : CmdSrc)
  | modeSet (src : CmdSrc)
  | modeGet (src : CmdSrc)
  | loopLoad (src : CmdSrc)
  | loopBind (src : CmdSrc)
  | loopStart (src : CmdSrc)
  | loopStartTimeout (loop : BitVec 16)
  | loopStop (src : CmdSrc)
  | loopStopTimeout (loop : BitVec 16)
  | loopMigrate (src : CmdSrc)
  | loopUpdate (src : CmdSrc)
  | memRead (src : CmdSrc) (found : Finds)
  | memWrite (src : CmdSrc) (found : Finds)
  | queCreate (src : CmdSrc)
  | queConfig (src : CmdSrc)
  | queFlush (src : CmdSrc)
  | scrSet (src : CmdSrc)
  | scrReport (src : CmdSrc)
  | pwrState (src : CmdSrc)
  | fltRead (src : CmdSrc)
  | fltAck (src : CmdSrc)
  | fltSeverity (src : CmdSrc)
  | secAttest (src : CmdSrc)
  | secImage (src : CmdSrc)
  | secUnlock (src : CmdSrc)
  | viaEnum (src : CmdSrc)
  | viaStatus (src : CmdSrc)
  | plbSelect (src : CmdSrc)
  | spareSwap (src : CmdSrc) (selfTest : Bool)
  | spareSwapTimeout (b : BentId)
  | spareStatus (src : CmdSrc)
  -- living service (R468 to R476)
  | livSwctlArm (req : ReqId) (b : BentId) (slot : SlotId) (kind : Bool) (src : SrcId) (vec : W32)
  | livSwctlDisarm (req : ReqId) (b : BentId) (slot : SlotId)
  | switchTimeout (b : BentId) (slot : SlotId)
  | livLatch (req : ReqId) (b : BentId) (src : SrcId)
  -- resets and modes (R399 to R414, R508)
  | coreReset (req : ReqId) (c : CoreId)
  | bentReset (req : ReqId) (b : BentId)
  | coldReset (cause : ColdCause)
  | bootComplete (r : BootReport)
  | commissionComplete (r : CommReport)
  | safeNAccept
  | recoveryPhaseEnd (fail : Option Byte)
  -- power states and wake (R424 to R434)
  | p1Entry
  | p1Exit (cause : P1Cause)
  | coreGate (c : CoreId)
  | sleepDomainAnswer (refuse : Bool)
  | drainTimeout
  | wakeN
  | aonAlarm
  | portWakeRequest (p : Port)
  | wakeComplete
  -- rails and temperature (R513 to R516)
  | railFault (rail : BitVec 5)
  | brownOut
  | thermtrip (sensor : BitVec 5)
  -- fault collection (R440 to R447)
  | faultRaise
  | fltClrAll (req : ReqId)
  | fltClrSource (req : ReqId) (n : BitVec 10)
  | fltKick (req : ReqId)
  | fltKickGrace (req : ReqId)
  | ksWdog
  | ksLockstep
  | fltSelf
  -- security engine and Keystone restart (R453, R465, R480)
  | secRelock (req : ReqId)
  | secVerifyDone
  | keystoneRestartDone (revokes : Bool) (kicked : Bool) (ms : BitVec 16)
  -- Viaduct (R377 to R393)
  | viaTxnReceive (p : ViaPort) (h : FlitHdr) (ty : TxnType) (req : ReqId) (paced : Bool) (tag : Byte) (parts : List WordPart)
      (n : BitVec 4)
  | viaRspReceive (p : ViaPort) (h : FlitHdr) (req : ReqId) (tag : Byte) (r : Resp)
  | viaCmdReceive (p : ViaPort) (h : FlitHdr) (origin : Port) (body : List W32)
  | viaLinkReceive (p : ViaPort) (h : FlitHdr) (reachKind : Bool) (head : Bool) (addr : Option (BitVec 4)) (chainLen : BitVec 5)
      (reach : BitVec 16)
  | viaReachPeriodic (p : ViaPort)
  | viaEnumReceive (p : ViaPort) (h : FlitHdr) (token : BitVec 5)
  | viaEndReceive (p : ViaPort) (h : FlitHdr) (count : BitVec 5)
  | viaLengthReceive (p : ViaPort) (h : FlitHdr) (len : BitVec 5)
  | viaEnumTimeout
  | viaSyncExchange (stamps : Option (BitVec 64 × BitVec 64))
  | viaSyncReceive (p : ViaPort) (h : FlitHdr) (t1 : BitVec 64)
  | viaFlitError (p : ViaPort)
  | viaReplayTimeout (p : ViaPort)
  | viaFarEndDetect (p : ViaPort) (lanes : BitVec 5)
  | viaTrainEnd (p : ViaPort) (lanes : BitVec 5)
  | viaCheckEnd (p : ViaPort) (good : Bool) (head : Bool) (addr : Option (BitVec 4)) (chainLen : BitVec 5)
  | viaLaneError (p : ViaPort) (lane : BitVec 3) (lostLock : Bool)
  | viaRetrain (req : ReqId) (p : ViaPort)
  | viaRxSilence (p : ViaPort)
  | viaRetrainTimeout (p : ViaPort)
  | viaChainSideband (p : ViaPort) (level : Bool)
  -- register access (R9, R10)
  | registerWrite (loc : RegLoc) (val : W32)
  | readClear (loc : RegLoc)
  -- test access port (R488 to R495)
  | jtagTestLogicReset
  | extest (cells : List Bool)
  | samplePreload (cells : List Bool)
  | idcode
  | clamp
  | highz
  | extestPulse (cells : List Bool)
  | extestTrain (cells : List Bool)
  | unlockCh
  | unlockTok (token : List Byte)
  | dbgStat
  | dbgInsp (write : Bool) (addr : W32) (data : W32)
  | dbgKs (write : Bool) (addr : W32) (data : W32)
  | fwRecov (op : BitVec 2) (addr : W32) (words : List W32)
  | bypass
  -- pins, links and slow events
  | resetRelease (bifurc head : Bool)
  | safeNRelease
  | dlUp (p : Port) (speed : BitVec 4) (width : BitVec 5)
  | aliveToggle
  | viaIdleReceive (p : ViaPort) (h : FlitHdr)
  | railGood (rail : BitVec 5)
  | regulatorSlewDone (b : BentId)
deriving DecidableEq, Repr

end Sys2Proof
end

