-- ==== Sys2Proof/Decode.lean ====
section
/-! DEFINITION. The table's words. No row of spec/opcode_table.json gives bits (its `fields` are empty for every row: a command
is not a word that the part fetches), so no word spells a command. The encodings of core instructions (R91, R92) are read in
Machine/Encoding.lean, for the row UNDEFINED_OPCODE. -/
namespace Sys2Proof

/-- The command that a word of nbits bits spells by the table's bits: none, for the table gives no row any. -/
def decodeTableWord (_nbits _w : Nat) : Option Instr := none

end Sys2Proof
end

