-- ==== Sys2Proof/Machine/Bits.lean ====
section
/-! DEFINITION. Bit fields, sign extension, byte order: the helpers that every other file of the machine uses. Values that
cross a host port are little-endian (spec 00_scope.md R4). -/
namespace Sys2Proof.Machine

/-- Field [hi:lo] of a word as a number. -/
def fieldOf (w : W32) (hi lo : Nat) : Nat := (w.toNat >>> lo) % 2 ^ (hi + 1 - lo)

/-- Bit i of a word. -/
def bitOf (w : W32) (i : Nat) : Bool := w.getLsbD i

/-- Bits [lo+n-1:lo] of a word, as a bit vector of width n. -/
def bitsAt (n : Nat) (w : W32) (lo : Nat) : BitVec n := w.extractLsb' lo n

/-- A value placed with its bit 0 at bit lo of a word. -/
def place {n : Nat} (v : BitVec n) (lo : Nat) : W32 := v.setWidth 32 <<< lo

/-- A Boolean placed at bit i of a word. -/
def flag (b : Bool) (i : Nat) : W32 := if b then 1#32 <<< i else 0#32

/-- A number placed with its bit 0 at bit lo of a word. -/
def placeNat (v lo : Nat) : W32 := BitVec.ofNat 32 (v <<< lo)

/-- A bit vector increment that stops at all ones (a saturating count). -/
def satInc {n : Nat} (v : BitVec n) : BitVec n := if v = BitVec.allOnes n then v else v + 1#n

/-- A saturating count raised by k. -/
def satAdd {n : Nat} (v : BitVec n) (k : Nat) : BitVec n :=
  if v.toNat + k < 2 ^ n then BitVec.ofNat n (v.toNat + k) else BitVec.allOnes n

/-- Bit i of a bitmap set to b. -/
def setBit {n : Nat} (v : BitVec n) (i : Nat) (b : Bool) : BitVec n :=
  if b then v ||| (1#n <<< i) else v &&& ~~~ (1#n <<< i)

/-- Sign-extended immediate of 15 bits (R93). -/
def sext15 (i : BitVec 15) : W32 := i.signExtend 32
/-- Zero-extended immediate of 15 bits (R93). -/
def zext15 (i : BitVec 15) : W32 := i.setWidth 32
/-- Signed count of words of 20 bits (R93). -/
def sext20 (i : BitVec 20) : W32 := i.signExtend 32

/-- Byte lane n of a word (R4: lane 0 is bits [7:0]). -/
def laneOf (w : W32) (n : Nat) : Byte := w.extractLsb' (8 * n) 8

/-- A word with byte lane n replaced. -/
def setLane (w : W32) (n : Nat) (b : Byte) : W32 :=
  (w &&& ~~~ (0xFF#32 <<< (8 * n))) ||| (b.setWidth 32 <<< (8 * n))

/-- The word of four bytes, lowest lane first. -/
def wordOfBytes (b0 b1 b2 b3 : Byte) : W32 := b3 ++ b2 ++ b1 ++ b0

/-- The four bytes of a word, lowest lane first. -/
def bytesOfWord (w : W32) : List Byte := [laneOf w 0, laneOf w 1, laneOf w 2, laneOf w 3]

/-- The bytes of a list of words, each little-endian (R4). -/
def bytesOfWords (ws : List W32) : List Byte := ws.flatMap bytesOfWord

/-- Byte i of a list, 0 past its end. -/
def byteAt (bs : List Byte) (i : Nat) : Byte := bs.getD i 0#8

/-- The little-endian number of n bytes of a list from offset i (R4). -/
def leNat (bs : List Byte) (i : Nat) : Nat → Nat
  | 0 => 0
  | n + 1 => (byteAt bs i).toNat + 256 * leNat bs (i + 1) n

/-- The little-endian word at byte offset i. -/
def leWord (bs : List Byte) (i : Nat) : W32 := BitVec.ofNat 32 (leNat bs i 4)

/-- The n little-endian bytes of a number. -/
def natBytes (v : Nat) : Nat → List Byte
  | 0 => []
  | n + 1 => BitVec.ofNat 8 v :: natBytes (v / 256) n

/-- The words of a byte list, the last padded with zero bytes. -/
def wordsOfBytes : List Byte → List W32
  | [] => []
  | b0 :: b1 :: b2 :: b3 :: r => wordOfBytes b0 b1 b2 b3 :: wordsOfBytes r
  | [b0, b1, b2] => [wordOfBytes b0 b1 b2 0#8]
  | [b0, b1] => [wordOfBytes b0 b1 0#8 0#8]
  | [b0] => [wordOfBytes b0 0#8 0#8 0#8]

/-- The signed value of a 32-bit payload. -/
def sval (w : W32) : Int := w.toInt

/-- Whether an integer fits a signed 32-bit payload. -/
def fits32 (i : Int) : Bool := -2147483648 ≤ i && i ≤ 2147483647

/-- An integer kept modulo 2^32. -/
def wrap32 (i : Int) : W32 := BitVec.ofInt 32 i

/-- An integer saturated to a signed 32-bit payload (R98). -/
def sat32 (i : Int) : W32 :=
  if 2147483647 < i then 0x7FFFFFFF#32 else if i < -2147483648 then 0x80000000#32 else BitVec.ofInt 32 i

/-- TIME a is before TIME b (R79): (b - a) modulo 2^32, read as a signed number, is positive. -/
def before (a b : W32) : Bool := 0 < (b - a).toInt

end Sys2Proof.Machine
end

