-- ==== Sys2Proof/Machine/Tab.lean ====
section
/-! DEFINITION. Operations on the sparse tables that State is built from: a table lists, by rising number, the entries that
were written; a number without an entry stands for the default its reader names. -/
namespace Sys2Proof

/-- Entry k, or the default d. -/
def Tab.find {α : Type} (d : α) : Tab α → Nat → α
  | [], _ => d
  | (j, v) :: t, k => if j = k then v else Tab.find d t k

/-- The table with entry k set to v. -/
def Tab.put {α : Type} (t : Tab α) (k : Nat) (v : α) : Tab α :=
  match t with
  | [] => [(k, v)]
  | (j, w) :: r => if k < j then (k, v) :: (j, w) :: r else if k = j then (k, v) :: r else (j, w) :: Tab.put r k v

/-- The table without entry k. -/
def Tab.drop {α : Type} (t : Tab α) (k : Nat) : Tab α :=
  t.filter (fun e => e.1 != k)

/-- Entry k replaced by f of what it is, or of the default. -/
def Tab.modify {α : Type} (d : α) (t : Tab α) (k : Nat) (f : α → α) : Tab α :=
  Tab.put t k (f (Tab.find d t k))

/-- The table with a list of entries set one after another. -/
def Tab.putAll {α : Type} (t : Tab α) : List (Nat × α) → Tab α
  | [] => t
  | (k, v) :: r => Tab.putAll (Tab.put t k v) r

end Sys2Proof
end

