-- ==== Sys2Proof/Machine/Mem.lean ====
section
/-! DEFINITION. The memory cells of the part (DESIGN CHOICE, log entry 4): one list of (key, byte) pairs in canonical form for bent SRAM, Deck
SRAM, code store and DDR5. A word at device word address w has its payload lanes at keys 8w to 8w+3 and its tag at 8w+4; a
DDR5 byte has the key 2^40 + region × 2^29 + byte (R270). -/
namespace Sys2Proof.Machine

/-- First Deck SRAM word (R70). -/
def deckBase : Nat := 0x01000000
/-- First code store word (R70). -/
def codeBase : Nat := 0x02000000
/-- First word of the global view of bent SRAM (R33, R70). -/
def bentBase : Nat := 0x04000000
/-- The key of the first DDR5 byte (DESIGN CHOICE, log entry 4). -/
def ddrKeyBase : Nat := 2 ^ 40

/-- A Deck SRAM word address (R70). -/
def isDeck (w : Nat) : Bool := decide (0x01000000 ≤ w) && decide (w < 0x01800000)
/-- A code store word address (R70). -/
def isCode (w : Nat) : Bool := decide (0x02000000 ≤ w) && decide (w < 0x02800000)
/-- A word address in the global view of the bent SRAMs (R70). -/
def isBentSram (w : Nat) : Bool := decide (0x04000000 ≤ w) && decide (w < 0x04800000)
/-- A device register word address (R70). -/
def isDevReg (w : Nat) : Bool := decide (0x08000000 ≤ w) && decide (w < 0x09000000)
/-- A word address of the Viaduct remote window (R70). -/
def isViaduct (w : Nat) : Bool := decide (0x10000000 ≤ w) && decide (w < 0x20000000)
/-- A word address of the DDR5 window (R70). -/
def isDdrWin (w : Nat) : Bool := decide (0x80000000 ≤ w) && decide (w < 0x100000000)

/-- What an unlisted key reads as (DESIGN CHOICE, log entry 4): an erased code store reads FFFF_FFFFh (R257); SRAM reads payload 0 with tag
E0h (R249, R250); DDR5 reads 0 (R279). -/
def memDefault (k : Nat) : Byte :=
  if ddrKeyBase ≤ k then 0#8
  else if isCode (k / 8) then 0xFF#8
  else if k % 8 = 4 then 0xE0#8 else 0#8

/-- The byte at a key. -/
def Memory.get : List Host.Cell → Nat → Byte
  | [], k => memDefault k
  | (a, b) :: t, k => if k < a then memDefault k else if a = k then b else Memory.get t k

/-- The cells with the byte at key k set to v, in canonical form. -/
def Memory.set (m : List Host.Cell) (k : Nat) (v : Byte) : List Host.Cell :=
  match m with
  | [] => if v = memDefault k then [] else [(k, v)]
  | (a, b) :: t =>
    if k < a then (if v = memDefault k then (a, b) :: t else (k, v) :: (a, b) :: t)
    else if a = k then (if v = memDefault k then t else (k, v) :: t)
    else (a, b) :: Memory.set t k v

/-- Keys from lo on, strictly rising, none holding what an unlisted key reads as. -/
def Memory.wfFrom (lo : Nat) : List Host.Cell → Bool
  | [] => true
  | (a, b) :: t => decide (lo ≤ a) && decide (b ≠ memDefault a) && Memory.wfFrom (a + 1) t

/-- The canonical form of the cells. -/
def Memory.wf (m : List Host.Cell) : Bool := Memory.wfFrom 0 m

/-- The cells with every key of [lo, hi) back at what an unlisted key reads as. -/
def Memory.clear (m : List Host.Cell) (lo hi : Nat) : List Host.Cell :=
  m.filter (fun c => decide (c.1 < lo) || decide (hi ≤ c.1))

/-- The stored word at device word address w. -/
def Memory.word (m : List Host.Cell) (w : Nat) : Word :=
  { pay := wordOfBytes (Memory.get m (8 * w)) (Memory.get m (8 * w + 1)) (Memory.get m (8 * w + 2)) (Memory.get m (8 * w + 3)),
    tag := Memory.get m (8 * w + 4) }

/-- The code store word at address w: payload with tag RAW (R70, R257). -/
def Memory.code (m : List Host.Cell) (w : Nat) : Word :=
  { pay := (Memory.word m w).pay, tag := 0#8 }

/-- One change of the cells: some lanes of a word and, where tagWr, its tag (R217); one byte; a range back to its initial
contents. -/
inductive MemOp where
  | word (w : Nat) (lanes : BitVec 4) (tagWr : Bool) (x : Word)
  | byte (k : Nat) (v : Byte)
  | clear (lo hi : Nat)
deriving DecidableEq, Repr

/-- A byte set where a mask bit says so. -/
def Memory.setIf (m : List Host.Cell) (c : Bool) (k : Nat) (v : Byte) : List Host.Cell :=
  if c then Memory.set m k v else m

/-- The cells after one change. -/
def MemOp.apply (m : List Host.Cell) : MemOp → List Host.Cell
  | .word w lanes tagWr x =>
    let m0 := Memory.setIf m (lanes.getLsbD 0) (8 * w) (laneOf x.pay 0)
    let m1 := Memory.setIf m0 (lanes.getLsbD 1) (8 * w + 1) (laneOf x.pay 1)
    let m2 := Memory.setIf m1 (lanes.getLsbD 2) (8 * w + 2) (laneOf x.pay 2)
    let m3 := Memory.setIf m2 (lanes.getLsbD 3) (8 * w + 3) (laneOf x.pay 3)
    Memory.setIf m3 tagWr (8 * w + 4) x.tag
  | .byte k v => Memory.set m k v
  | .clear lo hi => Memory.clear m lo hi

/-- The cells after a list of changes, first to last. -/
def applyAll (m : List Host.Cell) : List MemOp → List Host.Cell
  | [] => m
  | o :: r => applyAll (o.apply m) r

/-- A whole word written, payload and tag. -/
def MemOp.whole (w : Nat) (x : Word) : MemOp := .word w 0xF#4 true x

end Sys2Proof.Machine
end

