-- ==== Sys2Proof/Config.lean ====
section
/-! DEFINITION. The free values of the model: constants without a body, so that nothing in Lean can evaluate one or prove a
value of it. Each stands where the spec leaves a value open, or where it names an outside standard (SHA-512, Ed25519,
ML-DSA-65) or a measurement of silicon. -/
namespace Sys2Proof.Config

/-- A fresh open 32-bit value, applied to State's counter freeCtr (DESIGN CHOICE, log entry 11). -/
opaque freeWord : Nat → BitVec 32
/-- A fresh open choice among alternatives the spec leaves open (DESIGN CHOICE, log entry 11). -/
opaque freeNat : Nat → Nat
/-- The SHA-512 of a byte string (R452 names the standard; the spec does not define it; DESIGN CHOICE, log entry 10). -/
opaque sha512 : List Byte → BitVec 512
/-- Ed25519 verification of a signature over a digest (R452, RFC 8032; DESIGN CHOICE, log entry 10): key, signature, message. -/
opaque edVerify : List Byte → List Byte → BitVec 512 → Bool
/-- ML-DSA-65 verification of a signature over a digest (R452, FIPS 204; DESIGN CHOICE, log entry 10): key, signature, message. -/
opaque mlVerify : List Byte → List Byte → BitVec 512 → Bool
/-- The part's Ed25519 signature over a digest (R463; DESIGN CHOICE, log entry 10), 64 bytes numbered from 0. -/
opaque edSign : BitVec 512 → Nat → Byte
/-- The part's ML-DSA-65 signature over a digest (R463; DESIGN CHOICE, log entry 10), 3,309 bytes numbered from 0. -/
opaque mlSign : BitVec 512 → Nat → Byte
/-- Entry P[a][b] of a unit-table image whose payload words are given: the spec gives the image's content no layout
(DESIGN CHOICE, log entry 16). -/
opaque unitEntry : List W32 → Nat → Nat → BitVec 5

/-- The version of a firmware image whose words are given: the spec gives the firmware's content no layout (DESIGN CHOICE, log entry 16). -/
opaque fwVersion : List W32 → W32

/-- The public key pair (Ed25519, ML-DSA-65) behind a vendor root slot's two hashes: OTP holds the hashes alone (R456; DESIGN CHOICE, log
entry 10). -/
opaque rootKey : BitVec 512 × BitVec 512 → List Byte × List Byte

/-- A word of a spare record copy with a sequence number: the spec gives its content no layout (R260, R261; DESIGN CHOICE, log entry 16). -/
opaque spareWord : Nat → Nat → W32

/-- The DRAM row in which a line of a channel lies: the mapping is the controller's own (R270; DESIGN CHOICE, log entry 114). -/
opaque ddrRow : Nat → Nat → Nat

/-- The I3C provisional ID derived from the Device Serial Number (R329; DESIGN CHOICE, log entry 117). -/
opaque i3cPid : BitVec 64 → BitVec 48

/-- Rising edges of a PLUMB signal between two clock readings, of those signals that no state of the part shows (R496; DESIGN CHOICE, log
entry 124). -/
opaque plbEdges : Nat → Nat → Nat → Nat

/-- What a write through DBG_KS does to Keystone's run: some true halts it, some false lets it run, none does neither. The spec gives Keystone's
internal registers no layout (R494; DESIGN CHOICE, log entry 34): address, data. -/
opaque ksHalt : BitVec 32 → BitVec 32 → Option Bool

end Sys2Proof.Config
end

