-- ==== Sys2Proof/Machine/State.lean ====
section
/-! DEFINITION. State as plain data: everything the spec gives the part, the queue of waiting commands, the outcomes' reasons,
and State.reset. Sparse tables (Tab) list entries in rising order of
their keys; an unlisted entry is the default its accessor names (Machine/Ops.lean). -/
namespace Sys2Proof.Machine

/-- Why the model stops with a fault. -/
inductive Fault where
  /-- Raised by no meaning: the part's own faults are state (15_faults_and_reactions.md), and every row has an effect. Safe. -/
  | unreachable
deriving DecidableEq, Repr

/-- Why the model has no meaning for a command. -/
inductive Refusal where
  /-- Raised by an arm of exec whose command has no meaning yet; names its mnemonic. Safe: nothing is claimed of it. -/
  | notModelled (mnemonic : String)
deriving DecidableEq, Repr

/-! ### Cores (02, 04) -/

/-- State of a logical slot (R28, BENT_CORESTAT). -/
inductive Status where | gated | waiting | running | stopped
deriving DecidableEq, Repr, Inhabited

/-- The program status register (R43); MODE is `compact`. -/
structure Psr where
  curPri : Byte := 0xFF#8
  paced : Bool := false
  compact : Bool := false
  t : Bool := false
  i : Bool := true
  n : Bool := false
  z : Bool := false
  v : Bool := false
  c : Bool := false
deriving DecidableEq, Repr, Inhabited

/-- A frame of the frame stack (R82): PC, PSR, g28 to g31, and the CORE_WAKE its return restores (R80), with the class of the
entry it resumes (R222) and the source that entry serves (R203). -/
structure Frame where
  pc : W32
  psr : Psr
  g28 : Word
  g29 : Word
  g30 : Word
  g31 : Word
  wake : W32
  cls : BitVec 2
  serving : Option SrcId
deriving DecidableEq, Repr, Inhabited

/-- The trap record (R65). -/
structure TrapRec where
  valid : Bool := false
  split : Bool := false
  opnd : BitVec 2 := 0#2
  detail : BitVec 4 := 0#4
  cause : BitVec 4 := 0#4
  pc : W32 := 0#32
  addr : W32 := 0#32
  tagA : Byte := 0#8
  tagB : Byte := 0#8
  tagRes : Byte := 0#8
deriving DecidableEq, Repr, Inhabited

/-- An entry in progress: its source, whether it pushed a frame, the TIME of acceptance (R144 to R146). -/
structure EntryRec where
  src : SrcId
  pushed : Bool
  accept : W32
deriving DecidableEq, Repr, Inhabited

/-- Where a load writes its data (R110, R121): a word, a byte lane, or a pair from one word or from two. -/
inductive LoadDest where
  | word (rd : Reg)
  | byte (rd : Reg) (lane : BitVec 2)
  | pair (pd : Reg) (lane : BitVec 2)
deriving DecidableEq, Repr, Inhabited

/-- A load whose data has not returned (R132): its place in program order, its transaction, its destination, the instruction's PC, the address a trap
reports; dead when R142 killed it. -/
structure LoadEntry where
  seq : Nat
  txn : Nat
  dest : LoadDest
  pc : W32
  addr : W32
  dead : Bool
deriving DecidableEq, Repr, Inhabited

/-- A buffered store (R132, R138): its parts (two for a split), its class, its transaction once sent, the instruction's PC and
the address a trap reports; dead when a MEM_ERROR of an older instruction keeps it from being sent again (R246). -/
structure StoreEntry where
  seq : Nat
  parts : List WordPart
  tagOnly : Bool
  cls : BitVec 2
  txn : Option Nat
  pc : W32
  addr : W32
  dead : Bool := false
deriving DecidableEq, Repr, Inhabited

/-- The divide in EX (R141): its registers, its result, and whether a younger instruction has completed (R142), and which
of N, Z, V and C no younger instruction has written (R131). -/
structure DivEntry where
  seq : Nat
  rd : Reg
  ra : Reg
  rb : Reg
  res : Word
  v : Bool
  pc : W32
  flagsLive : BitVec 4
  younger : Bool
deriving DecidableEq, Repr, Inhabited

/-- A logical core with its tracker, fetch structures and counters; `vecReq` holds the lines on their way into vector line registers, with the
instants of their requests (R133, R472); `serving` is its own record of the source it serves (R203). -/
structure Core where
  status : Status := .gated
  regs : Tab Word := []
  psr : Psr := {}
  pc : W32 := 0#32
  frames : List Frame := []
  trap : TrapRec := {}
  winMask : BitVec 16 := 0#16
  cmptBase : W32 := 0#32
  wake : W32 := 0#32
  cls : BitVec 2 := 0#2
  serving : Option SrcId := none
  issued : Nat := 0
  entry : Option EntryRec := none
  loads : List LoadEntry := []
  stores : List StoreEntry := []
  div : Option DivEntry := none
  lineBuf : List (Nat × BitVec 16) := []
  btb : List (W32 × W32) := []
  vecLines : List (Nat × BitVec 16) := []
  vecReq : List (Nat × Nat) := []
  curLine : Option (Nat × BitVec 16) := none
  nextLine : Option (Nat × BitVec 16) := none
  reqLine : Option (Nat × Nat) := none
  deckDly : BitVec 16 := 0#16
  refTrans : BitVec 16 := 0#16
  refRetries : BitVec 16 := 0#16
  deckNp : BitVec 16 := 0#16
  waitSince : Nat := 0
deriving DecidableEq, Repr, Inhabited

/-! ### Bent interrupt unit (06) -/

/-- States of a BIU source (R198). -/
inductive SrcState where
  | idle | held | pending
  | offered (slot : SlotId)
  | entering (slot : SlotId)
  | claimed (slot : SlotId)
deriving DecidableEq, Repr, Inhabited

/-- A BIU source: BIU_SRCn, BIU_VECn, its state, its level or latch, its stamp, the first event since its claim, whether it has become
eligible again since then (R169), and the group that holds it while it is HELD (R209, R212). -/
structure Src where
  en : Bool := false
  wake : Bool := false
  cge : Bool := false
  cg : BitVec 4 := 0#4
  mask : BitVec 16 := 0#16
  pri : Byte := 0#8
  vec : W32 := 0#32
  st : SrcState := .idle
  level : Bool := false
  stamp : BitVec 64 := 0#64
  after : Option (BitVec 64) := none
  again : Bool := false
  heldIn : BitVec 4 := 0#4
deriving DecidableEq, Repr, Inhabited

/-- An entry of a slot's priority stack (R202), with the stamp of its claim. -/
structure StkEnt where
  src : SrcId
  pri : Byte
  stamp : BitVec 64
deriving DecidableEq, Repr, Inhabited

/-- A coalescing group (R209, BIU_CGCTL, BIU_CGSTAT). -/
structure Group where
  ten : Bool := false
  limit : BitVec 16 := 1#16
  count : Byte := 1#8
  collect : Bool := false
  byTime : Bool := false
  events : Byte := 0#8
  effCount : Byte := 1#8
deriving DecidableEq, Repr, Inhabited

/-- An alarm comparator (R208). -/
structure Alarm where
  mode : BitVec 2 := 0#2
  armed : Bool := false
  cgHeld : Bool := false
  cgOwn : BitVec 4 := 0#4
  wsrc : Byte := 0#8
  cmp : W32 := 0#32
  per : W32 := 0#32
  missed : BitVec 16 := 0#16
deriving DecidableEq, Repr, Inhabited

/-- The bent interrupt unit. -/
structure Biu where
  preMargin : Byte := 0#8
  src : Tab Src := []
  prioStacks : Tab (List StkEnt) := []
  bad : BitVec 16 := 0#16
  undeliv : BitVec 192 := 0#192
  spurLast : Byte := 0#8
  spurCount : BitVec 16 := 0#16
  groups : Tab Group := []
  alarms : Tab Alarm := []
deriving DecidableEq, Repr, Inhabited

/-! ### Scribe agent (05) -/

/-- A slack-meter entry (R169): the declaration, its counts, whether the iteration in progress has missed, the worst elapsed time of the
iterations that ended in the control period in progress, and the moment at which an iteration that a RETI left without a boundary became
eligible (R86, R167). -/
structure Slack where
  valid : Bool := false
  safety : Bool := false
  paced : Bool := false
  source : SrcId := 0#8
  deadline : W32 := 0#32
  worst : W32 := 0#32
  ovr : BitVec 16 := 0#16
  miss : BitVec 16 := 0#16
  missed : Bool := false
  accWorst : W32 := 0#32
  accRan : Bool := false
  opened : Option (BitVec 64) := none
deriving DecidableEq, Repr, Inhabited

/-- What the agent proposes (R188). -/
inductive Proposal where
  | none
  | swap (pslot : BitVec 5)
  | migrate (entry : BitVec 2) (lslot : SlotId)
deriving DecidableEq, Repr, Inhabited

/-- The Scribe agent of a bent (R190) with the counts its law keeps; `ageing` is SCR_COND.AGEING with 24 more fraction bits (DEDUCED, log
entry 21); `short` and `strayed` are the levels behind its BUDGET_SHORT and REG_FAULT raises (R438). -/
structure Scribe where
  period : Byte := 0x0A#8
  pmargin : Byte := 0x20#8
  margin : Byte := 0x20#8
  policy : BitVec 2 := 0#2
  fixed : BitVec 7 := 0x64#7
  floor : BitVec 7 := 0x14#7
  held : Bool := false
  unable : Bool := false
  slew : Bool := false
  actual : BitVec 7 := 0x32#7
  grant : BitVec 7 := 0x32#7
  target : BitVec 7 := 0x32#7
  request : BitVec 7 := 0x32#7
  k : BitVec 16 := 0x8000#16
  ageing : BitVec 40 := 0x8000000000#40
  ageingKnown : Bool := false
  ageNoticed : Bool := false
  meGrade : BitVec 4 := 8#4
  exGrade : BitVec 4 := 8#4
  meDly : BitVec 4 := 8#4
  exDly : BitVec 4 := 8#4
  late : BitVec 16 := 0#16
  near : BitVec 16 := 0#16
  tier : BitVec 2 := 2#2
  hcount : BitVec 16 := 0#16
  utilEntry : BitVec 2 := 0#2
  utilSlot : SlotId := 0#4
  utilU : BitVec 16 := 0#16
  propose : Proposal := .none
  pest : BitVec 16 := 0#16
  curve : Tab (BitVec 16 × BitVec 16) := []
  slack : Tab Slack := []
  underrun : Tab (BitVec 16) := []
  unableStreak : Nat := 0
  inRange : Nat := 0
  quiet : Nat := 0
  startHold : Nat := 0
  noLower : Nat := 0
  window : List (List (Nat × Nat)) := []
  windowNow : List (Nat × Nat) := []
  short : Bool := false
  strayed : Bool := false
deriving DecidableEq, Repr, Inhabited

/-! ### SRAM and bents (01, 02, 08) -/

/-- An SRAM bank's counts, spare rows used, log of the last rows with errors and their bit positions, rows under repair (the
first in progress) and rows repaired (R253, R256); the number of the scrub pass and the words that it has read (R251). -/
structure Bank where
  ce : BitVec 16 := 0#16
  ue : Byte := 0#8
  used : Byte := 0#8
  log : List (Nat × List Nat) := []
  repairing : List Nat := []
  repaired : List Nat := []
  pass : Nat := 0
  scrubbed : List Nat := []
deriving DecidableEq, Repr, Inhabited

/-- The MEM_ registers of one SRAM (R256). -/
structure Sram where
  scrub : Byte := 8#8
  scren : Bool := true
  ceShift : BitVec 4 := 8#4
  errAddr : W32 := 0#32
  ueValid : Bool := false
  ueBank : BitVec 3 := 0#3
  kind : BitVec 4 := 0#4
  req : ReqId := 0#12
  banks : Tab Bank := []
deriving DecidableEq, Repr, Inhabited

/-- A switch entry (R468, R486), with the moment of its arming (R470); `back` while its source has been OFFERED or ENTERING since the arming, and
a return to PENDING is its switch point (R468). -/
structure Switch where
  armed : Bool := false
  since : Nat := 0
  back : Bool := false
  kind : Bool := false
  src : SrcId := 0#8
  vec : W32 := 0#32
deriving DecidableEq, Repr, Inhabited

/-- The pace generator of a bent (R150, R151). -/
structure Pace where
  rate : BitVec 3
  t0 : BitVec 64
  holder : SlotId
deriving DecidableEq, Repr, Inhabited

/-- A bent's shared state. -/
structure Bent where
  phys : Tab (BitVec 5) := []
  seq : Byte := 0#8
  spareFree : Bool := true
  retired : BitVec 17 := 0#17
  unitId : W32 := 0#32
  upt : Tab (BitVec 5) := []
  winBase : Tab W32 := []
  winLim : Tab W32 := []
  winPerm : W32 := 0#32
  ddrWin : Tab W32 := []
  inspSel : BitVec 4 := 0#4
  lineCache : List (Nat × BitVec 16) := []
  fills : List (Nat × BitVec 2) := []
  pace : Option Pace := none
  biu : Biu := {}
  scr : Scribe := {}
  sw : Tab Switch := []
  migIn : BitVec 16 := 0#16
  updates : BitVec 16 := 0#16
  lastGap : W32 := 0#32
  sram : Sram := {}
  asleep : Bool := false
deriving DecidableEq, Repr, Inhabited

/-! ### Spans, Deck, code store, DDR5 (07, 08) -/

/-- A span-hub target's registers (R239). -/
structure Target where
  high : BitVec 6 := 0x30#6
  peak : BitVec 7 := 0#7
  refs : W32 := 0#32
  dlys : W32 := 0#32
deriving DecidableEq, Repr, Inhabited

/-- A span: DECK_, MEM_ of its Deck SRAM slice, CST_ of its code store slice, the central SCR_ registers, and the side store of its queue
engine: the word offsets of the slice whose item-start bit is 1 (R282). -/
structure Span where
  starve : Byte := 0x14#8
  starveReq : ReqId := 0#12
  starveCnt : BitVec 16 := 0#16
  targets : Tab Target := []
  sram : Sram := {}
  cstSpares : BitVec 16 := 0x0800#16
  cstCe : BitVec 16 := 0#16
  cstUe : BitVec 16 := 0#16
  cstErrAddr : W32 := 0#32
  pacedBank : Byte := 0#8
  slots : Tab CoreId := []
  bankSpares : Tab Nat := []
  spanHeld : BitVec 16 := 0#16
  spanUnable : BitVec 16 := 0#16
  starts : List Nat := []
  asleep : Bool := false
deriving DecidableEq, Repr, Inhabited

/-- A CHANNEL cell between two domains (R304): the transactions in its buffer, first in first out, and the counts of entries written and
read; the width of the counts is not stated (DESIGN CHOICE, log entry 108). -/
structure Channel where
  entries : List Nat := []
  written : Nat := 0
  taken : Nat := 0
deriving DecidableEq, Repr, Inhabited

/-- What an EVT brings its source (R217, R293): an occurrence, the level of a held source, or the completion of an item. -/
inductive EvtKind where
  | event
  | level (v : Bool)
  | item
deriving DecidableEq, Repr, Inhabited

/-- Who waits for a transaction's response. -/
inductive Origin where
  | load (c : CoreId)
  | store (c : CoreId)
  | signal (c : CoreId)
  | hostWrite (p : Port)
  | hostRead (p : Port) (tags : Bool)
  | viaduct (p : ViaPort) (unit : BitVec 4) (req : ReqId) (tag : Byte)
  | fill (b : BentId) (line : Nat)
  | paced (c : CoreId) (line : Nat)
  | keystone (src : CmdSrc)
  | copy (src : CmdSrc)
  | move (loop : BitVec 16)
  | engine
  | sequencer
  | debug
  | discard
deriving DecidableEq, Repr, Inhabited

/-- Where a transaction stands: waiting for a free tracker entry of its requester (R235); at the arbiter of hop k of its route (R224); in
its target's input buffer; waiting out a refusal; on its way over the Viaduct; or answered with the response still to arrive. -/
inductive TxnSt where
  | queued
  | path (hop : Nat)
  | sent
  | backoff (until_ : Nat)
  | remote
  | answered (r : Resp)
deriving DecidableEq, Repr, Inhabited

/-- A Deck transaction in flight (R217). `ev` is an EVT's bent and source, `evKind` what it brings; `ddr` a DDR5 access's region and word offset;
`dest` the chain unit of one that leaves the part; `overfull` whether it reached its target at or above the threshold (R228, R229);
`passed` and `passedBy` the grants made while it waits, and to whom (R224, R225). -/
structure Txn where
  id : Nat
  req : ReqId
  cls : BitVec 2
  paced : Bool
  ty : TxnType
  addr : W32
  count : Nat
  parts : List WordPart
  ev : Option (BentId × SrcId)
  evKind : EvtKind
  ddr : Option (Nat × Nat)
  dest : Option (BitVec 4)
  origin : Origin
  st : TxnSt
  refusals : Nat
  delayed : Bool
  overfull : Bool
  starved : Bool
  passed : Nat
  passedBy : List ReqId
  since : Nat
deriving DecidableEq, Repr, Inhabited

/-- Counters of a centre requester (R238). -/
structure CentreReq where
  dly : W32 := 0#32
  trans : BitVec 16 := 0#16
  retries : BitVec 16 := 0#16
  np : BitVec 16 := 0#16
deriving DecidableEq, Repr, Inhabited

/-- Phases of a line write in the write sequencer (R264). -/
inductive WsPhase where | idle | sending | writing | invalidating
deriving DecidableEq, Repr, Inhabited

/-- The code-store write sequencer (R264, R267). -/
structure WriteSeq where
  buf : Tab W32 := []
  addr : W32 := 0#32
  phase : WsPhase := .idle
  erase : Bool := false
  tries : BitVec 4 := 0#4
  result : BitVec 3 := 0#3
  remap : Bool := false
  line : Nat := 0
  words : List W32 := []
  remaps : List Nat := []
deriving DecidableEq, Repr, Inhabited

/-- A DDR5 controller (R280); the rows due for soft repair, the number of the patrol pass, and the rows and lines in which it has seen corrected
errors (R278), the lines read in its pass; `powerDown` in P1 until the first request (R425), `untrained` after P3 until the wake trains the channel
again (R419, R434). -/
structure Ddr where
  cfg : W32 := 0#32
  ready : Bool := false
  failed : Bool := false
  selfRef : Bool := false
  tagInit : List Nat := []
  temp : Byte := 0#8
  ce : W32 := 0#32
  ue : BitVec 16 := 0#16
  errAddr : BitVec 37 := 0#37
  ueValid : Bool := false
  errLoc : BitVec 7 := 0#7
  errReq : ReqId := 0#12
  scrubHours : Byte := 0x18#8
  scrubEn : Bool := true
  soft : BitVec 16 := 0#16
  pend : Byte := 0#8
  tcMiss : BitVec 16 := 0#16
  tcHit : BitVec 16 := 0#16
  tcHitSub : Byte := 0#8
  tcMissSub : Byte := 0#8
  tagCache : List Nat := []
  regattr : BitVec 256 := 0#256
  tagFill : BitVec 256 := 0#256
  rows : List Nat := []
  due : List Nat := []
  pass : Nat := 0
  seen : List (Nat × Nat) := []
  patrolled : List Nat := []
  pmic : Tab Byte := []
  powerDown : Bool := false
  untrained : Bool := false
  asleep : Bool := false
deriving DecidableEq, Repr, Inhabited

/-- A bent's slot map, SEQ, SPAREFREE, RETIRED and AGEING as the spare record holds them. -/
structure SpareMap where
  bent : Nat
  phys : Tab (BitVec 5)
  seq : Byte
  spareFree : Bool
  retired : BitVec 17
  ageing : Option (BitVec 16)
deriving DecidableEq, Repr, Inhabited

/-- A copy of the spare record (R261): whether its digest matches, its sequence number; per bent the slot map with SEQ, SPAREFREE, RETIRED and
AGEING, the repairs, the remaps, the bents out of service, the repair list. -/
structure SpareRec where
  good : Bool := true
  seq : Nat := 0
  maps : List SpareMap := []
  sramRows : List (SramRef × Nat × Nat) := []
  remaps : List Nat := []
  bentOut : BitVec 128 := 0#128
  ddrRows : List (Nat × Nat) := []
deriving DecidableEq, Repr, Inhabited

/-! ### Queues and crossings (09) -/

/-- A queue (R284 to R297). Offsets count words from the queue's creation, and a register shows them modulo its size; `ends`
holds the end offsets of the complete items not yet freed, oldest first, and `openLen` the words of the open item; `droppers` the
requesters whose PUSH and PUSHE are dropped (R289, R294). -/
structure Queue where
  en : Bool := false
  ledger : Bool := false
  safe : Bool := false
  safeLen : BitVec 3 := 0#3
  size : BitVec 4 := 0#4
  offset : BitVec 20 := 0#20
  biuEn : Bool := false
  bent : BentId := 0#7
  src : BitVec 6 := 0#6
  level : BitVec 16 := 0#16
  msiEn : Bool := false
  port : Bool := false
  ptagEn : Bool := false
  ptag : Byte := 0#8
  vec : BitVec 11 := 0#11
  opened : Bool := false
  ovr : Bool := false
  trunc : Bool := false
  intr : Bool := false
  owner : ReqId := 0#12
  droppers : List ReqId := []
  rl : Nat := 0
  mkOff : Nat := 0
  rd : Nat := 0
  wr : Nat := 0
  ends : List Nat := []
  openLen : Nat := 0
  ce : BitVec 16 := 0#16
  ue : BitVec 16 := 0#16
  flushing : Bool := false
  safeTag : W32 := 0#32
  safeW : Tab W32 := []
deriving DecidableEq, Repr, Inhabited

/-- The crossing registers of a receiving domain (R306); per EVENT line the events not yet acknowledged (R301, R302) and the sender's count
(R301); per VALUE line a level that the receiver has not accepted yet (R300, R305), and whether a cell waits for an agreeing pair, with the
timebase count that the receiver keeps meanwhile. -/
structure Xing where
  unstable : Bool := false
  ovr : Bool := false
  pulse : Bool := true
  hold : Bool := false
  ucount : Byte := 0#8
  ocount : Byte := 0#8
  lines : Tab Nat := []
  counts : Tab (BitVec 17) := []
  levels : Tab Bool := []
  grant : Option (BitVec 7 × Bool) := none
  frozen : Bool := false
  tb : Option (BitVec 64) := none
deriving DecidableEq, Repr, Inhabited

/-! ### Host ports, semaphore, commands (10, 11) -/

/-- The completion of up to 64 bytes of a host's read that is being gathered (R319): its transactions in the order of their addresses, the words
that have come, and whether one met an error (R320); `fixed` the words of a completion that no transaction brings (R325). -/
structure HostRead where
  ids : List Nat
  fixed : List Word := []
  got : Tab (List Word) := []
  ep : Bool := false
deriving DecidableEq, Repr, Inhabited

/-- A PCI Express endpoint or the I3C target in its place, with the port's command words and buffers; `aerHdr` the free values that stand for the
header which AER has logged (R310), `i3cRest` the words of a private write that R321 still holds (R329), `stale` the replies and the final results
still to come that are to be discarded: the unit, the SEQ, whether a final result (R372). -/
structure PortSt where
  b0host : Bool := false
  b4keep : Bool := false
  tagKeep : Bool := false
  b4base : BitVec 10 := 0#10
  hostRid : Option (BitVec 16) := none
  linkUp : Bool := false
  l1 : Bool := false
  l12 : Bool := false
  speed : BitVec 4 := 0#4
  width : BitVec 5 := 0#5
  errUr : Byte := 0#8
  errEp : Byte := 0#8
  errNp : Byte := 0#8
  errDrop : Byte := 0#8
  ptmEn : Bool := false
  ptmInt : BitVec 16 := 0x000A#16
  ptmOfs : Option (BitVec 64) := none
  ptmResid : BitVec 16 := 0#16
  ptmGood : Nat := 0
  ptmFails : Nat := 0
  cfg : Tab W32 := []
  pmState : BitVec 2 := 0#2
  aerUr : Bool := false
  aerEp : Bool := false
  aerHdr : Option Nat := none
  reads : List HostRead := []
  msixTab : Tab W32 := []
  pba : BitVec 2048 := 0#2048
  lastMsix : Option (BitVec 11) := none
  msixSent : Nat := 0
  lastIbi : Option Byte := none
  lastCpl : List Word := []
  lastCplUr : Bool := false
  lastCplEp : Bool := false
  i3cAddr : Option (BitVec 7) := none
  i3cOff : BitVec 16 := 0#16
  i3cRest : List (Nat × W32) := []
  reqBuf : Tab W32 := []
  repBuf : Tab W32 := []
  busy : Bool := false
  done : Bool := false
  arun : Bool := false
  adone : Bool := false
  drops : BitVec 16 := 0#16
  aseq : W32 := 0#32
  ares : W32 := 0#32
  aelap : W32 := 0#32
  dbAt : Nat := 0
  fwdTo : Option (BitVec 4) := none
  fwdAt : Nat := 0
  stale : List (BitVec 4 × W32 × Bool) := []
deriving DecidableEq, Repr, Inhabited

/-- SEM_STAT of a port (R334). -/
structure SemStat where
  result : BitVec 3 := 0#3
  forced : Bool := false
  why : BitVec 2 := 0#2
  refusals : BitVec 16 := 0#16
deriving DecidableEq, Repr, Inhabited

/-- The port semaphore (R331 to R334); `expiry` is the instant the lease runs out, in ticks of clk. `grantTick` notes the tick of the last grant
of a free semaphore; `lateAcq` an acquisition refused because the other port held it: its tick, port and lease, and the port's SEM_STAT
before; `lapsed` a lease that ran out: its tick, port and length, and the port's SEM_STAT before (R332). -/
structure Sem where
  holder : Option Port := none
  lease : BitVec 16 := 0#16
  expiry : Nat := 0
  loser : Port := .a
  grantTick : Option (Nat × Port) := none
  lateAcq : Option (Nat × Port × BitVec 16 × SemStat) := none
  lapsed : Option (Nat × Port × BitVec 16 × SemStat) := none
  statA : SemStat := {}
  statB : SemStat := {}
deriving DecidableEq, Repr, Inhabited

/-- A region entry of a LOOP_BIND (R356). -/
structure Region where
  ddr : Bool
  num : BitVec 4
  perm : BitVec 3
  base : W32
  limit : W32
deriving DecidableEq, Repr, Inhabited

/-- A bound loop (R355, R357). `inIter`: a claim of its trigger began an iteration that no boundary has ended (R86). -/
structure Loop where
  num : BitVec 16
  image : W32
  entry : W32
  core : CoreId
  compact : Bool
  t : Bool
  paced : Bool
  safety : Bool
  cls : BitVec 2
  wake : Bool
  rate : BitVec 3
  trigger : SrcId
  pri : Byte
  cgroup : Option (BitVec 4)
  comp : Option (BitVec 5)
  slack : Option (BitVec 2)
  pslot : Option (BitVec 4)
  period : W32
  deadline : W32
  unitId : W32
  sbase : BitVec 16
  slen : BitVec 17
  cmpt : W32
  regions : List Region
  heldStop : Bool := false
  inIter : Bool := false
deriving DecidableEq, Repr, Inhabited

/-- An image on Keystone's lists (R413): address, length in bytes, digest, type, entry, and whether it was verified since BOOT. -/
structure Image where
  addr : W32
  len : Nat
  type : Byte
  entry : W32
  verified : Bool
  digest : BitVec 512 := 0#512
deriving DecidableEq, Repr, Inhabited

/-- What an ACCEPTED command still waits for (R346); `undo` is a migration that ended unfinished, whose target still has to give back
what step 1 of R475 gave it. -/
inductive JobKind where
  | modeSet (target : BitVec 3)
  | loopLoad (image : W32)
  | loopStart (loop : BitVec 16) (start : W32)
  | loopStop (loop : BitVec 16) (unbind : Bool)
  | migrate (loop : BitVec 16) (target : Loop) (started : Bool) (gapFrom : Option W32)
  | undo (target : Loop)
  | update (loop : BitVec 16) (image : W32)
  | secImage (image : W32) (type : Byte) (activate : Bool)
  | viaEnum
  | remote (unit : BitVec 4)
  | spareSwap (b : BentId) (pslot : BitVec 5) (free : BitVec 5) (lslot : SlotId)
deriving DecidableEq, Repr, Inhabited

/-- A command that answered ACCEPTED and has not ended: when its doorbell was rung, what it waits for and since when, its delayed accesses. -/
structure Job where
  src : CmdSrc
  seq : W32
  noVec : Bool
  start : Nat
  kind : JobKind
  late : Nat := 0
  since : Nat := 0
deriving DecidableEq, Repr, Inhabited

/-- A slot of the forward buffer (R392): the forwarded request. -/
structure FwdSlot where
  unit : BitVec 4
  port : Port
  req : Tab W32
  at_ : Nat
deriving DecidableEq, Repr, Inhabited

/-- An image on its way from Deck SRAM into code store (R354, R367): the command behind it, its staged words, its first line's word address, its
length in bytes, the lines written; the reads of the next line's staged words, in the order of their addresses, and what they brought. -/
structure Copy where
  src : CmdSrc
  stage : Nat
  dest : Nat
  len : Nat
  next : Nat
  asked : List Nat := []
  got : Tab (List Word) := []
deriving DecidableEq, Repr, Inhabited

/-- The state block of a loop that moves (R475 step 4): the loop, the words copied so far, the transaction under way and the words that it has
read, and the fault source that the copy has met. -/
structure Move where
  loop : BitVec 16
  next : Nat := 0
  asked : Nat
  got : List Word := []
  bad : Option Nat := none
deriving DecidableEq, Repr, Inhabited

/-- How far a command has come whose next Deck access waits (R231, R344): the accesses made, how many of them were delayed, the words read. -/
structure KsProg where
  src : CmdSrc
  done : Nat := 0
  late : Nat := 0
  words : List Word := []
deriving DecidableEq, Repr, Inhabited

/-- Keystone (R339, R445, R479): firmware running, restarting, the slot, kicks and grace, bindings, images, jobs; `halted` through DBG_KS (R494);
`kept` are the images off the list whose lines wait for a loop bound from them (R413, R460). -/
structure Keystone where
  firmware : Bool := false
  kbusy : Bool := false
  gated : Bool := false
  slotB : Bool := false
  fwVer : W32 := 0#32
  kicked : Bool := false
  lastKick : Nat := 0
  graceEnd : Option Nat := none
  stopped : Bool := false
  loops : List Loop := []
  images : List Image := []
  kept : List Image := []
  jobs : List Job := []
  copies : List Copy := []
  moves : List Move := []
  prog : Option KsProg := none
  fwd : List FwdSlot := []
  takenSince : Bool := false
  served : Nat := 2
  sram : Tab W32 := []
  halted : Bool := false
  live : Bool := false
  revert : Bool := false
  restartMs : BitVec 16 := 0#16
  restartSlotB : Bool := false
  swapValid : Bool := false
  swapResult : BitVec 3 := 0#3
  swapBent : BentId := 0#7
  swapPslot : BitVec 5 := 0#5
  swapLslot : SlotId := 0#4
deriving DecidableEq, Repr, Inhabited

/-! ### Modes, power, faults (13, 14, 15) -/

/-- A reset of R410 in progress: of a bent, or of a core; its number, and since when its stores are awaited (R408). -/
structure ResetRun where
  whole : Bool
  num : Nat
  since : Nat
deriving DecidableEq, Repr, Inhabited

/-- The MODE_ registers (R417) but for MODE_BENTOUT, and the reset in progress (R410). -/
structure Mode where
  mode : BitVec 3 := 1#3
  prev : BitVec 3 := 0#3
  reason : BitVec 3 := 3#3
  recov : Bool := false
  recovTarget : BitVec 3 := 0#3
  pendSafe : Bool := false
  pendWhy : BitVec 3 := 0#3
  safePin : Bool := false
  time : W32 := 0#32
  rstCause : BitVec 4 := 8#4
  bootSlot : Bool := false
  fallback : Bool := false
  resA : BitVec 4 := 0#4
  resB : BitVec 4 := 0#4
  srBad : Bool := false
  bootMs : BitVec 16 := 0#16
  regrade : Bool := false
  holdComm : Bool := false
  commDone : Bool := false
  calibrated : Bool := false
  graded : Bool := false
  swaps : Byte := 0#8
  bentOut : BitVec 128 := 0#128
  bootReason : BitVec 3 := 3#3
  warm : Bool := false
  noFirmware : Bool := false
  rst : Option ResetRun := none
deriving DecidableEq, Repr, Inhabited

/-- A sleep negotiation (R428): target state, the domain being asked, the domains asked so far (last first), the command behind it. -/
structure Nego where
  target : BitVec 3
  asked : Nat
  stopped : List Nat
  src : Option CmdSrc
  isMode : Bool
  ceil : Option Byte := none
deriving DecidableEq, Repr, Inhabited

/-- The power controller and the always-on domain (R435, R512); of a wake: whether it leads to SAFE_HOLD, whether SAFE_N does, and the step of R434
reached. -/
structure Power where
  pstate : BitVec 3 := 0#3
  nego : Option Nego := none
  p1dwell : Byte := 0x14#8
  viaOk : Bool := false
  ceil : Byte := 0xA5#8
  pest : W32 := 0#32
  wakeSrc : Byte := 0#8
  wakeFrom : BitVec 3 := 0#3
  refValid : Bool := false
  refReason : Byte := 0#8
  refDomain : Byte := 0#8
  wakeEn : Byte := 0x66#8
  alarm : W32 := 0#32
  slept : BitVec 64 := 0#64
  p1cnt : W32 := 0#32
  gateDwell : BitVec 16 := 0x0064#16
  waking : Bool := false
  wakeSafe : Bool := false
  wakePin : Bool := false
  wakeStep : Nat := 0
  sleepClk : Nat := 0
  busyAt : Nat := 0
  enRet : Bool := true
  enCore : Bool := true
  thermTrip : Bool := false
  railsBad : BitVec 17 := 0#17
  railsUp : BitVec 17 := 0x1FFFF#17
  inReset : Bool := false
deriving DecidableEq, Repr, Inhabited

/-- A raise on its way to the collector (R438). -/
structure Raise where
  src : Nat
  inst : Nat
  detail : BitVec 16
deriving DecidableEq, Repr, Inhabited

/-- A fault source's latch and count (R449); its programmed severity where it was changed from the default of R437. -/
structure FltSrc where
  latched : Bool := false
  esc : Bool := false
  lsev : BitVec 3 := 0#3
  ign : Byte := 0#8
  sev : Option (BitVec 3) := none
  insts : List Nat := []
deriving DecidableEq, Repr, Inhabited

/-- The fault collector (R443 to R449). -/
structure Collector where
  srcs : Tab FltSrc := []
  raises : List Raise := []
  valid : Bool := false
  also : Bool := false
  sev : BitVec 3 := 0#3
  source : Nat := 0
  promoted : Bool := false
  inst : Byte := 0#8
  detail : BitVec 16 := 0#16
  time : W32 := 0#32
  notice : BitVec 16 := 0#16
  aliveK : Bool := false
  aliveS : Bool := false
  heart : W32 := 0#32
  selfBad : Bool := false
deriving DecidableEq, Repr, Inhabited

/-! ### Trust, Viaduct, test (12, 16, 18) -/

/-- An enrolled owner certificate (R457): OWNERID and its key sets. -/
structure Cert where
  ownerId : W32
  sets : List (List Byte × List Byte)
  addr : W32
deriving DecidableEq, Repr, Inhabited

/-- The security engine, OTP and debug unlock (R456 to R467, R493); the code words (first, number) that its operation still has to request, the fault
source that a read has met (R466, R345), and the command that the operation serves, none for the check of a copy; `adv` are the counter advances that
may still be under way, each with its old value and the instant by which its last step is blown (R461). -/
structure Sec where
  busy : Bool := false
  todo : List (Nat × Nat) := []
  rdBad : Option Nat := none
  subject : Option CmdSrc := none
  adv : List (Nat × Byte × Nat) := []
  cert : Option Cert := none
  lastRes : BitVec 4 := 0#4
  lastDet : BitVec 16 := 0#16
  dbgScope : BitVec 4 := 0#4
  rootPresent : BitVec 2 := 0#2
  rootRevoked : BitVec 2 := 0#2
  roots : List (BitVec 512 × BitVec 512) := []
  fails : BitVec 16 := 0#16
  checks : BitVec 16 := 0#16
  rb : Tab Byte := []
  idEd : BitVec 512 := 0#512
  idMl : BitVec 512 := 0#512
  serial : BitVec 64 := 0#64
  vendor : BitVec 16 := 0#16
  jedec : BitVec 11 := 0#11
  rev : Byte := 0#8
  subsys : W32 := 0#32
  challenge : Option (List Byte × Nat) := none
  tokRes : BitVec 3 := 0#3
deriving DecidableEq, Repr, Inhabited

/-- States of a Viaduct port (R377). -/
inductive LinkSt where | down | train | check | up
deriving DecidableEq, Repr, Inhabited

/-- What a flit that the part sends carries (R380, R381, R391 to R393); a request or a reply goes in several flits of 13 words. -/
inductive FlitBody where
  | idle
  | txn (t : Txn)
  | rsp (req : ReqId) (tag : Byte) (r : Resp)
  | cmd (origin : Port) (body : List W32)
  | creply (origin : Port) (final : Bool) (body : List W32)
  | link (reachKind head : Bool) (addr : Option (BitVec 4)) (chainLen : BitVec 5) (reach : BitVec 16)
  | sync (t1 t2 t3 : BitVec 64)
  | enum (token : BitVec 5)
  | endf (count : BitVec 5)
  | length (len : BitVec 5)
deriving DecidableEq, Repr, Inhabited

/-- A flit that the part sends, with the fields of its header (R379): entered for sending as number `entered` at its port; sequence number, ACK, NAK,
CF and CREDIT as it was sent last, at clk `sentAt`. -/
structure OutFlit where
  seq : BitVec 12
  cls : BitVec 2
  dest : BitVec 4
  src : BitVec 4
  body : FlitBody
  sentAt : Nat
  entered : Nat := 0
  ack : BitVec 12 := 0#12
  nak : Bool := false
  cf : Bool := false
  credit : Byte := 0#8
deriving DecidableEq, Repr, Inhabited

/-- A Viaduct port (R377, R383, R384, R396); `errAt` the moments of each lane's sync-header errors in the last second, `stalled` the
replays in a row without progress; `rx` the received flits for other units that its flit buffers hold, `cells` by class the CHANNEL cells from the
other port (R304, R385), `owed` by class the freed buffers whose CREDIT is still to be returned; `nakDue` a NAK still to be sent; `tx` the flit on the
link last, `sbOut` the level on its sideband output (R390). -/
structure Via where
  en : Bool := true
  sbEn : Bool := false
  st : LinkSt := .down
  retraining : Bool := false
  spare : Bool := false
  half : Bool := false
  lanes : BitVec 5 := 0#5
  nvalid : Bool := false
  nunit : BitVec 4 := 0#4
  retry : W32 := 0#32
  lerr : Tab Nat := []
  errAt : Tab (List Nat) := []
  downs : BitVec 16 := 0#16
  bad : BitVec 5 := 0#5
  wasUp : Bool := false
  topo : Bool := false
  nextTx : BitVec 12 := 0#12
  nextRx : BitVec 12 := 0#12
  ledger : List OutFlit := []
  waiting : List OutFlit := []
  rx : List OutFlit := []
  cells : Tab (List OutFlit) := []
  owed : Tab Nat := []
  entered : Nat := 0
  nakDue : Bool := false
  tx : Option OutFlit := none
  sbOut : Bool := false
  credits : Tab Nat := [(0, 32), (1, 64), (2, 64)]
  nakSent : Bool := false
  stalled : Nat := 0
  reach : BitVec 16 := 0#16
  cfIn : Bool := false
  sbIn : Bool := false
  trainAt : Nat := 0
deriving DecidableEq, Repr, Inhabited

/-- The unit's place in its chain and its chain time (R391, R394, R396); `tbFresh` since the UP link reached UP with no valid SYNC yet;
`enumWait` since when the unit waits for its DOWN port to pass ENUM on. -/
structure Chain where
  head : Bool := true
  uvalid : Bool := true
  unit : BitVec 4 := 0#4
  chainLen : BitVec 5 := 0#5
  cfSev : BitVec 3 := 3#3
  tbOfs : Option (BitVec 64) := none
  fails : BitVec 7 := 0#7
  delay : Byte := 0#8
  resid : BitVec 16 := 0#16
  good : Nat := 0
  tbFresh : Bool := false
  enumWait : Option Nat := none
  up : Via := { en := false }
  dn : Via := {}
deriving DecidableEq, Repr, Inhabited

/-- The instruction in the test access port (R490). -/
inductive TapInstr where
  | extest | sample | idcode | clamp | highz | extestPulse | extestTrain | unlockCh | unlockTok | dbgStat | dbgInsp | dbgKs
  | fwRecov | bypass
deriving DecidableEq, Repr, Inhabited

/-- The grade record of a bent in the configuration area (R414): its curve and its graded delays. -/
structure Grade where
  curve : Tab (BitVec 16 × BitVec 16)
  me : BitVec 4
  ex : BitVec 4
deriving DecidableEq, Repr, Inhabited

/-- The test access port (R488 to R495): the instruction in force, the last Capture-IR value and captured data, the boundary register,
whether it drives the balls or floats them, the last debug access with its result. -/
structure Jtag where
  instr : TapInstr := .idcode
  irCapture : Byte := 1#8
  capture : List Byte := []
  boundary : Tab Bool := []
  driving : Bool := false
  hiz : Bool := false
  inspErr : Bool := false
  inspAddr : W32 := 0#32
  inspData : W32 := 0#32
deriving DecidableEq, Repr, Inhabited

/-- A PLUMB pin (R497, R499, R501): its selection, the count of its signal's rising edges, OVF, the level that the pin shows; the instants
of the last change that it showed and of the last change of its count bit, and the one until which it is held low. -/
structure PlbPin where
  en : Bool := false
  event : Bool := false
  div : BitVec 4 := 0#4
  signal : BitVec 12 := 0#12
  count : BitVec 16 := 0#16
  ovf : Bool := false
  shown : Bool := false
  changed : Option Nat := none
  toggled : Option Nat := none
  lowUntil : Nat := 0
deriving DecidableEq, Repr, Inhabited

/-- Everything the part holds but its memory cells; `near` are the accesses of cores to their own bent that wait at a bank's arbiter (R247), each
numbered by its instruction's place in program order. -/
structure Dev where
  clk : Nat := 0
  tb : BitVec 64 := 0#64
  tbSlew : Int := 0
  tbSrc : BitVec 2 := 0#2
  tbLock : Bool := false
  freeCtr : Nat := 0
  nextId : Nat := 0
  cores : Tab Core := []
  bents : Tab Bent := []
  spans : Tab Span := []
  txns : List Txn := []
  near : List Txn := []
  chans : Tab Channel := []
  creqs : Tab CentreReq := []
  abtHigh : BitVec 6 := 0x30#6
  abtStarve : Byte := 0x14#8
  abtReq : ReqId := 0#12
  abtCnt : BitVec 16 := 0#16
  ws : WriteSeq := {}
  ddrs : Tab Ddr := []
  spareA : SpareRec := {}
  spareB : SpareRec := { good := false }
  recLines : List Nat := []
  poison : List Nat := []
  queues : Tab Queue := []
  xings : Tab Xing := []
  xFirst : Byte := 0#8
  xverDone : Bool := false
  xverFail : Bool := false
  xverDom : Byte := 0#8
  temps : Tab (Bool × BitVec 16) := []
  bifurc : Bool := false
  headPin : Bool := true
  resetLow : Bool := false
  safeNLow : Bool := false
  portA : PortSt := {}
  portB : PortSt := {}
  sem : Sem := {}
  ks : Keystone := {}
  mode : Mode := {}
  pwr : Power := {}
  flt : Collector := {}
  sec : Sec := {}
  chain : Chain := {}
  jtag : Jtag := {}
  plb : Tab PlbPin := []
  grades : Tab Grade := []
  wear : Tab (Nat × Nat) := []
  lineWrites : Nat := 0
deriving DecidableEq, Repr, Inhabited

/-- The machine: the commands that wait, first in first out; the cells of every memory (bent SRAM, Deck SRAM, code store,
DDR5) in canonical form (Memory.wf in Machine/Mem.lean); everything else. -/
structure State where
  pending : List Instr
  mem : List Host.Cell
  dev : Dev
deriving DecidableEq, Repr

/-- The machine right after a cold reset (R407, R399): BOOT, nothing running, no memory cell that differs from what an
unlisted address reads as. Every field stands at the value the spec states for reset or, where it states none, at the value
the assumption log names (log entries 3, 5 to 8, 11 to 15). -/
def State.reset : State := { pending := [], mem := [], dev := {} }

end Sys2Proof.Machine
end

