-- ==== Sys2Proof/Machine/Base.lean ====
section
/-! DEFINITION. Access to the parts of Dev by number, with the values that entries never written hold; the outcome of a meaning;
the timebase; the free values; raises to the fault collector through its crossing. -/
namespace Sys2Proof.Machine

/-! ### The outcome of a meaning -/

/-- What a meaning computes: the device after it and the memory cells it changes. -/
abbrev Eff := Dev × List MemOp

/-! ### Numbering (R22, R298) -/

/-- The bent of a logical core (R22). -/
def bentOf (c : Nat) : Nat := c / 16
/-- The logical slot of a logical core (R22). -/
def slotOf (c : Nat) : Nat := c % 16
/-- The logical core of a bent's slot (R22). -/
def coreOf (b i : Nat) : Nat := 16 * b + i
/-- The span of a bent (R22). -/
def spanOf (b : Nat) : Nat := b / 16

/-- Crossing domain numbers of R298. -/
def domHub (s : Nat) : Nat := 128 + s
def domAbutment : Nat := 136
def domDdr (n : Nat) : Nat := 137 + n
def domTimebase : Nat := 141
def domPcie : Nat := 142
def domSecurity : Nat := 143
def domKeystone : Nat := 144
def domViaUp : Nat := 145
def domViaDown : Nat := 146
def domSequencer : Nat := 147
def domSensor : Nat := 148
def domCollector : Nat := 149
def domPower : Nat := 150

/-- Keystone's requester ID (R221). -/
def ksReq : ReqId := 0x800#12
/-- The write sequencer's requester ID (R221). -/
def wsReq : ReqId := 0x806#12

/-! ### Entries by number -/

/-- Logical core c. -/
def Dev.core (d : Dev) (c : Nat) : Core := Tab.find {} d.cores c
/-- Logical core c replaced. -/
def Dev.setCore (d : Dev) (c : Nat) (k : Core) : Dev := { d with cores := Tab.put d.cores c k }
/-- Logical core c changed by f. -/
def Dev.onCore (d : Dev) (c : Nat) (f : Core → Core) : Dev := d.setCore c (f (d.core c))

/-- Bent b. -/
def Dev.bent (d : Dev) (b : Nat) : Bent := Tab.find {} d.bents b
/-- Bent b replaced. -/
def Dev.setBent (d : Dev) (b : Nat) (x : Bent) : Dev := { d with bents := Tab.put d.bents b x }
/-- Bent b changed by f. -/
def Dev.onBent (d : Dev) (b : Nat) (f : Bent → Bent) : Dev := d.setBent b (f (d.bent b))
/-- The BIU of bent b changed by f. -/
def Dev.onBiu (d : Dev) (b : Nat) (f : Biu → Biu) : Dev := d.onBent b (fun x => { x with biu := f x.biu })
/-- The Scribe agent of bent b changed by f. -/
def Dev.onScr (d : Dev) (b : Nat) (f : Scribe → Scribe) : Dev := d.onBent b (fun x => { x with scr := f x.scr })

/-- Span s. -/
def Dev.span (d : Dev) (s : Nat) : Span := Tab.find {} d.spans s
/-- Span s changed by f. -/
def Dev.onSpan (d : Dev) (s : Nat) (f : Span → Span) : Dev := { d with spans := Tab.put d.spans s (f (d.span s)) }

/-- DDR5 channel n. -/
def Dev.ddr (d : Dev) (n : Nat) : Ddr := Tab.find {} d.ddrs n
/-- DDR5 channel n changed by f. -/
def Dev.onDdr (d : Dev) (n : Nat) (f : Ddr → Ddr) : Dev := { d with ddrs := Tab.put d.ddrs n (f (d.ddr n)) }

/-- Queue q. -/
def Dev.queue (d : Dev) (q : Nat) : Queue := Tab.find {} d.queues q
/-- Queue q replaced. -/
def Dev.setQueue (d : Dev) (q : Nat) (x : Queue) : Dev := { d with queues := Tab.put d.queues q x }
/-- Queue q changed by f. -/
def Dev.onQueue (d : Dev) (q : Nat) (f : Queue → Queue) : Dev := d.setQueue q (f (d.queue q))

/-- The crossing registers of domain n. -/
def Dev.xing (d : Dev) (n : Nat) : Xing := Tab.find {} d.xings n
/-- The crossing registers of domain n changed by f. -/
def Dev.onXing (d : Dev) (n : Nat) (f : Xing → Xing) : Dev := { d with xings := Tab.put d.xings n (f (d.xing n)) }

/-- A host port. -/
def Dev.port (d : Dev) : Port → PortSt
  | .a => d.portA
  | .b => d.portB
/-- A host port changed by f. -/
def Dev.onPort (d : Dev) (p : Port) (f : PortSt → PortSt) : Dev :=
  match p with
  | .a => { d with portA := f d.portA }
  | .b => { d with portB := f d.portB }

/-- A Viaduct port. -/
def Dev.via (d : Dev) : ViaPort → Via
  | .up => d.chain.up
  | .dn => d.chain.dn
/-- A Viaduct port changed by f. -/
def Dev.onVia (d : Dev) (p : ViaPort) (f : Via → Via) : Dev :=
  match p with
  | .up => { d with chain := { d.chain with up := f d.chain.up } }
  | .dn => { d with chain := { d.chain with dn := f d.chain.dn } }

/-- Keystone changed by f. -/
def Dev.onKs (d : Dev) (f : Keystone → Keystone) : Dev := { d with ks := f d.ks }
/-- The power controller changed by f. -/
def Dev.onPwr (d : Dev) (f : Power → Power) : Dev := { d with pwr := f d.pwr }
/-- The mode registers changed by f. -/
def Dev.onMode (d : Dev) (f : Mode → Mode) : Dev := { d with mode := f d.mode }
/-- The fault collector changed by f. -/
def Dev.onFlt (d : Dev) (f : Collector → Collector) : Dev := { d with flt := f d.flt }
/-- The chain state changed by f. -/
def Dev.onChain (d : Dev) (f : Chain → Chain) : Dev := { d with chain := f d.chain }

/-- An event that keeps the part out of P1, and ends it (R424, R425): the dwell begins anew; Keystone's clock is ungated, and the cells of its
domain hold no more (R305). -/
def Dev.leaveP1 (d : Dev) : Dev :=
  if d.pwr.pstate = 1#3 then
    ((d.onPwr (fun p => { p with pstate := 0#3, busyAt := d.clk })).onKs (fun k => { k with gated := false, lastKick := d.clk })).onXing domKeystone
      (fun x => { x with hold := false })
  else d.onPwr (fun p => { p with busyAt := d.clk })

/-- The centre requester with ID 800h + n (R238). -/
def Dev.creq (d : Dev) (n : Nat) : CentreReq := Tab.find {} d.creqs n
/-- The centre requester with ID 800h + n changed by f. -/
def Dev.onCreq (d : Dev) (n : Nat) (f : CentreReq → CentreReq) : Dev := { d with creqs := Tab.put d.creqs n (f (d.creq n)) }

/-- Whether a requester ID is a core's (R221). -/
def isCoreReq (r : ReqId) : Bool := r.toNat < 0x800

/-- Physical slot of logical slot i: the identity until the map is changed (R24, R25). -/
def Bent.physOf (x : Bent) (i : Nat) : BitVec 5 := Tab.find (BitVec.ofNat 5 i) x.phys i

/-- The physical core of a logical core (R22). -/
def Dev.physCore (d : Dev) (c : Nat) : Nat := 17 * bentOf c + ((d.bent (bentOf c)).physOf (slotOf c)).toNat

/-- The logical slot that a physical slot serves, if any (R24). -/
def Bent.logicalOf (x : Bent) (p : Nat) : Option Nat :=
  (List.range 16).find? (fun i => (x.physOf i).toNat == p)

/-- The physical slot without a logical slot (R24). -/
def Bent.freeSlot (x : Bent) : Nat :=
  ((List.range 17).find? (fun p => (x.logicalOf p).isNone)).getD 16

/-- Product entry P[a][b] (R51, R55): fixed in rows and columns 0 and 31, 31 where no table supplies it. -/
def Bent.product (x : Bent) (a b : BitVec 5) : BitVec 5 :=
  if a = 31#5 ∨ b = 31#5 then 31#5
  else if a = 0#5 then b
  else if b = 0#5 then a
  else Tab.find 31#5 x.upt (32 * a.toNat + b.toNat)

/-- Units 1 to 30, which the unit table rules (R51). -/
def unitTabled (a : BitVec 5) : Bool := a != 0#5 && a != 31#5

/-- The lowest u in 0 to 30 with P[u][b] = a (R53); with no table installed no quotient of units 1 to 30 has one (R55). -/
def Bent.quotient (x : Bent) (a b : BitVec 5) : Option (BitVec 5) :=
  if x.unitId = 0#32 ∧ unitTabled a = true ∧ unitTabled b = true then none
  else ((List.range 31).map (BitVec.ofNat 5)).find? (fun u => x.product u b == a)

/-! ### Registers of a core -/

/-- The PSR of an idle core (R43, R44, R116): CURPRI FFh, I 1, the flags 0; the fields fixed at binding stay. -/
def Psr.idle (p : Psr) : Psr := { paced := p.paced, compact := p.compact, t := p.t }


/-- Register r of a tagged core as stored (R39, R42); g0 is handled by the operand rules. -/
def Core.reg (k : Core) (r : Nat) : Word :=
  if r = 0 then { pay := 0#32, tag := 0#8 } else Tab.find { pay := 0#32, tag := 0xE0#8 } k.regs r

/-- Register r written; a write to g0 is discarded (R40). -/
def Core.setReg (k : Core) (r : Nat) (w : Word) : Core :=
  if r = 0 then k else { k with regs := Tab.put k.regs r w }

/-- Byte register r of a compact core (R39, R73). -/
def Core.byte (k : Core) (r : Nat) : Byte := (k.reg r).pay.setWidth 8

/-- Byte register r written (R39); g0 discards it. -/
def Core.setByte (k : Core) (r : Nat) (v : Byte) : Core := k.setReg r { pay := v.setWidth 32, tag := 0#8 }

/-- Pair p of a compact core: g(2p+1) high, g(2p) low (R73). -/
def Core.pair (k : Core) (p : Nat) : BitVec 16 := k.byte (2 * p + 1) ++ k.byte (2 * p)

/-- Pair p written, both registers in one step (R73). -/
def Core.setPair (k : Core) (p : Nat) (v : BitVec 16) : Core :=
  (k.setByte (2 * p) (v.setWidth 8)).setByte (2 * p + 1) (v.extractLsb' 8 8)

/-! ### Timebase and free values -/

/-- TIME of a timebase count: bits [36:5] (R79). -/
def timeOf (t : BitVec 64) : W32 := t.extractLsb' 5 32

/-- The present TIME. -/
def Dev.time (d : Dev) : W32 := timeOf d.tb

/-- The timebase count in a domain: what its VALUE cell has accepted last (R36, R300). -/
def Dev.tbAt (d : Dev) (dom : Nat) : BitVec 64 := (d.xing dom).tb.getD d.tb
/-- The TIME in a domain. -/
def Dev.timeAt (d : Dev) (dom : Nat) : W32 := timeOf (d.tbAt dom)

/-- Microseconds of clk between two moments, saturating at 32 bits (R338, R339: 800 ticks of 1.25 ns each). -/
def elapsedUs (start now : Nat) : W32 :=
  if (now - start) / 800 < 2 ^ 32 then BitVec.ofNat 32 ((now - start) / 800) else 0xFFFFFFFF#32

/-- A fresh free value of a word, with the counter advanced (DESIGN CHOICE, log entry 11). -/
def Dev.fresh (d : Dev) : W32 × Dev := (Config.freeWord d.freeCtr, { d with freeCtr := d.freeCtr + 1 })

/-- A fresh free choice below n (0 when n is 0), with the counter advanced (DESIGN CHOICE, log entry 11). -/
def Dev.freshNat (d : Dev) (n : Nat) : Nat × Dev :=
  (Config.freeNat d.freeCtr % (if n = 0 then 1 else n), { d with freeCtr := d.freeCtr + 1 })

/-- A free choice from a list, none from the empty one (DESIGN CHOICE, log entry 32). -/
def Dev.choose (d : Dev) (l : List Nat) : Option Nat × Dev :=
  match l with
  | [] => (none, d)
  | x :: r => let c := d.freshNat (r.length + 1)
              (some ((x :: r).getD c.1 x), c.2)

/-! ### Clocks, shortly -/

/-- Whether the timebase counts: not in reset, not in P2 to P4 (R78, R422) until step 2 of a wake (R434). -/
def Dev.tbCounts (d : Dev) : Bool := !d.pwr.inReset && (decide (d.pwr.pstate.toNat < 2) || decide (2 ≤ d.pwr.wakeStep))

/-- Whether a bent does nothing: its clock is stopped (R305), or its regulator is off (R415). -/
def Dev.bentStill (d : Dev) (b : Nat) : Bool := (d.bent b).asleep || d.mode.bentOut.getLsbD b

/-- Whether a core does nothing: its bent is still, or the part sleeps (R419, R421). -/
def Dev.coreStill (d : Dev) (c : Nat) : Bool := d.bentStill (bentOf c) || decide (2 ≤ d.pwr.pstate.toNat)

/-! ### The security engine, shortly -/

/-- The value of a rollback counter (R459). -/
def Sec.counter (c : Sec) (n : Nat) : Byte := Tab.find 0#8 c.rb n

/-- The counter steps still to be blown at an instant (R461). -/
def Sec.advancing (c : Sec) (clk : Nat) : List (Nat × Byte × Nat) := c.adv.filter (fun e => decide (clk < e.2.2))

/-- Whether the security engine has an operation in progress: a check, or a counter advance (R461, R466, R467). -/
def Dev.engineBusy (d : Dev) : Bool := d.sec.busy || !(d.sec.advancing d.clk).isEmpty

/-! ### Modes, shortly -/

/-- Mode codes (R397). -/
def mOff : BitVec 3 := 0#3
def mBoot : BitVec 3 := 1#3
def mCommission : BitVec 3 := 2#3
def mStandby : BitVec 3 := 3#3
def mRun : BitVec 3 := 4#3
def mDegraded : BitVec 3 := 5#3
def mSafeHold : BitVec 3 := 6#3
def mTest : BitVec 3 := 7#3

/-! ### PLUMB pins (R496, R497) -/

/-- 5 ns in ticks of clk: how close to each other a pin can show two changes (R497). -/
def plbGap : Nat := 4

/-- Whether a moment is less than 5 ns ago. -/
def justNow (at_ : Option Nat) (now : Nat) : Bool := at_.any (fun t => decide (now < t + plbGap))

/-- k rising edges at a pin in EVENT mode (R497): the count, and OVF when its bit DIV changes twice within 5 ns. -/
def PlbPin.add (p : PlbPin) (k now : Nat) : PlbPin :=
  if !p.event || decide (now < p.lowUntil) then p
  else
    let c := p.count.toNat + k
    let n := c / 2 ^ p.div.toNat - p.count.toNat / 2 ^ p.div.toNat
    { p with
      count := BitVec.ofNat 16 c
      ovf := p.ovf || decide (2 ≤ n) || (decide (n = 1) && justNow p.toggled now)
      toggled := if n = 0 then p.toggled else some now }

/-- A pulse at a pin: counted, or in LEVEL mode shown. -/
def PlbPin.pulse (p : PlbPin) (now : Nat) : PlbPin :=
  if p.event then p.add 1 now
  else if p.shown || justNow p.changed now || decide (now < p.lowUntil) then p
  else { p with shown := true, changed := some now }

/-- A pulse of internal signal n, at every pin that shows it (R496). -/
def Dev.strobe (d : Dev) (n : Nat) : Dev :=
  { d with plb := d.plb.map (fun e => if e.2.en && e.2.signal.toNat == n then (e.1, e.2.pulse d.clk) else e) }

/-! ### Raises to the collector (R438, R301, R302) -/

/-- One more occurrence for line n of an EVENT cell of receiving domain dom, of which `out` are already outstanding: whether it is passed
on, and the crossing registers after it (R301, R302). In pulse mode it merges with an unacknowledged one; in counter mode it merges when
65,535 are outstanding. An event that is passed on advances the sender's count. -/
def Dev.eventInto (d : Dev) (dom n out : Nat) : Bool × Dev :=
  let x := d.xing dom
  if (x.pulse && decide (0 < out)) || decide (65535 ≤ out) then
    (false, (d.onXing dom (fun x => { x with ovr := true, ocount := satInc x.ocount })).strobe (0xC81 + 2 * dom))
  else (true, d.onXing dom (fun x => { x with counts := Tab.put x.counts n (Tab.find 0#17 x.counts n + 1#17) }))

/-- The line of the collector's EVENT cells by which an instance raises a source. -/
def raiseLine (src inst : Nat) : Nat := 256 * src + inst

/-- Raises of one line (source and instance) that the collector has not taken. -/
def Dev.raisesOf (d : Dev) (src inst : Nat) : Nat :=
  (d.flt.raises.filter (fun r => r.src == src && r.inst == inst)).length

/-- A raise put on the collector's list. -/
def Dev.addRaise (d : Dev) (r : Raise) : Dev := d.onFlt (fun f => { f with raises := f.raises ++ [r] })

/-- A raise of a fault source by an instance (R438): it crosses as an event into the collector's domain; a merged one sets OVR
and raises XING_OVR (R301, R302). -/
def Dev.raise (d : Dev) (src inst : Nat) (detail : BitVec 16) : Dev :=
  match d.eventInto domCollector (raiseLine src inst) (d.raisesOf src inst) with
  | (true, d') => d'.addRaise { src := src, inst := inst, detail := detail }
  | (false, d') =>
    if d'.raisesOf 641 domCollector = 0 then d'.addRaise { src := 641, inst := domCollector, detail := 0#16 } else d'

/-- Whether Keystone can take commands (R340). -/
def Dev.keystoneUp (d : Dev) : Bool := d.ks.firmware && !d.ks.kbusy && !d.pwr.inReset && d.mode.mode != mBoot

end Sys2Proof.Machine
end

