-- ==== Sys2Proof/Machine/Plumb.lean ====
section
/-! DEFINITION. The internal signals that PLUMB shows and what its pins make of them (spec 18_plumb_debug.md R496, R497), and the outcome of a
meaning, at which the pins follow what has happened. A signal is a count of instants, a level, or a pulse of the definition that makes it
(Dev.strobe); of those that no state of the part shows, the edges are open values (DESIGN CHOICE, log entry 124). -/
namespace Sys2Proof.Machine

/-- The steps issued by a physical core, if a logical slot is mapped to it and it is not gated (R22, R496). -/
def Dev.stepsOf (d : Dev) (n : Nat) : Option (Nat × Nat) :=
  match (d.bent (n / 17)).logicalOf (n % 17) with
  | some i => if (d.core (coreOf (n / 17) i)).status == .gated then none else some (i, (d.core (coreOf (n / 17) i)).issued)
  | none => none

/-- The pace ticks of a bent so far (R150): tick k falls k pace periods after T0, in tenths of a tick of 1.25 ns. -/
def Dev.paceTicks (d : Dev) (b : Nat) : Nat :=
  match (d.bent b).pace with
  | some p => 10 * (d.tb.toNat - p.t0.toNat) / [80, 64, 50, 40, 32].getD p.rate.toNat 80
  | none => 0

/-- The steps that the rollback counters have still to make, of 20 µs each (R461). -/
def Dev.stepsLeft (d : Dev) : Nat := (d.sec.adv.map (fun e => (e.2.2 - d.clk + 15999) / 16000)).foldl (· + ·) 0

/-- Of a signal that rises at instants, how often it has risen (R496): pace ticks, the frames of 64 ns of the code store (R262), bit 5 of the
timebase, 100 MHz divided by 8, the 32.768 kHz crystal. -/
def Dev.risen (d : Dev) (n : Nat) : Option Nat :=
  if 0x880 ≤ n ∧ n < 0xC80 ∧ n % 8 = 3 then some (d.paceTicks ((n - 0x880) / 8))
  else if 0xDC0 ≤ n ∧ n < 0xE00 ∧ n % 8 = 7 then some (10 * d.tb.toNat / 512)
  else if n = 0xE80 then some ((d.tb.toNat + 32) / 64)
  else if n = 0xE81 then some (d.clk / 64)
  else if n = 0xE82 then some (d.clk * 128 / 3125000)
  else none

/-- Whether a signal is one whose edges no state of the part shows (R496): the process monitors, and the strobes inside the security engine. -/
def hiddenSignal (n : Nat) : Bool :=
  (decide (0x880 ≤ n) && decide (n < 0xC80) && n % 8 == 5) || n == 0xF01 || n == 0xF04 || n == 0xF07

/-- Whether the queue engine of a span has a transaction to serve. -/
def Dev.queueBusy (d : Dev) (s : Nat) : Bool :=
  d.txns.any (fun t => t.ty == .qop && t.st == .sent && t.addr.toNat / 0x10000 == 0x810 + s)

/-- The level of a signal that has one (R496). -/
def Dev.sigLevel (d : Dev) (n : Nat) : Bool :=
  if n < 0x880 then false
  else if n < 0xC80 then n % 8 == 4 && (d.bent ((n - 0x880) / 8)).scr.slew
  else if 0xDC0 ≤ n ∧ n < 0xE00 then n % 8 == 6 && d.queueBusy ((n - 0xDC0) / 8)
  else if 0xE00 ≤ n ∧ n < 0xE80 then
    let t : Bool × BitVec 16 := Tab.find (false, 0#16) d.temps ((n - 0xE00) / 4)
    t.1 && (match n % 4 with | 0 => decide (1680 < t.2.toInt) | 1 => decide (1840 < t.2.toInt) | 3 => true | _ => false)
  else match n with
    | 0xE80 => d.tb.getLsbD 5
    | 0xE81 => d.clk / 32 % 2 == 1
    | 0xE82 => d.clk * 256 / 3125000 % 2 == 1
    | 0xE83 => d.sem.holder.isSome
    | 0xE84 => d.mode.safePin
    | 0xE85 => d.flt.aliveK
    | 0xE86 => d.flt.aliveS
    | 0xF00 => d.engineBusy
    | _ => false

/-- The rising edges of a signal from one state to the next, its pulses apart (R496). -/
def Dev.edges (old new : Dev) (n : Nat) : Nat :=
  if n < 0x880 then
    match old.stepsOf n, new.stepsOf n with
    | some (i, a), some (j, b) => if i = j then b - a else 0
    | _, _ => 0
  else if n = 0xF06 then old.stepsLeft - new.stepsLeft
  else if hiddenSignal n then (if old.clk < new.clk then Config.plbEdges n old.clk new.clk else 0)
  else match old.risen n, new.risen n with
    | some a, some b => b - a
    | _, _ => if !old.sigLevel n && new.sigLevel n then 1 else 0

/-- A pin that follows its signal (R497): in EVENT mode the edges are counted and bit DIV of the count is shown, in LEVEL mode the level; a
change within 5 ns of the last one waits, and a level that returns meanwhile is not shown. -/
def PlbPin.follow (p : PlbPin) (old new : Dev) : PlbPin :=
  let n := p.signal.toNat
  let k := old.edges new n
  if !p.en || !(decide (old.clk < new.clk) || decide (0 < k) || new.sigLevel n != old.sigLevel n) then p
  else
    let q := p.add k new.clk
    let goal := if p.event then q.count.getLsbD q.div.toNat else new.sigLevel n || decide (0 < k)
    if new.clk < q.lowUntil || goal == q.shown || justNow q.changed new.clk then q else { q with shown := goal, changed := some new.clk }

/-- Whether two pins have the same selection, made at once. -/
def PlbPin.sameAs (p q : PlbPin) : Bool :=
  p.en == q.en && p.event == q.event && p.div == q.div && p.signal == q.signal && p.lowUntil == q.lowUntil

/-- The pins after what has taken the device from old to d (R497). -/
def Dev.seen (d old : Dev) : Dev :=
  { d with plb := d.plb.map (fun e => if e.2.sameAs (Tab.find {} old.plb e.1) then (e.1, e.2.follow old d) else e) }

/-! ### The outcome of a meaning -/

/-- A meaning that changes no memory cell. -/
def State.keep (s : State) (d : Dev) : Host.Outcome State Fault Refusal := .next { s with dev := d.seen s.dev }

/-- A meaning with its memory changes. -/
def State.commit (s : State) (e : Eff) : Host.Outcome State Fault Refusal :=
  .next { s with dev := e.1.seen s.dev, mem := applyAll s.mem e.2 }

end Sys2Proof.Machine
end

