-- ==== Sys2Proof/Machine/ViaOps.lean ====
section
/-! DEFINITION. What a Viaduct port sends (spec 12_viaduct_chain.md): the flits that wait for credit, the transmit ledger, the
routes, the units that can be reached. -/
namespace Sys2Proof.Machine

/-! ### Transactions, shortly (R224, R233) -/

/-- The rank of a transaction at an arbiter (R224): smaller is granted first. -/
def Txn.rank (t : Txn) : Nat := if t.cls = 0#2 ∧ t.paced = true then 0 else t.cls.toNat + 1

/-- The words that a transaction touches: device word addresses, for DDR5 a region and an offset (R270), for an EVT its source, for a QOP its
port word alone (R287). -/
def Txn.words (t : Txn) : List Nat :=
  let n := if t.ty == .qop then 1 else if t.parts.isEmpty then (if t.count = 0 then 1 else t.count) else t.parts.length
  match t.ddr, t.ev with
  | some (r, o), _ => (List.range n).map (fun i => 2 ^ 40 + r * 2 ^ 27 + o + i)
  | none, some (b, s) => [2 ^ 42 + 256 * b.toNat + s.toNat]
  | none, none => if t.parts.isEmpty || t.ty == .qop then (List.range n).map (fun i => t.addr.toNat + i) else t.parts.map (fun p => p.addr.toNat)

/-- Whether two transactions touch a common word (R233). The port words of a queue are distinct words (R288). -/
def Txn.meets (t u : Txn) : Bool := t.words.any (fun w => u.words.contains w)

/-! ### The chain fault (R390) -/

/-- Latch and counts of source n. -/
def Collector.src (f : Collector) (n : Nat) : FltSrc := Tab.find {} f.srcs n
/-- Whether a latch of severity v or above is set. -/
def Collector.atLeast (f : Collector) (v : Nat) : Bool := f.srcs.any (fun e => e.2.latched && decide (v ≤ e.2.lsev.toNat))

/-- Whether a port is DOWN: neither UP nor in a retrain from UP (R377). -/
def Via.lost (v : Via) : Bool := v.st != .up && !v.retraining

/-- Lowest severity that contributes to the chain fault: 0 is taken as 1 (R396). -/
def Chain.sev (c : Chain) : Nat := if c.cfSev = 0#3 then 1 else c.cfSev.toNat

/-- The unit's own contribution to the chain fault (R390). -/
def Dev.chainOwn (d : Dev) : Bool := d.flt.atLeast d.chain.sev

/-- The chain fault received at a port: in-band while its link is UP, and its sideband level, downstream while SBEN is 1 (R376, R390). -/
def Dev.cfReceived (d : Dev) (p : ViaPort) : Bool :=
  let v := d.via p
  (!v.lost && v.cfIn) || (v.sbIn && (p == .up || v.sbEn))

/-- The CF bit that the unit sends on a port (R390). -/
def Dev.cfSent (d : Dev) : ViaPort → Bool
  | .up => d.chainOwn || d.cfReceived .dn
  | .dn => d.chainOwn || d.cfReceived .up

/-! ### The 64 bytes of a flit (R379, R380, R381, R391, R393) -/

/-- TYPE of a flit. -/
def FlitBody.code : FlitBody → Nat
  | .idle => 0
  | .txn _ => 1
  | .rsp _ _ _ => 2
  | .cmd _ _ => 3
  | .creply _ _ _ => 4
  | .sync _ _ _ => 5
  | .enum _ => 6
  | .link _ _ _ _ _ => 7
  | .endf _ => 8
  | .length _ => 9

/-- The code of a Deck type and of a response in a flit: their place in the tables of R217 and R218, which give no number (PRESUMED, log entry 148).
-/
def typeCode : TxnType → Nat
  | .rd => 0
  | .wr => 1
  | .tw => 2
  | .fill => 3
  | .qop => 4
  | .evt => 5
def respCode : Resp → Nat
  | .data _ _ => 0
  | .ack _ => 1
  | .retry => 2
  | .notPresent => 3
  | .error _ _ => 4

/-- Number v in n bytes, little-endian. -/
def leBytes (n v : Nat) : List Byte := (List.range n).map (fun i => BitVec.ofNat 8 (v / 2 ^ (8 * i)))

/-- A list cut or filled up with zeros to n bytes. -/
def padTo (n : Nat) (l : List Byte) : List Byte := (l ++ List.replicate n 0#8).take n

/-- Words in a TXN or RSP body: payload, then tag, 5 bytes each. -/
def wordBytes (ws : List Word) : List Byte := ws.flatMap (fun w => leBytes 4 w.pay.toNat ++ [w.tag])

/-- Lane masks of up to 8 words, word 0 in the lowest bits. -/
def laneBits (ps : List WordPart) : Nat := ((List.range 8).zip ps).foldl (fun n e => n + e.2.lanes.toNat * 16 ^ e.1) 0

/-- The target word address in a TXN flit; that of an EVT names bent and source. -/
def Txn.wireAddr (t : Txn) : Nat :=
  match t.ev with
  | some (b, n) => b.toNat + 256 * n.toNat
  | none => match t.parts with
    | [] => t.addr.toNat
    | p :: _ => p.addr.toNat

/-- The words of a transaction, as its count field gives them. -/
def Txn.wireCount (t : Txn) : Nat := if t.parts.isEmpty then max 1 t.count else t.parts.length

/-- Bytes 8 to 59 of a flit. -/
def FlitBody.bytes (b : FlitBody) : List Byte :=
  padTo 52 (match b with
    | .idle => []
    | .txn t => leBytes 4 t.wireAddr ++ leBytes 2 (t.req.toNat + (if t.paced then 4096 else 0)) ++ leBytes 1 t.id
        ++ leBytes 1 (16 * typeCode t.ty + (t.wireCount - 1)) ++ leBytes 4 (laneBits t.parts) ++ wordBytes (t.parts.map (fun p => p.word))
    | .rsp req tag r => leBytes 4 0 ++ leBytes 2 req.toNat ++ [tag] ++
        leBytes 1 (16 * respCode r + (match r with | .data true _ | .ack true => 8 | .data false _ | .ack false | .retry | .notPresent | .error _ _ => 0)) ++
        leBytes 4 0 ++ (match r with | .data _ ws => wordBytes ws | .ack _ | .retry | .notPresent | .error _ _ => [])
    | .cmd _ ws | .creply _ _ ws => ws.flatMap (fun w => leBytes 4 w.toNat)
    | .sync t1 t2 t3 => leBytes 8 t1.toNat ++ leBytes 8 t2.toNat ++ leBytes 8 t3.toNat
    | .enum t => leBytes 1 t.toNat
    | .link k h a n r => leBytes 1 k.toNat ++ leBytes 1 h.toNat ++ leBytes 1 (match a with | some u => u.toNat | none => 255) ++ leBytes 1 n.toNat
        ++ leBytes 2 r.toNat
    | .endf c => leBytes 1 c.toNat
    | .length n => leBytes 1 n.toNat)

/-- TAGW: the tag-write bits of a TXN's words. -/
def FlitBody.tagw : FlitBody → Nat
  | .txn t => ((List.range 8).zip t.parts).foldl (fun n e => n + (if e.2.tagWr then 2 ^ e.1 else 0)) 0
  | .idle | .rsp _ _ _ | .cmd _ _ | .creply _ _ _ | .sync _ _ _ | .enum _ | .link _ _ _ _ _ | .endf _ | .length _ => 0

/-- The header word of a flit (R379). -/
def OutFlit.header (f : OutFlit) : Nat :=
  f.body.code * 2 ^ 60 + f.seq.toNat * 2 ^ 48 + f.ack.toNat * 2 ^ 36 + f.nak.toNat * 2 ^ 35 + f.cf.toNat * 2 ^ 34 + f.cls.toNat * 2 ^ 32
    + f.dest.toNat * 2 ^ 28 + f.src.toNat * 2 ^ 24 + f.credit.toNat * 2 ^ 16 + f.body.tagw * 2 ^ 8

/-- One bit shifted into the CRC-32 of polynomial 04C1_1DB7h, the most significant bit of a byte first (R379; the order: PRESUMED, log entry 148). -/
def crcBit (c : W32) (b : Bool) : W32 := if c.msb == b then c <<< 1 else (c <<< 1) ^^^ 0x04C11DB7#32

/-- The CRC-32 of some bytes (R379). -/
def crc32 (bs : List Byte) : W32 :=
  ~~~ (bs.foldl (fun c b => (List.range 8).foldl (fun x i => crcBit x (b.getLsbD (7 - i))) c) 0xFFFFFFFF#32)

/-- The 64 bytes of a flit on the link. -/
def OutFlit.wire (f : OutFlit) : List Byte :=
  let bs := leBytes 8 f.header ++ f.body.bytes
  bs ++ leBytes 4 (crc32 bs).toNat

/-! ### Sending (R382 to R385) -/

/-- Flits of the link and of the chain itself, which the receiver consumes at once and which take no credit (DEDUCED, log entry 24). -/
def FlitBody.control : FlitBody → Bool
  | .idle | .link _ _ _ _ _ | .sync _ _ _ | .enum _ | .endf _ | .length _ => true
  | .txn _ | .rsp _ _ _ | .cmd _ _ | .creply _ _ _ => false

/-- What a link with mismatched addresses still carries (R378). -/
def FlitBody.enumOrLink : FlitBody → Bool
  | .link _ _ _ _ _ | .enum _ => true
  | _ => false

/-- Credits the sender holds for a class (R384). -/
def Via.credit (v : Via) (cls : BitVec 2) : Nat := Tab.find 0 v.credits cls.toNat

/-- Whether a waiting flit may be sent now (R383, R384, R378). -/
def Via.canSend (v : Via) (f : OutFlit) : Bool :=
  v.st == .up && decide (v.ledger.length < 256) && (f.body.control || decide (0 < v.credit f.cls))
    && (!v.topo || f.body.enumOrLink)

/-- The CHANNEL cell of a class into a port. -/
def Via.cell (v : Via) (cls : Nat) : List OutFlit := Tab.find [] v.cells cls

/-- What stands in front of a port for sending: its own unit's flits, and the first of each cell. -/
def Via.ready (v : Via) : List OutFlit := v.waiting ++ [0, 1, 2].filterMap (fun c => (v.cell c).head?)

/-- Every flit that waits in front of a port. -/
def Via.queued (v : Via) : List OutFlit := v.waiting ++ [0, 1, 2].flatMap v.cell

/-- The rank of a flit (R224, R384). -/
def OutFlit.rank (f : OutFlit) : Nat :=
  match f.body with
  | .txn t => if f.cls = 0#2 ∧ t.paced = true then 0 else f.cls.toNat + 1
  | .idle | .rsp _ _ _ | .cmd _ _ | .creply _ _ _ | .sync _ _ _ | .enum _ | .link _ _ _ _ _ | .endf _ | .length _ => f.cls.toNat + 1

/-- Whether a flit carries a younger transaction of the requester of another's to the same word: it does not overtake that one (R233, R389). -/
def OutFlit.behind (f g : OutFlit) : Bool :=
  match f.body, g.body with
  | .txn t, .txn u => decide (g.entered < f.entered) && g.src == f.src && u.req == t.req && u.meets t
  | _, _ => false

/-- Whether a flit in front of a port may go now. -/
def Via.free (v : Via) (f : OutFlit) : Bool := v.canSend f && !v.queued.any (fun g => f.behind g)

/-- The flit that goes next: the highest rank first, the first that came among equals (R384, R224). -/
def Via.pick (v : Via) : Option OutFlit :=
  (v.ready.filter v.free).foldl (fun best f =>
    match best with
    | none => some f
    | some g => if f.rank < g.rank ∨ (f.rank = g.rank ∧ f.entered < g.entered) then some f else some g) none

/-- The header fields of a flit as a port sends it now (R379, R382): ACK of the last good flit, a NAK that is due, CF, the credit to return. -/
def Via.stamp (v : Via) (cf : Bool) (f : OutFlit) : OutFlit :=
  { f with ack := v.nextRx - 1#12, nak := v.nakDue, cf := cf, credit := BitVec.ofNat 8 (min 255 (Tab.find 0 v.owed f.cls.toNat)) }

/-- A flit put on the link: what its header brings is brought. -/
def Via.emit (v : Via) (f : OutFlit) : Via :=
  { v with tx := some f, nakDue := false, owed := Tab.put v.owed f.cls.toNat (Tab.find 0 v.owed f.cls.toNat - f.credit.toNat) }

/-- One flit sent: it takes the next sequence number and enters the ledger (R383). -/
def Via.sendOne (v : Via) (now : Nat) (cf : Bool) (f : OutFlit) : Via :=
  let g := { v.stamp cf f with seq := v.nextTx, sentAt := now }
  { v.emit g with
    waiting := v.waiting.erase f
    cells := v.cells.map (fun e => (e.1, e.2.erase f))
    ledger := v.ledger ++ [g]
    nextTx := v.nextTx + 1#12
    credits := if f.body.control then v.credits else Tab.put v.credits f.cls.toNat (v.credit f.cls - 1) }

/-- IDLE sent (R382); it returns the credit of a class that is owed some. -/
def Via.idle (v : Via) (cf : Bool) : Via :=
  let c := (([0, 1, 2].find? (fun c => 0 < Tab.find 0 v.owed c)).getD 0)
  v.emit (v.stamp cf { seq := 0#12, cls := BitVec.ofNat 2 c, dest := 0#4, src := 0#4, body := .idle, sentAt := 0 })

/-- Flit buffers of a class freed at a port, their credit to be returned (R384). -/
def Dev.viaFree (d : Dev) (p : ViaPort) (cls : BitVec 2) (n : Nat) : Dev :=
  d.onVia p (fun v => { v with owed := Tab.put v.owed cls.toNat (Tab.find 0 v.owed cls.toNat + n) })

/-- A flit entered in front of a port. -/
def Via.enter (v : Via) (f : OutFlit) : Via := { v with waiting := v.waiting ++ [{ f with entered := v.entered }], entered := v.entered + 1 }

/-- A flit put into the cell of its class. -/
def Via.enterCell (v : Via) (f : OutFlit) : Via :=
  { v with cells := Tab.put v.cells f.cls.toNat (v.cell f.cls.toNat ++ [{ f with entered := v.entered }]), entered := v.entered + 1 }

/-- The port toward a unit: above the own address DOWN, below it UP (R385). -/
def Dev.routeTo (d : Dev) (u : BitVec 4) : ViaPort := if d.chain.unit.toNat < u.toNat then .dn else .up

/-- A received flit for another unit goes into the cell to the port toward it, which has 8 entries, and its buffer is free; toward a port that is DOWN
it is discarded (R304, R385, R388; a cell for each class, DESIGN CHOICE, log entry 150). Whether it has gone, and the device after. -/
def Dev.passOne (d : Dev) (p : ViaPort) (f : OutFlit) : Bool × Dev :=
  let q := d.routeTo f.dest
  if (d.via q).lost then (true, d.viaFree p f.cls 1)
  else if ((d.via q).cell f.cls.toNat).length < 8 then (true, (d.onVia q (fun v => v.enterCell f)).viaFree p f.cls 1)
  else (false, d)

/-- The received flits of a port passed on as far as the cells have room. -/
def Dev.passIn (d : Dev) (p : ViaPort) : Dev :=
  let r := (d.via p).rx.foldl (fun (x : List OutFlit × Dev) f =>
    if x.1.any (fun g => g.cls == f.cls) then (x.1 ++ [f], x.2)
    else match x.2.passOne p f with
      | (true, e) => (x.1, e)
      | (false, e) => (x.1 ++ [f], e)) ([], d)
  r.2.onVia p (fun v => { v with rx := r.1 })

/-- One flit sent on a port, if one can be. -/
def Dev.viaSendOne (d : Dev) (p : ViaPort) : Option Dev :=
  ((d.via p).pick).map (fun f => d.onVia p (fun v => v.sendOne d.clk (d.cfSent p) f))

/-- Flits passed on and sent as far as cells, credit and ledgers allow; the first argument bounds their number. -/
def Dev.viaMove : Nat → Dev → Dev
  | 0, d => d
  | n + 1, d =>
    let d1 := (d.passIn .up).passIn .dn
    match d1.viaSendOne .up with
    | some e => Dev.viaMove n e
    | none =>
      match d1.viaSendOne .dn with
      | some e => Dev.viaMove n e
      | none => d1

/-- What waits at the ports sent as far as possible. -/
def Dev.viaPump (d : Dev) : Dev :=
  let n := fun (v : Via) => v.queued.length + v.rx.length
  Dev.viaMove (n d.chain.up + n d.chain.dn + 1) d

/-- A flit entered for sending at a port (R382, R384); at one that is DOWN it is discarded (R388). -/
def Dev.viaSend (d : Dev) (p : ViaPort) (cls : BitVec 2) (dest src : BitVec 4) (body : FlitBody) : Dev :=
  if (d.via p).lost then d
  else (d.onVia p (fun v => v.enter { seq := 0#12, cls := cls, dest := dest, src := src, body := body, sentAt := 0 })).viaPump

/-- What a port sends while nothing else waits: IDLE, on a link that is UP (R382); the sideband output shows the chain fault, on the DOWN port while
SBEN is 1 (R376, R390). -/
def Dev.viaIdle (d : Dev) (p : ViaPort) : Dev :=
  let cf := d.cfSent p
  d.onVia p (fun v => { (if v.st == .up then v.idle cf else v) with sbOut := cf && (p == .up || v.sbEn) })

/-- The words of a flit's body: 52 bytes (R380). -/
def chunks : Nat → List W32 → List (List W32)
  | 0, _ => []
  | n + 1, ws => if ws.isEmpty then [] else ws.take 13 :: chunks n (ws.drop 13)

/-- The bodies in which a request or a reply crosses a link: total length and origin port, then its words (R380). -/
def streamOf (origin : Port) (ws : List W32) : List (List W32) :=
  let body := BitVec.ofNat 32 (4 * ws.length) :: (match origin with | .a => 0#32 | .b => 1#32) :: ws
  chunks body.length body

/-- Several flits entered for sending at a port. -/
def Dev.viaSendAll (d : Dev) (p : ViaPort) (cls : BitVec 2) (dest src : BitVec 4) (bodies : List FlitBody) : Dev :=
  bodies.foldl (fun x b => x.viaSend p cls dest src b) d

/-- The units a port's link reaches: its mask until it goes DOWN (R381). -/
def Via.reachNow (v : Via) : BitVec 16 := if v.lost then 0#16 else v.reach

/-- VIA_REACH: the own bit while UVALID is 1, and the masks last received on the ports that are UP (R381). -/
def Dev.reach (d : Dev) : BitVec 16 :=
  (if d.chain.uvalid then 1#16 <<< d.chain.unit.toNat else 0#16) ||| d.chain.up.reachNow ||| d.chain.dn.reachNow

/-- Whether a unit can be reached. -/
def Dev.reaches (d : Dev) (u : BitVec 4) : Bool := d.reach.getLsbD u.toNat

/-- The REACH mask sent on a port: what is reached without crossing its link (R381). -/
def Dev.reachSent (d : Dev) (p : ViaPort) : BitVec 16 :=
  (if d.chain.uvalid then 1#16 <<< d.chain.unit.toNat else 0#16) |||
    (match p with | .up => d.chain.dn.reachNow | .dn => d.chain.up.reachNow)

/-- A LINK flit of the unit for a port (R381): of KIND 0 in CHECK, else REACH. -/
def Dev.linkFlit (d : Dev) (p : ViaPort) (reachKind : Bool) : FlitBody :=
  .link reachKind d.chain.head (if d.chain.uvalid then some d.chain.unit else none) d.chain.chainLen (if reachKind then d.reachSent p else 0#16)

/-- A REACH flit sent on a port that is UP (R381). -/
def Dev.sendReach (d : Dev) (p : ViaPort) : Dev :=
  if (d.via p).st == .up then d.viaSend p 0#2 0#4 d.chain.unit (d.linkFlit p true) else d

/-- The LINK flits of KIND 0 that a port exchanges in CHECK (R377, R381); they take no place in the ledger (DESIGN CHOICE, log entry 149). -/
def Dev.sendCheck (d : Dev) (p : ViaPort) : Dev :=
  d.onVia p (fun v => { v with tx := some { seq := 0#12, cls := 0#2, dest := 0#4, src := d.chain.unit, body := d.linkFlit p false, sentAt := d.clk } })

/-- The units that a set of CHAINLEN units holds above or below an address (R391 step 5). -/
def unitsOf (lo hi : Nat) : BitVec 16 :=
  (List.range 16).foldl (fun (v : BitVec 16) u => if lo ≤ u ∧ u < hi then v ||| (1#16 <<< u) else v) 0#16

/-- A request sent to a unit as CMD flits in class C1 (R392). -/
def Dev.sendCmd (d : Dev) (u : BitVec 4) (origin : Port) (ws : List W32) : Dev :=
  d.viaSendAll (d.routeTo u) 1#2 u d.chain.unit ((streamOf origin ws).map (fun b => .cmd origin b))

/-- A reply, or the final result of an ACCEPTED command, sent to its origin as CREPLY flits (R392): the words of the reply header, then
the payload. -/
def Dev.sendCreply (d : Dev) (u : BitVec 4) (origin : Port) (final : Bool) (st det : BitVec 16) (seq el : W32) (ws : List W32) : Dev :=
  let hdr : List W32 := [det ++ st, seq, BitVec.ofNat 32 (4 * ws.length), el]
  d.viaSendAll (d.routeTo u) 1#2 u d.chain.unit ((streamOf origin (hdr ++ ws)).map (fun b => .creply origin final b))

end Sys2Proof.Machine
end

