-- ==== Sys2Proof/Machine/DeckOps.lean ====
section
/-! DEFINITION. Transactions of the Deck (spec 07_deck_and_traffic.md): targets and their fill, routes, the order of grants at an arbiter,
sending, the counts a requester keeps. -/
namespace Sys2Proof.Machine

/-! ### Targets (R216, R229) -/

/-- The device word address of queue port word k of queue q (R283). -/
def quePortAddr (q k : Nat) : Nat := 0x08100000 + q / 128 * 0x10000 + 0x4000 + 16 * (q % 128) + k

/-- Whether a device word address is a queue port word, and of which queue and which port (R283). -/
def quePort (w : Nat) : Option (Nat × Nat) :=
  if 0x08100000 ≤ w ∧ w < 0x08180000 ∧ 0x4000 ≤ w % 0x10000 ∧ w % 0x10000 < 0x4800 then
    some (128 * ((w - 0x08100000) / 0x10000) + (w % 0x10000 - 0x4000) / 16, w % 16)
  else none

/-- The target of a transaction inside the part (R216, R229): span 0 to 7 and target T0 to T4, or (8, 0) for the centre node's
device registers; none for one that leaves over the Viaduct. R229 names no target for a span's own registers (SPAN_ID, DECK_, MEM_, CST_,
SCR_); T1, which holds the rest of the span's register block, serves them (DESIGN CHOICE, log entry 135). -/
def Txn.target (t : Txn) : Option (Nat × Nat) :=
  let w := t.addr.toNat
  if t.dest.isSome then none
  else match t.ddr, t.ev with
    | some (r, _), _ => some (2 * (r / 256), 4)
    | none, some (b, _) => some (spanOf b.toNat, 2)
    | none, none =>
      if isDeck w then some ((w - 0x01000000) / 0x100000, 0)
      else if isCode w then some ((w - 0x02000000) / 0x100000, 3)
      else if isBentSram w then some (spanOf ((w - 0x04000000) / 0x10000), 2)
      else if 0x08200000 ≤ w ∧ w < 0x08280000 then some (spanOf ((w - 0x08200000) / 0x1000), 2)
      else if 0x08100000 ≤ w ∧ w < 0x08180000 then some ((w - 0x08100000) / 0x10000, 1)
      else some (8, 0)

/-- The domain of a transaction's target (R216, R298). -/
def Txn.domain (t : Txn) : Option Nat :=
  match t.ddr, t.ev, t.target with
  | some (r, _), _, _ => some (domDdr (r / 256))
  | none, some (b, _), _ => some b.toNat
  | none, none, some (s, n) =>
    if s = 8 then some domAbutment
    else if n = 2 then
      let w := t.addr.toNat
      some (if isBentSram w then (w - 0x04000000) / 0x10000 else (w - 0x08200000) / 0x1000)
    else some (domHub s)
  | none, none, none => none

/-- Whether a transaction stands in its target's input buffer: sent, and not one that the threshold turns away (R229). -/
def Txn.buffered (t : Txn) : Bool := t.st == .sent && !t.overfull

/-- The fill of a target (R239). -/
def Dev.fillAt (d : Dev) (g : Nat × Nat) : Nat := min 64 (d.txns.filter (fun t => t.buffered && t.target == some g)).length

/-- A threshold as written: values outside 8 to 56 are clamped (R238, R239). -/
def clampHigh (v : Nat) : Nat := if v < 8 then 8 else if 56 < v then 56 else v

/-- The C2 threshold of a target (R229). -/
def Dev.highAt (d : Dev) (g : Nat × Nat) : Nat :=
  if g.1 = 8 then d.abtHigh.toNat else (Tab.find {} (d.span g.1).targets g.2 : Target).high.toNat

/-- The registers of a target changed by f; the centre node's target has none (R239). -/
def Dev.onTarget (d : Dev) (g : Nat × Nat) (f : Target → Target) : Dev :=
  if g.1 = 8 then d else d.onSpan g.1 (fun s => { s with targets := Tab.modify {} s.targets g.2 f })

/-- The peak fill of a target kept up (R239). -/
def Dev.notePeak (d : Dev) (g : Nat × Nat) : Dev :=
  let n := d.fillAt g
  d.onTarget g (fun t => if t.peak.toNat < n then { t with peak := BitVec.ofNat 7 n } else t)

/-! ### Entries by number -/

/-- The transaction with a number. -/
def Dev.txn (d : Dev) (id : Nat) : Option Txn := d.txns.find? (fun t => t.id == id)

/-- The transaction with a number changed by f. -/
def Dev.onTxn (d : Dev) (id : Nat) (f : Txn → Txn) : Dev :=
  { d with txns := d.txns.map (fun t => if t.id == id then f t else t) }

/-- The transaction with a number gone. -/
def Dev.dropTxn (d : Dev) (id : Nat) : Dev := { d with txns := d.txns.filter (fun t => t.id != id) }

/-! ### The order of grants at one arbiter (R224, R225, R233) -/

/-- Whether a transaction has come to its target, which has not answered it yet. -/
def Txn.waits (t : Txn) : Bool := t.st == .sent

/-- Whether a transaction has not been granted by its target yet, a refused one among them (R230, R233); of one that has left over the Viaduct the
part learns so from its response alone (R389). -/
def Txn.ungranted (t : Txn) : Bool :=
  match t.st with
  | .queued | .path _ | .sent | .remote | .backoff _ | .answered .retry => true
  | .answered (.data _ _) | .answered (.ack _) | .answered .notPresent | .answered (.error _ _) => false

/-- Whether two transactions are host writes to the ports of one queue, which are consecutive QOPs (R287). -/
def Txn.sameWindow (t u : Txn) : Bool :=
  match t.origin, u.origin with
  | .hostWrite _, .hostWrite _ => t.ty == .qop && u.ty == .qop && (quePort t.addr.toNat).map (·.1) == (quePort u.addr.toNat).map (·.1)
  | _, _ => false

/-- Whether an older transaction of the same requester to the same word, or of the same host's pushes, has not been granted yet (R233, R287). -/
def Dev.behindOlder (d : Dev) (t : Txn) : Bool :=
  d.txns.any (fun u => decide (u.id < t.id) && u.req == t.req && u.ungranted && (u.meets t || u.sameWindow t))

/-- The bound on the C1 and C2 grants that may pass a waiting request (R225). -/
def Txn.bound (t : Txn) : Nat := if t.cls = 1#2 then 16 else if t.cls = 2#2 then 64 else 0

/-- A C1 or C2 request that one more grant to another would take to its bound (R225). -/
def Txn.due (t : Txn) : Bool := t.cls != 0#2 && decide (t.bound ≤ t.passed + 1)

/-- The precedence of a request at an arbiter (R224, R225): the two ranks of C0, then the C1 and C2 requests at their bound, then the others, each
by class; smaller is granted first. -/
def Txn.order (t : Txn) : Nat := if t.cls = 0#2 then t.rank else if t.due then t.rank else 2 + t.rank

/-- Whether a request at input i of an arbiter goes before the others that wait there (R224, R225): none of a higher precedence waits, and an
input that has been granted since another of the same precedence came does not go before it. Where the bound of R225 and the turn of R224 meet,
the bound goes first (DESIGN CHOICE, log entry 137). An input shows the arbiter one request at a time. -/
def Txn.goesFirst (t : Txn) (i : ReqId) (others : List (Txn × ReqId)) : Bool :=
  !others.any (fun u => decide (u.1.order < t.order) || (u.1.order == t.order && u.2 != i && u.1.passedBy.contains i))

/-- A waiting request after a grant of its own rank: one of another input notes which was granted, one of the same input begins its turn
anew (R224). -/
def Txn.turn (u t : Txn) (iu it : ReqId) : Txn :=
  if u.rank != t.rank then u else if iu = it then { u with passedBy := [] } else { u with passedBy := u.passedBy ++ [it] }

/-- A waiting request u after a grant of t at its arbiter (R225, R228): a C1 or C2 grant counts against its bound, a C0 grant marks it
delayed when it is C1. -/
def Txn.overtaken (u t : Txn) (iu it : ReqId) : Txn :=
  (if t.cls = 0#2 then (if u.cls = 1#2 then { u with delayed := true } else u)
    else if u.cls = 0#2 then u else { u with passed := u.passed + 1 }).turn t iu it

/-- The bank of an SRAM that a transaction is for, each of which has its own arbiter (R247, R250); what is in no SRAM goes to its bent's, or its
target's, one arbiter. -/
def Txn.bank (t : Txn) : Nat :=
  let w := t.addr.toNat
  match t.ddr, t.ev with
  | some _, _ => 0
  | none, some (b, _) => 0x200000 + b.toNat
  | none, none =>
    if isBentSram w then w / 0x2000
    else if isDeck w then w / 0x20000
    else if 0x08200000 ≤ w ∧ w < 0x08280000 then 0x200000 + (w - 0x08200000) / 0x1000
    else 0

/-- Whether two transactions are for one arbiter behind their targets' input buffers. -/
def Txn.sameArb (t u : Txn) : Bool := u.target == t.target && u.bank == t.bank

/-- Whether an access of a core to its own bent still waits: its instruction, or its buffered store, has not gone on meanwhile. -/
def Dev.nearLive (d : Dev) (u : Txn) : Bool :=
  let k := d.core u.req.toNat
  match u.ty with
  | .rd => k.status == .running && k.issued == u.id
  | _ => (k.stores.head?.map (fun e => e.seq == u.id && e.txn.isNone)).getD false

/-- The requests that wait at the arbiter for which a transaction is, other than its own: in the target's buffer, and the bent's own accesses (R33,
R247). -/
def Dev.rivals (d : Dev) (t : Txn) : List (Txn × ReqId) :=
  ((d.txns.filter (fun u => u.buffered && u.sameArb t && u.id != t.id && !d.behindOlder u))
    ++ d.near.filter (fun u => u.sameArb t && d.nearLive u)).map (fun u => (u, u.req))

/-- Whether a target may grant a transaction now (R224, R225, R233, R247). -/
def Dev.mayGrant (d : Dev) (t : Txn) : Bool :=
  t.waits && t.target.isSome && !d.behindOlder t && t.goesFirst t.req (d.rivals t)

/-- A grant of t passes the rivals in the target's buffer and the bent's own accesses that wait for the same arbiter (R225, R228). -/
def Dev.passRivals (d : Dev) (t : Txn) (rival : Txn → Bool) : Dev :=
  let d1 := { d with
    txns := d.txns.map (fun u => if rival u then u.overtaken t u.req t.req else u)
    near := d.near.map (fun u => if u.sameArb t then u.overtaken t u.req t.req else u) }
  if t.cls = 0#2 then
    match t.target with
    | some g => d1.onTarget g (fun x => { x with dlys := satAdd x.dlys (d.txns.filter (fun u => rival u && u.cls == 1#2 && !u.delayed)).length })
    | none => d1
  else d1

/-- A transaction granted at its target. -/
def Dev.granted (d : Dev) (t : Txn) : Dev := d.passRivals t (fun u => u.buffered && u.sameArb t && u.id != t.id)

/-! ### Routes (R19, R214, R216) -/

/-- An arbiter on the way to a target: the bent side of a bent link, the input of a span hub, the centre node's side of the centre link, an
output port of the abutment (port 8 leads to the centre node). -/
inductive Gate where
  | link (b : Nat)
  | hub (s : Nat)
  | centre
  | port (p : Nat)
deriving DecidableEq, Repr

/-- The span whose hub a requester's transactions enter; none for a requester in the centre node (R221). -/
def hubOf (r : ReqId) : Option Nat :=
  let n := r.toNat
  if n < 0x800 then some (spanOf (bentOf n))
  else if 0x808 ≤ n ∧ n < 0x810 then some (n - 0x808)
  else if 0x810 ≤ n ∧ n < 0x818 then some (n - 0x810)
  else none

/-- The arbiters of a transaction's path in front of its target's (R216): inside its span over the bent link and the span hub; between spans,
or to or from the centre node, also through the abutment (R19). One that leaves over the Viaduct goes to the centre node. -/
def Txn.route (t : Txn) : List Gate :=
  let near := match hubOf t.req with
    | some s => if isCoreReq t.req then [Gate.link (bentOf t.req.toNat), .hub s] else [.hub s]
    | none => [.centre]
  let far := match hubOf t.req, t.target with
    | some s, some (s', _) => if s' = 8 then [Gate.port 8] else if s = s' then [] else [.port s', .hub s']
    | none, some (s', _) => if s' = 8 then [] else [.port s', .hub s']
    | some _, none => [.port 8]
    | none, none => []
  near ++ far

/-- The handshakes that PLUMB shows of a grant at an arbiter (R496): a bent link's or a span link's request and acknowledge, a hub's input grant in
its class (DESIGN CHOICE, log entry 124: one handshake of a link for each transaction). -/
def Dev.gateSeen (d : Dev) (t : Txn) : Gate → Dev
  | .link b => (d.strobe (0x886 + 8 * b)).strobe (0x887 + 8 * b)
  | .hub s => d.strobe (0xDC0 + 8 * s + min 2 t.cls.toNat)
  | .port p =>
    let one := fun (x : Dev) (s : Nat) => if s < 8 then (x.strobe (0xDC4 + 8 * s)).strobe (0xDC5 + 8 * s) else x
    one (match hubOf t.req with | some s => one d s | none => d) p
  | .centre => d

/-- The domain of a requester in the centre node (R298). -/
def reqDomain (r : ReqId) : Nat :=
  match r.toNat with
  | 0x801 | 0x802 => domPcie
  | 0x803 => domViaUp
  | 0x804 => domViaDown
  | 0x805 => domSecurity
  | 0x806 => domSequencer
  | 0x807 => domCollector
  | _ => domKeystone

/-- The domain in which an arbiter of a route stands. -/
def Gate.domain (r : ReqId) : Gate → Nat
  | .link b => b
  | .hub s => domHub s
  | .centre => reqDomain r
  | .port _ => domAbutment

/-- The domains that a transaction passes, from its first arbiter to its target (R36). -/
def Txn.domains (t : Txn) : List Nat := t.route.map (Gate.domain t.req) ++ t.domain.toList

/-- The CHANNEL cell from domain a to domain b. -/
def Dev.chan (d : Dev) (a b : Nat) : Channel := Tab.find {} d.chans (256 * a + b)

/-- The CHANNEL cell from domain a to domain b changed by f; inside one domain there is none. -/
def Dev.onChan (d : Dev) (a b : Nat) (f : Channel → Channel) : Dev :=
  if a = b then d else { d with chans := Tab.modify {} d.chans (256 * a + b) f }

/-- An entry written to a cell (R304). -/
def Channel.put (x : Channel) (id : Nat) : Channel := { x with entries := x.entries ++ [id], written := x.written + 1 }

/-- An entry taken from a cell. -/
def Channel.take (x : Channel) (id : Nat) : Channel := { x with entries := x.entries.filter (fun n => n != id), taken := x.taken + 1 }

/-- Number i of a list of domains. -/
def domAt (l : List Nat) (i : Nat) : Nat := l.getD i 0

/-- A transaction crosses from the domain of hop i to the next without a wait between them. -/
def Dev.cross (d : Dev) (t : Txn) (i : Nat) : Dev :=
  if i + 1 < t.domains.length then d.onChan (domAt t.domains i) (domAt t.domains (i + 1)) (fun x => (x.put t.id).take t.id) else d

/-! ### Reaching the target (R228, R229, R386, R387) -/

/-- A transaction reaches its target's input (R228, R229): where the fill is at or above the threshold, a C2 transaction is to be turned away and
a C1 transaction is delayed. One to another unit leaves as a TXN flit (R387), or is answered NOT_PRESENT where that unit is not
reached or the own unit has no address (R386, R387). -/
def Dev.land (d : Dev) (t : Txn) : Dev :=
  match t.target with
  | none =>
    match t.dest with
    | some u =>
      if d.chain.uvalid && d.reaches u then
        ({ d with txns := d.txns ++ [{ t with st := .remote }] }).viaSend (d.routeTo u) t.cls u d.chain.unit (.txn t)
      else { d with txns := d.txns ++ [{ t with st := .answered .notPresent }] }
    | none => { d with txns := d.txns ++ [{ t with st := .answered .notPresent }] }
  | some g =>
    let high := decide (d.highAt g ≤ d.fillAt g)
    let late := high && t.cls == 1#2
    let d1 := { d with txns := d.txns ++ [{ t with st := .sent, overfull := high && t.cls == 2#2, delayed := t.delayed || late, since := d.clk }] }
    (if late && !t.delayed then d1.onTarget g (fun x => { x with dlys := satInc x.dlys }) else d1).notePeak g

/-- Whether a transaction finds room at its target: a C2 transaction is taken or turned away, any other needs one of the 64 entries (R227,
R229). -/
def Dev.roomAtTarget (d : Dev) (t : Txn) : Bool :=
  match t.target with
  | some g => t.cls == 2#2 || decide (d.fillAt g < 64)
  | none => true

/-! ### The way (R224 to R228, R304) -/

/-- Whether a transaction waits at an arbiter of its route. -/
def Txn.onWay (t : Txn) : Bool :=
  match t.st with
  | .path _ => true
  | .queued | .sent | .backoff _ | .remote | .answered _ => false

/-- The arbiter at which a transaction waits on its way. -/
def Txn.gate (t : Txn) : Option Gate :=
  match t.st with
  | .path k => t.route[k]?
  | .queued | .sent | .backoff _ | .remote | .answered _ => none

/-- The input of the arbiter of hop k by which a transaction comes: its requester at the first, else the arbiter before. -/
def Txn.input (t : Txn) (k : Nat) : ReqId :=
  match k with
  | 0 => t.req
  | i + 1 =>
    match t.route[i]? with
    | some (.link b) => BitVec.ofNat 12 b
    | some (.hub s) => BitVec.ofNat 12 (0x100 + s)
    | some (.port p) => BitVec.ofNat 12 (0x200 + p)
    | some .centre | none => 0x300#12

/-- Whether the abutment has been asked to power down, or has: what reaches it then is answered NOT_PRESENT (R236). -/
def Dev.abutmentDown (d : Dev) : Bool := (d.xing domAbutment).hold

/-- Whether a transaction that waits at hop k could move on if the arbiter granted it: it is the first entry of its cell, its
requester's older ones to the same word have left, and the next cell, or the target's buffer, has room (R233, R304). -/
def Dev.readyAt (d : Dev) (t : Txn) (k : Nat) : Bool :=
  (match k with
    | 0 => !d.behindOlder t
    | i + 1 => (d.chan (domAt t.domains i) (domAt t.domains (i + 1))).entries.head? == some t.id)
  && (if k + 1 < t.route.length then decide ((d.chan (domAt t.domains k) (domAt t.domains (k + 1))).entries.length < 8)
      else d.roomAtTarget t)

/-- Whether the arbiter at which a transaction waits on its way grants it now (R224, R225). -/
def Dev.mayPass (d : Dev) (t : Txn) : Bool :=
  match t.st with
  | .path k =>
    d.readyAt t k && t.goesFirst (t.input k) (d.txns.filterMap (fun (u : Txn) =>
      match u.st with
      | .path j => if u.id != t.id && u.gate == t.gate && d.readyAt u j then some (u, u.input j) else none
      | .queued | .sent | .backoff _ | .remote | .answered _ => none))
  | .queued | .sent | .backoff _ | .remote | .answered _ => false

/-- A grant at hop k: the others that wait there are passed, and the transaction goes into the cell behind it, or reaches its target. The
abutment answers NOT_PRESENT once it has been asked to power down (R236). -/
def Dev.pass (d : Dev) (t : Txn) (k : Nat) : Dev :=
  let ds := t.domains
  let d1 : Dev := { d with txns := (d.txns.filter (fun u => u.id != t.id)).map (fun u =>
    match u.st with
    | .path j => if u.gate == t.gate then u.overtaken t (u.input j) (t.input k) else u
    | .queued | .sent | .backoff _ | .remote | .answered _ => u) }
  let d0 := if k = 0 then d1 else d1.onChan (domAt ds (k - 1)) (domAt ds k) (fun x => x.take t.id)
  let d2 := match t.gate with | some g => d0.gateSeen t g | none => d0
  let t1 := { t with passed := 0, passedBy := [], starved := false, since := d.clk }
  match t.gate with
  | some (.port _) =>
    if d.abutmentDown then { d2 with txns := d2.txns ++ [{ t1 with st := .answered .notPresent }] }
    else if k + 1 < t.route.length then
      ({ d2 with txns := d2.txns ++ [{ t1 with st := .path (k + 1) }] }).onChan (domAt ds k) (domAt ds (k + 1)) (fun x => x.put t.id)
    else (d2.cross t k).land t1
  | _ =>
    if k + 1 < t.route.length then
      ({ d2 with txns := d2.txns ++ [{ t1 with st := .path (k + 1) }] }).onChan (domAt ds k) (domAt ds (k + 1)) (fun x => x.put t.id)
    else (d2.cross t k).land t1

/-- Grants on the way, one after another; the first argument bounds their number. -/
def Dev.flowN : Nat → Dev → Dev
  | 0, d => d
  | n + 1, d =>
    match d.txns.find? d.mayPass with
    | some t => (match t.st with
      | .path k => Dev.flowN n (d.pass t k)
      | .queued | .sent | .backoff _ | .remote | .answered _ => d)
    | none => d

/-- The transactions on their way move on as far as the arbiters, the cells and the targets let them (DESIGN CHOICE, log entry 108: a
transfer takes no time of its own). -/
def Dev.flow (d : Dev) : Dev := if d.txns.any Txn.onWay then Dev.flowN (5 * d.txns.length) d else d

/-- Whether nothing waits on the way and the target has room: a transaction then meets no arbiter at which another waits. -/
def Dev.clearWay (d : Dev) (t : Txn) : Bool := !d.txns.any Txn.onWay && d.roomAtTarget t

/-- A transaction put on its way (R216): it passes its route's cells and reaches its target at once, or waits at its first arbiter. -/
def Dev.arrive (d : Dev) (t : Txn) : Dev :=
  if d.clearWay t then
    if d.abutmentDown && t.route.any (fun g => g matches .port _) then { d with txns := d.txns ++ [{ t with st := .answered .notPresent }] }
    else (t.route.foldl (fun x g => x.gateSeen t g) ((List.range t.domains.length).foldl (fun x i => x.cross t i) d)).land t
  else ({ d with txns := d.txns ++ [{ t with st := .path 0, passed := 0, passedBy := [], since := d.clk }] }).flow

/-! ### Sending (R217, R235) -/

/-- A transaction with the number given, before it is sent. -/
def newTxn (id : Nat) (req : ReqId) (cls : BitVec 2) (ty : TxnType) (addr : W32) (origin : Origin) : Txn :=
  { id := id, req := req, cls := cls, paced := false, ty := ty, addr := addr, count := 1, parts := [], ev := none, evKind := .event,
    ddr := none, dest := none, origin := origin, st := .sent, refusals := 0, delayed := false, overfull := false, starved := false,
    passed := 0, passedBy := [], since := 0 }

/-- An access of a core to a word of its own bent's SRAM at the bank's arbiter (R33, R247): the one that waits there already, or a new one. -/
def Dev.nearTxn (d : Dev) (c seq : Nat) (cls : BitVec 2) (ty : TxnType) (w : Nat) : Txn :=
  let t := { newTxn seq (BitVec.ofNat 12 c) cls ty (BitVec.ofNat 32 w) .discard with paced := (d.core c).psr.paced, since := d.clk }
  (d.near.find? (fun u => u.id == seq && u.req == t.req && u.ty == ty && u.addr == t.addr)).getD t

/-- Such an access at the arbiter of its bank: granted, which passes the others that wait there, or left to wait (R224, R225). -/
def Dev.nearAccess (d : Dev) (t : Txn) : Bool × Dev :=
  let d1 : Dev := { d with near := d.near.filter (fun u => d.nearLive u && u.req != t.req) }
  let rival := fun (u : Txn) => u.buffered && u.sameArb t
  if t.goesFirst t.req ((d1.txns.filter (fun u => rival u && !d1.behindOlder u) ++ d1.near.filter (fun u => u.sameArb t)).map (fun u => (u, u.req))) then
    (true, d1.passRivals t rival)
  else (false, { d1 with near := d1.near ++ [t] })

/-- The banks behind the words of one access, in ascending order, each by its first word (R248). -/
def bankWords : List Nat → List Nat
  | [a, b] => if a / 0x2000 = b / 0x2000 then [a] else if b < a then [b, a] else [a, b]
  | l => l

/-- An access of a core claims the banks of its words in its own bent's SRAM, all before it uses one (R248): whether each arbiter has granted it. -/
def Dev.nearClaim (d : Dev) (c seq : Nat) (cls : BitVec 2) (ty : TxnType) (ws : List Nat) : Bool × Dev :=
  let go := fun (x : Dev) (w : Nat) => x.nearAccess (d.nearTxn c seq cls ty w)
  match (bankWords ws).find? (fun w => !(go d w).1) with
  | some w => go d w
  | none => (true, (bankWords ws).foldl (fun x w => (go x w).2) d)

/-- The tracker entries of a requester (R235); a core's are counted as operations (R132). -/
def entryLimit (r : ReqId) : Option Nat :=
  let n := r.toNat
  if n < 0x800 then none
  else if n = 0x800 then some 16
  else if n < 0x803 then some 256
  else if n < 0x805 then some 64
  else if 0x810 ≤ n then some 32
  else some 8

/-- The tracker entries that a requester has in use (R235). -/
def Dev.entriesUsed (d : Dev) (r : ReqId) : Nat := (d.txns.filter (fun t => t.req == r && t.st != .queued)).length

/-- Whether a requester has a free tracker entry. -/
def Dev.entryFree (d : Dev) (r : ReqId) : Bool :=
  match entryLimit r with
  | some n => decide (d.entriesUsed r < n)
  | none => true

/-- A transaction sent, or kept until its requester has a free entry (R235). -/
def Dev.send (d : Dev) (t : Txn) : Dev :=
  if d.entryFree t.req then d.arrive t else { d with txns := d.txns ++ [{ t with st := .queued }] }

/-- A transaction sent: it takes the next number (DESIGN CHOICE, log entry 8), and P1 ends with it (R425). -/
def Dev.issueTxn (d : Dev) (f : Nat → Txn) : Dev := ({ d with nextId := d.nextId + 1 } : Dev).leaveP1.send (f d.nextId)

/-- A transaction leaves its requester's tracker, and the next one that waits for the entry is sent (R235). -/
def Dev.leave (d : Dev) (t : Txn) : Dev :=
  let d1 := (d.dropTxn t.id).flow
  match d1.txns.find? (fun u => u.req == t.req && u.st == .queued) with
  | some u => if d1.entryFree u.req then (d1.dropTxn u.id).arrive u else d1
  | none => d1

/-- A response crosses the cells of its transaction's path on its way back (R36): its requester has kept a tracker entry for it (R235), so no cell
holds it back (DESIGN CHOICE, log entry 108). -/
def Dev.crossBack (d : Dev) (t : Txn) : Dev :=
  let ds := t.domains.reverse
  (List.range (ds.length - 1)).foldl (fun x i => x.onChan (domAt ds i) (domAt ds (i + 1)) (fun c => (c.put t.id).take t.id)) d

/-- A transaction answered: its response is on its way, and its place at the target is free. -/
def Dev.answer (d : Dev) (id : Nat) (r : Resp) : Dev :=
  ((match d.txn id with
    | some t => d.crossBack t
    | none => d).onTxn id (fun t => { t with st := .answered r })).flow

/-- A C2 transaction that met its target at or above the threshold turned away (R229). -/
def Dev.turnAway (d : Dev) (t : Txn) : Dev :=
  let d1 := match t.target with
    | some g => (d.onTarget g (fun x => { x with refs := satInc x.refs })).strobe (0xDC3 + 8 * g.1)
    | none => d
  d1.answer t.id .retry

/-- A transaction raised to a class (R222, R223): one that waits out a refusal is sent again at once, and one that its target turns away will be when
its RETRY has come. -/
def Dev.raiseTxn (d : Dev) (id : Nat) (cls : BitVec 2) : Dev :=
  match d.txn id with
  | none => d
  | some t =>
    match t.st with
    | .backoff _ => (d.dropTxn id).arrive { t with cls := cls }
    | .queued | .path _ | .sent | .answered .retry => (d.onTxn id (fun u => { u with cls := cls })).flow
    | .remote | .answered _ => d

/-- The cells without the entries of transactions that exist no more. -/
def Dev.tidyChans (d : Dev) : Dev :=
  { d with chans := d.chans.map (fun e => (e.1, { e.2 with entries := e.2.entries.filter (fun n => d.txns.any (fun t => t.id == n)) })) }

/-- An EVT of the part's own blocks to a source of a bent (R217, R222). -/
def Dev.sendEvt (d : Dev) (req : ReqId) (cls : BitVec 2) (b n : Nat) (k : EvtKind) : Dev :=
  d.issueTxn (fun id => { newTxn id req cls .evt 0#32 .discard with
    count := 0, ev := some (BitVec.ofNat 7 b, BitVec.ofNat 8 n), evKind := k })

/-! ### Line-cache fills (R217, R221, R222) -/

/-- The requester of a fill for bent b: the fill agent of its span (R221). -/
def fillReq (b : Nat) : ReqId := BitVec.ofNat 12 (0x810 + spanOf b)

/-- The transaction by which line n of code store comes to bent b. -/
def Dev.fillOf (d : Dev) (b n : Nat) : Option Txn := d.txns.find? (fun t => t.origin == .fill (BitVec.ofNat 7 b) n)

/-- One request of a bent's cores taken up by the fill agent: a FILL in the class of the core that missed, or the one under way raised to the
highest of their classes (R222). -/
def Dev.takeFill (d : Dev) (b : Nat) (e : Nat × BitVec 2) : Dev :=
  match d.fillOf b e.1 with
  | some t => if e.2.toNat < t.cls.toNat then d.raiseTxn t.id e.2 else d
  | none => d.issueTxn (fun id =>
      { newTxn id (fillReq b) e.2 .fill (BitVec.ofNat 32 (16 * e.1)) (.fill (BitVec.ofNat 7 b) e.1) with count := 16 })

/-- The fill agent takes up what a bent's cores have requested (DESIGN CHOICE, log entry 108: no later than the next tick). -/
def Dev.takeFills (d : Dev) (b : Nat) : Dev :=
  let x := d.bent b
  if x.fills.isEmpty then d else x.fills.foldl (fun y e => y.takeFill b e) (d.setBent b { x with fills := [] })

/-- The transaction of a paced core's line request. -/
def Dev.pacedOf (d : Dev) (c n : Nat) : Option Txn := d.txns.find? (fun t => t.origin == .paced (BitVec.ofNat 11 c) n)

/-- The lines that a paced core waits for: for its vector line registers, and the one that it has requested (R154, R472). -/
def Core.pacedWants (k : Core) : List (Nat × Nat) := (if k.psr.paced then k.vecReq else []) ++ k.reqLine.toList

/-- Whether a transaction is a paced fetch of core c for a line that it does not wait for any more: the request was replaced (R154). -/
def Txn.oldFetch (t : Txn) (c : Nat) (wants : List (Nat × Nat)) : Bool :=
  match t.origin with
  | .paced x m => x.toNat == c && !wants.any (fun e => e.1 == m)
  | _ => false

/-- The fill agent takes up the lines that a paced core has requested, as C0 FILLs with the paced mark (R217, R222); a request that is replaced
is gone (DESIGN CHOICE, log entry 130). -/
def Dev.takePaced (d : Dev) (c : Nat) : Dev :=
  let wants := (d.core c).pacedWants
  let d1 := if d.txns.any (fun t => t.oldFetch c wants) then ({ d with txns := d.txns.filter (fun t => !t.oldFetch c wants) } : Dev).tidyChans.flow else d
  wants.foldl (fun x e =>
    if (x.pacedOf c e.1).isSome then x
    else x.issueTxn (fun id => { newTxn id (fillReq (bentOf c)) 0#2 .fill (BitVec.ofNat 32 (16 * e.1)) (.paced (BitVec.ofNat 11 c) e.1) with
      count := 16, paced := true })) d1

/-- The signals of a core on their way, each of which holds a tracker entry (R132, R235). -/
def Dev.signalsOut (d : Dev) (c : Nat) : Nat := (d.txns.filter (fun t => t.origin == .signal (BitVec.ofNat 11 c))).length

/-! ### Counts of a requester (R231, R238) -/

/-- The number n of a centre requester's ID 800h + n. -/
def centreOf (r : ReqId) : Nat := r.toNat - 0x800

/-- A delayed transaction counted. -/
def Dev.countDelay (d : Dev) (r : ReqId) : Dev :=
  if isCoreReq r then d.onCore r.toNat (fun k => { k with deckDly := satInc k.deckDly })
  else d.onCreq (centreOf r) (fun x => { x with dly := satInc x.dly })

/-- A transaction answered: the delayed one is counted, once (R228, R231). -/
def Dev.countLate (d : Dev) (t : Txn) : Dev := if t.delayed && t.cls == 1#2 then d.countDelay t.req else d

/-- A RETRY counted; `first` says whether it is the transaction's first. -/
def Dev.countRetry (d : Dev) (r : ReqId) (first : Bool) : Dev :=
  if isCoreReq r then d.onCore r.toNat (fun k =>
    { k with refRetries := satInc k.refRetries, refTrans := if first then satInc k.refTrans else k.refTrans })
  else d.onCreq (centreOf r) (fun x =>
    { x with retries := satInc x.retries, trans := if first then satInc x.trans else x.trans })

/-- A NOT_PRESENT counted; a core's bent raises DECK_NOTPRESENT (R237). -/
def Dev.countNp (d : Dev) (r : ReqId) : Dev :=
  if isCoreReq r then
    (d.onCore r.toNat (fun k => { k with deckNp := satInc k.deckNp })).raise 609 (bentOf r.toNat) (BitVec.ofNat 16 (slotOf r.toNat))
  else d.onCreq (centreOf r) (fun x => { x with np := satInc x.np })

end Sys2Proof.Machine
end

