-- ==== Sys2Proof/Machine/HostOps.lean ====
section
/-! DEFINITION. What the part sends to its hosts: MSI-X vectors and In-Band Interrupts (R326, R327, R329), and the final results
of ACCEPTED commands (R346 to R349). -/
namespace Sys2Proof.Machine

/-! ### Statuses of R349 -/

def stDone : BitVec 16 := 0x0000#16
def stAccepted : BitVec 16 := 0x0001#16
def stBusyPort : BitVec 16 := 0x0100#16
def stDelayed : BitVec 16 := 0x0101#16
def stRefCap : BitVec 16 := 0x0102#16
def stRefHeld : BitVec 16 := 0x0103#16
def stBadOpcode : BitVec 16 := 0x0200#16
def stBadLength : BitVec 16 := 0x0201#16
def stBadParam : BitVec 16 := 0x0202#16
def stWrongMode : BitVec 16 := 0x0203#16
def stAuthFail : BitVec 16 := 0x0300#16
def stRollback : BitVec 16 := 0x0301#16
def stFaultActive : BitVec 16 := 0x0400#16
def stUnitAbsent : BitVec 16 := 0x0500#16

/-! ### Vectors -/

/-- Whether a port is a PCI Express endpoint now: port B only when BIFURC is 1 (R307). -/
def Dev.isPcie (d : Dev) : Port → Bool
  | .a => true
  | .b => d.bifurc

/-- Word w of a port's MSI-X table: four words an entry; the vector control word resets to masked (PRESUMED, log entry 25). -/
def PortSt.msixWord (t : PortSt) (w : Nat) : W32 := Tab.find (if w % 4 = 3 then 1#32 else 0#32) t.msixTab w

/-- Bus Master Enable: bit 2 of the command register of configuration space (PRESUMED, log entry 25). -/
def PortSt.busMaster (t : PortSt) : Bool := bitOf (Tab.find 0#32 t.cfg 1) 2

/-- Whether a vector can be sent at once (R327); in D3hot the endpoint sends no request (R310). -/
def PortSt.canSend (t : PortSt) (v : Nat) : Bool :=
  t.linkUp && t.busMaster && t.pmState != 3#2 && !bitOf (t.msixWord (4 * v + 3)) 0

/-- A vector of a port: sent, or its pending bit set; a cause repeated while the bit is pending makes no message of its own (R327). -/
def PortSt.vector (t : PortSt) (v : BitVec 11) : PortSt :=
  if !t.pba.getLsbD v.toNat && t.canSend v.toNat then { t with lastMsix := some v, msixSent := t.msixSent + 1 }
  else { t with pba := t.pba ||| (1#2048 <<< v.toNat) }

/-- A vector sent on a port; port B in I3C mode sends an In-Band Interrupt in place of vectors 0 to 3 and nothing for a queue
(R329). -/
def Dev.sendVec (d : Dev) (p : Port) (v : BitVec 11) : Dev :=
  if d.isPcie p then d.onPort p (fun t => t.vector v)
  else if v.toNat < 4 then d.onPort p (fun t => { t with lastIbi := some (v.setWidth 8 + 1#8) })
  else d

/-- What a port has sent its host, which no power state undoes. -/
def PortSt.sent (t : PortSt) : PortSt := { lastMsix := t.lastMsix, msixSent := t.msixSent, lastIbi := t.lastIbi }

/-- An error logged by AER with the header of its request (R310): the header's words are free values, since the base specification lays them out
(DESIGN CHOICE, log entry 147). -/
def Dev.aerLog (d : Dev) (p : Port) : Dev :=
  if (d.port p).aerHdr.isSome then d else { d.onPort p (fun t => { t with aerHdr := some d.freeCtr }) with freeCtr := d.freeCtr + 4 }

/-- A vector sent on both ports. -/
def Dev.bothVec (d : Dev) (v : BitVec 11) : Dev := (d.sendVec .a v).sendVec .b v

/-! ### Final results -/

/-- The job of a source that has ended: the final result at its port (R346), or a CREPLY flit to its origin (R392);
DELAYED in place of DONE where a Deck transaction of it was (R231, R345). -/
def Dev.finalResult (d : Dev) (j : Job) (st0 det0 : BitVec 16) : Dev :=
  let st := if st0 = stDone ∧ j.late ≠ 0 then stDelayed else st0
  let det := if st0 = stDone ∧ j.late ≠ 0 then BitVec.ofNat 16 (min j.late 0xFFFF) else det0
  match j.src with
  | .port p =>
    let d1 := d.onPort p (fun t => { t with aseq := j.seq, ares := st ++ det, aelap := elapsedUs j.start d.clk,
                                            arun := false, adone := true })
    if j.noVec then d1 else d1.sendVec p 0#11
  | .fwd u o => d.sendCreply u o true st det j.seq (elapsedUs j.start d.clk) []

/-- Whether a job only remains to give back a migration's target. -/
def Job.isUndo (j : Job) : Bool :=
  match j.kind with
  | .undo _ => true
  | _ => false

/-- What remains of a job that has ended: the target of an unfinished migration. -/
def Job.remains (j : Job) : List Job :=
  match j.kind with
  | .migrate _ t _ _ => [{ j with kind := .undo t }]
  | _ => []

/-- The jobs that a test picks end with a final result; the others stay. -/
def Dev.endJobs (d : Dev) (pick : Job → Bool) (st det : BitVec 16) : Dev :=
  let p := fun j : Job => pick j && !j.isUndo
  (d.ks.jobs.filter p).foldl (fun x j => x.finalResult j st det)
    (d.onKs (fun k => { k with jobs := k.jobs.flatMap (fun j => if p j then j.remains else [j]) }))

/-- The bound loop with a number. -/
def Dev.loop (d : Dev) (n : BitVec 16) : Option Loop := d.ks.loops.find? (fun l => l.num == n)

/-- The loops bound to a core. -/
def Dev.loopsOn (d : Dev) (c : Nat) : List Loop := d.ks.loops.filter (fun l => l.core.toNat == c)

/-- The loops bound in a bent. -/
def Dev.loopsIn (d : Dev) (b : Nat) : List Loop := d.ks.loops.filter (fun l => bentOf l.core.toNat == b)

/-- The loop of a core whose trigger is source n, if one is bound. -/
def Dev.loopOf (d : Dev) (c n : Nat) : Option Loop :=
  d.ks.loops.find? (fun l => l.core.toNat == c && l.trigger.toNat == n)

/-- Whether an iteration of the loop of core c with trigger n is in progress, noted (R86). -/
def Dev.markIter (d : Dev) (c n : Nat) (v : Bool) : Dev :=
  d.onKs (fun k => { k with loops := k.loops.map (fun l =>
    if l.core.toNat == c && l.trigger.toNat == n then { l with inIter := v } else l) })

/-- Whether a core holds a loop with the safety flag (R446). -/
def Dev.holdsSafety (d : Dev) (c : Nat) : Bool := (d.loopsOn c).any (fun l => l.safety)

end Sys2Proof.Machine
end

