-- ==== Sys2Proof/Machine/BiuOps.lean ====
section
/-! DEFINITION. The bent interrupt unit (spec 06_bent_interrupt_unit.md): the states of its sources, coalescing groups, the
choice of a target, claim and completion, the priority stacks; with them the slack meters' part (R167, R169) and the switch
points of living service (R468). -/
namespace Sys2Proof.Machine

/-! ### Sources -/

/-- A queue source (R192). -/
def isQueueSrc (n : Nat) : Bool := decide (n < 64)
/-- A latched source (R192). -/
def isLatchedSrc (n : Nat) : Bool :=
  (decide (64 ≤ n) && decide (n < 144)) || (decide (176 ≤ n) && decide (n < 180)) || (decide (184 ≤ n) && decide (n < 192))

/-- Source n of a BIU. -/
def Biu.source (u : Biu) (n : Nat) : Src := Tab.find {} u.src n
/-- Source n replaced. -/
def Biu.setSource (u : Biu) (n : Nat) (x : Src) : Biu := { u with src := Tab.put u.src n x }
/-- Source n changed by f. -/
def Biu.onSource (u : Biu) (n : Nat) (f : Src → Src) : Biu := u.setSource n (f (u.source n))
/-- Coalescing group g. -/
def Biu.group (u : Biu) (g : Nat) : Group := Tab.find {} u.groups g
/-- Group g changed by f. -/
def Biu.onGroup (u : Biu) (g : Nat) (f : Group → Group) : Biu := { u with groups := Tab.put u.groups g (f (u.group g)) }
/-- Alarm comparator k. -/
def Biu.alarm (u : Biu) (k : Nat) : Alarm := Tab.find {} u.alarms k
/-- Comparator k changed by f. -/
def Biu.onAlarm (u : Biu) (k : Nat) (f : Alarm → Alarm) : Biu := { u with alarms := Tab.put u.alarms k (f (u.alarm k)) }
/-- The priority stack of a slot, top first (R202). -/
def Biu.stack (u : Biu) (i : Nat) : List StkEnt := Tab.find [] u.prioStacks i
/-- The priority stack of a slot replaced. -/
def Biu.setStack (u : Biu) (i : Nat) (l : List StkEnt) : Biu := { u with prioStacks := Tab.put u.prioStacks i l }

/-- Source n of bent b. -/
def Dev.source (d : Dev) (b n : Nat) : Src := (d.bent b).biu.source n
/-- Source n of bent b changed by f. -/
def Dev.onSource (d : Dev) (b n : Nat) (f : Src → Src) : Dev := d.onBiu b (fun u => u.onSource n f)

/-! ### Slack meters (R167, R169) -/

/-- Slack entry k of slot i. -/
def Scribe.entry (a : Scribe) (i k : Nat) : Slack := Tab.find {} a.slack (4 * i + k)
/-- Slack entry k of slot i changed by f. -/
def Scribe.onEntry (a : Scribe) (i k : Nat) (f : Slack → Slack) : Scribe :=
  { a with slack := Tab.put a.slack (4 * i + k) (f (a.entry i k)) }

/-- Every valid slack entry whose loop source n triggers, changed by f. -/
def Scribe.onSource (a : Scribe) (n : Nat) (f : Slack → Slack) : Scribe :=
  { a with slack := a.slack.map (fun e => if e.2.valid && e.2.source.toNat == n then (e.1, f e.2) else e) }

/-- The moment the iteration that source n starts became eligible: the stamp while it is PENDING to CLAIMED (R167). -/
def Src.since (x : Src) : Option (BitVec 64) :=
  match x.st with
  | .idle | .held => none
  | .pending | .offered _ | .entering _ | .claimed _ => some x.stamp

/-- Timebase ticks turned into TIME units, rounded up (R169). -/
def unitsUp (ticks : Nat) : Nat := (ticks + 31) / 32

/-- The iteration boundary of source n's loop on slot i: its elapsed time enters the worst of the period (R167, R169). -/
def Dev.slackBoundary (d : Dev) (b n : Nat) (stamp : BitVec 64) : Dev :=
  let e := BitVec.ofNat 32 (unitsUp ((d.tbAt b).toNat - stamp.toNat))
  d.onScr b (fun a => a.onSource n (fun x =>
    { x with accWorst := if x.accWorst.toNat < e.toNat then e else x.accWorst, accRan := true, missed := false, opened := none }))

/-- The moment at which the iteration of source n's loop became eligible: that of one which a RETI has left open, else the stamp given (R86,
R167). -/
def Scribe.iterationStart (a : Scribe) (n : Nat) (stamp : BitVec 64) : BitVec 64 :=
  match a.slack.find? (fun e => e.2.valid && e.2.source.toNat == n) with
  | some e => e.2.opened.getD stamp
  | none => stamp

/-! ### Becoming pending -/

/-- A trigger eligible again: an overrun while an iteration that a RETI left open has no boundary yet, unless it was counted before; else the next
iteration has not missed (R169). -/
def Slack.eligible (e : Slack) (counted : Bool) : Slack :=
  if e.opened.isSome then (if counted then e else { e with ovr := satInc e.ovr }) else { e with missed := false }

/-- Source n becomes PENDING with a stamp; its loop's next iteration is measured from it (R198, R167). -/
def Dev.pendSrc (d : Dev) (b n : Nat) (stamp : BitVec 64) : Dev :=
  let again := (d.source b n).again
  (d.onSource b n (fun x => { x with st := .pending, stamp := stamp })).onScr b (fun a => a.onSource n (fun e => e.eligible again))

/-- One member of a releasing group: HELD to PENDING, and to IDLE at once when a held source's level is low (R198, R209). -/
def Dev.releaseMember (d : Dev) (b n : Nat) : Dev :=
  if isLatchedSrc n || (d.source b n).level then d.pendSrc b n (d.tbAt b)
  else d.onSource b n (fun x => { x with st := .idle })

/-- A group releases (R209): its HELD members become PENDING with the release as stamp, the collection closes, and its time
limit is disarmed. -/
def Dev.releaseGroup (d : Dev) (b g : Nat) (byTime : Bool) : Dev :=
  let members := ((d.bent b).biu.src.filter (fun e => e.2.heldIn.toNat == g && e.2.st == .held)).map (·.1)
  let d1 := d.onBiu b (fun u =>
    let u1 := u.onGroup g (fun x => { x with collect := false, events := 0#8, byTime := byTime })
    if (u1.group g).ten then u1.onAlarm (24 + g / 2) (fun a => { a with armed := false }) else u1)
  members.foldl (fun x n => x.releaseMember b n) d1

/-- One event counted by a group (R209, R210): the first opens a collection and starts its time limit; the count releases it. -/
def Dev.groupEvent (d : Dev) (b g : Nat) : Dev :=
  let x := (d.bent b).biu.group g
  let d1 :=
    if x.collect then d.onBiu b (fun u => u.onGroup g (fun y => { y with events := satInc y.events }))
    else d.onBiu b (fun u =>
      let u1 := u.onGroup g (fun y => { y with collect := true, events := 1#8, effCount := y.count })
      if x.ten then u1.onAlarm (24 + g / 2) (fun a => { a with mode := 1#2, armed := true, cmp := d.timeAt b + x.limit.setWidth 32 })
      else u1)
  let y := (d1.bent b).biu.group g
  if y.effCount.toNat ≤ y.events.toNat then d1.releaseGroup b g false else d1

/-- Whether a CLAIMED source is asserted so that it will pend at its completion without a group's delay: its loop's trigger is eligible
again (R167, R169). -/
def Src.eligibleAgain (x : Src) : Bool := x.en && x.level && !x.cge && !x.again

/-- A CLAIMED source that has become eligible again: an overrun of the loop whose iteration is in progress, once an iteration (R169, R170). -/
def Dev.noteOverrun (d : Dev) (b n : Nat) : Dev :=
  if (d.source b n).eligibleAgain then
    (d.onSource b n (fun x => { x with again := true })).onScr b (fun a => a.onSource n (fun e => { e with ovr := satInc e.ovr }))
  else d

/-- An event of a CLAIMED source: the moment of the first is kept for the completion (R198). -/
def Dev.eventAfterClaim (d : Dev) (b n : Nat) : Dev :=
  (d.onSource b n (fun x => { x with after := some (x.after.getD (d.tbAt b)) })).noteOverrun b n

/-- Source n HELD by the group it belongs to (R198, R209). -/
def Dev.holdSrc (d : Dev) (b n : Nat) : Dev := d.onSource b n (fun x => { x with st := .held, heldIn := x.cg })

/-- An event of source n counted by its group: the one that holds it while it is HELD, else the one its BIU_SRC names, if any (R209; a
change of CGE and CG applies from the next assertion, R212). -/
def Dev.countEvent (d : Dev) (b n : Nat) : Dev :=
  let s := d.source b n
  if s.st == .held then d.groupEvent b s.heldIn.toNat else if s.cge then d.groupEvent b s.cg.toNat else d

/-- A source is asserted or gets an event (R198, R209); `counted` says whether its group counts it. Only an enabled one leaves IDLE. -/
def Dev.assertSrc (d : Dev) (b n : Nat) (counted : Bool) : Dev :=
  let s := d.source b n
  let d1 := match s.st with
    | .idle => if !s.en then d else if s.cge then d.holdSrc b n else d.pendSrc b n (d.tbAt b)
    | .claimed _ => d.eventAfterClaim b n
    | .held | .pending | .offered _ | .entering _ => d
  if s.en && counted then d1.countEvent b n else d1

/-- The latch of a latched source is set (R192, R193). -/
def Dev.setLatch (d : Dev) (b n : Nat) : Dev :=
  (d.onSource b n (fun x => { x with level := true })).assertSrc b n true

/-- The level of a held source rises (R192); a queue member's group counts items instead of rises (R209). -/
def Dev.raiseLevel (d : Dev) (b n : Nat) : Dev :=
  if (d.source b n).level then d
  else (d.onSource b n (fun x => { x with level := true })).assertSrc b n (!isQueueSrc n)

/-- The level of a held source falls: a PENDING source becomes IDLE (R198). -/
def Dev.fallLevel (d : Dev) (b n : Nat) : Dev :=
  d.onSource b n (fun x => if x.st == .pending then { x with level := false, st := .idle } else { x with level := false })

/-- The level of a held source set. -/
def Dev.setLevel (d : Dev) (b n : Nat) (v : Bool) : Dev := if v then d.raiseLevel b n else d.fallLevel b n

/-- An item completed in the queue of a queue source: an event its group counts (R292, R209). -/
def Dev.queueItem (d : Dev) (b n : Nat) : Dev :=
  let d1 := match (d.source b n).st with
    | .claimed _ => d.eventAfterClaim b n
    | .idle | .held | .pending | .offered _ | .entering _ => d
  if (d.source b n).en then d1.countEvent b n else d1

/-- An event that the receiving domain takes: the latch of a latched source, or an item of a queue source (R301). -/
def Dev.takeEvent (d : Dev) (b n : Nat) : Dev := if isQueueSrc n then d.queueItem b n else d.setLatch b n

/-- An event from another domain into bent b's source n, through its EVENT cell (R299, R301, R302): while the bent's clock is stopped the
cell keeps it, and asks for the clock: P1 ends (R305, R425). -/
def Dev.biuEvent (d : Dev) (b n : Nat) : Dev :=
  let out := Tab.find 0 (d.xing b).lines n
  match d.eventInto b n out with
  | (true, d') =>
    let d1 := if (d.xing b).pulse || (d.xing b).hold then d'.onXing b (fun x => { x with lines := Tab.put x.lines n (out + 1) }) else d'
    if (d.xing b).hold then d1.leaveP1 else d1.takeEvent b n
  | (false, d') => d'.raise 641 b 0#16

/-- A level from another domain into bent b's held source n, through its VALUE cell (R300): while the bent's clock is stopped, or the cell
waits for an agreeing pair, the receiver keeps the value it has (R305). -/
def Dev.levelInto (d : Dev) (b n : Nat) (v : Bool) : Dev :=
  if (d.xing b).hold || (d.xing b).frozen then d.onXing b (fun x => { x with levels := Tab.put x.levels n v }) else d.setLevel b n v

/-- A granted code accepted by a bent; a change makes the regulator slew (R161). The slew lasts |Δc| × 0.5 µs + 1 µs: REGULATOR_SLEW_DONE is
its end. -/
def Scribe.granted (a : Scribe) (code : Nat) (held : Bool) : Scribe :=
  if code = a.grant.toNat then { a with held := held } else { a with held := held, grant := BitVec.ofNat 7 code, slew := true }

/-- The newest values that a domain's VALUE cells hold are accepted (R300, R305): the timebase, the levels of a bent's sources, the code granted to
it. -/
def Dev.takeLevels (d : Dev) (b : Nat) : Dev :=
  let x := d.xing b
  let d1 := x.levels.foldl (fun y e => y.setLevel b e.1 e.2) (d.onXing b (fun z => { z with levels := [], grant := none, frozen := false, tb := none }))
  match x.grant with
  | some g => d1.onScr b (fun a => a.granted g.1.toNat g.2)
  | none => d1

/-- The events that a bent's EVENT cells have kept while its clock was stopped are taken (R305). -/
def Dev.takeEvents (d : Dev) (b : Nat) : Dev :=
  (d.xing b).lines.foldl (fun x e => (List.range e.2).foldl (fun y _ => y.takeEvent b e.1) x) (d.onXing b (fun x => { x with lines := [] }))

/-- EN becomes 1 (R198): a source already asserted is treated as an assertion. -/
def Dev.enableSrc (d : Dev) (b n : Nat) : Dev :=
  if (d.source b n).en then d
  else
    let d1 := d.onSource b n (fun x => { x with en := true })
    match (d1.source b n).st with
    | .idle => if (d1.source b n).level then d1.assertSrc b n true else d1
    | .claimed _ => d1.noteOverrun b n
    | .held | .pending | .offered _ | .entering _ => d1

/-- The state of a source whose EN becomes 0 (R198, R211): PENDING, HELD or OFFERED becomes IDLE; ENTERING and CLAIMED go on. -/
def SrcState.disabled : SrcState → SrcState
  | .idle | .held | .pending | .offered _ => .idle
  | .entering i => .entering i
  | .claimed i => .claimed i

/-- EN becomes 0 (R198). -/
def Dev.disableSrc (d : Dev) (b n : Nat) : Dev :=
  d.onSource b n (fun x => { x with en := false, st := x.st.disabled })

/-! ### Switch points (R468, R472) -/

/-- Whether a word is poisoned (R244). -/
def Dev.poisoned (d : Dev) (w : Nat) : Bool := d.poison.contains w

/-- A word marked poisoned. -/
def Dev.poisonWord (d : Dev) (w : Nat) : Dev := { d with poison := if d.poison.contains w then d.poison else d.poison ++ [w] }

/-- What read i of a command finds. -/
def foundIn (f : Finds) (i : Nat) : Found := f.getD i .good

/-- The poison marks of a code line (R259): bit i for word i. -/
def Dev.marks (d : Dev) (line : Nat) : BitVec 16 :=
  (List.range 16).foldl (fun v i => if d.poisoned (16 * line + i) then v ||| (1#16 <<< i) else v) 0#16

/-- The slice and the bank of a code word (R257). -/
def codeSlice (w : Nat) : Nat := (w - 0x02000000) / 0x100000
def codeBank (w : Nat) : Nat := w / 0x20000 % 8

/-- The reserved region (R260). -/
def isReserved (w : Nat) : Bool := decide (0x02000000 ≤ w) && decide (w < 0x02040000)

/-- A line read from the array (R259, R268): the words it finds correctable are counted; one UE and CST_UE where the line holds a poisoned
word. -/
def Dev.readLine (d : Dev) (line : Nat) (f : Finds) : Dev :=
  let w := 16 * line
  let ids := List.range 16
  let bad := ids.filter (fun i => foundIn f i == .uncorrectable)
  let ones := (ids.filter (fun i => !d.poisoned (w + i) && (match foundIn f i with | .single _ => true | .good | .uncorrectable => false))).length
  let d1 := (bad.foldl (fun x i => x.poisonWord (w + i)) d)
  let d2 := if ones = 0 then d1 else d1.onSpan (codeSlice w) (fun s => { s with cstCe := satAdd s.cstCe ones })
  match ids.find? (fun i => d2.poisoned (w + i)) with
  | none => d2
  | some i => (d2.onSpan (codeSlice w) (fun s => { s with cstUe := satInc s.cstUe, cstErrAddr := BitVec.ofNat 32 (w + i) })).raise 547
      (codeSlice w) (BitVec.ofNat 16 (codeBank w))

/-- The code words from address a to a + n - 1 read by Keystone or the security engine (R259): whether one of them is poisoned, each line that
holds a poisoned word counted. -/
def Dev.readSpan (d : Dev) (a n : Nat) : Bool × Dev :=
  let near := d.poison.filter (fun w => isCode w && decide (a / 16 ≤ w / 16) && decide (w / 16 ≤ (a + n - 1) / 16))
  (near.any (fun w => decide (a ≤ w) && decide (w < a + n)), ((near.map (fun w => w / 16)).eraseDups).foldl (fun x l => x.readLine l []) d)

/-- A line read from the array for a fill, a paced fetch or a vector line register: its marks, and its errors counted (R259). The reserved
region reads as zeros (R260). -/
def Dev.fetchLine (d : Dev) (line : Nat) (f : Finds) : BitVec 16 × Dev :=
  if isReserved (16 * line) || !isCode (16 * line) then (0#16, d)
  else
    let d1 := d.readLine line f
    (d1.marks line, d1)

/-- A line requested for a vector line register of a core (R133, R472): of an unpaced core by its bent's fill agent, of a paced one in its own
slot of the code store frame. The reserved region reads as zeros at once (R260). -/
def Dev.loadVector (d : Dev) (c line : Nat) : Dev :=
  let k := d.core c
  if isReserved (16 * line) || !isCode (16 * line) then d.onCore c (fun x => { x with vecLines := x.vecLines ++ [(line, 0#16)] })
  else if k.vecReq.any (fun e => e.1 == line) then d
  else
    let d1 := d.onCore c (fun x => { x with vecReq := x.vecReq ++ [(line, d.clk)] })
    if k.psr.paced || (d.bent (bentOf c)).fills.any (fun e => e.1 == line) then d1
    else d1.onBent (bentOf c) (fun x => { x with fills := x.fills ++ [(line, k.cls)] })

/-- A requested line in its vector line register (R133). -/
def Core.gotVector (k : Core) (line : Nat) (v : BitVec 16) : Core :=
  if k.vecReq.any (fun e => e.1 == line) then
    { k with vecReq := k.vecReq.filter (fun e => e.1 != line), vecLines := k.vecLines ++ [(line, v)] }
  else k

/-- The code line of a vector. -/
def lineOf (pc : W32) : Nat := pc.toNat / 16

/-- The vector line register for a new vector: in place of the old vector's line when no other vector of the core uses that line,
else in a free register (R472). -/
def Dev.switchLine (d : Dev) (c : Nat) (oldV newV : W32) (trig : Nat) : Dev :=
  let used := (d.bent (bentOf c)).biu.src.any (fun e => e.1 != trig && e.2.mask.getLsbD (slotOf c) && lineOf e.2.vec == lineOf oldV)
  let d1 := if used then d else d.onCore c (fun k => { k with vecLines := k.vecLines.filter (fun e => e.1 != lineOf oldV) })
  if (d1.core c).vecLines.any (fun e => e.1 == lineOf newV) then d1 else d1.loadVector c (lineOf newV)

/-- The moment of a migration's step 3 noted in its job (R475). -/
def Dev.noteGap (d : Dev) (c n : Nat) : Dev :=
  match d.loopOf c n with
  | none => d
  | some l => d.onKs (fun k => { k with jobs := k.jobs.map (fun j =>
      match j.kind with
      | .migrate lp t st none => if lp == l.num then { j with kind := .migrate lp t st (some d.time) } else j
      | _ => j) })

/-- The switch entry of slot i applied and disarmed (R468): KIND 0 writes the vector, KIND 1 clears EN. -/
def Dev.applySwitch (d : Dev) (b i : Nat) : Dev :=
  let w := Tab.find {} (d.bent b).sw i
  let d1 := d.onBent b (fun x => { x with sw := Tab.put x.sw i { w with armed := false } })
  let n := w.src.toNat
  if w.kind then (d1.disableSrc b n).noteGap (coreOf b i) n
  else
    let old := (d1.source b n).vec
    ((d1.onSource b n (fun x => { x with vec := w.vec })).onBent b (fun x => { x with updates := satInc x.updates })).switchLine
      (coreOf b i) old w.vec n

/-- A switch point of source n: every armed switch of it is applied (R468). -/
def Dev.switchPoint (d : Dev) (b n : Nat) : Dev :=
  (List.range 16).foldl (fun x i =>
    let w := Tab.find {} (x.bent b).sw i
    if w.armed && w.src.toNat == n then x.applySwitch b i else x) d

/-! ### Offers (R199) -/

/-- The return of source n to PENDING as a switch point: that of the switches armed while it was OFFERED or ENTERING and since which it has not
been claimed (R468). -/
def Dev.switchBack (d : Dev) (b n : Nat) : Dev :=
  (List.range 16).foldl (fun x i =>
    let w : Switch := Tab.find {} (x.bent b).sw i
    if w.armed && w.back && w.src.toNat == n then x.applySwitch b i else x) d

/-- A claim of source n: the switches armed for it wait for its iteration boundary (R468). -/
def Bent.switchClaimed (x : Bent) (n : Nat) : Bent :=
  { x with sw := x.sw.map (fun e => if e.2.src.toNat == n then (e.1, { e.2 with back := false }) else e) }

/-- A source returns to PENDING with its stamp kept, which can be a switch point (R198, R468); what the rule leaves open of its level and of its
EN, see log entries 133 and 134. -/
def Dev.returnPending (d : Dev) (b n : Nat) : Dev :=
  (d.onSource b n (fun x => { x with st := .pending })).switchBack b n

/-- Whether a slot is a candidate for a source (R199). -/
def Dev.isCandidate (d : Dev) (b n i : Nat) : Bool :=
  let k := d.core (coreOf b i)
  (d.source b n).mask.getLsbD i && (k.status == .waiting || k.status == .running) && decide (k.frames.length < 8)
    && !(d.bent b).biu.bad.getLsbD i

/-- The effective priority of a slot: that of the source being entered, else CURPRI (R199). -/
def Dev.effPri (d : Dev) (b i : Nat) : Nat :=
  match (d.core (coreOf b i)).entry with
  | some e => (d.source b e.src.toNat).pri.toNat
  | none => (d.core (coreOf b i)).psr.curPri.toNat

/-- Whether a slot is idle: WAITING with no entry in progress. -/
def Dev.idleSlot (d : Dev) (b i : Nat) : Bool :=
  (d.core (coreOf b i)).status == .waiting && (d.core (coreOf b i)).entry.isNone

/-- Whether source n may pre-empt priority r in bent b (R195). -/
def Dev.mayPreempt (d : Dev) (b n r : Nat) : Bool :=
  decide ((d.source b n).pri.toNat + (d.bent b).biu.preMargin.toNat < r)

/-- Whether a slot is able for a source (R199). -/
def Dev.isAble (d : Dev) (b n i : Nat) : Bool :=
  d.isCandidate b n i && (d.idleSlot b i || ((d.core (coreOf b i)).psr.i && d.mayPreempt b n (d.effPri b i)))

/-- The source offered to a slot. -/
def Dev.offeredTo (d : Dev) (b i : Nat) : Option Nat :=
  ((d.bent b).biu.src.find? (fun e => e.2.st == .offered (BitVec.ofNat 4 i))).map (·.1)

/-- The order in which pending sources compete: lower PRI first, then lower number (R196). -/
def Dev.urgency (d : Dev) (b n : Nat) : Nat := 256 * (d.source b n).pri.toNat + n

/-- Whether a slot already holds an offer more urgent than source n (R199). -/
def Dev.offerMoreUrgent (d : Dev) (b n i : Nat) : Bool :=
  match d.offeredTo b i with
  | some m => decide (d.urgency b m < d.urgency b n)
  | none => false

/-- One slot weighed against the best so far (R199). -/
def Dev.betterSlot (d : Dev) (b n : Nat) (best : Option Nat) (i : Nat) : Option Nat :=
  if !d.isAble b n i || d.offerMoreUrgent b n i then best
  else match best with
    | none => some i
    | some j =>
      if d.effPri b j < d.effPri b i || (d.effPri b i == d.effPri b j && d.idleSlot b i && !d.idleSlot b j) then some i
      else some j

/-- The slot chosen for source n (R199). -/
def Dev.chooseSlot (d : Dev) (b n : Nat) : Option Nat := (List.range 16).foldl (d.betterSlot b n) none

/-- Whether source n has a candidate (R205). -/
def Dev.hasCandidate (d : Dev) (b n : Nat) : Bool := (List.range 16).any (d.isCandidate b n)

/-- One pending source offered, or its UNDELIV bit set when it has no candidate (R199, R205); only one whose EN is 1 takes part (R194). -/
def Dev.decideOne (d : Dev) (b n : Nat) : Dev :=
  if (d.source b n).st != .pending || !(d.source b n).en then d
  else match d.chooseSlot b n with
    | some i =>
      let d1 := match d.offeredTo b i with
        | some m => d.returnPending b m
        | none => d
      d1.onSource b n (fun x => { x with st := .offered (BitVec.ofNat 4 i) })
    | none =>
      if d.hasCandidate b n then d else d.onBiu b (fun u => { u with undeliv := setBit u.undeliv n true })

/-- A number put into a list kept rising. -/
def insertSorted (k : Nat) : List Nat → List Nat
  | [] => [k]
  | h :: t => if k ≤ h then k :: h :: t else h :: insertSorted k t

/-- A list of numbers in rising order. -/
def sortNat (l : List Nat) : List Nat := l.foldr insertSorted []

/-- One delivery decision of bent b, most urgent sources first (R199). -/
def Dev.biuDecide (d : Dev) (b : Nat) : Dev :=
  ((sortNat ((d.bent b).biu.src.map (fun e => d.urgency b e.1))).map (· % 256)).foldl (fun x n => x.decideOne b n) d

/-- Offers to a slot that is no longer able return to PENDING (R198). -/
def Dev.recheckSlot (d : Dev) (b i : Nat) : Dev :=
  match d.offeredTo b i with
  | some n => if d.isAble b n i then d else d.returnPending b n
  | none => d

/-- Sources OFFERED to or ENTERING a slot return to PENDING (R204, R144). -/
def Dev.dropOffers (d : Dev) (b i : Nat) : Dev :=
  ((d.bent b).biu.src.filter (fun e => e.2.st == .offered (BitVec.ofNat 4 i) || e.2.st == .entering (BitVec.ofNat 4 i))).foldl
    (fun x e => x.returnPending b e.1) d

/-! ### Claim and completion -/

/-- WATCH comparators of source n changed by f (R208). -/
def Biu.onWatch (u : Biu) (n : Nat) (f : Alarm → Alarm) : Biu :=
  { u with alarms := u.alarms.map (fun e => if e.2.mode == 3#2 && e.2.wsrc.toNat == n then (e.1, f e.2) else e) }

/-- The claim of source n by slot i (R201, R202, R208). -/
def Dev.claim (d : Dev) (b i n : Nat) : Dev :=
  let s := d.source b n
  (d.onBent b (fun x => x.switchClaimed n)).onBiu b (fun u =>
    let u1 := u.setSource n { s with st := .claimed (BitVec.ofNat 4 i), level := if isLatchedSrc n then false else s.level, after := none, again := false }
    let u2 := if !isLatchedSrc n && !s.level then
        { u1 with spurCount := satInc u1.spurCount, spurLast := BitVec.ofNat 8 n } else u1
    let u3 := u2.setStack i ({ src := BitVec.ofNat 8 n, pri := s.pri, stamp := s.stamp } :: u2.stack i)
    u3.onWatch n (fun a => { a with cmp := timeOf s.stamp + a.per, armed := true }))

/-- The completion of source n (R200): it pends again, is held again, or becomes IDLE. -/
def Dev.complete (d : Dev) (b n : Nat) : Dev :=
  let s := d.source b n
  let d1 := d.onBiu b (fun u => (u.onWatch n (fun a => { a with armed := false })).setSource n { s with st := .idle, after := none })
  (if s.level && s.en then
    if s.cge then
      let d2 := d1.holdSrc b n
      if ((d2.bent b).biu.group s.cg.toNat).collect then d2 else d2.groupEvent b s.cg.toNat
    else d1.pendSrc b n (s.after.getD (d.tbAt b))
  else d1).onSource b n (fun x => { x with again := false })

/-- Every source on a slot's stack passes to its completion sample and the stack is cleared (R203, R204). -/
def Dev.clearStack (d : Dev) (b i : Nat) : Dev :=
  ((d.bent b).biu.stack i).foldl (fun x e => x.complete b e.src.toNat) (d.onBiu b (fun u => u.setStack i []))

/-- STACK_ORDER (R203): the stack is cleared with completion samples, BAD is set, the fault source is raised. -/
def Dev.stackOrder (d : Dev) (b i : Nat) : Dev :=
  ((d.clearStack b i).onBiu b (fun u => { u with bad := setBit u.bad i true })).raise (256 + b) b (BitVec.ofNat 16 i)

/-- BAD of a slot cleared (R203). -/
def Dev.clearBad (d : Dev) (b i : Nat) : Dev := d.onBiu b (fun u => { u with bad := setBit u.bad i false })

end Sys2Proof.Machine
end

