-- ==== Sys2Proof/Machine/Ops.lean ====
section
/-! DEFINITION. The shared operations of a core: stopping, taking a trap (R64), frames (R82), fetch (R133 to R137, R154), and the
rule by which an instruction issues and completes (R129 to R132, R62). -/
namespace Sys2Proof.Machine

/-! ### Switch entries disarmed (R470) -/

/-- Whether a job is an update or a migration of a loop on core c. -/
def Dev.switchJobOn (d : Dev) (c : Nat) (j : Job) : Bool :=
  match j.kind with
  | .update n _ | .migrate n _ _ _ => (match d.loop n with | some l => l.core.toNat == c | none => false)
  | _ => false

/-- The switch entry of a slot disarmed; the command behind it ends with the result given (R470). -/
def Dev.disarm (d : Dev) (b i : Nat) (st det : BitVec 16) : Dev :=
  let w := Tab.find {} (d.bent b).sw i
  if w.armed then
    (d.onBent b (fun x => { x with sw := Tab.put x.sw i { w with armed := false } })).endJobs (d.switchJobOn (coreOf b i)) st det
  else d

/-! ### Stopping a core and taking a trap -/

/-- A core becomes STOPPED: an armed switch is disarmed with FAULT_ACTIVE naming the bent's trap source (R470), offers and
entries return to PENDING (R204), a core that holds a safety loop raises SAFETY_MISS (R446). -/
def Dev.stopCore (d : Dev) (c : Nat) : Dev :=
  let b := bentOf c
  let i := slotOf c
  let d1 := (d.disarm b i stFaultActive (BitVec.ofNat 16 b)).onCore c (fun k => { k with status := .stopped, entry := none })
  let d2 := d1.dropOffers b i
  if d.holdsSafety c then d2.raise 752 b (BitVec.ofNat 16 i) else d2

/-- A frame of a core as an entry pushes it (R82, R145). -/
def Core.frame (k : Core) : Frame :=
  { pc := k.pc, psr := k.psr, g28 := k.reg 28, g29 := k.reg 29, g30 := k.reg 30, g31 := k.reg 31, wake := k.wake, cls := k.cls,
    serving := k.serving }

/-- The top frame popped and restored (R82, R116). -/
def Core.popFrame (k : Core) : Core :=
  match k.frames with
  | [] => k
  | f :: r =>
    ((((({ k with frames := r, pc := f.pc, psr := f.psr, wake := f.wake, cls := f.cls, serving := f.serving } : Core).setReg 28
      f.g28).setReg 29 f.g29).setReg 30 f.g30).setReg 31 f.g31)

/-- An entry in progress abandoned (R144): the core is as it was before the acceptance, but for what older loads have written since. -/
def Core.abandonEntry (k : Core) : Core :=
  match k.entry with
  | none => k
  | some e =>
    if e.pushed then
      match k.frames with
      | f :: r => { k with entry := none, frames := r, pc := f.pc, psr := f.psr, wake := f.wake, cls := f.cls, serving := f.serving }
      | [] => { k with entry := none }
    else { k with entry := none, psr := { k.psr with curPri := 0xFF#8 }, serving := none }

/-- Taking a trap (R64): 1. the trap record, with the PC at the trapping instruction; an entry in progress is abandoned (R144);
2. the core stops; 3. its bent's core-trap source is raised, with the logical slot in its detail as R437 has it, though R23 gives fault sources
physical numbers (DESIGN CHOICE, log entry 125). -/
def Dev.takeTrap (d : Dev) (c : Nat) (pc : W32) (t : TrapRec) : Dev :=
  let d1 := d.onCore c (fun k => { k.abandonEntry with trap := { t with valid := true, pc := pc }, pc := pc })
  (d1.stopCore c).raise (bentOf c) (bentOf c) (BitVec.ofNat 16 (16 * t.cause.toNat + slotOf c))

/-! ### Trap records (R65) -/

/-- A trap record without an address. -/
def trapOf (cause detail : BitVec 4) (opnd : BitVec 2) (ta tb tr : Byte) : TrapRec :=
  { cause := cause, detail := detail, opnd := opnd, tagA := ta, tagB := tb, tagRes := tr }

/-- ILLEGAL (R92); TAGA and TAGB read 00h (DESIGN CHOICE, log entry 129). -/
def trapIllegal : TrapRec := trapOf 5#4 0#4 0#2 0#8 0#8 0xFF#8
/-- BOUNDS with its detail and address (R67 to R69, R114). -/
def trapBounds (detail : BitVec 4) (addr : W32) (ta : Byte) : TrapRec :=
  { trapOf 4#4 detail 0#2 ta 0#8 0xFF#8 with addr := addr }
/-- MEM_ERROR with its detail and address (R245); TAGA and TAGB read 00h, a base register's tag too (DESIGN CHOICE, log entry 126). -/
def trapMemError (detail : BitVec 4) (addr : W32) (split : Bool) : TrapRec :=
  { trapOf 6#4 detail 0#2 0#8 0#8 0xFF#8 with addr := addr, split := split }

/-! ### Fetch (R133 to R137, R530; R149, R154) -/

/-- A line put first in a list of at most n lines, the least recently used leaving it (R133). -/
def lruPut (n : Nat) (l : List (Nat × BitVec 16)) (e : Nat × BitVec 16) : List (Nat × BitVec 16) :=
  (e :: l.filter (fun x => x.1 != e.1)).take n

/-- The marks of a line in a list of lines. -/
def lineIn (l : List (Nat × BitVec 16)) (n : Nat) : Option (BitVec 16) := (l.find? (fun x => x.1 == n)).map (·.2)

/-- The marks of the line from which a core can issue now: of a paced core the current or the delivered line (R154); else a
vector line register, the line buffer or the bent line cache (R134). -/
def Dev.lineFor (d : Dev) (c : Nat) (n : Nat) : Option (BitVec 16) :=
  let k := d.core c
  if k.psr.paced then
    match k.curLine, k.nextLine with
    | some (m, v), nx => if m = n then some v else (match nx with | some (m', v') => if m' = n then some v' else none | none => none)
    | none, some (m', v') => if m' = n then some v' else none
    | none, none => none
  else
    match lineIn k.vecLines n with
    | some v => some v
    | none =>
      match lineIn k.lineBuf n with
      | some v => some v
      | none => lineIn (d.bent (bentOf c)).lineCache n

/-- Whether a bent has asked for a line in a class or a higher one. -/
def Dev.fillAsked (d : Dev) (b n : Nat) (cls : BitVec 2) : Bool :=
  (d.bent b).fills.any (fun e => e.1 == n && decide (e.2.toNat ≤ cls.toNat))
    || (match d.fillOf b n with
        | some t => decide (t.cls.toNat ≤ cls.toNat)
        | none => false)

/-- A fill of a line requested for core c in its class (R222, R530), unless its bent has asked for it in that class or a higher one. -/
def Dev.requestFill (d : Dev) (c n : Nat) : Dev :=
  let b := bentOf c
  let x := d.bent b
  let cls := (d.core c).cls
  if isCode (16 * n) && (lineIn x.lineCache n).isNone && !d.fillAsked b n cls then
    d.setBent b { x with fills := x.fills ++ [(n, cls)] }
  else d

/-- The first instruction of line n enters F2 of an unpaced core: the line buffer holds the line from now on, unless a vector line
register does (R126, R133), and the next line is requested (R530). -/
def Dev.enterF2 (d : Dev) (c n : Nat) : Dev :=
  let k := d.core c
  let b := bentOf c
  let d1 :=
    match lineIn k.vecLines n, lineIn k.lineBuf n, lineIn (d.bent b).lineCache n with
    | some _, _, _ => d
    | none, some v, _ => d.setCore c { k with lineBuf := lruPut 32 k.lineBuf (n, v) }
    | none, none, some v => d.setCore c { k with lineBuf := lruPut 32 k.lineBuf (n, v) }
    | none, none, none => d
  d1.requestFill c (n + 1)

/-- An instruction has issued from line n of a paced core: the line is current, and the next one is requested (R154). -/
def Dev.touchLine (d : Dev) (c n : Nat) : Dev :=
  let k := d.core c
  if !k.psr.paced then d
  else match k.curLine with
    | some (m, _) => if m = n then d else
        d.setCore c { k with curLine := k.nextLine, nextLine := none, reqLine := some (n + 1, d.clk) }
    | none => d.setCore c { k with curLine := k.nextLine, nextLine := none, reqLine := some (n + 1, d.clk) }

/-- F1 selects the line of a new PC (R126): a line at hand enters F2, an absent one is requested (R134); a paced core requests a line
that is neither current, nor delivered, nor already requested (R154). A request that is replaced is gone, whatever has become of its slot (DESIGN
CHOICE, log entry 130). -/
def Dev.selectLine (d : Dev) (c n : Nat) : Dev :=
  let k := d.core c
  if k.psr.paced then
    if (d.lineFor c n).isSome then d
    else match k.reqLine with
      | some (m, _) => if m = n then d else d.setCore c { k with reqLine := some (n, d.clk), nextLine := none }
      | none => d.setCore c { k with reqLine := some (n, d.clk), nextLine := none }
  else if (d.lineFor c n).isSome then d.enterF2 c n else d.requestFill c n

/-- The BTB after a branch or CALL at pc resolved taken to a target: 16 sets of 4 ways by PC bits [3:0] (R133, R135). -/
def btbPut (l : List (W32 × W32)) (pc target : W32) : List (W32 × W32) :=
  let rest := l.filter (fun e => e.1 != pc)
  (pc, target) :: ((rest.filter (fun e => e.1 &&& 15#32 == pc &&& 15#32)).take 3 ++
    rest.filter (fun e => e.1 &&& 15#32 != pc &&& 15#32))

/-- The BTB after a branch at pc resolved not taken (R135). -/
def btbDrop (l : List (W32 × W32)) (pc : W32) : List (W32 × W32) := l.filter (fun e => e.1 != pc)

/-! ### Issue (R129 to R132, R149) -/

/-- What an instruction needs to issue: registers read and written, whether it reads the flags, which flags it writes (N, Z, V,
C from bit 3 down), whether it needs the divider. -/
structure Need where
  reads : List Nat := []
  writes : List Nat := []
  rdFlags : Bool := false
  wrFlags : BitVec 4 := 0#4
  divider : Bool := false

/-- The registers a load will write. -/
def LoadDest.regs : LoadDest → List Nat
  | .word rd => [rd.toNat]
  | .byte rd _ => [rd.toNat]
  | .pair pd _ => [2 * pd.toNat, 2 * pd.toNat + 1]

/-- Whether register r waits for an outstanding load (R131). -/
def Core.loadPending (k : Core) (r : Nat) : Bool := r != 0 && k.loads.any (fun e => !e.dead && e.dest.regs.contains r)

/-- Whether the divide in EX holds an instruction back (R131, R141): the flags, while it still has some of them to write. -/
def Core.divHolds (k : Core) (n : Need) : Bool :=
  match k.div with
  | none => false
  | some v =>
    n.divider || (n.rdFlags && v.flagsLive != 0#4) || n.reads.any (fun r => r != 0 && r == v.rd.toNat)
      || n.writes.any (fun r => r != 0 && (r == v.rd.toNat || r == v.ra.toNat || r == v.rb.toNat))

/-- Store-buffer entries in use; a split store holds two (R132). -/
def Core.storeCount (k : Core) : Nat := k.stores.foldl (fun n e => n + e.parts.length) 0

/-- Tracker entries that the core's loads, stores and divide have in use (R132). -/
def Core.inFlight (k : Core) : Nat := k.loads.length + k.storeCount + (if k.div.isSome then 1 else 0)

/-- Whether every older instruction has completed and every older store has been accepted (R62, R85, R149). -/
def Core.drained (k : Core) : Bool := k.loads.all (fun e => e.dead) && k.stores.isEmpty && k.div.isNone

/-- Whether an instruction with these needs can issue on core k, but for its fetch (R131, R132, R149). -/
def Core.canIssue (k : Core) (n : Need) : Bool :=
  k.status == .running && k.entry.isNone && !n.reads.any k.loadPending && !n.writes.any k.loadPending && !k.divHolds n
    && (!k.psr.paced || k.drained)

/-- What EX makes of an instruction. -/
inductive ExRes where
  /-- It does not issue yet. -/
  | hold
  /-- It traps. -/
  | trap (t : TrapRec)
  /-- It completes; the PC advances by one word. -/
  | next (k : Core)
  /-- It completes with another PC. -/
  | goto (k : Core) (pc : W32)

/-- The divide in EX after a younger instruction has completed, having written some flags (R131, R142). -/
def Core.passDiv (k : Core) (n : Need) : Core :=
  match k.div with
  | none => k
  | some v => if n.divider then k else { k with div := some { v with younger := true, flagsLive := v.flagsLive &&& ~~~ n.wrFlags } }

/-- A core after an instruction that went to a new PC. -/
def Core.advance (k : Core) (n : Need) (pc : W32) : Core := { k.passDiv n with pc := pc, issued := k.issued + 1 }

/-- An instruction at pc done: the core after it, then fetch, where the next PC lies in another line; a core that returned to idle
fetches nothing. -/
def Dev.finish (d : Dev) (c : Nat) (n : Need) (k : Core) (pc pc' : W32) : Dev :=
  let d1 := (d.setCore c (k.advance n pc')).touchLine c (lineOf pc)
  if k.status == .running && lineOf pc' != lineOf pc then d1.selectLine c (lineOf pc') else d1

/-- Whether an entry that core c could accept waits for its divide, past which a younger instruction has completed: no further
instruction issues meanwhile (R142). -/
def Dev.entryWaits (d : Dev) (c : Nat) : Bool :=
  (d.core c).psr.i && (d.offeredTo (bentOf c) (slotOf c)).isSome
    && (match (d.core c).div with
        | some v => v.younger
        | none => false)

/-- Whether core c issues nothing: for want of a tracker entry, 24 in all (R132, R235), while an entry waits, or while the core is still (R421). -/
def Dev.stalls (d : Dev) (c : Nat) : Bool :=
  d.entryWaits c || decide (24 ≤ (d.core c).inFlight + d.signalsOut c) || d.coreStill c

/-- A precise trap: it waits until every older instruction has completed and every older store is accepted (R62). -/
def Dev.preciseTrap (d : Dev) (c : Nat) (t : TrapRec) : Dev :=
  if (d.core c).drained then d.takeTrap c (d.core c).pc t else d

/-- The last word of code store: a tagged instruction there that is not a taken branch raises BOUNDS (R114). -/
def Core.atEnd (k : Core) : Bool := !k.psr.compact && k.pc == 0x027FFFFF#32

/-- One instruction of core c (the BOUNDS trap at 027F_FFFFh records the tags 00h: DESIGN CHOICE, log entry 97): nothing while it cannot
issue; MEM_ERROR where its word was fetched poisoned (R246); else what EX makes of it. At 027F_FFFFh MEM_ERROR and ILLEGAL go before BOUNDS (DESIGN
CHOICE, log entry 128). -/
def Dev.run (d : Dev) (c : Nat) (n : Need) (ex : Core → ExRes) : Dev :=
  let k := d.core c
  if !k.canIssue n || d.stalls c then d
  else match d.lineFor c (lineOf k.pc) with
    | none => d
    | some marks =>
      if marks.getLsbD (k.pc.toNat % 16) then d.preciseTrap c (trapMemError 3#4 k.pc false)
      else match ex k with
        | .hold => d
        | .trap t => d.preciseTrap c t
        | .next k' => if k.atEnd then d.preciseTrap c (trapBounds 4#4 0x02800000#32 0#8) else d.finish c n k' k.pc (k.pc + 1#32)
        | .goto k' pc' => d.finish c n k' k.pc pc'

/-! ### Instructions with an effect outside the core's registers -/

/-- What EX makes of an instruction that reaches beyond the core's registers. -/
inductive DevRes where
  /-- It does not issue yet. -/
  | hold
  /-- It does not issue yet, and waits at the arbiter of a bank. -/
  | waits (d : Dev)
  /-- It traps, with what its access left (the counts of an uncorrectable word). -/
  | trap (t : TrapRec) (d : Dev)
  /-- It completes. -/
  | next (d : Dev)
  /-- It completes with another PC. -/
  | goto (d : Dev) (pc : W32)
  /-- A load sent to its target: it issues, and completes when its data returns (R528). -/
  | sent (d : Dev)

/-- A precise trap whose instruction left something on the device. -/
def Dev.preciseTrapOn (d d' : Dev) (c : Nat) (t : TrapRec) : Dev :=
  if (d.core c).drained then d'.takeTrap c (d.core c).pc t else d

/-- One instruction of core c that reaches beyond its registers, by the same rules as `Dev.run`. -/
def Dev.runDev (d : Dev) (c : Nat) (n : Need) (ex : Core → DevRes) : Dev :=
  let k := d.core c
  if !k.canIssue n || d.stalls c then d
  else match d.lineFor c (lineOf k.pc) with
    | none => d
    | some marks =>
      if marks.getLsbD (k.pc.toNat % 16) then d.preciseTrap c (trapMemError 3#4 k.pc false)
      else match ex k with
        | .hold => d
        | .waits d' => d'
        | .trap t d' => d.preciseTrapOn d' c t
        | .next d' =>
          if k.atEnd then d.preciseTrap c (trapBounds 4#4 0x02800000#32 0#8) else d'.finish c n (d'.core c) k.pc (k.pc + 1#32)
        | .goto d' pc' => d'.finish c n (d'.core c) k.pc pc'
        | .sent d' =>
          if k.atEnd then d.preciseTrap c (trapBounds 4#4 0x02800000#32 0#8)
          else (d'.finish c n (d'.core c) k.pc (k.pc + 1#32)).onCore c (fun x => { x with div := k.div })

end Sys2Proof.Machine
end

