-- ==== Sys2Proof/Machine/Operands.lean ====
section
/-! DEFINITION. Operand forms and tag checks of the core instructions (spec 02_core_programming_model.md R41, R46, R56 to R61, R67
to R69; 03_instruction_set.md R95, R96, R102, R109, R113). -/
namespace Sys2Proof.Machine

/-! ### Tags (R46) -/

/-- The kind of a tag, bits [7:5]. -/
def kindOf (t : Byte) : Nat := t.toNat / 32
/-- The unit of a tag, bits [4:0]. -/
def unitOf (t : Byte) : BitVec 5 := t.setWidth 5
/-- The tag of a kind and a unit. -/
def mkTag (k : Nat) (u : BitVec 5) : Byte := BitVec.ofNat 8 (32 * k + u.toNat)

def kRaw : Nat := 0
def kInt : Nat := 1
def kFix : Nat := 2
def kPtr : Nat := 3
def kTime : Nat := 4
def kBool : Nat := 5
def kCode : Nat := 6
def kNv : Nat := 7

/-- Kind RAW, unit 0. -/
def tagRaw : Byte := 0x00#8
/-- Kind INT, unit 0. -/
def tagInt : Byte := 0x20#8
/-- Kind TIME. -/
def tagTime : Byte := 0x80#8
/-- Kind BOOL. -/
def tagBool : Byte := 0xA0#8
/-- Kind CODE. -/
def tagCode : Byte := 0xC0#8
/-- Kind NV, unit 0. -/
def tagNv : Byte := 0xE0#8

/-- Payload 0 with tag E0h: what an absent value reads as (R49, R237). -/
def wordNv : Word := { pay := 0#32, tag := tagNv }
/-- Payload 0 with tag RAW. -/
def wordZero : Word := { pay := 0#32, tag := tagRaw }

/-! ### Classes (R56) -/

/-- The classes with tag checks on pairs. -/
inductive Cls where | additive | compare | multiply | divide | logical | shift
deriving DecidableEq, Repr

/-- The kind pairs that an entry of the instruction chapter lists (R96, R99, R103, R106). -/
inductive Pairs where | add | sub | fixed | cmp | mul | div | logic
deriving DecidableEq, Repr

/-- The result kind of an accepted pair; none where the entry does not list it. -/
def Pairs.result : Pairs → Nat → Nat → Option Nat
  | .add, 0, 0 => some kRaw
  | .add, 1, 1 => some kInt
  | .add, 2, 2 => some kFix
  | .add, 4, 4 => some kTime
  | .add, 3, 1 => some kPtr
  | .add, 6, 1 => some kCode
  | .add, _, _ => none
  | .sub, 3, 3 => some kInt
  | .sub, 0, 0 => some kRaw
  | .sub, 1, 1 => some kInt
  | .sub, 2, 2 => some kFix
  | .sub, 4, 4 => some kTime
  | .sub, 3, 1 => some kPtr
  | .sub, 6, 1 => some kCode
  | .sub, _, _ => none
  | .fixed, 0, 0 => some kRaw
  | .fixed, 2, 2 => some kFix
  | .fixed, _, _ => none
  | .cmp, 0, 0 => some kRaw
  | .cmp, 1, 1 => some kInt
  | .cmp, 2, 2 => some kFix
  | .cmp, 3, 3 => some kPtr
  | .cmp, 4, 4 => some kTime
  | .cmp, 5, 5 => some kBool
  | .cmp, 6, 6 => some kCode
  | .cmp, _, _ => none
  | .mul, 0, 0 => some kRaw
  | .mul, 1, 1 => some kInt
  | .mul, 2, 1 => some kFix
  | .mul, 1, 2 => some kFix
  | .mul, 4, 1 => some kTime
  | .mul, _, _ => none
  | .div, 0, 0 => some kRaw
  | .div, 1, 1 => some kInt
  | .div, 2, 1 => some kFix
  | .div, 4, 1 => some kTime
  | .div, _, _ => none
  | .logic, 0, 0 => some kRaw
  | .logic, 5, 5 => some kBool
  | .logic, 1, 1 => some kInt
  | .logic, _, _ => none

/-- Causes (R65). -/
def cNv : BitVec 4 := 1#4
def cType : BitVec 4 := 2#4
def cUnit : BitVec 4 := 3#4

/-- A failed check on a pair of tags. -/
def tagTrap (cause detail : BitVec 4) (opnd : BitVec 2) (ta tb : Byte) : TrapRec := trapOf cause detail opnd ta tb 0xFF#8

/-- Whether an operand of unit 31 is refused in a class (R58). -/
def Cls.refuses31 : Cls → Bool
  | .additive | .compare | .multiply | .divide => true
  | .logical | .shift => false

/-- The rules on a single operand (R57, R58, R60): detail 4 (the unit must be 0, or bit 4 of a PTR whose unit is read) before
detail 3 (unit 31). A PTR whose unit is not read takes part in neither (R57, DEDUCED, log entry 92). -/
def operandFault (cls : Cls) (readsPtr mustZero : Bool) (t : Byte) : Option (BitVec 4) :=
  let k := kindOf t
  let u := unitOf t
  if (k == kTime || k == kBool || k == kCode || mustZero) && u != 0#5 then some 4#4
  else if k == kPtr && readsPtr && u.getLsbD 4 then some 4#4
  else if cls.refuses31 && k != kRaw && (k != kPtr || readsPtr) && u == 31#5 then some 3#4
  else none

/-- The rules on the pair, and the result tag (R52, R53, R56, R58). -/
def pairTag (x : Bent) (cls : Cls) (rk : Nat) (ta tb : Byte) : Except TrapRec Byte :=
  let ka := kindOf ta
  let kb := kindOf tb
  match cls with
  | .additive =>
    if (ka == kPtr || ka == kCode) && kb == kInt then .ok ta
    else if ka != kRaw && ta != tb then .error (tagTrap cUnit 0#4 3#2 ta tb)
    else if ka == kPtr then .ok tagInt
    else .ok (if ka == kRaw then tagRaw else ta)
  | .compare =>
    if ka != kRaw && ta != tb then .error (tagTrap cUnit 0#4 3#2 ta tb) else .ok 0xFF#8
  | .logical =>
    if ka != kRaw && ta != tb then .error (tagTrap cUnit 0#4 3#2 ta tb) else .ok (if ka == kRaw then tagRaw else ta)
  | .multiply =>
    if rk == kRaw then .ok tagRaw
    else if ka == kTime then .ok tagTime
    else if x.product (unitOf ta) (unitOf tb) = 31#5 then .error (tagTrap cUnit 1#4 3#2 ta tb)
    else .ok (mkTag rk (x.product (unitOf ta) (unitOf tb)))
  | .divide =>
    if rk == kRaw then .ok tagRaw
    else if ka == kTime then .ok tagTime
    else match x.quotient (unitOf ta) (unitOf tb) with
      | none => .error (tagTrap cUnit 2#4 3#2 ta tb)
      | some u => .ok (mkTag rk u)
  | .shift => .ok (if ka == kRaw then tagRaw else ta)

/-- The checks of an instruction on two operands (R56 to R60), in the order NV_USE, TYPE_FAULT, UNIT_FAULT; `refuseBool` refuses a
BOOL pair (R105). -/
def checkPair (x : Bent) (cls : Cls) (tab : Pairs) (refuseBool : Bool) (ta tb : Byte) : Except TrapRec Byte :=
  let ka := kindOf ta
  let kb := kindOf tb
  if ka == kNv then .error (tagTrap cNv 0#4 1#2 ta tb)
  else if kb == kNv then .error (tagTrap cNv 0#4 2#2 ta tb)
  else match tab.result ka kb with
    | none => .error (tagTrap cType 0#4 3#2 ta tb)
    | some rk =>
      if refuseBool && ka == kBool then .error (tagTrap cType 0#4 3#2 ta tb)
      else
        let reads := cls == .compare || (ka == kPtr && kb == kPtr)
        match operandFault cls reads false ta with
        | some det => .error (tagTrap cUnit det 1#2 ta tb)
        | none =>
          match operandFault cls reads (kb == kInt && (ka == kPtr || ka == kCode || ka == kTime)) tb with
          | some det => .error (tagTrap cUnit det 2#2 ta tb)
          | none => pairTag x cls rk ta tb

/-- The checks of a shift (R106): value RAW, INT or FIX; amount INT or RAW with unit 0. A TYPE_FAULT names the operand that is refused,
not the pair (DESIGN CHOICE, log entry 94). -/
def checkShift (ta tb : Byte) : Except TrapRec Byte :=
  let ka := kindOf ta
  let kb := kindOf tb
  if ka == kNv then .error (tagTrap cNv 0#4 1#2 ta tb)
  else if kb == kNv then .error (tagTrap cNv 0#4 2#2 ta tb)
  else if !(ka == kRaw || ka == kInt || ka == kFix) then .error (tagTrap cType 0#4 1#2 ta tb)
  else if !(kb == kRaw || kb == kInt) then .error (tagTrap cType 0#4 2#2 ta tb)
  else if kb == kInt && unitOf tb != 0#5 then .error (tagTrap cUnit 4#4 2#2 ta tb)
  else .ok (if ka == kRaw then tagRaw else ta)

/-- The checks of an instruction on one operand of the kinds that `ok` accepts (R106, R113, R117): a BOOL, TIME or CODE unit must
be 0 (R57), and an INT unit where `intZero` asks it. -/
def checkOne (ok : Nat → Bool) (detail : BitVec 4) (intZero : Bool) (ta : Byte) : Except TrapRec Byte :=
  let ka := kindOf ta
  if ka == kNv then .error (tagTrap cNv 0#4 1#2 ta 0#8)
  else if !ok ka then .error (tagTrap cType detail 1#2 ta 0#8)
  else if (ka == kBool || ka == kTime || ka == kCode || (intZero && ka == kInt)) && unitOf ta != 0#5 then
    .error (tagTrap cUnit 4#4 1#2 ta 0#8)
  else .ok (if ka == kRaw then tagRaw else ta)

/-- The checks of MACF and MACFS on a, b and the destination d (R102). -/
def checkMac (x : Bent) (ta tb td : Byte) : Except TrapRec Byte :=
  if kindOf ta == kNv then .error (tagTrap cNv 0#4 1#2 ta tb)
  else if kindOf tb == kNv then .error (tagTrap cNv 0#4 2#2 ta tb)
  else if kindOf td == kNv then .error (tagTrap cNv 0#4 3#2 td 0#8)
  else match Pairs.result .fixed (kindOf ta) (kindOf tb) with
    | none => .error (tagTrap cType 0#4 3#2 ta tb)
    | some rk =>
      let pt := if rk == kRaw then tagRaw else mkTag kFix (x.product (unitOf ta) (unitOf tb))
      if kindOf td != rk then .error (tagTrap cType 0#4 3#2 td pt)
      else if rk == kRaw then .ok tagRaw
      else if unitOf ta == 31#5 then .error (tagTrap cUnit 3#4 1#2 ta tb)
      else if unitOf tb == 31#5 then .error (tagTrap cUnit 3#4 2#2 ta tb)
      else if unitOf pt == 31#5 then .error (tagTrap cUnit 1#4 3#2 ta tb)
      else if unitOf td == 31#5 then .error (tagTrap cUnit 3#4 3#2 td pt)
      else if td != pt then .error (tagTrap cUnit 0#4 3#2 td pt)
      else .ok td

/-! ### Operands (R41, R59, R95) -/

/-- The tag an immediate takes beside a register operand (R59). -/
def immTag (cls : Cls) (t : Byte) : Byte :=
  match cls with
  | .additive | .compare | .logical => if kindOf t == kPtr || kindOf t == kCode then tagInt else t
  | .multiply | .divide | .shift => tagInt

/-- Source r of an instruction whose other register source is o (R41). -/
def Core.source (k : Core) (cls : Cls) (r o : Nat) : Word :=
  if r = 0 then { pay := 0#32, tag := if o = 0 then tagRaw else immTag cls (k.reg o).tag } else k.reg r

/-- Source r of an instruction with no other register source (R41). -/
def Core.lone (k : Core) (r : Nat) : Word := if r = 0 then wordZero else k.reg r

/-- Source r of MACF or MACFS, whose other sources are o and q (R41; DEDUCED, log entry 19). -/
def Core.sourceMac (k : Core) (r o q : Nat) : Word :=
  if r = 0 then { pay := 0#32, tag := if o = 0 ∧ q = 0 then tagRaw else tagInt } else k.reg r

/-- A check made only while PSR.T is 1; else the result tag is RAW (R61). -/
def Core.checked (k : Core) (r : Except TrapRec Byte) : Except TrapRec Byte := if k.psr.t then r else .ok tagRaw

/-! ### Addresses (R67 to R69, R272) -/

/-- The effective address (R67). -/
def effAddr (base : W32) (off : BitVec 15) : W32 := base + sext15 off

/-- The core-private range (R69, R70). -/
def isPrivate (w : Nat) : Bool := decide (0x00010000 ≤ w) && decide (w < 0x00011000)

/-- The own bent SRAM as a core sees it (R70). -/
def isOwnSram (w : Nat) : Bool := decide (w < 0x00010000)

/-- The own bent's control registers (R70). -/
def isOwnCtl (w : Nat) : Bool := decide (0x00020000 ≤ w) && decide (w < 0x00024000)

/-- Whether an address lies in a range of the core map (R70). -/
def inCoreMap (w : Nat) : Bool :=
  isOwnSram w || isPrivate w || isOwnCtl w || isDeck w || isCode w || isBentSram w || isDevReg w || isViaduct w || isDdrWin w

/-- Window number of a DDR5 address (R272). -/
def ddrWinOf (w : Nat) : Nat := (w >>> 27) % 16
/-- Word offset in the region of a DDR5 address (R272). -/
def ddrOffOf (w : Nat) : Nat := w % 0x08000000

/-- Whether the bent's DDR window admits an address (R272). -/
def Bent.ddrMapped (x : Bent) (w : Nat) : Bool :=
  let r := Tab.find 0#32 x.ddrWin (ddrWinOf w)
  bitOf r 31 && !(bitOf r 30 && decide (0x06000000 ≤ ddrOffOf w))

/-- Whether window w of a bent holds an address (R66). -/
def Bent.inWindow (x : Bent) (w a : Nat) : Bool :=
  decide ((Tab.find 0#32 x.winBase w).toNat ≤ a) && decide (a ≤ (Tab.find 0#32 x.winLim w).toNat)

/-- Whether window w grants the permission an access needs (R66). -/
def Bent.winGrants (x : Bent) (w : Nat) (store : Bool) : Bool := bitOf x.winPerm (2 * w + (if store then 1 else 0))

/-- The window checks of an access outside the core-private range (R67, R68): the BOUNDS detail, or none. -/
def Core.windowFault (k : Core) (x : Bent) (base : Byte) (a : Nat) (store : Bool) : Option (BitVec 4) :=
  if k.psr.t then
    let w := (unitOf base).toNat % 16
    if !k.winMask.getLsbD w then some 1#4
    else if !x.inWindow w a then some 0#4
    else if !x.winGrants w store then some 2#4
    else none
  else if (List.range 16).any (fun w => k.winMask.getLsbD w && x.inWindow w a && x.winGrants w store) then none
  else some 3#4

/-- The checks on the address of a load or store in tagged mode (R57, R67 to R69, R272), in the order of R60. -/
def Core.addrFault (k : Core) (x : Bent) (base : Word) (addr : W32) (store : Bool) : Option TrapRec :=
  let a := addr.toNat
  let t := base.tag
  if k.psr.t && kindOf t == kNv then some { tagTrap cNv 0#4 0#2 t 0#8 with addr := addr }
  else if k.psr.t && kindOf t != kPtr then some { tagTrap cType 1#4 0#2 t 0#8 with addr := addr }
  else if k.psr.t && (unitOf t).getLsbD 4 then some { tagTrap cUnit 4#4 0#2 t 0#8 with addr := addr }
  else if isPrivate a then none
  else match k.windowFault x t a store with
    | some det => some (trapBounds det addr t)
    | none =>
      if !inCoreMap a then some (trapBounds 4#4 addr t)
      else if isDdrWin a && !x.ddrMapped a then some (trapBounds 4#4 addr t)
      else if store && isCode a then some (trapBounds 5#4 addr t)
      else none

/-! ### Compact addresses (R75, R120) -/

/-- The base of a compact memory operand: 0 for field 0, pair p for 1 to 15, undefined from 16 (R120). -/
def Core.compactBase (k : Core) (p : Reg) : Option (BitVec 16) :=
  if p.toNat = 0 then some 0#16 else if p.toNat < 16 then some (k.pair p.toNat) else none

/-- A compact byte address (R120): base plus sign-extended offset modulo 65,536. -/
def compactAddr (base : BitVec 16) (off : BitVec 15) : BitVec 16 := base + off.signExtend 16

/-- The word of a compact byte address (R75), as the core sees it. -/
def Core.compactWord (k : Core) (n : BitVec 16) : W32 := k.cmptBase + (n.setWidth 32 >>> 2)

/-- A pair field of a compact destination or data operand: 1 to 15 (R120). -/
def isPair (p : Reg) : Bool := decide (1 ≤ p.toNat) && decide (p.toNat < 16)

/-- A byte immediate: imm15[14:8] zero (R120). -/
def byteImm (i : BitVec 15) : Option Byte := if i.toNat < 256 then some (i.setWidth 8) else none

end Sys2Proof.Machine
end

