-- ==== Sys2Proof/Machine/Flags.lean ====
section
/-! DEFINITION. Flag computations (spec 03_instruction_set.md R97, R98, R103, R104, R121; 02 R74). -/
namespace Sys2Proof.Machine

/-- The four arithmetic flags. -/
structure Nzvc where
  n : Bool
  z : Bool
  v : Bool
  c : Bool
deriving DecidableEq, Repr, Inhabited

/-- A result with its flags. -/
abbrev Res := W32 × Nzvc

/-- The flags of a PSR. -/
def Psr.nzvc (p : Psr) : Nzvc := { n := p.n, z := p.z, v := p.v, c := p.c }
/-- A PSR with all four flags written. -/
def Psr.setNzvc (p : Psr) (f : Nzvc) : Psr := { p with n := f.n, z := f.z, v := f.v, c := f.c }
/-- A core with all four flags written. -/
def Core.setFlags (k : Core) (f : Nzvc) : Core := { k with psr := k.psr.setNzvc f }
/-- A core with N and Z written from a result, V and C unchanged (R97, logical and shift). -/
def Core.setNZ (k : Core) (r : W32) : Core := { k with psr := { k.psr with n := r.msb, z := r == 0#32 } }

/-- Flags written: N, Z, V and C. -/
def wNZVC : BitVec 4 := 15#4
/-- Flags written: N and Z. -/
def wNZ : BitVec 4 := 12#4
/-- Flags written: Z. -/
def wZ : BitVec 4 := 4#4

/-- Wrapping addition (R97, R99): C is the carry out. -/
def addRes (a b : W32) : Res :=
  let r := a + b
  (r, { n := r.msb, z := r == 0#32, v := !fits32 (sval a + sval b), c := decide (2 ^ 32 ≤ a.toNat + b.toNat) })

/-- Wrapping subtraction (R97, R99): C is the borrow. -/
def subRes (a b : W32) : Res :=
  let r := a - b
  (r, { n := r.msb, z := r == 0#32, v := !fits32 (sval a - sval b), c := decide (a.toNat < b.toNat) })

/-- Saturating addition (R97, R98): V tells saturation, C is as the wrapping form sets it. -/
def addSatRes (a b : W32) : Res :=
  let r := sat32 (sval a + sval b)
  (r, { n := r.msb, z := r == 0#32, v := !fits32 (sval a + sval b), c := decide (2 ^ 32 ≤ a.toNat + b.toNat) })

/-- Saturating subtraction (R97, R98). -/
def subSatRes (a b : W32) : Res :=
  let r := sat32 (sval a - sval b)
  (r, { n := r.msb, z := r == 0#32, v := !fits32 (sval a - sval b), c := decide (a.toNat < b.toNat) })

/-- The flags of the multiply family (R97): V when the exact result does not fit 32 bits, C 0. -/
def exactFlags (r : W32) (exact : Int) : Nzvc := { n := r.msb, z := r == 0#32, v := !fits32 exact, c := false }

/-- Bits [31:0] of the signed product (R99, MUL). -/
def mulRes (a b : W32) : Res :=
  let e := sval a * sval b
  (wrap32 e, exactFlags (wrap32 e) e)

/-- The signed product shifted right by 16, rounded toward minus infinity (R100). -/
def fixProduct (a b : W32) : Int := (sval a * sval b).fdiv 65536

/-- Bits [47:16] of the signed product (R99, MULF). -/
def mulfRes (a b : W32) : Res := (wrap32 (fixProduct a b), exactFlags (wrap32 (fixProduct a b)) (fixProduct a b))

/-- The saturated product of MULFS (R99). -/
def mulfsRes (a b : W32) : Res := (sat32 (fixProduct a b), exactFlags (sat32 (fixProduct a b)) (fixProduct a b))

/-- The exact sum of MACF and MACFS (R102): product and sum exact, rounded once. -/
def macExact (d a b : W32) : Int := sval d + fixProduct a b

/-- MACF keeps bits [31:0] of the sum (R102). -/
def macfRes (d a b : W32) : Res := (wrap32 (macExact d a b), exactFlags (wrap32 (macExact d a b)) (macExact d a b))

/-- MACFS saturates the sum (R102). -/
def macfsRes (d a b : W32) : Res := (sat32 (macExact d a b), exactFlags (sat32 (macExact d a b)) (macExact d a b))

/-- The quotient of DIV (num = a) and DIVF (num = a × 65,536), truncated toward zero, saturated, with V on overflow or a divisor
of 0 (R100, R101). -/
def quotRes (num : Int) (b : W32) : W32 × Bool :=
  if b = 0#32 then (0#32, true)
  else (sat32 (num.tdiv (sval b)), !fits32 (num.tdiv (sval b)))

/-- The flags of a compare by the first row of R103. -/
def cmpFirstRow (a b : W32) : Nzvc := (subRes a b).2

/-- The flags of a compare by the operands' kinds (R103): the first row when they differ or either is NV. -/
def cmpFlags (a b : Word) : Nzvc :=
  if kindOf a.tag == kTime && kindOf b.tag == kTime then
    { n := before a.pay b.pay, z := a.pay == b.pay, v := false, c := before a.pay b.pay }
  else if kindOf a.tag == kBool && kindOf b.tag == kBool then
    { n := false, z := a.pay.getLsbD 0 == b.pay.getLsbD 0, v := false, c := false }
  else cmpFirstRow a.pay b.pay

/-- Whether a condition code is defined (R104). -/
def condDefined (cc : BitVec 5) : Bool := decide (cc.toNat ≤ 12)

/-- A condition code on the flags (R104). -/
def condHolds (cc : BitVec 5) (f : Nzvc) : Bool :=
  match cc.toNat with
  | 0 => true
  | 1 => f.z
  | 2 => !f.z
  | 3 => f.n != f.v
  | 4 => f.n == f.v
  | 5 => f.c
  | 6 => !f.c
  | 7 => f.n
  | 8 => !f.n
  | 9 => f.v
  | 10 => !f.v
  | 11 => !f.z && f.n == f.v
  | 12 => f.z || f.n != f.v
  | _ => false

/-- The codes CSET allows (R105). -/
def csetAllowed (cc : BitVec 5) : Bool :=
  let n := cc.toNat
  n == 1 || n == 2 || n == 3 || n == 4 || n == 5 || n == 6 || n == 11 || n == 12

/-! ### Compact results (R74, R121) -/

/-- An 8-bit result with its flags. -/
abbrev Res8 := Byte × Nzvc

/-- Eight-bit addition with a carry in (R121). -/
def add8 (a b : Byte) (cin : Bool) : Res8 :=
  let i := if cin then 1 else 0
  let r := BitVec.ofNat 8 (a.toNat + b.toNat + i)
  let s := a.toInt + b.toInt + Int.ofNat i
  (r, { n := r.msb, z := r == 0#8, v := s < -128 || 127 < s, c := decide (256 ≤ a.toNat + b.toNat + i) })

/-- Eight-bit subtraction with a borrow in (R121). -/
def sub8 (a b : Byte) (bin : Bool) : Res8 :=
  let i := if bin then 1 else 0
  let r := a - b - BitVec.ofNat 8 i
  let s := a.toInt - b.toInt - Int.ofNat i
  (r, { n := r.msb, z := r == 0#8, v := s < -128 || 127 < s, c := decide (a.toNat < b.toNat + i) })

/-- A compact logical result: V 0, C unchanged (R121). -/
def logic8 (r : Byte) (c : Bool) : Res8 := (r, { n := r.msb, z := r == 0#8, v := false, c := c })

/-- Compact shift left by k (R121): C the last bit out, unchanged for k = 0. -/
def shl8 (a : Byte) (k : Nat) (c : Bool) : Res8 := logic8 (a <<< k) (if k = 0 then c else a.getLsbD (8 - k))

/-- Compact shift right by k, zeros in (R121). -/
def shr8 (a : Byte) (k : Nat) (c : Bool) : Res8 := logic8 (a >>> k) (if k = 0 then c else a.getLsbD (k - 1))

/-- Compact shift right by k, bit 7 copied (R121). -/
def sar8 (a : Byte) (k : Nat) (c : Bool) : Res8 := logic8 (a.sshiftRight k) (if k = 0 then c else a.getLsbD (k - 1))

/-- Sixteen-bit addition of pairs (R121). -/
def add16 (a b : BitVec 16) : BitVec 16 × Nzvc :=
  let r := a + b
  let s := a.toInt + b.toInt
  (r, { n := r.msb, z := r == 0#16, v := s < -32768 || 32767 < s, c := decide (65536 ≤ a.toNat + b.toNat) })

/-- Unsigned product of two bytes (R121, compact MUL). -/
def mul8 (a b : Byte) : BitVec 16 × Nzvc :=
  let r := BitVec.ofNat 16 (a.toNat * b.toNat)
  (r, { n := r.msb, z := r == 0#16, v := false, c := false })

/-- The PSR as a word (R43). -/
def Psr.word (p : Psr) : W32 :=
  place p.curPri 16 ||| flag p.paced 7 ||| flag p.compact 6 ||| flag p.t 5 ||| flag p.i 4 ||| flag p.n 3 ||| flag p.z 2
    ||| flag p.v 1 ||| flag p.c 0

end Sys2Proof.Machine
end

