-- ==== Sys2Proof/Machine/Alu.lean ====
section
/-! DEFINITION. The shapes that arithmetic, logical and shift instructions share: which operands they read, which checks they
make, what they write. Each meaning names its shape, its class, its kind pairs and its computation. -/
namespace Sys2Proof.Machine

/-- A result written with its tag, all four flags with it (R97). -/
def Core.putRes (k : Core) (rd : Reg) (tag : Byte) (r : Res) : Core := (k.setFlags r.2).setReg rd.toNat { pay := r.1, tag := tag }

/-- A result written with its tag, N and Z with it (R97). -/
def Core.putNZ (k : Core) (rd : Reg) (tag : Byte) (r : W32) : Core := (k.setNZ r).setReg rd.toNat { pay := r, tag := tag }

/-- A compact result written with its flags (R121). -/
def Core.put8 (k : Core) (rd : Reg) (r : Res8) : Core := (k.setFlags r.2).setByte rd.toNat r.1

/-- A compact pair result written with its flags (R121). -/
def Core.put16 (k : Core) (pd : Reg) (r : BitVec 16 × Nzvc) : Core := (k.setFlags r.2).setPair pd.toNat r.1

/-- What a register-register instruction needs. -/
def need2 (rd ra rb : Reg) (w : BitVec 4) : Need := { reads := [ra.toNat, rb.toNat], writes := [rd.toNat], wrFlags := w }
/-- What a register-immediate instruction needs. -/
def need1 (rd ra : Reg) (w : BitVec 4) : Need := { reads := [ra.toNat], writes := [rd.toNat], wrFlags := w }

/-- The bent of a core. -/
def Dev.bentFor (d : Dev) (c : CoreId) : Bent := d.bent (bentOf c.toNat)

/-- A checked operation of two tagged operands whose result goes to rd with all four flags (R56, R96, R97). -/
def aluPair (x : Bent) (cls : Cls) (tab : Pairs) (f : W32 → W32 → Res) (rd : Reg) (a b : Word) (k : Core) : ExRes :=
  match k.checked (checkPair x cls tab false a.tag b.tag) with
  | .error t => .trap t
  | .ok tr => .next (k.putRes rd tr (f a.pay b.pay))

/-- Two register operands (R41). -/
def aluRegs (x : Bent) (cls : Cls) (tab : Pairs) (f : W32 → W32 → Res) (rd ra rb : Reg) (k : Core) : ExRes :=
  aluPair x cls tab f rd (k.source cls ra.toNat rb.toNat) (k.source cls rb.toNat ra.toNat) k

/-- A register and a sign-extended immediate (R59, R93). -/
def aluImm (x : Bent) (cls : Cls) (tab : Pairs) (f : W32 → W32 → Res) (rd ra : Reg) (imm : BitVec 15) (k : Core) : ExRes :=
  aluPair x cls tab f rd (k.lone ra.toNat) { pay := sext15 imm, tag := immTag cls (k.lone ra.toNat).tag } k

/-- An instruction that only tagged mode defines: ILLEGAL in compact mode (R125). -/
def taggedOnly (k : Core) (r : ExRes) : ExRes := if k.psr.compact then .trap trapIllegal else r

/-- An instruction that only compact mode defines: ILLEGAL in tagged mode (R125). -/
def compactOnly (k : Core) (r : ExRes) : ExRes := if k.psr.compact then r else .trap trapIllegal

/-- An 8-bit operation of two byte registers (R121). -/
def alu8 (f : Byte → Byte → Bool → Res8) (rd ra rb : Reg) (k : Core) : ExRes :=
  .next (k.put8 rd (f (k.byte ra.toNat) (k.byte rb.toNat) k.psr.c))

/-- An 8-bit operation of a byte register and a byte immediate; ILLEGAL where imm15[14:8] is not zero (R120, R92). -/
def alu8i (f : Byte → Byte → Bool → Res8) (rd ra : Reg) (imm : BitVec 15) (k : Core) : ExRes :=
  match byteImm imm with
  | none => .trap trapIllegal
  | some i => .next (k.put8 rd (f (k.byte ra.toNat) i k.psr.c))

/-- A bitwise operation of tagged operands: on two BOOL operands bit 0 alone (R106, R107); with PSR.T 0 a BOOL beside another kind is
worked on in all 32 bits (DESIGN CHOICE, log entry 96). -/
def logicPair (x : Bent) (f : W32 → W32 → W32) (rd : Reg) (a b : Word) (k : Core) : ExRes :=
  match k.checked (checkPair x .logical .logic false a.tag b.tag) with
  | .error t => .trap t
  | .ok tr =>
    let both := kindOf a.tag == kBool && kindOf b.tag == kBool
    .next (k.putNZ rd tr (if both then f a.pay b.pay &&& 1#32 else f a.pay b.pay))

/-- A bitwise instruction of two registers. -/
def logicRegs (x : Bent) (f : W32 → W32 → W32) (rd ra rb : Reg) (k : Core) : ExRes :=
  logicPair x f rd (k.source .logical ra.toNat rb.toNat) (k.source .logical rb.toNat ra.toNat) k

/-- A bitwise instruction of a register and a zero-extended immediate (R93). -/
def logicImm (x : Bent) (f : W32 → W32 → W32) (rd ra : Reg) (imm : BitVec 15) (k : Core) : ExRes :=
  logicPair x f rd (k.lone ra.toNat) { pay := zext15 imm, tag := immTag .logical (k.lone ra.toNat).tag } k

/-- A shift of a tagged value by the low five bits of an amount (R106). -/
def shiftPair (f : W32 → Nat → W32) (rd : Reg) (a b : Word) (k : Core) : ExRes :=
  match k.checked (checkShift a.tag b.tag) with
  | .error t => .trap t
  | .ok tr => .next (k.putNZ rd tr (f a.pay (b.pay.toNat % 32)))

/-- A shift of two registers. -/
def shiftRegs (f : W32 → Nat → W32) (rd ra rb : Reg) (k : Core) : ExRes :=
  shiftPair f rd (k.source .shift ra.toNat rb.toNat) (k.source .shift rb.toNat ra.toNat) k

/-- A shift by an immediate; ILLEGAL where imm15[14:5] is not zero (R93). -/
def shiftImm (f : W32 → Nat → W32) (rd ra : Reg) (imm : BitVec 15) (k : Core) : ExRes :=
  if 32 ≤ imm.toNat then .trap trapIllegal
  else shiftPair f rd (k.lone ra.toNat) { pay := zext15 imm, tag := tagInt } k

/-- A compact shift by the low three bits of a register (R120). -/
def shift8 (f : Byte → Nat → Bool → Res8) (rd ra rb : Reg) (k : Core) : ExRes :=
  .next (k.put8 rd (f (k.byte ra.toNat) ((k.byte rb.toNat).toNat % 8) k.psr.c))

/-- A compact shift by an immediate; ILLEGAL where imm15[14:3] is not zero (R120). -/
def shift8i (f : Byte → Nat → Bool → Res8) (rd ra : Reg) (imm : BitVec 15) (k : Core) : ExRes :=
  if 8 ≤ imm.toNat then .trap trapIllegal
  else .next (k.put8 rd (f (k.byte ra.toNat) imm.toNat k.psr.c))

/-- Tagged or compact by the core's mode (R72). -/
def byMode (k : Core) (tagged compact : ExRes) : ExRes := if k.psr.compact then compact else tagged

end Sys2Proof.Machine
end

