-- ==== Sys2Proof/Machine/Arith.lean ====
section
/-! DEFINITION. Arithmetic (spec 03_instruction_set.md R99 to R102, R121; divide 04 R141, R142). -/
namespace Sys2Proof.Machine

/-- ADD (R99; compact R121). -/
def execAdd (c : CoreId) (rd ra rb : Reg) (s : State) : Host.Outcome State Fault Refusal :=
  s.keep (s.dev.run c.toNat (need2 rd ra rb wNZVC) (fun k =>
    byMode k (aluRegs (s.dev.bentFor c) .additive .add addRes rd ra rb k) (alu8 (fun a b _ => add8 a b false) rd ra rb k)))

/-- ADDF (R99). -/
def execAddf (c : CoreId) (rd ra rb : Reg) (s : State) : Host.Outcome State Fault Refusal :=
  s.keep (s.dev.run c.toNat (need2 rd ra rb wNZVC) (fun k =>
    taggedOnly k (aluRegs (s.dev.bentFor c) .additive .fixed addRes rd ra rb k)))

/-- ADDFS (R98, R99). -/
def execAddfs (c : CoreId) (rd ra rb : Reg) (s : State) : Host.Outcome State Fault Refusal :=
  s.keep (s.dev.run c.toNat (need2 rd ra rb wNZVC) (fun k =>
    taggedOnly k (aluRegs (s.dev.bentFor c) .additive .fixed addSatRes rd ra rb k)))

/-- SUB (R99; compact R121). -/
def execSub (c : CoreId) (rd ra rb : Reg) (s : State) : Host.Outcome State Fault Refusal :=
  s.keep (s.dev.run c.toNat (need2 rd ra rb wNZVC) (fun k =>
    byMode k (aluRegs (s.dev.bentFor c) .additive .sub subRes rd ra rb k) (alu8 (fun a b _ => sub8 a b false) rd ra rb k)))

/-- SUBF (R99). -/
def execSubf (c : CoreId) (rd ra rb : Reg) (s : State) : Host.Outcome State Fault Refusal :=
  s.keep (s.dev.run c.toNat (need2 rd ra rb wNZVC) (fun k =>
    taggedOnly k (aluRegs (s.dev.bentFor c) .additive .fixed subRes rd ra rb k)))

/-- SUBFS (R98, R99). -/
def execSubfs (c : CoreId) (rd ra rb : Reg) (s : State) : Host.Outcome State Fault Refusal :=
  s.keep (s.dev.run c.toNat (need2 rd ra rb wNZVC) (fun k =>
    taggedOnly k (aluRegs (s.dev.bentFor c) .additive .fixed subSatRes rd ra rb k)))

/-- ADDI (R99; compact R121). -/
def execAddi (c : CoreId) (rd ra : Reg) (imm : BitVec 15) (s : State) : Host.Outcome State Fault Refusal :=
  s.keep (s.dev.run c.toNat (need1 rd ra wNZVC) (fun k =>
    byMode k (aluImm (s.dev.bentFor c) .additive .add addRes rd ra imm k) (alu8i (fun a b _ => add8 a b false) rd ra imm k)))

/-- SUBI (R99; compact R121). -/
def execSubi (c : CoreId) (rd ra : Reg) (imm : BitVec 15) (s : State) : Host.Outcome State Fault Refusal :=
  s.keep (s.dev.run c.toNat (need1 rd ra wNZVC) (fun k =>
    byMode k (aluImm (s.dev.bentFor c) .additive .add subRes rd ra imm k) (alu8i (fun a b _ => sub8 a b false) rd ra imm k)))

/-- What MUL needs: in compact mode its destination is a pair (R121). -/
def needMul (k : Core) (rd ra rb : Reg) : Need :=
  if k.psr.compact then
    { reads := [ra.toNat, rb.toNat], writes := [2 * rd.toNat, 2 * rd.toNat + 1], wrFlags := wNZVC }
  else need2 rd ra rb wNZVC

/-- MUL (R99; compact: unsigned into a pair, R121). -/
def execMul (c : CoreId) (rd ra rb : Reg) (s : State) : Host.Outcome State Fault Refusal :=
  s.keep (s.dev.run c.toNat (needMul (s.dev.core c.toNat) rd ra rb) (fun k =>
    byMode k (aluRegs (s.dev.bentFor c) .multiply .mul mulRes rd ra rb k)
      (if isPair rd then .next (k.put16 rd (mul8 (k.byte ra.toNat) (k.byte rb.toNat))) else .trap trapIllegal)))

/-- MULI (R99). -/
def execMuli (c : CoreId) (rd ra : Reg) (imm : BitVec 15) (s : State) : Host.Outcome State Fault Refusal :=
  s.keep (s.dev.run c.toNat (need1 rd ra wNZVC) (fun k =>
    taggedOnly k (aluImm (s.dev.bentFor c) .multiply .mul mulRes rd ra imm k)))

/-- MULF (R99, R100). -/
def execMulf (c : CoreId) (rd ra rb : Reg) (s : State) : Host.Outcome State Fault Refusal :=
  s.keep (s.dev.run c.toNat (need2 rd ra rb wNZVC) (fun k =>
    taggedOnly k (aluRegs (s.dev.bentFor c) .multiply .fixed mulfRes rd ra rb k)))

/-- MULFS (R98 to R100). -/
def execMulfs (c : CoreId) (rd ra rb : Reg) (s : State) : Host.Outcome State Fault Refusal :=
  s.keep (s.dev.run c.toNat (need2 rd ra rb wNZVC) (fun k =>
    taggedOnly k (aluRegs (s.dev.bentFor c) .multiply .fixed mulfsRes rd ra rb k)))

/-- What MACF and MACFS need: the destination is a source too (R99). -/
def needMac (rd ra rb : Reg) : Need :=
  { reads := [ra.toNat, rb.toNat, rd.toNat], writes := [rd.toNat], wrFlags := wNZVC }

/-- The multiply and add of MACF and MACFS (R102). -/
def aluMac (x : Bent) (f : W32 → W32 → W32 → Res) (rd ra rb : Reg) (k : Core) : ExRes :=
  let a := k.sourceMac ra.toNat rb.toNat rd.toNat
  let b := k.sourceMac rb.toNat ra.toNat rd.toNat
  let e := k.sourceMac rd.toNat ra.toNat rb.toNat
  match k.checked (checkMac x a.tag b.tag e.tag) with
  | .error t => .trap t
  | .ok tr => .next (k.putRes rd tr (f e.pay a.pay b.pay))

/-- MACF (R102). -/
def execMacf (c : CoreId) (rd ra rb : Reg) (s : State) : Host.Outcome State Fault Refusal :=
  s.keep (s.dev.run c.toNat (needMac rd ra rb) (fun k => taggedOnly k (aluMac (s.dev.bentFor c) macfRes rd ra rb k)))

/-- MACFS (R102). -/
def execMacfs (c : CoreId) (rd ra rb : Reg) (s : State) : Host.Outcome State Fault Refusal :=
  s.keep (s.dev.run c.toNat (needMac rd ra rb) (fun k => taggedOnly k (aluMac (s.dev.bentFor c) macfsRes rd ra rb k)))

/-- What a divide needs: the divider (R130, R141). -/
def needDiv (rd ra rb : Reg) : Need := { need2 rd ra rb 0#4 with divider := true }

/-- A divide enters EX with its result, and the instructions after it may go on (R141); its flags are all its own until a younger
instruction writes them. A divisor of 0 gives payload 0, with tag E0h while T is 1, and V (R101). -/
def aluDiv (x : Bent) (tab : Pairs) (num : W32 → Int) (rd ra rb : Reg) (k : Core) : ExRes :=
  let a := k.source .divide ra.toNat rb.toNat
  let b := k.source .divide rb.toNat ra.toNat
  match k.checked (checkPair x .divide tab false a.tag b.tag) with
  | .error t => .trap t
  | .ok tr =>
    let q := quotRes (num a.pay) b.pay
    let tag := if b.pay = 0#32 ∧ k.psr.t = true then tagNv else tr
    .next { k with div := some { seq := k.issued, rd := rd, ra := ra, rb := rb, res := { pay := q.1, tag := tag }, v := q.2,
                                 pc := k.pc, flagsLive := 15#4, younger := false } }

/-- DIV issues (R99 to R101, R141). -/
def execDiv (c : CoreId) (rd ra rb : Reg) (s : State) : Host.Outcome State Fault Refusal :=
  s.keep (s.dev.run c.toNat (needDiv rd ra rb) (fun k =>
    taggedOnly k (aluDiv (s.dev.bentFor c) .div (fun a => sval a) rd ra rb k)))

/-- DIVF issues (R99 to R101, R141). -/
def execDivf (c : CoreId) (rd ra rb : Reg) (s : State) : Host.Outcome State Fault Refusal :=
  s.keep (s.dev.run c.toNat (needDiv rd ra rb) (fun k =>
    taggedOnly k (aluDiv (s.dev.bentFor c) .fixed (fun a => sval a * 65536) rd ra rb k)))

/-- The divide in EX completes: its register is written, and those of its flags that no younger instruction has written since
(R131, R141, R528). -/
def Core.divDone (k : Core) : Core :=
  match k.div with
  | none => k
  | some v =>
    let w := v.flagsLive
    let r := v.res.pay
    ({ k with
       div := none
       psr := { k.psr with
         n := if w.getLsbD 3 then r.msb else k.psr.n
         z := if w.getLsbD 2 then r == 0#32 else k.psr.z
         v := if w.getLsbD 1 then v.v else k.psr.v
         c := if w.getLsbD 0 then false else k.psr.c } } : Core).setReg v.rd.toNat v.res

/-- DIV_COMPLETE (R141): the 34th step of a divide. -/
def execDivComplete (c : CoreId) (s : State) : Host.Outcome State Fault Refusal :=
  s.keep (s.dev.onCore c.toNat Core.divDone)

end Sys2Proof.Machine
end

