-- ==== Sys2Proof/Machine/FltOps.lean ====
section
/-! DEFINITION. What the fault collector holds and shows (spec 15_faults_and_reactions.md R436 to R446, R448): severities, classes,
counts, pins, the two ALIVE outputs, the unit's part of the chain fault (12 R390). -/
namespace Sys2Proof.Machine

/-- The sources of R437 from 512 on, with their default severities. -/
def instancedSev : Tab (BitVec 3) :=
  [(512, 1#3), (513, 2#3), (514, 2#3), (515, 1#3), (516, 1#3), (517, 1#3), (544, 1#3), (545, 2#3), (546, 2#3), (547, 1#3),
   (548, 2#3), (576, 1#3), (577, 1#3), (578, 2#3), (579, 2#3), (580, 2#3), (608, 1#3), (609, 1#3), (640, 2#3), (641, 1#3),
   (672, 1#3), (673, 2#3), (674, 2#3), (675, 1#3), (676, 1#3), (704, 1#3), (705, 1#3), (706, 1#3), (720, 1#3), (721, 2#3),
   (722, 2#3), (723, 1#3), (736, 1#3), (737, 1#3), (744, 3#3), (745, 2#3), (746, 4#3), (752, 3#3), (753, 1#3), (760, 4#3),
   (761, 1#3)]

/-- Whether R437 names a source. -/
def fltNamed (n : Nat) : Bool := decide (n < 512) || instancedSev.any (fun e => e.1 == n)

/-- The default severity of a source (R437): 0 where it is not named. -/
def defaultSev (n : Nat) : BitVec 3 :=
  if n < 128 then 2#3
  else if n < 256 then 1#3
  else if n < 384 then 3#3
  else if n < 512 then 2#3
  else Tab.find 0#3 instancedSev n

/-- The class of a source (R436, R437). -/
def fltClass (n : Nat) : Nat :=
  if n < 512 then n / 128
  else if n < 704 then 4 + (n - 512) / 32
  else if n < 720 then 10
  else if n < 736 then 11
  else if n < 744 then 12
  else if n < 752 then 13
  else if n < 760 then 14
  else 15

/-- Source n changed by g. -/
def Collector.onSrc (f : Collector) (n : Nat) (g : FltSrc → FltSrc) : Collector := { f with srcs := Tab.put f.srcs n (g (f.src n)) }

/-- The programmed severity of source n (R439). -/
def Collector.sevOf (f : Collector) (n : Nat) : BitVec 3 := if fltNamed n then (f.src n).sev.getD (defaultSev n) else 0#3

/-- Latches at one severity (R314). -/
def Collector.countAt (f : Collector) (v : Nat) : Nat := (f.srcs.filter (fun e => e.2.latched && e.2.lsev.toNat == v)).length

/-- STAT_FLTCNT (R314, R449). -/
def Collector.counts (f : Collector) : W32 :=
  placeNat (min 255 (f.countAt 4)) 24 ||| placeNat (min 255 (f.countAt 3)) 16 ||| placeNat (min 255 (f.countAt 2)) 8 |||
    placeNat (min 255 (f.countAt 1)) 0

/-- A word of 32 bits, bit j from a predicate of lo + j. -/
def bitmap (lo : Nat) (p : Nat → Bool) : W32 :=
  (List.range 32).foldl (fun w j => if p (lo + j) then w ||| (1#32 <<< j) else w) 0#32

/-- Whether a bound loop is started: its trigger is enabled (R358). -/
def Dev.started (d : Dev) (l : Loop) : Bool := (d.source (bentOf l.core.toNat) l.trigger.toNat).en

/-- Whether a kick is missing: none in the last 2 ms, or none at the end of a grace (R445). Keystone's clock is gated in P1 and off in the
sleep states, where no kick is expected (R426). -/
def Dev.kickLate (d : Dev) : Bool :=
  !d.ks.gated && (match d.ks.graceEnd with
    | some t => decide (t ≤ d.clk)
    | none => decide (d.ks.lastKick + 1600000 ≤ d.clk))

/-- Whether Keystone is healthy as ALIVE_K shows it (R445): it has kicked since it started, no kick is missing, and nothing has stopped the
toggling. -/
def Dev.kHealthy (d : Dev) : Bool := d.ks.kicked && !d.ks.stopped && !d.flt.selfBad && !d.kickLate

/-- Whether ALIVE_K is changing level (R445, R426): while Keystone is healthy, a grace included, but not in P4. -/
def Dev.kRun (d : Dev) : Bool := d.kHealthy && d.pwr.pstate != 4#3

/-- Whether ALIVE_S is changing level (R446, R426, R441, R447). -/
def Dev.sRun (d : Dev) : Bool :=
  (d.mode.mode == mRun || d.mode.mode == mDegraded || d.mode.mode == mSafeHold)
    && d.ks.loops.any (fun l => l.safety && d.started l)
    && !d.ks.loops.any (fun l => l.safety && (d.core l.core.toNat).status == .stopped)
    && !(d.flt.src 752).latched && !d.flt.atLeast 4 && !d.flt.selfBad && decide (d.pwr.pstate.toNat < 2)

end Sys2Proof.Machine
end

