-- ==== Sys2Proof/Machine/SramOps.lean ====
section
/-! DEFINITION. Errors of bent SRAM and Deck SRAM (spec 08_memories.md R242 to R256): where a word lies, what a corrected or an
uncorrectable error counts, records and raises, and the repair of its row. -/
namespace Sys2Proof.Machine

/-- The SRAM that holds a device word address, and the word's offset in it (R247, R250). -/
def sramOf (w : Nat) : Option (SramRef × Nat) :=
  if isBentSram w then some (.bent (BitVec.ofNat 7 ((w - 0x04000000) / 0x10000)), w % 0x10000)
  else if isDeck w then some (.deck (BitVec.ofNat 3 ((w - 0x01000000) / 0x100000)), w % 0x100000)
  else none

/-- The device word address of a word of an SRAM (R33, R70). -/
def sramAddr : SramRef → Nat → Nat
  | .bent b, off => 0x04000000 + b.toNat * 0x10000 + off % 0x10000
  | .deck s, off => 0x01000000 + s.toNat * 0x100000 + off % 0x100000

/-- The bank of a word offset (R247, R250). -/
def bankOf : SramRef → Nat → Nat
  | .bent _, off => off / 0x2000 % 8
  | .deck _, off => off / 0x20000 % 8

/-- The row of a word offset in its bank (R252). -/
def rowOf : SramRef → Nat → Nat
  | .bent _, off => off / 64 % 128
  | .deck _, off => off / 64 % 2048

/-- Spare rows of a bank (R252). -/
def spareRows : SramRef → Nat
  | .bent _ => 4
  | .deck _ => 32

/-- The instance number of an SRAM as a fault instance (R437). -/
def sramInst : SramRef → Nat
  | .bent b => b.toNat
  | .deck s => 128 + s.toNat

/-- The MEM_ registers of an SRAM. -/
def Dev.sram (d : Dev) : SramRef → Sram
  | .bent b => (d.bent b.toNat).sram
  | .deck s => (d.span s.toNat).sram

/-- The MEM_ registers of an SRAM changed by f. -/
def Dev.onSram (d : Dev) (m : SramRef) (f : Sram → Sram) : Dev :=
  match m with
  | .bent b => d.onBent b.toNat (fun x => { x with sram := f x.sram })
  | .deck s => d.onSpan s.toNat (fun x => { x with sram := f x.sram })

/-- Bank k of an SRAM. -/
def Sram.bank (x : Sram) (k : Nat) : Bank := Tab.find {} x.banks k
/-- Bank k changed by f. -/
def Sram.onBank (x : Sram) (k : Nat) (f : Bank → Bank) : Sram := { x with banks := Tab.put x.banks k (f (x.bank k)) }

/-- A row put into the log of the last four rows with errors, with the bit position found (R253). -/
def Bank.note (b : Bank) (row : Nat) (bits : List Nat) : Bank :=
  let old := ((b.log.find? (fun e => e.1 == row)).map (·.2)).getD []
  let new := (old ++ bits).eraseDups
  { b with log := ((row, new) :: b.log.filter (fun e => e.1 != row)).take 4 }

/-- The repair of a row starts, or MEM_SPAREOUT is raised when no spare row is left (R253). -/
def Dev.startRepair (d : Dev) (m : SramRef) (k row : Nat) : Dev :=
  let b := (d.sram m).bank k
  if b.repairing.contains row then d
  else if b.used.toNat + b.repairing.length < spareRows m then
    d.onSram m (fun x => x.onBank k (fun y => { y with repairing := y.repairing ++ [row] }))
  else d.raise 546 (sramInst m) (BitVec.ofNat 16 k)

/-- A single-bit error corrected by a read (R243, R253, R255): counted; MEM_CE when the count passes a multiple of
2^CESHIFT; the row is repaired once two bit positions of it are logged. -/
def Dev.sramCorrected (d : Dev) (m : SramRef) (off bit : Nat) : Dev :=
  let k := bankOf m off
  let row := rowOf m off
  let c0 := ((d.sram m).bank k).ce
  let d1 := d.onSram m (fun x => x.onBank k (fun y => { y.note row [bit] with ce := satInc y.ce }))
  let d2 := if c0 != 0xFFFF#16 && (c0.toNat + 1) % 2 ^ (d.sram m).ceShift.toNat == 0 then d1.raise 544 (sramInst m) (BitVec.ofNat 16 k)
    else d1
  if 2 ≤ (((((d2.sram m).bank k).log.find? (fun e => e.1 == row)).map (·.2)).getD []).length then d2.startRepair m k row else d2

/-- An uncorrectable error found by a read (kind 0), a scrub (1) or a refused partial write (2) (R244, R251, R253, R256): counted,
recorded, MEM_UE raised, the word poisoned, its row repaired. -/
def Dev.sramBad (d : Dev) (m : SramRef) (off : Nat) (kind : BitVec 4) (req : ReqId) : Dev :=
  let k := bankOf m off
  let w := sramAddr m off
  let d1 := d.onSram m (fun x =>
    { x.onBank k (fun y => { y.note (rowOf m off) [] with ue := satInc y.ue }) with
      errAddr := BitVec.ofNat 32 w, ueValid := true, ueBank := BitVec.ofNat 3 k, kind := kind, req := req })
  ((d1.poisonWord w).raise 545 (sramInst m) (BitVec.ofNat 16 k)).startRepair m k (rowOf m off)

/-- A word with good check bits again (R244). -/
def Dev.heal (d : Dev) (w : Nat) : Dev := { d with poison := d.poison.filter (fun x => x != w) }

/-- What the read of an SRAM word finds: a known poisoned word is uncorrectable whatever is said of the read. -/
def Dev.foundAt (d : Dev) (w : Nat) (f : Found) : Found := if d.poisoned w then .uncorrectable else f

/-- An SRAM word read for a requester: whether it was good, and the counts after it (R243, R244). -/
def Dev.sramRead (d : Dev) (w : Nat) (f : Found) (req : ReqId) : Bool × Dev :=
  match sramOf w with
  | none => (true, d)
  | some (m, off) =>
    match d.foundAt w f with
    | .good => (true, d)
    | .single bit => (true, d.sramCorrected m off bit.toNat)
    | .uncorrectable => (false, d.sramBad m off 0#4 req)

/-- Whether a word part covers the whole word, payload and tag (R244). -/
def wholePart (p : WordPart) : Bool := p.lanes == 0xF#4 && p.tagWr

/-- An SRAM word written for a requester: whether it was applied, and what it changes (R243, R244): a whole word needs no old one and heals a
poisoned one; a part reads the old word, and is refused where that is uncorrectable. -/
def Dev.sramWrite (d : Dev) (p : WordPart) (f : Found) (req : ReqId) : Bool × Eff :=
  let w := p.addr.toNat
  let op := MemOp.word w p.lanes p.tagWr p.word
  match sramOf w with
  | none => (true, (d, []))
  | some (m, off) =>
    if wholePart p then (true, (d.heal w, [op]))
    else match d.foundAt w f with
      | .good => (true, (d, [op]))
      | .single bit => (true, (d.sramCorrected m off bit.toNat, [op]))
      | .uncorrectable => (false, (d.sramBad m off 2#4 req, []))

end Sys2Proof.Machine
end

