-- ==== Sys2Proof/Machine/QueOps.lean ====
section
/-! DEFINITION. Stream and ledger queues (spec 09_queues_and_crossings.md R281 to R297, R404 of 13): offsets, pushes, pops, level
and notice, ledger operations, flush, safe items, registers. -/
namespace Sys2Proof.Machine

/-! ### What a queue holds -/

/-- Words of its storage block (R297). -/
def Queue.words (q : Queue) : Nat := 2 ^ (8 + q.size.toNat)
/-- Free words (R289, R295). -/
def Queue.free (q : Queue) : Nat := q.words - (q.wr - q.rl)
/-- End of the words of complete items. -/
def Queue.closedEnd (q : Queue) : Nat := q.wr - q.openLen
/-- Complete unread items (R292): those with a word not yet read. -/
def Queue.count (q : Queue) : Nat := (q.ends.filter (fun e => decide (q.rd < e))).length
/-- Items freed up to RL leave the list. -/
def Queue.prune (q : Queue) : Queue := { q with ends := q.ends.filter (fun e => decide (q.rl < e)) }

/-- The device word address of an offset of queue n (R281). -/
def Queue.addr (q : Queue) (n pos : Nat) : Nat :=
  0x01000000 + n / 128 * 0x100000 + q.offset.toNat + pos % q.words

/-- Whether its level holds its BIU source (R292). -/
def Queue.asserts (q : Queue) : Bool := q.en && q.biuEn && q.level != 0#16 && decide (q.level.toNat ≤ q.count)

/-- QUE_STAT (R297). -/
def Queue.stat (q : Queue) : W32 :=
  flag (q.en && q.free == 0) 31 ||| flag (decide (q.closedEnd ≤ q.rd)) 30 ||| flag q.opened 29 ||| flag q.ovr 28 |||
    flag q.trunc 27 ||| flag q.intr 26 ||| (if q.opened then place q.owner 0 else 0#32)

/-! ### Notice (R292) -/

/-- The requester of queue n's engine (R221). -/
def engineReq (n : Nat) : ReqId := BitVec.ofNat 12 (0x808 + n / 128)

/-- The level of queue n's source: into a bent of its own span by the crossing cell, into a bent of another span as an EVT transaction in
class C1 (R293). -/
def Dev.queLevel (d : Dev) (n b src : Nat) (v : Bool) : Dev :=
  if spanOf b = n / 128 then d.levelInto b src v
  else d.sendEvt (engineReq n) 1#2 b src (.level v)

/-- The completion of an item of queue n sent to its source (R292, R293). -/
def Dev.itemEvent (d : Dev) (n b src : Nat) : Dev :=
  if spanOf b = n / 128 then d.biuEvent b src else d.sendEvt (engineReq n) 1#2 b src .item

/-- The level of queue n's source after an operation, and MSI-X when its count has risen from below LEVEL to LEVEL or above. -/
def Dev.queNotice (d : Dev) (n before : Nat) : Dev :=
  let q := d.queue n
  let d1 := if q.biuEn then d.queLevel n q.bent.toNat q.src.toNat q.asserts else d
  if q.en && q.msiEn && q.level != 0#16 && decide (before < q.level.toNat) && decide (q.level.toNat ≤ q.count) then
    d1.sendVec (if q.port then .b else .a) q.vec
  else d1

/-- The open item of queue n completed (R284): it becomes unread, the level follows, and its source gets one event. -/
def Dev.queComplete (d : Dev) (n : Nat) : Dev :=
  let q := d.queue n
  let d1 := (d.setQueue n { q with ends := q.ends ++ [q.wr], opened := false, openLen := 0, owner := 0#12 }).queNotice n q.count
  if q.biuEn && q.level != 0#16 then d1.itemEvent n q.bent.toNat q.src.toNat else d1

/-! ### Pushes (R284 to R289) -/

/-- The four push ports. -/
inductive PushOp where | push | pushs | pushe | pushse
deriving DecidableEq, Repr

/-- Whether a push opens an item. -/
def PushOp.opens : PushOp → Bool
  | .pushs | .pushse => true
  | .push | .pushe => false
/-- Whether a push completes its item. -/
def PushOp.closes : PushOp → Bool
  | .pushe | .pushse => true
  | .push | .pushs => false

/-- The operations that a QOP of several words makes (R287). -/
def PushOp.expand : PushOp → Nat → List PushOp
  | _, 0 => []
  | o, 1 => [o]
  | .push, n + 2 => List.replicate (n + 2) .push
  | .pushs, n + 2 => .pushs :: List.replicate (n + 1) .push
  | .pushe, n + 2 => List.replicate (n + 1) .push ++ [.pushe]
  | .pushse, n + 2 => .pushs :: (List.replicate n .push ++ [.pushe])

/-- The mark by which a queue engine treats a word of its slice as poisoned after a side-bit parity error (R291). -/
def sideId (a : Nat) : Nat := 2 ^ 32 + a

/-- The words whose side bits one parity bit covers, with word a among them (R282). -/
def sideGroup (a : Nat) : List Nat := (List.range 8).map (fun i => a / 8 * 8 + i)

/-- The item-start bit beside a word of Deck SRAM written (R282). -/
def Dev.putStart (d : Dev) (a : Nat) (start : Bool) : Dev :=
  d.onSpan ((a - 0x01000000) / 0x100000) (fun s =>
    let rest := s.starts.filter (fun o => o != a % 0x100000)
    { s with starts := if start then a % 0x100000 :: rest else rest })

/-- The word stored at the write offset of queue n, with the item-start bit that the first word of an item has; it heals a poisoned one
(R281, R282, R244). -/
def Dev.queStore (d : Dev) (n : Nat) (w : Word) : Eff :=
  let q := d.queue n
  let a := q.addr n q.wr
  ((((d.heal a).heal (sideId a)).putStart a (q.openLen == 0)).setQueue n { q with wr := q.wr + 1, openLen := q.openLen + 1 }, [.whole a w])

/-- A push that finds no free word (R289): OVR; a PUSH or PUSHE discards the open item and drops its owner's next ones. -/
def Queue.overflow (q : Queue) (o : PushOp) (req : ReqId) : Queue :=
  if o.opens then { q with ovr := true }
  else { q with ovr := true, trunc := true, wr := q.wr - q.openLen, openLen := 0, opened := false, owner := 0#12,
                droppers := q.droppers ++ [req] }

/-- One push into queue n (R284, R286, R289). -/
def Dev.push1 (d : Dev) (n : Nat) (o : PushOp) (req : ReqId) (w : Word) : Eff :=
  let q := d.queue n
  if q.opened && q.owner != req then (d.setQueue n { q with intr := true }, [])
  else if o.opens then
    let d1 := if q.opened then d.queComplete n else d
    let d2 := d1.onQueue n (fun x => { x with droppers := x.droppers.filter (fun r => r != req) })
    if (d2.queue n).free = 0 then (d2.onQueue n (fun x => x.overflow o req), [])
    else
      let e := (d2.onQueue n (fun x => { x with opened := true, owner := req, openLen := 0 })).queStore n w
      if o.closes then (e.1.queComplete n, e.2) else e
  else if q.droppers.contains req then (d.setQueue n { q with trunc := true }, [])
  else if !q.opened then (d.setQueue n { q with trunc := true }, [])
  else if q.free = 0 then (d.setQueue n (q.overflow o req), [])
  else
    let e := d.queStore n w
    if o.closes then (e.1.queComplete n, e.2) else e

/-- Successive pushes (R287). -/
def Dev.pushAll (d : Dev) (n : Nat) (req : ReqId) : List (PushOp × Word) → Eff
  | [] => (d, [])
  | (o, w) :: r =>
    let e := d.push1 n o req w
    let e2 := Dev.pushAll e.1 n req r
    (e2.1, e.2 ++ e2.2)

/-- Whether a push into a queue is ignored because the part is in SAFE_HOLD (R404): a safe queue then takes pushes only from a
core that holds a safety loop. -/
def Dev.safeBlocks (d : Dev) (n : Nat) (req : ReqId) : Bool :=
  d.mode.mode == mSafeHold && (d.queue n).safe && !(isCoreReq req && d.holdsSafety req.toNat)

/-- The tag of a word pushed through the host queue window (R285); other pushes keep theirs. -/
def Queue.pushed (q : Queue) (req : ReqId) (w : Word) : Word :=
  if req == 0x801#12 || req == 0x802#12 then { w with tag := if q.ptagEn then q.ptag else tagRaw } else w

/-- A push operation of some words (R285 to R289, R297, R404). -/
def Dev.quePush (d : Dev) (n : Nat) (o : PushOp) (req : ReqId) (ws : List Word) : Eff :=
  let q := d.queue n
  if !q.en then (d, [])
  else if d.safeBlocks n req then (d.setQueue n { q with intr := true }, [])
  else d.pushAll n req ((o.expand ws.length).zip (ws.map (q.pushed req)))

/-! ### Pops (R287, R288, R290, R291) -/

/-- One pop from queue n: the word, whether it was poisoned, and what it changes. A side-bit parity error makes the engine treat every word
that the parity bit covers as poisoned (R291). -/
def Dev.pop1 (d0 : Dev) (m : List Host.Cell) (n : Nat) (f side : Found) (req : ReqId) : Word × Bool × Dev :=
  let q := d0.queue n
  if q.closedEnd ≤ q.rd then (wordNv, false, d0)
  else
    let a := q.addr n q.rd
    let d := if side = .good then d0 else (sideGroup a).foldl (fun x w => x.poisonWord (sideId w)) d0
    let f' := d.foundAt a f
    let r := d.sramRead a f req
    let bad := !r.1 || d.poisoned (sideId a)
    let q1 : Queue := if bad then { q with ue := satInc q.ue }
      else match f' with
        | .good | .uncorrectable => q
        | .single _ => { q with ce := satInc q.ce }
    let q2 : Queue := { q1 with rd := q.rd + 1 }
    let q3 := if q.ledger then q2 else { q2 with rl := q.rd + 1, mkOff := q.rd + 1 }.prune
    (Memory.word m a, bad, (r.2.setQueue n q3).queNotice n q.count)

/-- Successive pops, from word i of a transaction of cnt words on. -/
def Dev.popAll (d : Dev) (m : List Host.Cell) (n : Nat) (f : Finds) (req : ReqId) (cnt : Nat) : Nat → List Word × Bool × Dev
  | 0 => ([], false, d)
  | k + 1 =>
    let i := cnt - (k + 1)
    let r := d.pop1 m n (foundIn f i) (foundIn f (cnt + i)) req
    let t := Dev.popAll r.2.2 m n f req cnt k
    (r.1 :: t.1, r.2.1 || t.2.1, t.2.2)

/-- ITEMLEN (R284): the words not yet read of the next unread complete item. -/
def Queue.itemLen (q : Queue) : Word :=
  match q.ends.find? (fun e => decide (q.rd < e)) with
  | some e => { pay := BitVec.ofNat 32 (e - q.rd), tag := tagInt }
  | none => wordNv

/-! ### Ledger operations (R295) -/

/-- MARK. -/
def Queue.setMark (q : Queue) : Queue := if q.ledger then { q with mkOff := q.rd } else q
/-- REWIND. -/
def Queue.rewind (q : Queue) : Queue := if q.ledger then { q with rd := q.mkOff } else q
/-- RELEASE of a count of items, never past MK. -/
def Queue.release (q : Queue) (cnt : Nat) : Queue :=
  if q.ledger then
    let before := q.ends.filter (fun e => decide (e ≤ q.mkOff))
    let dst := if cnt = 0 ∨ before.length < cnt then q.mkOff else before.getD (cnt - 1) q.mkOff
    { q with rl := dst }.prune
  else q

/-- An operation on the pointers of queue n, with its notice; nothing on a disabled queue (R297). -/
def Dev.queLedger (d : Dev) (n : Nat) (f : Queue → Queue) : Dev :=
  let q := d.queue n
  if q.en then (d.setQueue n (f q)).queNotice n q.count else d

/-! ### Flush and safe items (R294, R296) -/

/-- The queue emptied. -/
def Queue.flushed (q : Queue) : Queue :=
  let q1 : Queue := { q with rd := q.wr, rl := q.wr, mkOff := q.wr, ends := [], openLen := 0, opened := false, owner := 0#12 }
  if q.opened then { q1 with trunc := true, droppers := q.droppers ++ [q.owner] } else q1

/-- A flush of queue n. -/
def Dev.queFlushed (d : Dev) (n : Nat) : Dev := d.queLedger n Queue.flushed

/-- The safe item of queue n pushed by its engine (R296). -/
def Dev.queSafe (d : Dev) (n : Nat) : Eff :=
  let d1 := d.queFlushed n
  let q := d1.queue n
  let ws := (List.range q.safeLen.toNat).map (fun j => ({ pay := Tab.find 0#32 q.safeW j, tag := laneOf q.safeTag j } : Word))
  d1.pushAll n (engineReq n) ((PushOp.expand .pushse ws.length).zip ws)

/-- Every safe queue flushed and given its safe item (R296, R403). -/
def Dev.allSafe (d : Dev) : List Nat → Eff
  | [] => (d, [])
  | n :: r =>
    let e := if (d.queue n).en && (d.queue n).safe then d.queSafe n else (d, [])
    let e2 := Dev.allSafe e.1 r
    (e2.1, e.2 ++ e2.2)

/-! ### Registers (R297) -/

/-- Word k of the registers of a queue. -/
def Queue.reg (q : Queue) (k : Nat) : W32 :=
  match k with
  | 0 => flag q.en 31 ||| flag q.ledger 30 ||| flag q.safe 29 ||| place q.safeLen 24 ||| place q.size 20 ||| place q.offset 0
  | 1 => flag q.biuEn 31 ||| place q.bent 24 ||| place q.src 16 ||| place q.level 0
  | 2 => flag q.msiEn 31 ||| flag q.port 30 ||| flag q.ptagEn 24 ||| place q.ptag 16 ||| place q.vec 0
  | 3 => q.stat
  | 4 => placeNat (min q.count 0x7FFF) 17 ||| placeNat (q.wr - q.rl) 0
  | 5 => placeNat (q.rd % q.words) 16 ||| placeNat (q.wr % q.words) 0
  | 6 => placeNat (q.mkOff % q.words) 16 ||| placeNat (q.rl % q.words) 0
  | 7 => place q.ce 16 ||| place q.ue 0
  | 8 => flag q.flushing 0
  | 9 => q.safeTag
  | 12 => Tab.find 0#32 q.safeW 0
  | 13 => Tab.find 0#32 q.safeW 1
  | 14 => Tab.find 0#32 q.safeW 2
  | 15 => Tab.find 0#32 q.safeW 3
  | _ => 0#32

/-- The counts that a read of word k clears (R9, R297). -/
def Queue.regClear (q : Queue) (k : Nat) : Queue := if k = 7 then { q with ce := 0#16, ue := 0#16 } else q

end Sys2Proof.Machine
end

