-- ==== Sys2Proof/Machine/RegRead.lean ====
section
/-! DEFINITION. Reads of registers: what each register shows (R7 to R10 and the register tables of every chapter), and the RC fields
that a read clears. Addresses are device words (R240), local words of a bent (R241), core-private words (R71, R80, R88, R238) and
byte offsets of a port's BAR0 (R313). -/
namespace Sys2Proof.Machine

/-- A register value with tag RAW, which is what a read returns where no other tag is stated (R7). -/
def rawWord (x : W32) : Word := { pay := x, tag := tagRaw }

/-- The low and high word of a 64-bit count. -/
def loOf (t : BitVec 64) : W32 := t.setWidth 32
def hiOf (t : BitVec 64) : W32 := t.extractLsb' 32 32

/-! ### Core-private words -/

/-- The state of a slot as BENT_CORESTAT codes it (R28). -/
def Status.code : Status → Nat
  | .gated => 0
  | .waiting => 1
  | .running => 2
  | .stopped => 3

/-- CORE_TRAPCAUSE (R65). -/
def TrapRec.causeWord (t : TrapRec) : W32 :=
  flag t.valid 31 ||| flag t.split 12 ||| place t.opnd 10 ||| place t.detail 4 ||| place t.cause 0

/-- CORE_TRAPTAGS (R65). -/
def TrapRec.tagsWord (t : TrapRec) : W32 := place t.tagA 24 ||| place t.tagB 16 ||| place t.tagRes 8

/-- Word j of a trap record (R65, R90). -/
def TrapRec.word (t : TrapRec) (j : Nat) : W32 :=
  match j with
  | 0 => t.causeWord
  | 1 => t.pc
  | 2 => t.addr
  | _ => t.tagsWord

/-- A register value as the inspection block shows it: on a compact core the byte with tag 00h (R88). -/
def Core.showWord (k : Core) (w : Word) : Word := if k.psr.compact then rawWord (w.pay &&& 0xFF#32) else w

/-- Word j of a frame of a core (R88). -/
def Core.frameWord (k : Core) (f : Frame) (j : Nat) : Word :=
  match j with
  | 0 => rawWord f.pc
  | 1 => rawWord f.psr.word
  | 2 => k.showWord f.g28
  | 3 => k.showWord f.g29
  | 4 => k.showWord f.g30
  | _ => k.showWord f.g31

/-- A register as the inspection block shows it (R88). -/
def Core.shown (k : Core) (r : Nat) : Word := k.showWord (k.reg r)

/-- Word k of the inspection block (R88, R89). -/
def Core.inspect (x : Core) (k : Nat) : Word :=
  if k = 0x50 then rawWord (flag (x.status == .waiting) 31 ||| placeNat x.frames.length 0)
  else if 0x58 ≤ k ∧ k < 0x5C then rawWord (x.trap.word (k - 0x58))
  else if 0x53 ≤ k then wordZero
  else if x.status != .stopped then wordNv
  else if k < 0x20 then x.shown k
  else if k < 0x50 then
    match x.frames.reverse[(k - 0x20) / 6]? with
    | some f => x.frameWord f ((k - 0x20) % 6)
    | none => wordZero
  else if k = 0x51 then rawWord x.psr.word
  else rawWord x.pc

/-- CORE_ID of a logical core (R28). -/
def Dev.coreIdWord (d : Dev) (c : Nat) : W32 :=
  flag d.chain.uvalid 31 ||| (if d.chain.uvalid then place d.chain.unit 27 else 0#32) ||| placeNat c 12 ||| placeNat (d.physCore c) 0

/-- Core-private word k of core c (R71). -/
def Dev.privRead (d : Dev) (c k : Nat) : Word :=
  let x := d.core c
  if k = 0 then rawWord (d.coreIdWord c)
  else if k = 2 then rawWord x.cmptBase
  else if k = 3 then rawWord (place x.winMask 0)
  else if k = 0x10 then { pay := d.timeAt (bentOf c), tag := tagTime }
  else if k = 0x11 then rawWord (loOf (d.tbAt (bentOf c)))
  else if k = 0x12 then { pay := x.wake, tag := tagTime }
  else if k = 0x20 then rawWord (place x.deckDly 0)
  else if k = 0x21 then rawWord (place x.refRetries 16 ||| place x.refTrans 0)
  else if k = 0x22 then rawWord (place x.deckNp 0)
  else if k = 0x23 then rawWord (placeNat (x.inFlight + d.signalsOut c) 8 ||| place x.cls 0)
  else if 0x100 ≤ k ∧ k < 0x180 then x.inspect (k - 0x100)
  else wordZero

/-- What a read of core-private word k clears (R9, R238). -/
def Core.privClear (x : Core) (k : Nat) : Core :=
  if k = 0x20 then { x with deckDly := 0#16 }
  else if k = 0x21 then { x with refRetries := 0#16, refTrans := 0#16 }
  else if k = 0x22 then { x with deckNp := 0#16 }
  else x

/-! ### MEM_ words (R256) -/

/-- Word k of the MEM_ registers of an SRAM with n spare rows a bank. -/
def Sram.word (x : Sram) (n k : Nat) : W32 :=
  if k = 0 then place x.scrub 24 ||| flag x.scren 8 ||| place x.ceShift 0
  else if k = 1 then x.errAddr
  else if k = 2 then flag x.ueValid 31 ||| place x.ueBank 28 ||| place x.kind 24 ||| place x.req 0
  else if 8 ≤ k ∧ k < 16 then
    let b := x.bank (k - 8)
    place b.ce 16 ||| place b.ue 8 ||| placeNat (n - b.used.toNat) 0
  else 0#32

/-- What a read of word k clears. -/
def Sram.clearOn (x : Sram) (k : Nat) : Sram :=
  if 8 ≤ k ∧ k < 16 then x.onBank (k - 8) (fun b => { b with ce := 0#16, ue := 0#8 }) else x

/-! ### A bent's control space -/

/-- A proposal as SCR_PROPOSE codes it (R190). -/
def Proposal.word : Proposal → W32
  | .none => 0#32
  | .swap p => 0x40000000#32 ||| place p 8
  | .migrate e l => 0x80000000#32 ||| place e 4 ||| place l 0

/-- The typical step rate of code 10j (R190). -/
def typicalRate (j : Nat) : Nat := [450, 700, 950, 1125, 1300, 1500, 1700, 1875, 2050, 2225, 2400].getD j 0

/-- The stored curve point j: OSC and RATE (R190). -/
def Scribe.point (a : Scribe) (j : Nat) : BitVec 16 × BitVec 16 := Tab.find (0#16, BitVec.ofNat 16 (typicalRate j)) a.curve j

/-- Word j of a slack entry (R190). -/
def Slack.word (x : Slack) (j : Nat) : W32 :=
  match j with
  | 0 => flag x.valid 31 ||| flag x.safety 30 ||| flag x.paced 29 ||| place x.source 0
  | 1 => x.deadline
  | 2 => x.worst
  | _ => place x.ovr 16 ||| place x.miss 0

/-- Word k of the Scribe agent's first block, local words 0002_0800h on (R190). -/
def Scribe.word (a : Scribe) (k : Nat) : W32 :=
  match k with
  | 0 => place a.period 24 ||| place a.pmargin 16 ||| place a.margin 8 ||| place a.policy 0
  | 1 => place a.fixed 16 ||| place a.floor 0
  | 2 => flag a.held 31 ||| flag a.unable 30 ||| flag a.slew 29 ||| place a.actual 16 ||| place a.grant 8 ||| place a.target 0
  | 3 => place a.k 16 ||| placeNat (a.ageing.toNat / 2 ^ 24) 0
  | 4 => place a.meGrade 12 ||| place a.exGrade 8 ||| place a.meDly 4 ||| place a.exDly 0
  | 5 => place a.late 16 ||| place a.near 0
  | 6 => place a.tier 30 ||| place a.hcount 0
  | 7 => place a.utilEntry 20 ||| place a.utilSlot 16 ||| place a.utilU 0
  | 8 => a.propose.word
  | 9 => place a.pest 0
  | k => if 0x10 ≤ k ∧ k < 0x1B then place (a.point (k - 0x10)).1 16 ||| place (a.point (k - 0x10)).2 0 else 0#32

/-- Whether a source is PENDING, OFFERED or ENTERING (R213). -/
def SrcState.pends : SrcState → Bool
  | .pending | .offered _ | .entering _ => true
  | .idle | .held | .claimed _ => false

/-- Whether a source is CLAIMED. -/
def SrcState.isClaimed : SrcState → Bool
  | .claimed _ => true
  | .idle | .held | .pending | .offered _ | .entering _ => false

/-- BIU_SRCn (R213). -/
def Src.word (x : Src) : W32 :=
  flag x.en 31 ||| flag x.wake 30 ||| flag x.cge 29 ||| place x.cg 25 ||| place x.mask 8 ||| place x.pri 0

/-- An entry of a priority stack (R213). -/
def StkEnt.word (e : StkEnt) : W32 := flag true 31 ||| place e.pri 8 ||| place e.src 0

/-- Word j of an alarm comparator; CMP reads with tag 80h (R213). -/
def Alarm.word (a : Alarm) (j : Nat) : Word :=
  match j with
  | 0 => rawWord (place a.mode 30 ||| flag a.armed 29 ||| flag a.cgHeld 12 ||| place a.cgOwn 8 ||| place a.wsrc 0)
  | 1 => { pay := a.cmp, tag := tagTime }
  | 2 => rawWord a.per
  | _ => rawWord (place a.missed 0)

/-- Word k of the BIU, from local word 0002_0300h on (R213). -/
def Biu.word (u : Biu) (k : Nat) : Word :=
  if k = 0 then rawWord (place u.preMargin 0)
  else if k < 7 then rawWord (bitmap (32 * (k - 1)) (fun n => (u.source n).st.pends))
  else if k < 13 then rawWord (bitmap (32 * (k - 7)) (fun n => (u.source n).st.isClaimed))
  else if k < 19 then rawWord (bitmap (32 * (k - 13)) (fun n => (u.source n).level))
  else if k < 25 then rawWord (bitmap (32 * (k - 19)) (fun n => u.undeliv.getLsbD n))
  else if k = 25 then rawWord (place u.spurLast 24 ||| place u.spurCount 0)
  else if k = 26 then rawWord (bitmap 184 (fun n => decide (n < 192) && (u.source n).level))
  else if 0x100 ≤ k ∧ k < 0x1C0 then rawWord (u.source (k - 0x100)).word
  else if 0x200 ≤ k ∧ k < 0x2C0 then rawWord (u.source (k - 0x200)).vec
  else if 0x300 ≤ k ∧ k < 0x320 then
    let g := u.group ((k - 0x300) / 2)
    if k % 2 = 0 then rawWord (flag g.ten 31 ||| place g.limit 8 ||| place g.count 0)
    else rawWord (flag g.collect 31 ||| flag g.byTime 30 ||| place g.events 0)
  else if 0x340 ≤ k ∧ k < 0x3C0 then (u.alarm ((k - 0x340) / 4)).word (k % 4)
  else if 0x400 ≤ k ∧ k < 0x500 then
    let l := u.stack ((k - 0x400) / 16)
    if k % 16 = 15 then rawWord (flag (u.bad.getLsbD ((k - 0x400) / 16)) 31 ||| placeNat l.length 0)
    else match l.reverse[k % 16]? with
      | some e => rawWord e.word
      | none => wordZero
  else wordZero

/-- What a read of word k of the BIU clears (R9, R213). -/
def Biu.clearOn (u : Biu) (k : Nat) : Biu :=
  if k = 25 then { u with spurCount := 0#16 }
  else if 0x340 ≤ k ∧ k < 0x3C0 ∧ k % 4 = 3 then u.onAlarm ((k - 0x340) / 4) (fun a => { a with missed := 0#16 })
  else u

/-- Local word 0002_0000h + k of bent b, k below 1000h (R28, R241). -/
def Dev.bentRead (d : Dev) (b k : Nat) : Word :=
  let x := d.bent b
  if k = 0 then rawWord (placeNat (spanOf b) 8 ||| placeNat b 0)
  else if k < 5 then
    let p := fun j => (x.physOf (4 * (k - 1) + j)).toNat
    rawWord (placeNat (p 3) 24 ||| placeNat (p 2) 16 ||| placeNat (p 1) 8 ||| placeNat (p 0) 0)
  else if k = 5 then rawWord (place x.seq 24 ||| flag x.spareFree 17 ||| place x.retired 0)
  else if k = 6 then
    rawWord ((List.range 16).foldl (fun w i => w ||| placeNat (d.core (coreOf b i)).status.code (2 * i)) 0#32)
  else if k = 8 then rawWord x.unitId
  else if 0x10 ≤ k ∧ k < 0x20 then rawWord (Tab.find 0#32 x.winBase (k - 0x10))
  else if 0x20 ≤ k ∧ k < 0x30 then rawWord (Tab.find 0#32 x.winLim (k - 0x20))
  else if k = 0x30 then rawWord x.winPerm
  else if 0x40 ≤ k ∧ k < 0x50 then rawWord (Tab.find 0#32 x.ddrWin (k - 0x40))
  else if 0x100 ≤ k ∧ k < 0x200 then
    let e := fun j => (x.product (BitVec.ofNat 5 ((k - 0x100) / 8)) (BitVec.ofNat 5 (4 * (k % 8) + j))).toNat
    rawWord (placeNat (e 3) 24 ||| placeNat (e 2) 16 ||| placeNat (e 1) 8 ||| placeNat (e 0) 0)
  else if 0x200 ≤ k ∧ k < 0x240 then rawWord ((d.core (coreOf b ((k - 0x200) / 4))).trap.word (k % 4))
  else if k = 0x240 then rawWord (place x.inspSel 0)
  else if 0x280 ≤ k ∧ k < 0x300 then (d.core (coreOf b x.inspSel.toNat)).inspect (k - 0x280)
  else if 0x300 ≤ k ∧ k < 0x800 then x.biu.word (k - 0x300)
  else if 0x800 ≤ k ∧ k < 0x900 then rawWord (x.scr.word (k - 0x800))
  else if 0x900 ≤ k ∧ k < 0xA00 then rawWord ((Tab.find {} x.scr.slack ((k - 0x900) / 4) : Slack).word (k % 4))
  else if 0xA00 ≤ k ∧ k < 0xA10 then rawWord (place (Tab.find 0#16 x.scr.underrun (k - 0xA00)) 0)
  else if 0xB00 ≤ k ∧ k < 0xB20 then
    let w : Switch := Tab.find {} x.sw ((k - 0xB00) / 2)
    rawWord (if k % 2 = 0 then flag w.armed 31 ||| flag w.kind 30 ||| place w.src 0 else w.vec)
  else if k = 0xB21 then rawWord (place x.migIn 16 ||| place x.updates 0)
  else if k = 0xB22 then rawWord x.lastGap
  else if 0xC00 ≤ k ∧ k < 0xC10 then rawWord (x.sram.word 4 (k - 0xC00))
  else wordZero

/-- What a read of local word 0002_0000h + k of a bent clears. -/
def Bent.clearOn (x : Bent) (k : Nat) : Bent :=
  if 0x300 ≤ k ∧ k < 0x800 then { x with biu := x.biu.clearOn (k - 0x300) }
  else if k = 0x805 then { x with scr := { x.scr with late := 0#16, near := 0#16 } }
  else if k = 0x806 then { x with scr := { x.scr with hcount := 0#16 } }
  else if 0xC00 ≤ k ∧ k < 0xC10 then { x with sram := x.sram.clearOn (k - 0xC00) }
  else x

/-! ### Span blocks -/

/-- Word w of span s's block, below the queue port words (R191, R239, R256, R268, R297). SCR_SPANPWR rounds down and saturates (DESIGN CHOICE, log
entry 132). -/
def Dev.spanRead (d : Dev) (s w : Nat) : W32 :=
  let x := d.span s
  if w = 0 then flag (s % 2 == 0) 16 ||| placeNat s 0
  else if w = 0x100 then place x.starve 24
  else if w = 0x101 then place x.starveReq 16 ||| place x.starveCnt 0
  else if 0x110 ≤ w ∧ w < 0x124 then
    let t : Target := Tab.find {} x.targets ((w - 0x110) / 4)
    let odd4 := s % 2 == 1 && (w - 0x110) / 4 == 4
    match w % 4 with
    | 0 => place t.high 0
    | 1 => if odd4 then 0#32 else place t.peak 16 ||| placeNat (d.fillAt (s, (w - 0x110) / 4)) 0
    | 2 => t.refs
    | _ => t.dlys
  else if 0x200 ≤ w ∧ w < 0x210 then x.sram.word 32 (w - 0x200)
  else if w = 0x300 then place x.cstSpares 16
  else if w = 0x301 then place x.cstCe 16 ||| place x.cstUe 0
  else if w = 0x302 then x.cstErrAddr
  else if w = 0x303 then place x.pacedBank 0
  else if 0x310 ≤ w ∧ w < 0x31C then
    match x.slots.find? (fun e => e.1 == w - 0x310) with
    | some (_, c) => flag true 31 ||| place c 0
    | none => 0#32
  else if w = 0x800 then place x.spanHeld 0
  else if w = 0x801 then place x.spanUnable 0
  else if w = 0x802 then
    placeNat (min 0xFFFF ((List.range 16).foldl (fun n j => n + (d.bent (16 * s + j)).scr.pest.toNat) 0 / 10)) 0
  else if 0x1000 ≤ w ∧ w < 0x1800 then (d.queue (128 * s + (w - 0x1000) / 16)).reg (w % 16)
  else 0#32

/-- What a read of word w of span s's block clears. -/
def Dev.spanClear (d : Dev) (s w : Nat) : Dev :=
  if w = 0x101 then d.onSpan s (fun x => { x with starveCnt := 0#16 })
  else if 0x110 ≤ w ∧ w < 0x124 then
    d.onSpan s (fun x => { x with targets := Tab.modify {} x.targets ((w - 0x110) / 4) (fun t =>
      match w % 4 with
      | 1 => { t with peak := 0#7 }
      | 2 => { t with refs := 0#32 }
      | 3 => { t with dlys := 0#32 }
      | _ => t) })
  else if 0x200 ≤ w ∧ w < 0x210 then d.onSpan s (fun x => { x with sram := x.sram.clearOn (w - 0x200) })
  else if w = 0x301 then d.onSpan s (fun x => { x with cstCe := 0#16, cstUe := 0#16 })
  else if 0x1000 ≤ w ∧ w < 0x1800 then d.onQueue (128 * s + (w - 0x1000) / 16) (fun q => q.regClear (w % 16))
  else d

/-! ### The centre node -/

/-- The number of ones of a bitmap. -/
def ones {n : Nat} (v : BitVec n) : Nat := ((List.range n).filter (fun i => v.getLsbD i)).length

/-- MODE_ words, from 0800_0100h on (R417). -/
def Dev.modeWord (d : Dev) (k : Nat) : Word :=
  let m := d.mode
  match k with
  | 0 => rawWord (place m.mode 29 ||| place m.prev 26 ||| place m.reason 23 ||| flag m.recov 22 ||| flag m.pendSafe 21
      ||| flag m.safePin 20)
  | 1 => { pay := m.time, tag := tagTime }
  | 2 => rawWord (place m.rstCause 0)
  | 3 => rawWord (flag m.bootSlot 31 ||| flag m.fallback 30 ||| place m.resA 24 ||| place m.resB 20 ||| flag m.srBad 16
      ||| place m.bootMs 0)
  | 4 => rawWord (flag m.regrade 31 ||| flag m.holdComm 30)
  | 5 => rawWord (flag m.commDone 31 ||| flag m.graded 30 ||| flag d.xverFail 29 ||| place m.swaps 16 ||| placeNat (ones m.bentOut) 0)
  | 0x11 => rawWord (flag m.rst.isSome 31)
  | k => if 8 ≤ k ∧ k < 12 then rawWord (m.bentOut.extractLsb' (32 * (k - 8)) 32) else wordZero

/-- XING_ words, from 0800_4000h on (R306). -/
def Dev.xingWord (d : Dev) (k : Nat) : W32 :=
  if k < 154 then
    let x := d.xing k
    flag x.unstable 31 ||| flag x.ovr 30 ||| flag x.pulse 29 ||| flag x.hold 28 ||| place x.ucount 8 ||| place x.ocount 0
  else if k = 0xA0 then
    flag (d.xings.any (fun e => e.2.unstable)) 31 ||| flag (d.xings.any (fun e => e.2.ovr)) 30 ||| place d.xFirst 0
  else if k = 0xA1 then flag d.xverDone 31 ||| flag d.xverFail 30 ||| place d.xverDom 0
  else 0#32

/-- CST_WS words, from 0800_3000h on, for Keystone alone (R267). -/
def WriteSeq.word (s : WriteSeq) (k : Nat) : W32 :=
  if k < 16 then Tab.find 0#32 s.buf k
  else if k = 16 then s.addr
  else if k = 18 then flag (s.phase != .idle) 31 ||| place s.result 28 ||| place s.tries 24
  else 0#32

/-- FLT_FIRST (R449). -/
def Collector.firstWord (f : Collector) : W32 :=
  flag f.valid 31 ||| flag f.also 30 ||| place f.sev 27 ||| placeNat f.source 16 ||| flag f.promoted 15 ||| place f.inst 0

/-- FLT_ words, from 0803_0000h on (R449). -/
def Dev.fltWord (d : Dev) (k : Nat) : Word :=
  let f := d.flt
  if k = 0 then rawWord f.firstWord
  else if k = 1 then rawWord (place f.detail 0)
  else if k = 2 then { pay := f.time, tag := tagTime }
  else if k = 3 then rawWord f.counts
  else if k = 4 then rawWord (place f.notice 0)
  else if k = 5 then rawWord (flag (!f.atLeast 1) 3 ||| flag (!f.atLeast 3) 2 ||| flag d.kRun 1 ||| flag d.sRun 0)
  else if 0x10 ≤ k ∧ k < 0x28 then rawWord (bitmap (32 * (k - 0x10)) (fun n => (f.src n).latched))
  else if 0x30 ≤ k ∧ k < 0x48 then rawWord (bitmap (32 * (k - 0x30)) (fun n => (f.src n).esc))
  else if 0x400 ≤ k ∧ k < 0x700 then
    let x := f.src (k - 0x400)
    rawWord (flag x.latched 31 ||| flag x.esc 30 ||| place x.lsev 27 ||| place x.ign 8 ||| place (f.sevOf (k - 0x400)) 0)
  else if 0x1000 ≤ k ∧ k < 0x1800 ∧ (k - 0x1000) % 8 < 5 then
    rawWord (bitmap (32 * (k % 8)) (fun n => (f.src (512 + (k - 0x1000) / 8)).insts.contains n))
  else wordZero

/-- PWR_WAKEEN: bits 1, 5 and 6 read 1 always (R435). -/
def Power.wakeMask (p : Power) : Byte := (p.wakeEn ||| 0x62#8) &&& 0xFE#8

/-- PWR_LASTWAKE. -/
def Power.lastWake (p : Power) : W32 := place p.wakeSrc 24 ||| place p.wakeFrom 21
/-- PWR_REFUSER. -/
def Power.refuser (p : Power) : W32 := flag p.refValid 31 ||| place p.refReason 16 ||| place p.refDomain 0

/-- PWR_ words, from 0804_0000h on (R435). -/
def Power.word (p : Power) (k : Nat) : W32 :=
  match k with
  | 0 => place p.pstate 29 ||| flag p.nego.isSome 28 ||| (match p.nego with | some n => placeNat n.asked 20 | none => 0#32)
  | 1 => place p.p1dwell 24 ||| flag p.viaOk 0
  | 2 => place p.ceil 0
  | 3 => p.pest
  | 4 => p.lastWake
  | 5 => p.refuser
  | 6 => place p.wakeMask 0
  | 7 => p.alarm
  | 8 => loOf p.slept
  | 9 => hiOf p.slept
  | 10 => p.p1cnt
  | 11 => place p.gateDwell 0
  | _ => 0#32

/-- SEC_ words, from 0805_0000h on (R467). -/
def Sec.word (c : Sec) (busy : Bool) (k : Nat) : W32 :=
  if k = 0 then flag busy 31 ||| flag c.cert.isSome 30 ||| place c.lastRes 24 ||| place c.lastDet 0
  else if k = 1 then (match c.cert with | some x => x.ownerId | none => 0#32)
  else if k = 2 then place c.dbgScope 0
  else if k = 4 then place c.rootPresent 2 ||| place c.rootRevoked 0
  else if k = 5 then place c.fails 16 ||| place c.checks 0
  else if 0x10 ≤ k ∧ k < 0x18 then
    let f := fun j => Tab.find 0#8 c.rb (4 * (k - 0x10) + j)
    wordOfBytes (f 0) (f 1) (f 2) (f 3)
  else if 0x100 ≤ k ∧ k < 0x110 then c.idEd.extractLsb' (32 * (k - 0x100)) 32
  else if 0x110 ≤ k ∧ k < 0x120 then c.idMl.extractLsb' (32 * (k - 0x110)) 32
  else 0#32

/-- PLB_ words, from 0806_0000h on (R501). -/
def Dev.plbWord (d : Dev) (k : Nat) : W32 :=
  if k < 8 then
    let p : PlbPin := Tab.find {} d.plb k
    flag p.en 31 ||| flag p.event 30 ||| place p.div 26 ||| flag p.ovf 25 ||| place p.signal 0
  else if k < 16 then place (Tab.find {} d.plb (k - 8) : PlbPin).count 0
  else if k = 16 then
    flag d.chain.dn.sbEn 3 ||| flag d.chain.dn.sbEn 2 ||| flag (Tab.find {} d.plb 7 : PlbPin).en 1 |||
      flag (Tab.find {} d.plb 6 : PlbPin).en 0
  else 0#32

/-- Word j of a Viaduct port's registers (R396). -/
def Via.word (v : Via) (j : Nat) : W32 :=
  match j with
  | 0 => flag v.en 31 ||| flag v.sbEn 30
  | 1 => flag (v.st == .up) 31 ||| flag v.spare 30 ||| flag v.half 29 ||| flag (v.st == .train || v.retraining) 28
      ||| place v.lanes 16 ||| flag v.nvalid 15 ||| place v.nunit 8
  | 2 => v.retry
  | 3 => (List.range 5).foldl (fun w l => w ||| placeNat (min 63 (Tab.find 0 v.lerr l)) (6 * l)) 0#32
  | 4 => place v.downs 0
  | 5 => place v.bad 0
  | _ => 0#32

/-- VIA_CHAIN.CFAULT (R390). -/
def Dev.chainFault (d : Dev) : Bool := d.chainOwn || d.cfReceived .up || d.cfReceived .dn

/-- VIA_ words, from 0807_0000h on (R396). -/
def Dev.viaWord (d : Dev) (k : Nat) : W32 :=
  let c := d.chain
  if k = 0 then flag c.head 31 ||| flag c.uvalid 30 ||| place c.unit 24 ||| place c.chainLen 16 ||| place d.reach 0
  else if k = 1 then
    flag d.chainFault 31 ||| flag d.chainOwn 30 ||| flag (d.cfReceived .up) 29 ||| flag (d.cfReceived .dn) 28 ||| place c.cfSev 0
  else if k = 2 then loOf (c.tbOfs.getD 0#64)
  else if k = 3 then hiOf (c.tbOfs.getD 0#64)
  else if k = 4 then flag c.tbOfs.isSome 31 ||| place c.fails 24 ||| place c.delay 16 ||| place c.resid 0
  else if 0x10 ≤ k ∧ k < 0x16 then c.up.word (k - 0x10)
  else if 0x20 ≤ k ∧ k < 0x26 then c.dn.word (k - 0x20)
  else 0#32

/-! ### Host ports -/

/-- Lease left in ms, rounded up (R331, R334). -/
def Dev.semRemain (d : Dev) : Nat := (d.sem.expiry - d.clk + 799999) / 800000

/-- A port as a number. -/
def Port.num : Port → Nat
  | .a => 0
  | .b => 1

/-- SEM_OWNER (R334). -/
def Dev.semOwner (d : Dev) : W32 :=
  match d.sem.holder with
  | none => 0#32
  | some p => flag true 31 ||| placeNat (match p with | .a => 0 | .b => 1) 16 ||| placeNat (d.semRemain % 65536) 0

/-- SEM_STAT of a port. -/
def Sem.stat (m : Sem) : Port → SemStat
  | .a => m.statA
  | .b => m.statB

/-- SEM_STAT of a port changed by f. -/
def Sem.onStat (m : Sem) (p : Port) (f : SemStat → SemStat) : Sem :=
  match p with
  | .a => { m with statA := f m.statA }
  | .b => { m with statB := f m.statB }

/-- Word k of the semaphore registers of a port (R334). -/
def Dev.semWord (d : Dev) (p : Port) (k : Nat) : W32 :=
  match k with
  | 3 => d.semOwner
  | 4 =>
    let x := d.sem.stat p
    place x.result 29 ||| flag x.forced 28 ||| place x.why 26 ||| place x.refusals 0
  | 5 => flag (d.sem.loser == .b) 0
  | _ => 0#32

/-- Word k of the PCI_ registers of a port (R335, R336). -/
def Dev.pciWord (d : Dev) (p : Port) (k : Nat) : W32 :=
  let t := d.port p
  if !d.isPcie p && 5 ≤ k then 0#32
  else match k with
    | 0 => flag t.b0host 31 ||| flag t.b4keep 1 ||| flag t.tagKeep 0
    | 1 => place t.b4base 0
    | 2 => place (t.hostRid.getD 0#16) 0
    | 3 => flag t.linkUp 31 ||| flag t.l1 30 ||| flag t.l12 29 ||| place t.speed 16 ||| place t.width 8
    | 4 => place t.errUr 24 ||| place t.errEp 16 ||| place t.errNp 8 ||| place t.errDrop 0
    | 5 => flag t.ptmEn 31 ||| place t.ptmInt 0
    | 6 => loOf (t.ptmOfs.getD 0#64)
    | 7 => hiOf (t.ptmOfs.getD 0#64)
    | 8 => flag t.ptmOfs.isSome 31 ||| place t.ptmResid 0
    | _ => 0#32

/-- What a read of word k of a port's PCI_ registers clears. -/
def PortSt.pciClear (t : PortSt) (k : Nat) : PortSt :=
  if k = 4 then { t with errUr := 0#8, errEp := 0#8, errNp := 0#8, errDrop := 0#8 } else t

/-- DDR_ words of a controller (R280). -/
def Ddr.word (x : Ddr) (k : Nat) : W32 :=
  if k = 0 then x.cfg
  else if k = 1 then flag x.ready 31 ||| flag x.selfRef 30 ||| flag (!x.tagInit.isEmpty) 29 ||| place x.temp 0
  else if k = 2 then x.ce
  else if k = 3 then place x.ue 0
  else if k = 4 then x.errAddr.setWidth 32
  else if k = 5 then flag x.ueValid 31 ||| place (x.errAddr.extractLsb' 32 5) 24 ||| place x.errLoc 17 ||| place x.errReq 0
  else if k = 7 then place x.scrubHours 24 ||| flag x.scrubEn 0
  else if k = 8 then place x.soft 16 ||| place x.pend 8
  else if k = 9 then place x.tcMiss 16 ||| place x.tcHit 0
  else if 0x100 ≤ k ∧ k < 0x108 then x.regattr.extractLsb' (32 * (k - 0x100)) 32
  else 0#32

/-- What a read of word k of a DDR5 controller clears. -/
def Ddr.clearOn (x : Ddr) (k : Nat) : Ddr :=
  if k = 2 then { x with ce := 0#32 }
  else if k = 3 then { x with ue := 0#16 }
  else if k = 9 then { x with tcMiss := 0#16, tcHit := 0#16 }
  else x

/-- Word j of a centre requester's counters (R238). -/
def Dev.creqWord (d : Dev) (n j : Nat) : W32 :=
  let x := d.creq n
  match j with
  | 0 => x.dly
  | 1 => place x.retries 16 ||| place x.trans 0
  | 2 => place x.np 0
  | _ => placeNat (d.entriesUsed (BitVec.ofNat 12 (0x800 + n))) 0

/-- What a read of word j of a centre requester's counters clears. -/
def CentreReq.clearOn (x : CentreReq) (j : Nat) : CentreReq :=
  match j with
  | 0 => { x with dly := 0#32 }
  | 1 => { x with retries := 0#16, trans := 0#16 }
  | 2 => { x with np := 0#16 }
  | _ => x

/-! ### Device register space (R240) -/

/-- A register of device word w for a requester (R240); queue port words are not registers (R283). -/
def Dev.regRead (d : Dev) (req : ReqId) (w : Nat) : Word :=
  if 0x08200000 ≤ w ∧ w < 0x08280000 then d.bentRead ((w - 0x08200000) / 0x1000) (w % 0x1000)
  else if 0x08100000 ≤ w ∧ w < 0x08180000 then rawWord (d.spanRead ((w - 0x08100000) / 0x10000) (w % 0x10000))
  else if 0x08000100 ≤ w ∧ w < 0x08000112 then d.modeWord (w - 0x08000100)
  else if w = 0x08000200 then
    rawWord (flag d.ks.live 31 ||| flag d.ks.revert 30 ||| flag d.ks.slotB 29 ||| place d.ks.restartMs 0)
  else if w = 0x08000201 then
    rawWord (flag d.ks.swapValid 31 ||| place d.ks.swapResult 28 ||| place d.ks.swapBent 16 ||| place d.ks.swapPslot 8
      ||| place d.ks.swapLslot 0)
  else if w = 0x08002000 then rawWord (place d.abtStarve 24 ||| place d.abtHigh 0)
  else if w = 0x08002001 then rawWord (place d.abtReq 16 ||| place d.abtCnt 0)
  else if 0x08002100 ≤ w ∧ w < 0x08002140 then rawWord (d.creqWord ((w - 0x08002100) / 4) (w % 4))
  else if 0x08003000 ≤ w ∧ w < 0x08003013 then if req = ksReq then rawWord (d.ws.word (w - 0x08003000)) else wordZero
  else if 0x08004000 ≤ w ∧ w < 0x080040A2 then rawWord (d.xingWord (w - 0x08004000))
  else if w = 0x08010000 then rawWord (loOf d.tb)
  else if w = 0x08010001 then rawWord (hiOf d.tb)
  else if w = 0x08010002 then rawWord (place d.tbSrc 0)
  else if w = 0x08010003 then rawWord (flag (d.tbSrc == 0#2 || d.tbLock) 0)
  else if 0x08020000 ≤ w ∧ w < 0x08020020 then
    let t := Tab.find (false, 0#16) d.temps (w - 0x08020000)
    rawWord (flag t.1 31 ||| place t.2 0)
  else if 0x08030000 ≤ w ∧ w < 0x08040000 then d.fltWord (w - 0x08030000)
  else if 0x08040000 ≤ w ∧ w < 0x08050000 then rawWord (d.pwr.word (w - 0x08040000))
  else if 0x08050000 ≤ w ∧ w < 0x08060000 then rawWord (d.sec.word d.engineBusy (w - 0x08050000))
  else if 0x08060000 ≤ w ∧ w < 0x08070000 then rawWord (d.plbWord (w - 0x08060000))
  else if 0x08070000 ≤ w ∧ w < 0x08080000 then rawWord (d.viaWord (w - 0x08070000))
  else if 0x08080000 ≤ w ∧ w < 0x08080100 then rawWord (d.pciWord .a (w - 0x08080000))
  else if 0x08080100 ≤ w ∧ w < 0x08080200 then rawWord (d.pciWord .b (w - 0x08080100))
  else if 0x08080200 ≤ w ∧ w < 0x08080208 then rawWord (d.semWord .a (w - 0x08080200))
  else if 0x08080208 ≤ w ∧ w < 0x08080210 then rawWord (d.semWord .b (w - 0x08080208))
  else if 0x08090000 ≤ w ∧ w < 0x08094000 then
    rawWord ((d.ddr ((w - 0x08090000) / 0x1000)).word (w % 0x1000))
  else wordZero

/-- What a read of device word w clears (R9). -/
def Dev.regClear (d : Dev) (w : Nat) : Dev :=
  if 0x08200000 ≤ w ∧ w < 0x08280000 then d.onBent ((w - 0x08200000) / 0x1000) (fun x => x.clearOn (w % 0x1000))
  else if 0x08100000 ≤ w ∧ w < 0x08180000 then d.spanClear ((w - 0x08100000) / 0x10000) (w % 0x10000)
  else if w = 0x08002001 then { d with abtCnt := 0#16 }
  else if 0x08002100 ≤ w ∧ w < 0x08002140 then d.onCreq ((w - 0x08002100) / 4) (fun x => x.clearOn (w % 4))
  else if 0x08004000 ≤ w ∧ w < 0x0800409A then d.onXing (w - 0x08004000) (fun x => { x with ucount := 0#8, ocount := 0#8 })
  else if 0x08030400 ≤ w ∧ w < 0x08030700 then d.onFlt (fun f => f.onSrc (w - 0x08030400) (fun x => { x with ign := 0#8 }))
  else if w = 0x0804000A then d.onPwr (fun p => { p with p1cnt := 0#32 })
  else if w = 0x08050005 then { d with sec := { d.sec with fails := 0#16, checks := 0#16 } }
  else if w = 0x08070013 then d.onVia .up (fun v => { v with lerr := [] })
  else if w = 0x08070014 then d.onVia .up (fun v => { v with downs := 0#16 })
  else if w = 0x08070023 then d.onVia .dn (fun v => { v with lerr := [] })
  else if w = 0x08070024 then d.onVia .dn (fun v => { v with downs := 0#16 })
  else if 0x08080000 ≤ w ∧ w < 0x08080100 then d.onPort .a (fun t => t.pciClear (w - 0x08080000))
  else if 0x08080100 ≤ w ∧ w < 0x08080200 then d.onPort .b (fun t => t.pciClear (w - 0x08080100))
  else if 0x08090000 ≤ w ∧ w < 0x08094000 then d.onDdr ((w - 0x08090000) / 0x1000) (fun x => x.clearOn (w % 0x1000))
  else d

/-! ### BAR0 (R313, R314, R334, R335, R339) -/

/-- STAT_ID (R314). -/
def Dev.statId (d : Dev) : W32 :=
  0x20480000#32 ||| place d.sec.rev 8 ||| flag d.chain.uvalid 7 ||| (if d.chain.uvalid then place d.chain.unit 0 else 0#32)

/-- STAT_MODE (R314). -/
def Dev.statMode (d : Dev) : W32 :=
  place d.mode.mode 29 ||| place d.pwr.pstate 26 ||| flag d.kRun 25 ||| flag d.sRun 24 ||| flag d.safeNLow 23 ||| flag d.ks.kbusy 22

/-- Word k of the status page (R314). -/
def Dev.statWord (d : Dev) (k : Nat) : W32 :=
  match k with
  | 0 => d.statId
  | 1 => d.statMode
  | 2 => d.flt.firstWord &&& 0xFFFF0000#32
  | 3 => d.flt.counts
  | 4 => d.semOwner
  | 5 => loOf d.tb
  | 6 => hiOf d.tb
  | 7 => d.pwr.lastWake
  | 8 => d.pwr.refuser
  | 9 => d.flt.heart
  | _ => 0#32

/-- CMD_STAT (R339). -/
def PortSt.cmdStat (t : PortSt) : W32 :=
  flag t.busy 31 ||| flag t.done 30 ||| flag t.arun 29 ||| flag t.adone 28 ||| place t.drops 0

/-- The word of a port's BAR0 at an aligned byte offset (R313). -/
def Dev.bar0Read (d : Dev) (p : Port) (off : Nat) : W32 :=
  let t := d.port p
  if off < 0x1000 then d.statWord (off / 4)
  else if off < 0x1020 then d.semWord p ((off - 0x1000) / 4)
  else if off = 0x1024 then t.cmdStat
  else if off = 0x1028 then t.aseq
  else if off = 0x102C then t.ares
  else if off = 0x1030 then t.aelap
  else if 0x1100 ≤ off ∧ off < 0x1124 then d.pciWord p ((off - 0x1100) / 4)
  else if 0x2000 ≤ off ∧ off < 0x3000 then Tab.find 0#32 t.reqBuf ((off - 0x2000) / 4)
  else if 0x3000 ≤ off ∧ off < 0x4000 then Tab.find 0#32 t.repBuf ((off - 0x3000) / 4)
  else if 0x4000 ≤ off ∧ off < 0xC000 then t.msixWord ((off - 0x4000) / 4)
  else if 0xC000 ≤ off ∧ off < 0xC100 then t.pba.extractLsb' (8 * (off - 0xC000)) 32
  else 0#32

/-- What a read of a port's BAR0 clears. -/
def Dev.bar0Clear (d : Dev) (p : Port) (off : Nat) : Dev :=
  if off = 0x1010 then { d with sem := d.sem.onStat p (fun x => { x with refusals := 0#16 }) }
  else if off = 0x1024 then d.onPort p (fun t => { t with drops := 0#16 })
  else if off = 0x1110 then d.onPort p (fun t => t.pciClear 4)
  else d

end Sys2Proof.Machine
end

