-- ==== Sys2Proof/Machine/ScrOps.lean ====
section
/-! DEFINITION. The Scribe agent's shared operations (spec 05_speed_voltage_scribe.md R159 to R188): predicted step rates, requests
and grants of voltage codes, fast raises, the start hold, unable bents and their proposals. -/
namespace Sys2Proof.Machine

/-! ### Prediction (R160, R164) -/

/-- Ten times the value at code c of a quantity given at every tenth code, linear between those (R160). -/
def tenthsAt (f : Nat → Nat) (c : Nat) : Nat :=
  if c % 10 = 0 then 10 * f (c / 10) else f (c / 10) * (10 - c % 10) + f (c / 10 + 1) * (c % 10)

/-- The graded step rate at a code, in 1/10 Mstep/s, linear between the points of SCR_CURVE (R160, R190). -/
def Scribe.curveAt (a : Scribe) (c : Nat) : Nat := tenthsAt (fun j => (a.point j).2.toNat) c

/-- Ten times the graded count of the process monitor at a code, interpolated between the points of SCR_CURVE (R163). -/
def Scribe.oscAt (a : Scribe) (c : Nat) : Nat := tenthsAt (fun j => (a.point j).1.toNat) c

/-- K from a count of the process monitor at code c: the ratio to the graded count, cut to 1/32,768 and saturating (R163, R164; DESIGN
CHOICE, log entry 106). While SCR_CURVE holds no graded count K is a free value (log entry 11). -/
def Dev.scrMeasure (d : Dev) (b c : Nat) (count : BitVec 16) : Dev :=
  match ((d.bent b).scr).oscAt c with
  | 0 => d.fresh.2.onScr b (fun a => { a with k := d.fresh.1.setWidth 16 })
  | n + 1 => d.onScr b (fun a => { a with k := BitVec.ofNat 16 (min 0xFFFF (count.toNat * 327680 / (n + 1))) })

/-- The matched-delay codes by which the bent runs above its graded setting (R164, R190). -/
def Scribe.excess (a : Scribe) : Nat := max (a.exDly.toNat - a.exGrade.toNat) (a.meDly.toNat - a.meGrade.toNat)

/-- The unit of `pred`: 1 Gstep/s is 10,000 × 32,768 × 50 of it. -/
def predUnit : Nat := 10000 * 32768 * 50

/-- pred(c) of R164, exactly, in units of 1/predUnit Gstep/s. -/
def Scribe.pred (a : Scribe) (c : Nat) : Nat := a.curveAt c * a.k.toNat * (50 - a.excess)

/-- Pace rates by code, in Msteps/s (R150). -/
def paceRate (r : BitVec 3) : Nat := [100, 125, 160, 200, 250].getD r.toNat 0

/-- Whether pred(c) meets 4 × pace rate × (1 + PMARGIN / 256) (R177). -/
def Scribe.pacedMet (a : Scribe) (rate : BitVec 3) (c : Nat) : Bool :=
  decide (4 * paceRate rate * (256 + a.pmargin.toNat) * (predUnit / 1000) ≤ a.pred c * 256)

/-! ### Requests and grants (R175, R176, R180) -/

/-- A code granted to a bent, which crosses in a VALUE cell (R299): while the cell finds no agreeing pair, or the bent's clock is stopped, the
newest one waits in it (R300, R305). -/
def Dev.giveGrant (d : Dev) (b code : Nat) (held : Bool) : Dev :=
  if (d.xing b).hold || (d.xing b).frozen then d.onXing b (fun x => { x with grant := some (BitVec.ofNat 7 code, held) })
  else d.onScr b (fun a => a.granted code held)

/-- A raise crosses into the power controller's domain as an event (R299, R301, R302), and the request itself as a value. -/
def Dev.budgetRequest (d : Dev) (b : Nat) : Dev :=
  let out := Tab.find 0 (d.xing domPower).lines b
  match d.eventInto domPower b out with
  | (true, d') => d'.onXing domPower (fun x => { x with lines := Tab.put x.lines b (out + 1) })
  | (false, d') => d'.raise 641 domPower 0#16

/-- A voltage request: never below the floor, at most code 100 (R175), and code 100 while the bent is unable (R187); one that does not
exceed the grant is granted at once (R180). -/
def Dev.scrAsk (d : Dev) (b code : Nat) : Dev :=
  let a := (d.bent b).scr
  let c := if a.unable then 100 else max a.floor.toNat (min 100 code)
  let d1 := d.onScr b (fun x => { x with request := BitVec.ofNat 7 c })
  if c ≤ a.grant.toNat then d1.giveGrant b c false else d1.budgetRequest b

/-- The code that a fast raise adds to: a request that still waits for its grant (R176), else the present code. While the regulator
slews that is the greater of the monitored code and the code it has been granted (DEDUCED, log entry 107). -/
def Scribe.presentCode (a : Scribe) : Nat :=
  if a.grant.toNat < a.request.toNat then a.request.toNat else max a.actual.toNat a.grant.toNat

/-- A fast raise by n codes (R170, R171, R176, R179). -/
def Dev.scrFast (d : Dev) (b n : Nat) : Dev := d.scrAsk b ((d.bent b).scr.presentCode + n)

/-- The start hold (R175): at least code 50, and no lowering for the next two control periods. -/
def Dev.scrStartHold (d : Dev) (b : Nat) : Dev :=
  let a := (d.bent b).scr
  let d1 := if a.actual.toNat < 50 ∨ a.request.toNat < 50 then d.scrAsk b (max 50 a.request.toNat) else d
  d1.onScr b (fun x => { x with startHold := max x.startHold 2 })

/-- The tier of a bent (R181). -/
def Dev.tierOf (d : Dev) (b : Nat) : Nat :=
  if (d.loopsIn b).any (fun l => l.safety) then 0
  else if (d.loopsIn b).any (fun l => l.deadline != 0#32 || l.paced) then 1 else 2

/-- A bent's regulator turned off (R415): no code is granted, its cells hold (R305); the codes that its Scribe registers would show are a DESIGN
CHOICE (log entry 143). -/
def Dev.regulatorOff (d : Dev) (b : Nat) : Dev :=
  (d.onScr b (fun a => { a with slew := false, held := false, grant := 0#7, request := 0#7, target := 0#7, actual := 0#7 })).onXing b
    (fun x => { x with hold := true })

/-! ### Unable bents (R187, R188) -/

/-- Whether the Scribe moves a bent's code: not before its first calibration in COMMISSION (R161), not in TEST (R416), not in a bent out
of service (R415). -/
def Dev.scrLive (d : Dev) (b : Nat) : Bool :=
  d.mode.calibrated && d.mode.mode != mOff && d.mode.mode != mBoot && d.mode.mode != mTest && !d.mode.bentOut.getLsbD b

/-- Counts of near misses and late arrivals by physical slot, added up. -/
def tally (ls : List (List (Nat × Nat))) (p : Nat) : Nat :=
  ls.foldl (fun n l => l.foldl (fun m e => if e.1 = p then m + e.2 else m) n) 0

/-- The deadline loop of highest utilisation, as slot and entry (R188): by the worst iteration of the last control period or the present one; the
first of equal ones, and of a bent without a deadline loop what SCR_UTIL shows (DESIGN CHOICE, log entry 142). -/
def Scribe.busiest (a : Scribe) : BitVec 2 × SlotId :=
  let worst := fun e : Slack => max e.worst.toNat e.accWorst.toNat
  let more := fun (best : Option (Nat × Slack)) (e : Nat × Slack) =>
    match best with
    | none => some e
    | some v => if worst v.2 * e.2.deadline.toNat < worst e.2 * v.2.deadline.toNat then some e else best
  match (a.slack.filter (fun e => e.2.valid)).foldl more none with
  | some e => (BitVec.ofNat 2 (e.1 % 4), BitVec.ofNat 4 (e.1 / 4))
  | none => (a.utilEntry, a.utilSlot)

/-- What the agent proposes (R188): the slot with 75 % of the near misses and late arrivals of the last 16 periods, while a spare is
free; else the loop of highest utilisation. -/
def Bent.proposal (x : Bent) : Proposal :=
  let ls := if x.scr.windowNow.isEmpty then x.scr.window.take 16 else x.scr.windowNow :: x.scr.window.take 15
  let total := (List.range 17).foldl (fun n p => n + tally ls p) 0
  match (List.range 17).find? (fun p => decide (3 * total ≤ 4 * tally ls p)) with
  | some p => if 0 < total ∧ x.spareFree = true then .swap (BitVec.ofNat 5 p) else .migrate x.scr.busiest.1 x.scr.busiest.2
  | none => .migrate x.scr.busiest.1 x.scr.busiest.2

/-- Bit of a bent in its span's SCR_SPANUNABLE set to v. -/
def Dev.markUnable (d : Dev) (b : Nat) (v : Bool) : Dev :=
  d.onSpan (spanOf b) (fun s => { s with spanUnable := setBit s.spanUnable (b % 16) v })

/-- The bent becomes unable (R187): UNABLE and its span bit, SCR_UNABLE, a proposal, code 100 where the Scribe moves the
bent's code. -/
def Dev.goUnable (d : Dev) (b : Nat) : Dev :=
  if (d.bent b).scr.unable then d
  else
    let p := (d.bent b).proposal
    let d1 := ((d.onScr b (fun a => { a with unable := true, inRange := 0, propose := p })).markUnable b true).raise 513 b 0#16
    if d.scrLive b then d1.scrAsk b 100 else d1

/-- UNABLE clears, and the proposal with it (R187, R188). -/
def Dev.clearUnable (d : Dev) (b : Nat) : Dev :=
  if (d.bent b).scr.unable then
    (d.onScr b (fun a => { a with unable := false, inRange := 0, unableStreak := 0, propose := .none })).markUnable b false
  else d

end Sys2Proof.Machine
end

