-- ==== Sys2Proof/Machine/LoopOps.lean ====
section
/-! DEFINITION. Bound loops (spec 11 R355 to R361, 17 R468 to R484): what Keystone writes when it binds, starts, stops, unbinds,
updates or migrates a loop, the swap of a core, and how the commands that wait for these moments end. -/
namespace Sys2Proof.Machine

/-! ### Windows and vector lines -/

/-- Every binding in force: the bound loops, and the targets of migrations whose step 1 is done (R475). -/
def Dev.allBinds (d : Dev) : List Loop :=
  d.ks.loops ++ d.ks.jobs.filterMap (fun j => match j.kind with | .migrate _ t _ _ => some t | _ => none)

/-- Whether a region entry is that of DDR window or address window n. -/
def Region.is (r : Region) (ddr : Bool) (n : Nat) : Bool := r.ddr == ddr && r.num.toNat == n

/-- The region entry that the loops of a bent declare for a window, if any. -/
def windowOf (ls : List Loop) (ddr : Bool) (n : Nat) : Option Region :=
  (ls.flatMap (fun l => l.regions)).find? (fun r => r.is ddr n)

/-- The window registers of a bent as its loops declare them (R66, R271, R357); a window that no loop declares reads its reset
value (R359; DEDUCED, log entry 22). -/
def Dev.refreshBent (d : Dev) (b : Nat) : Dev :=
  let ls := d.allBinds.filter (fun l => bentOf l.core.toNat == b)
  let wins := (List.range 16).filterMap (fun n => (windowOf ls false n).map (fun r => (n, r)))
  let ddrs := (List.range 16).filterMap (fun n => (windowOf ls true n).map (fun r => (n, r)))
  d.onBent b (fun x => { x with
    winBase := wins.map (fun e => (e.1, e.2.base))
    winLim := wins.map (fun e => (e.1, e.2.limit))
    winPerm := wins.foldl (fun w e => w ||| placeNat (e.2.perm.toNat % 4) (2 * e.1)) 0#32
    ddrWin := ddrs.map (fun e =>
      let r := e.2.base.toNat % 1024
      (e.1, flag true 31 ||| flag ((d.ddr (r / 256)).regattr.getLsbD (r % 256)) 30 ||| placeNat r 0)) })

/-- The code lines of the vectors of the sources whose mask includes slot i of bent b (R153, R472). -/
def Dev.vectorLines (d : Dev) (b i : Nat) : List Nat :=
  (((d.bent b).biu.src.filter (fun e => e.2.mask.getLsbD i)).map (fun e => lineOf e.2.vec)).eraseDups

/-- The vectors of the sources but n whose mask includes slot i of bent b. -/
def Dev.slotVectors (d : Dev) (b i n : Nat) : List W32 :=
  ((d.bent b).biu.src.filter (fun e => e.2.mask.getLsbD i && e.1 != n)).map (fun e => e.2.vec)

/-- The vector line registers of a core hold the lines of its vectors, at most four (R133). -/
def Dev.fillVectors (d : Dev) (c : Nat) : Dev :=
  let need := d.vectorLines (bentOf c) (slotOf c)
  let d1 := d.onCore c (fun k => { k with
    vecLines := k.vecLines.filter (fun e => need.contains e.1), vecReq := k.vecReq.filter (fun e => need.contains e.1) })
  let kept := (d1.core c).vecLines
  ((need.filter (fun n => !kept.any (fun e => e.1 == n) && !(d1.core c).vecReq.any (fun e => e.1 == n))).take
    (4 - kept.length - (d1.core c).vecReq.length)).foldl (fun x n => x.loadVector c n) d1

/-- CORE_WINMASK from the loops bound to a core (R66), and its vector line registers. -/
def Dev.refreshCore (d : Dev) (c : Nat) : Dev :=
  let ls := d.allBinds.filter (fun l => l.core.toNat == c)
  let mask := (ls.flatMap (fun l => l.regions)).foldl (fun (v : BitVec 16) r => if r.ddr then v else setBit v r.num.toNat true) 0#16
  (d.onCore c (fun k => { k with winMask := mask })).fillVectors c

/-- The image that a bound loop names. -/
def Dev.image (d : Dev) (addr : W32) : Option Image := d.ks.images.find? (fun i => i.addr == addr)

/-- The image at an address whose lines are taken: on Keystone's list, or off it with a loop bound from it (R413, R460). -/
def Dev.imageAt (d : Dev) (addr : W32) : Option Image := (d.ks.images ++ d.ks.kept).find? (fun i => i.addr == addr)

/-- Lines of an image (R455). -/
def Image.lines (i : Image) : Nat := (i.len + 63) / 64

/-- CST_PACEDBANK of every slice: the banks in which a line of a bound paced image lies (R263). -/
def Dev.refreshBanks (d : Dev) : Dev :=
  let ims := d.allBinds.filterMap (fun l => if l.paced then d.imageAt l.image else none)
  let bankHas := fun (s k : Nat) => ims.any (fun i =>
    let lo := 0x02000000 + s * 0x100000 + k * 0x20000
    decide (i.addr.toNat < lo + 0x20000) && decide (lo < i.addr.toNat + 16 * i.lines))
  (List.range 8).foldl (fun x s => x.onSpan s (fun y =>
    { y with pacedBank := (List.range 8).foldl (fun (v : Byte) k => setBit v k (bankHas s k)) 0#8 })) d

/-! ### Binding (R357) -/

/-- A slot that was gated is WAITING (R206, R427): its registers are those after a core reset (R42, R43), its data mode is kept. -/
def Core.ungate (k : Core) : Core :=
  match k.status with
  | .gated => { k with status := .waiting, regs := [], frames := [], serving := none, entry := none,
                       psr := k.psr.idle }
  | .waiting | .running | .stopped => k

/-- The image of the unit table that a bent is to hold and does not (R54, R357). -/
def Dev.tableFor (d : Dev) (b : Nat) (ident : W32) : Option Image :=
  if ident = 0#32 ∨ (d.bent b).unitId = ident then none else d.ks.images.find? (fun i => i.type == 3#8 && i.entry == ident)

/-- The unit table of a binding read from code store: whether a word of it is poisoned (R259, R345). -/
def Dev.readTable (d : Dev) (b : Nat) (ident : W32) : Bool × Dev :=
  match d.tableFor b ident with
  | none => (false, d)
  | some i => d.readSpan (i.addr.toNat + 880) ((i.len - 3520) / 4)

/-- The unit table with an identity installed in a bent (R54, R357): entries of 1 to 30 from the image's payload. -/
def Dev.installTable (d : Dev) (m : List Host.Cell) (b : Nat) (ident : W32) : Dev :=
  match d.tableFor b ident with
  | none => d
  | some i =>
    let ws := (List.range ((i.len - 3520) / 4)).map (fun j => (Memory.word m (i.addr.toNat + 880 + j)).pay)
    let rows := (List.range 30).flatMap (fun a => (List.range 30).map (fun c => (32 * (a + 1) + (c + 1), Config.unitEntry ws (a + 1) (c + 1))))
    d.onBent b (fun x => { x with unitId := ident, upt := rows })

/-- What Keystone writes for a binding, its loop stopped (R30, R45, R54, R66, R150, R197, R262, R355, R357, R475 step 1). UNITID 0 leaves
an older table of an emptied bent installed (DESIGN CHOICE, log entry 95), and a tagged loop the region of CORE_CMPT_BASE (DESIGN CHOICE, log
entry 127); PSR.T is 0 in compact mode (R43). -/
def Dev.applyBind (d : Dev) (m : List Host.Cell) (l : Loop) : Dev :=
  let c := l.core.toNat
  let b := bentOf c
  let first := !d.allBinds.any (fun x => x.core == l.core && x.num != l.num)
  let d1 := d.onCore c (fun k =>
    let k1 := if first then { k with psr := { k.psr with compact := l.compact, t := l.t && !l.compact, paced := l.paced } } else k
    { k1 with cmptBase := if l.compact then l.cmpt else k1.cmptBase, waitSince := if k.status == Status.gated then d.clk else k.waitSince }.ungate)
  let d2 := d1.installTable m b l.unitId
  let d3 := d2.onBiu b (fun u => u.onSource l.trigger.toNat (fun x => { x with
      en := false, st := x.st.disabled, wake := l.wake, cge := l.cgroup.isSome, cg := l.cgroup.getD 0#4, mask := 1#16 <<< slotOf c, pri := l.pri,
      vec := l.entry }))
  let d4 := match l.slack with
    | none => d3
    | some e => (d3.onScr b (fun a => a.onEntry (slotOf c) e.toNat (fun _ =>
        { valid := true, safety := l.safety, paced := l.paced, source := l.trigger, deadline := l.deadline }))).scrStartHold b
  let d5 := match l.pslot with
    | none => d4
    | some p =>
      ((d4.onSpan (spanOf b) (fun s => { s with slots := Tab.put s.slots p.toNat l.core })).onBent b (fun x => { x with
        pace := match x.pace with
          | some g => some g
          | none => some { rate := l.rate, t0 := d4.tb, holder := BitVec.ofNat 4 (slotOf c) } })).onScr b
        (fun a => { a with underrun := Tab.put a.underrun (slotOf c) 0#16 })
  ((d5.refreshBent b).refreshCore c).refreshBanks

/-! ### Starting and stopping (R358, R359, R204) -/

/-- The slack entries of slot i with no iteration open (R169). -/
def Scribe.closeSlot (a : Scribe) (i : Nat) : Scribe :=
  { a with slack := a.slack.map (fun e => if e.1 / 4 = i then (e.1, { e.2 with opened := none }) else e) }

/-- A STOPPED or GATED core becomes WAITING (R358): the registers of R42, VALID and BAD cleared, the sources on its stack passed to
their completion sample (R204; DEDUCED, log entry 23), idle with no frame. -/
def Dev.restartCore (d : Dev) (c : Nat) : Dev :=
  let b := bentOf c
  let i := slotOf c
  ((((d.clearStack b i).clearBad b i).onKs (fun k => { k with loops := k.loops.map (fun l =>
    if l.core.toNat == c then { l with inIter := false } else l) })).onScr b (fun a => a.closeSlot i)).onCore c (fun k => { k with
    status := .waiting, regs := [], frames := [], serving := none, entry := none, div := none, waitSince := d.clk
    loads := k.loads.map (fun e => { e with dead := true })
    trap := { k.trap with valid := false }
    psr := k.psr.idle })

/-- The comparator of an alarm trigger: the one allocated, or that of the source 64 + k which the loop names (R207, R355). -/
def Loop.alarm (l : Loop) : Option Nat :=
  match l.comp with
  | some a => some a.toNat
  | none => if 64 ≤ l.trigger.toNat ∧ l.trigger.toNat < 88 then some (l.trigger.toNat - 64) else none

/-- A loop started (R358): its core is made ready, BAD of its slot clears (R203), an alarm trigger runs PERIODIC, and its trigger's EN is set. -/
def Dev.startLoop (d : Dev) (l : Loop) (start : W32) : Dev :=
  let c := l.core.toNat
  let b := bentOf c
  let k := d.core c
  let d1 := if k.status == .stopped || k.status == .gated then d.restartCore c
    else (d.onCore c (fun x => { x with regs := [] })).clearBad b (slotOf c)
  let d2 := match l.alarm with
    | none => d1
    | some a => d1.onBiu b (fun u => u.onAlarm a (fun x =>
        { x with mode := 2#2, armed := true, per := l.period, cmp := if start = 0#32 then d.time + l.period else start }))
  let d3 := d2.onKs (fun x => { x with loops := x.loops.map (fun y => if y.num == l.num then { y with heldStop := false } else y) })
  (d3.fillVectors c).enableSrc b l.trigger.toNat

/-- The trigger of a loop disabled (R359). -/
def Dev.loopOff (d : Dev) (l : Loop) : Dev := d.disableSrc (bentOf l.core.toNat) l.trigger.toNat

/-- A core stopped at once under R204: its switch is disarmed, its stack passed to the completion sample, offers return. The stack that a
core stopped by a trap has left passes too. -/
def Dev.haltCore (d : Dev) (c : Nat) : Dev :=
  let k := d.core c
  if k.status == .stopped || k.status == .gated then d.clearStack (bentOf c) (slotOf c)
  else
    let d1 := d.onCore c (fun x => { x.abandonEntry with div := none, loads := x.loads.map (fun e => { e with dead := true }) })
    (d1.stopCore c).clearStack (bentOf c) (slotOf c)

/-- A loop stopped with NOW (R359): every loop of its core loses its trigger's EN, and the core stops. -/
def Dev.stopNow (d : Dev) (l : Loop) : Dev :=
  let c := l.core.toNat
  ((d.loopsOn c).foldl (fun x y => x.loopOff y) d).haltCore c

/-- Whether an iteration of a loop is in progress: its trigger is ENTERING or CLAIMED, or a RETI completed it, which marks no boundary
(R86; DEDUCED, log entry 105). -/
def Dev.iterating (d : Dev) (l : Loop) : Bool :=
  match (d.source (bentOf l.core.toNat) l.trigger.toNat).st with
  | .entering _ | .claimed _ => true
  | .idle | .held | .pending | .offered _ =>
    l.inIter && ((d.core l.core.toNat).status == .waiting || (d.core l.core.toNat).status == .running)

/-- What a binding holds in its bent, released (R359 with UNBIND): source, comparator, slack entry, pace slot, windows. Where the holder
of the pace generator is unbound and paced loops stay, the slot of the first of them holds it (DESIGN CHOICE, log entry 99). The dwell of R427 begins
anew. -/
def Dev.releaseBind (d : Dev) (l : Loop) : Dev :=
  let c := l.core.toNat
  let b := bentOf c
  let left := d.allBinds
  let d1 := d.onBiu b (fun u =>
    let u1 := u.onSource l.trigger.toNat (fun x => { x with
      en := false, st := x.st.disabled, wake := false, cge := false, cg := 0#4, mask := 0#16, pri := 0#8, vec := 0#32 })
    match l.comp with
    | none => u1
    | some a => u1.onAlarm a.toNat (fun x => { x with mode := 0#2, armed := false }))
  let d2 := match l.slack with
    | none => d1
    | some e => d1.onScr b (fun a => a.onEntry (slotOf c) e.toNat (fun _ => {}))
  let coreHolds := left.any (fun x => x.core == l.core && x.paced)
  let paced := left.filter (fun x => bentOf x.core.toNat == b && x.paced)
  let d3 := if l.paced && !coreHolds then
      (d2.onSpan (spanOf b) (fun s => { s with slots := s.slots.filter (fun e => e.2 != l.core) })).onBent b (fun x => { x with
        pace := match paced.head? with
          | none => none
          | some y => x.pace.map (fun g => if g.holder.toNat = slotOf c then { g with holder := BitVec.ofNat 4 (slotOf y.core.toNat) } else g) })
    else d2
  (((d3.refreshBent b).refreshCore c).refreshBanks).onCore c (fun k => { k with waitSince := d.clk })

/-- The switch armed for a loop disarmed by its stop (R470). -/
def Dev.disarmLoop (d : Dev) (l : Loop) : Dev :=
  let w : Switch := Tab.find {} (d.bent (bentOf l.core.toNat)).sw (slotOf l.core.toNat)
  if w.src == l.trigger then d.disarm (bentOf l.core.toNat) (slotOf l.core.toNat) stBadParam 0#16 else d

/-- A loop unbound: its number is released too (R359). -/
def Dev.unbindLoop (d : Dev) (l : Loop) : Dev :=
  ((d.disarmLoop l).onKs (fun k => { k with loops := k.loops.filter (fun x => x.num != l.num) })).releaseBind l

end Sys2Proof.Machine
end

