-- ==== Sys2Proof/Machine/CmdOps.lean ====
section
/-! DEFINITION. Requests and replies of command packets (spec 11_command_packets.md R337 to R350): the fields of a request, the
reply that Keystone or the port writes, and the jobs of ACCEPTED commands. -/
namespace Sys2Proof.Machine

/-! ### The request -/

/-- The request that a host command serves: a port's request buffer or a forwarded request (R337, R392). -/
def Dev.request (d : Dev) : CmdSrc → Tab W32
  | .port p => (d.port p).reqBuf
  | .fwd u p => ((d.ks.fwd.find? (fun f => f.unit == u && f.port == p)).map (·.req)).getD []

/-- Word i of a request; its payload begins at word 4 (R337). -/
def Dev.reqWord (d : Dev) (src : CmdSrc) (i : Nat) : W32 := Tab.find 0#32 (d.request src) i

/-- OPCODE. -/
def Dev.opcode (d : Dev) (src : CmdSrc) : Nat := fieldOf (d.reqWord src 0) 15 0
/-- UNIT. -/
def Dev.unitByte (d : Dev) (src : CmdSrc) : Nat := fieldOf (d.reqWord src 0) 23 16
/-- FLAGS. -/
def Dev.flagsByte (d : Dev) (src : CmdSrc) : Nat := fieldOf (d.reqWord src 0) 31 24
/-- SEQ. -/
def Dev.seqWord (d : Dev) (src : CmdSrc) : W32 := d.reqWord src 1
/-- LENGTH. -/
def Dev.lenWord (d : Dev) (src : CmdSrc) : Nat := (d.reqWord src 2).toNat

/-- Payload word at byte offset off, a multiple of 4. -/
def Dev.pay32 (d : Dev) (src : CmdSrc) (off : Nat) : W32 := d.reqWord src (4 + off / 4)
/-- Payload byte at an offset. -/
def Dev.pay8 (d : Dev) (src : CmdSrc) (off : Nat) : Byte := laneOf (d.pay32 src off) (off % 4)
/-- Payload half-word at an even offset. -/
def Dev.pay16 (d : Dev) (src : CmdSrc) (off : Nat) : BitVec 16 := d.pay8 src (off + 1) ++ d.pay8 src off

/-- Whether payload bytes of [lo, hi) are all zero. -/
def Dev.payZero (d : Dev) (src : CmdSrc) (lo hi : Nat) : Bool :=
  (List.range (hi - lo)).all (fun i => d.pay8 src (lo + i) == 0#8)

/-! ### The reply -/

/-- Whether a status admits a reply payload (R338). -/
def hasPayload (st : BitVec 16) : Bool := st == stDone || st == stDelayed || st == stAccepted || st == stRefCap

/-- A reply in a port's reply buffer: header, payload, BUSY cleared, DONE set (R338, R339). -/
def PortSt.putReply (t : PortSt) (st det : BitVec 16) (seq el : W32) (ws : List W32) : PortSt :=
  let body := if hasPayload st then ws else []
  let hdr : List W32 := [det ++ st, seq, BitVec.ofNat 32 (4 * body.length), el]
  let words := hdr ++ body
  { t with repBuf := Tab.putAll t.repBuf ((List.range words.length).zip words), busy := false, done := true, fwdTo := none }

/-- NOVEC of a request (R337). -/
def Dev.noVec (d : Dev) (src : CmdSrc) : Bool := (d.flagsByte src / 2) % 2 == 1

/-- The reply to a host command: at its port, with vector 0 unless NOVEC is set (R339), or as a CREPLY flit to the origin of a
forwarded request, whose slot becomes free (R392). -/
def Dev.reply (d : Dev) (src : CmdSrc) (st det : BitVec 16) (ws : List W32) : Dev :=
  match src with
  | .port p =>
    let nv := d.noVec src
    let seq := d.seqWord src
    let d1 := d.onPort p (fun t => t.putReply st det seq (elapsedUs t.dbAt d.clk) ws)
    if nv then d1 else d1.sendVec p 0#11
  | .fwd u o =>
    (d.onKs (fun k => { k with fwd := k.fwd.filter (fun f => !(f.unit == u && f.port == o)) })).sendCreply u o false st det
      (d.seqWord src) 0#32 (if hasPayload st then ws else [])

/-- When the doorbell of a command was rung, or its forwarded request came. -/
def Dev.startedAt (d : Dev) : CmdSrc → Nat
  | .port p => (d.port p).dbAt
  | .fwd u p => ((d.ks.fwd.find? (fun f => f.unit == u && f.port == p)).map (·.at_)).getD d.clk

/-- The job behind a command (R346). -/
def Dev.jobFor (d : Dev) (src : CmdSrc) (k : JobKind) (late : Nat := 0) : Job :=
  { src := src, seq := d.seqWord src, noVec := d.noVec src, start := d.startedAt src, kind := k, late := late, since := d.clk }

/-- ARUN of a command's port set (R339). -/
def Dev.setArun (d : Dev) : CmdSrc → Dev
  | .port p => d.onPort p (fun t => { t with arun := true })
  | .fwd _ _ => d

/-- A command answered ACCEPTED with its payload, its work left as a job (R346). -/
def Dev.accept (d : Dev) (src : CmdSrc) (k : JobKind) (ws : List W32) (late : Nat := 0) : Dev :=
  let j := d.jobFor src k late
  ((d.onKs (fun x => { x with jobs := x.jobs ++ [j] })).setArun src).reply src stAccepted 0#16 ws

/-- Whether an ACCEPTED command of a source is running (R347). -/
def Dev.running (d : Dev) : CmdSrc → Bool
  | .port p => (d.port p).arun
  | .fwd u p => d.ks.jobs.any (fun j => j.src == .fwd u p && !j.isUndo)

end Sys2Proof.Machine
end

