-- ==== Sys2Proof/Machine/ModeOps.lean ====
section
/-! DEFINITION. Mode transitions (spec 13_modes_and_bringup.md R397 to R406, R531; 09 R303; 14 R429, R430): entering a mode, SAFE_HOLD
in hardware, DEGRADED, and the end of a sleep negotiation that is refused. -/
namespace Sys2Proof.Machine

/-! ### Crossing cells (R303) -/

/-- Whether EVENT cells run in counter mode in a mode (R303, R397). -/
def counterMode (m : BitVec 3) : Bool := m == mStandby || m == mRun || m == mDegraded || m == mSafeHold

/-- The EVENT cells of one domain in another mode: at a change to pulse mode the outstanding events of a line become one pulse, and OVR
is set where there were more (R303). -/
def Xing.setPulse (x : Xing) (pulse : Bool) : Xing :=
  if pulse && !x.pulse then
    { x with pulse := true, ovr := x.ovr || x.lines.any (fun e => decide (1 < e.2)), lines := x.lines.map (fun e => (e.1, min 1 e.2)) }
  else { x with pulse := pulse }

/-- Raises with one left of each line (R303). -/
def mergeRaises : List Raise → List Raise
  | [] => []
  | r :: t => let rest := mergeRaises t
              r :: rest.filter (fun x => !(x.src == r.src && x.inst == r.inst))

/-- Every EVENT cell in counter or pulse mode (R303). -/
def Dev.setCells (d : Dev) (pulse : Bool) : Dev :=
  let d1 := { d with xings := (List.range 154).map (fun n => (n, (d.xing n).setPulse pulse)) }
  if pulse then
    let merged := mergeRaises d1.flt.raises
    let d2 := d1.onFlt (fun f => { f with raises := merged })
    if merged.length < d1.flt.raises.length then d2.onXing domCollector (fun x => { x with ovr := true }) else d2
  else d1

/-! ### Transitions (R398, R531) -/

/-- The boundary register lets go of the balls when TEST or the reset that allowed it ends: an instruction that drives or floats them is
allowed no more and acts as BYPASS (R490, R491). -/
def Jtag.released (j : Jtag) : Jtag :=
  if j.driving || j.hiz then { j with instr := .bypass, driving := false, hiz := false } else j

/-- A mode entered: MODE_STAT and MODE_TIME written, the cells in that mode's kind, vector 3 on both ports (R398, R303). -/
def Dev.setMode (d : Dev) (m reason : BitVec 3) : Dev :=
  let d1 := d.onMode (fun x => { x with prev := x.mode, mode := m, reason := reason, time := d.time, recov := false })
  let d2 : Dev := if d.mode.mode == mTest && !d.resetLow then { d1 with jtag := d1.jtag.released } else d1
  (d2.setCells (!counterMode m)).bothVec 3#11

/-- Whether a job is a MODE_SET. -/
def Job.isModeSet (j : Job) : Bool :=
  match j.kind with
  | .modeSet _ => true
  | _ => false

/-! ### Sleep negotiation (R428 to R430) -/

/-- A timing domain stopped or restarted for a sleep: its targets answer NOT_PRESENT meanwhile (R236), its cells hold (R305);
a bent that returns takes what its cells have kept. -/
def Dev.setAsleep (d : Dev) (dom : Nat) (v : Bool) : Dev :=
  let d1 := d.onXing dom (fun x => { x with hold := v || (decide (dom < 128) && d.mode.bentOut.getLsbD dom) })
  if dom < 128 then
    let d2 := d1.onBent dom (fun b => { b with asleep := v })
    if v || d.mode.bentOut.getLsbD dom then d2 else (d2.takeLevels dom).takeEvents dom
  else if dom < 136 then d1.onSpan (dom - 128) (fun s => { s with asleep := v })
  else if 137 ≤ dom ∧ dom < 141 then d1.onDdr (dom - 137) (fun x => { x with asleep := v })
  else d1

/-- A negotiation refused by a domain (R429): PWR_REFUSER, the stopped domains restarted last first, the command answered
REFUSED_HELD. -/
def Dev.refuseSleep (d : Dev) (dom reason : Nat) : Dev :=
  match d.pwr.nego with
  | none => d
  | some n =>
    let d1 := n.stopped.foldl (fun x k => x.setAsleep k false) d
    let d2 := d1.onPwr (fun p => { p with
      nego := none, refValid := true, refReason := BitVec.ofNat 8 reason, refDomain := BitVec.ofNat 8 dom })
    let det := BitVec.ofNat 16 (0x7000 + dom)
    if n.isMode then d2.endJobs (fun j => j.isModeSet) stRefHeld det
    else match n.src with
      | some s => d2.reply s stRefHeld det []
      | none => d2

/-! ### SAFE_HOLD (R402, R403) -/

/-- Every armed switch disarmed; the commands behind them end WRONG_MODE 0006h (R470). -/
def Dev.disarmAll (d : Dev) (st det : BitVec 16) : Dev :=
  d.bents.foldl (fun x e => e.2.sw.foldl (fun y w => if w.2.armed then y.disarm e.1 w.1 st det else y) x) d

/-- Jobs that a SAFE_HOLD entry ends: a MODE_SET that it overtakes (R400), a LOOP_START of a loop without the safety flag, and an
update or migration (R470). -/
def Dev.endedBySafe (d : Dev) (j : Job) : Bool :=
  match j.kind with
  | .modeSet _ => true
  | .loopStart n _ => (match d.loop n with | some l => !l.safety | none => true)
  | .update _ _ => true
  | .migrate _ _ _ _ => true
  | .loopLoad _ | .loopStop _ _ | .secImage _ _ _ | .viaEnum | .remote _ | .spareSwap _ _ _ _ | .undo _ => false

/-- Step 3 of R403: every trigger of a loop without the safety flag disabled, every core without a safety loop stopped. -/
def Dev.stopUnsafe (d : Dev) : Dev :=
  let d1 := (d.ks.loops.filter (fun l => !l.safety)).foldl (fun x l =>
    (x.loopOff l).onKs (fun k => { k with loops := k.loops.map (fun y =>
      if y.num == l.num then { y with heldStop := x.started l && (x.core l.core.toNat).status != .stopped } else y) })) d
  d1.cores.foldl (fun x e => if x.holdsSafety e.1 then x else x.haltCore e.1) d1

/-- Entry to SAFE_HOLD (R403): the mode, the safe items, the loops and cores; what it overtakes ends (R400, R430, R470). -/
def Dev.enterSafe (d : Dev) (reason : BitVec 3) : Eff :=
  let d1 := (d.refuseSleep domPower 8).setMode mSafeHold reason
  let d2 := d1.onMode (fun m => { m with pendSafe := false })
  let d3 := d2.disarmAll stWrongMode 6#16
  let d4 := d3.endJobs d3.endedBySafe stWrongMode 6#16
  let e := d4.allSafe (d4.queues.map (·.1))
  (e.1.stopUnsafe, e.2)

/-- A SAFE_HOLD trigger during a recovery phase ends the phase (R400). -/
def Dev.endRecovery (d : Dev) : Dev :=
  ((d.onMode (fun m => { m with recov := false })).setCells false).endJobs (fun j => j.isModeSet) stWrongMode 6#16

/-- SAFE_N accepted, or a latch of HOLD or STOP (R399, R402, R441): SAFE_HOLD from STANDBY, RUN and DEGRADED, the end of a recovery
phase, PENDSAFE in BOOT, COMMISSION and TEST. -/
def Dev.safeTrigger (d : Dev) (reason : BitVec 3) : Eff :=
  let m := d.mode.mode
  if m == mStandby || m == mRun || m == mDegraded then d.enterSafe reason
  else if m == mSafeHold then (if d.mode.recov then d.endRecovery else d, [])
  else if m == mOff then (d, [])
  else (d.onMode (fun x => { x with pendSafe := true, pendWhy := if x.pendSafe && x.pendWhy == 2#3 then 2#3 else reason }), [])

/-! ### DEGRADED (R406) -/

/-- Whether a condition of R406 holds. -/
def Dev.degradeCond (d : Dev) : Bool :=
  d.flt.atLeast 2 || d.mode.bentOut != 0#128
    || (List.range 4).any (fun n => fieldOf (d.ddr n).cfg 27 26 != 0 && !(d.ddr n).ready)
    || (d.chain.up.wasUp && (d.chain.up.half || d.chain.up.lost))
    || (d.chain.dn.wasUp && (d.chain.dn.half || d.chain.dn.lost))

/-- RUN and DEGRADED follow the conditions of R406; the reason is 1 (R531). Entry to DEGRADED ends a MODE_SET in progress (R400). -/
def Dev.modeCheck (d : Dev) : Dev :=
  if d.mode.mode == mRun && d.degradeCond then (d.setMode mDegraded 1#3).endJobs (fun j => j.isModeSet) stWrongMode 5#16
  else if d.mode.mode == mDegraded && !d.degradeCond then d.setMode mRun 1#3
  else d

/-! ### Spare record (R261) -/

/-- Whether copy 0 is the one in force: the good copy with the higher sequence number. -/
def Dev.copyA (d : Dev) : Bool := d.spareA.good && (!d.spareB.good || decide (d.spareB.seq ≤ d.spareA.seq))

/-- The record in force; with neither copy good an empty one. -/
def Dev.spareRec (d : Dev) : SpareRec := if d.copyA then d.spareA else if d.spareB.good then d.spareB else { good := false }

/-- A record written into the copy that is not in force, with the next sequence number. -/
def Dev.putRecord (d : Dev) (r : SpareRec) : Dev :=
  let r1 : SpareRec := { r with good := true, seq := d.spareRec.seq + 1 }
  if d.copyA then { d with spareB := r1, recLines := d.recLines.filter (fun l => decide (l < 0x203400)) }
  else { d with spareA := r1, recLines := d.recLines.filter (fun l => decide (0x203400 ≤ l)) }

/-- A bent's part of the spare record (R261). -/
def Bent.record (x : Bent) (b : Nat) : SpareMap :=
  let age := if x.scr.ageingKnown then some (x.scr.ageing.extractLsb' 24 16) else none
  { bent := b, phys := x.phys, seq := x.seq, spareFree := x.spareFree, retired := x.retired, ageing := age }

/-- The repaired rows of an SRAM: bank and row. -/
def Sram.rows (x : Sram) (m : SramRef) : List (SramRef × Nat × Nat) :=
  x.banks.flatMap (fun k => k.2.repaired.map (fun r => (m, k.1, r)))

/-- What a record written now would hold: slot maps, AGEING, row repairs, line remaps, bents out of service, DDR5 repairs (R254, R261, R417). -/
def Dev.recordNow (d : Dev) : SpareRec :=
  let maps := d.bents.map (fun e => e.2.record e.1)
  let rows := d.bents.flatMap (fun e => e.2.sram.rows (.bent (BitVec.ofNat 7 e.1)))
    ++ d.spans.flatMap (fun e => e.2.sram.rows (.deck (BitVec.ofNat 3 e.1)))
  let ddr := d.ddrs.flatMap (fun e => e.2.rows.map (fun r => (e.1, r)))
  { maps := maps, sramRows := rows, remaps := d.ws.remaps, bentOut := d.mode.bentOut, ddrRows := ddr }

/-- The spare record written with what the part holds now (R254, R261, R417). -/
def Dev.recordSpares (d : Dev) : Dev := d.putRecord d.recordNow

/-- Whether the part holds what its record does not show. -/
def Dev.unrecorded (d : Dev) : Bool := !({ d.recordNow with good := d.spareRec.good, seq := d.spareRec.seq } == d.spareRec)

/-- A power loss in the middle of a write leaves the copy under write torn, its digest not matching (R261); whether one was under write
is a free choice while something is unrecorded (DESIGN CHOICE, log entry 115). -/
def Dev.tearRecord (d : Dev) : Dev :=
  if d.unrecorded then
    let c := d.freshNat 2
    if c.1 = 0 then c.2
    else if c.2.copyA then { c.2 with spareB := { c.2.spareB with good := false } }
    else { c.2 with spareA := { c.2.spareA with good := false } }
  else d

end Sys2Proof.Machine
end

