-- ==== Sys2Proof/Machine/PowerOps.lean ====
section
/-! DEFINITION. The conditions of P1 and the wake sources (spec 14_power_states.md R424, R430, R432): what one does in a sleep state and
during a negotiation. -/
namespace Sys2Proof.Machine

/-! ### P1 (R424) -/

/-- Whether a core is quiet: not RUNNING and in no entry. -/
def Core.quiet (k : Core) : Bool := k.status != .running && k.entry.isNone

/-- Whether a port has no command: none submitted and none ACCEPTED running. -/
def PortSt.idle (t : PortSt) : Bool := !t.busy && !t.arun

/-- Whether the conditions of R424 but for the dwell and the L1 state of the links hold. -/
def Dev.quietForP1 (d : Dev) : Bool :=
  (d.mode.mode == mStandby || d.mode.mode == mRun || d.mode.mode == mDegraded) && d.pwr.pstate == 0#3 && d.pwr.nego.isNone
    && d.pwr.p1dwell != 0#8 && d.cores.all (fun e => e.2.quiet) && d.txns.isEmpty && d.bents.all (fun e => e.2.fills.isEmpty) && d.portA.idle && d.portB.idle
    && d.ks.fwd.isEmpty && d.ks.jobs.isEmpty && !d.ks.kbusy && d.ws.phase == .idle && d.flt.raises.isEmpty

/-! ### Wake -/

/-- Whether a wake source can wake from a power state (R432). -/
def wakesFrom (code st : Nat) : Bool :=
  if st = 2 then decide (1 ≤ code) && decide (code ≤ 7)
  else if st = 3 then code == 1 || code == 2 || code == 5
  else if st = 4 then code == 1 || code == 2
  else false

/-- Whether a wake source is enabled for a power state (R432). -/
def Power.wakeOn (p : Power) (code st : Nat) : Bool := wakesFrom code st && p.wakeMask.getLsbD code

/-- The start of a wake (R434 step 1, R512): the source is recorded, and the rails of the off domains come up. -/
def Power.startWake (p : Power) (code : Nat) : Power :=
  { p with waking := true, wakeStep := 1, wakeSrc := BitVec.ofNat 8 code, wakeFrom := p.pstate, wakeSafe := code == 5 || code == 6, wakePin := code == 5,
           enRet := true, enCore := p.enCore || p.pstate == 3#3 }

/-- A wake source (R430, R432): one enabled for the target ends a negotiation; one enabled in P2, P3 or P4 starts the wake and is
recorded; SAFE_N and a latch of HOLD or STOP lead to SAFE_HOLD in the course of a wake (R434, R441). -/
def Dev.wakeBy (d : Dev) (code : Nat) : Dev :=
  match d.pwr.nego with
  | some n => if d.pwr.wakeOn code n.target.toNat then d.refuseSleep domPower 8 else d
  | none =>
    if !d.pwr.wakeOn code d.pwr.pstate.toNat then d
    else if d.pwr.waking then d.onPwr (fun p => { p with wakeSafe := p.wakeSafe || code == 5 || code == 6, wakePin := p.wakePin || code == 5 })
    else d.onPwr (fun p => p.startWake code)

/-- A negotiation begins with bent 0 (R428): from the request on the domain's targets answer NOT_PRESENT (R236). -/
def Dev.startNego (d : Dev) (target : BitVec 3) (src : Option CmdSrc) (isMode : Bool) : Dev :=
  ((d.onPwr (fun p => { p with nego := some { target := target, asked := 0, stopped := [0], src := src, isMode := isMode } })).onKs
    (fun k => { k with takenSince := false })).setAsleep 0 true

end Sys2Proof.Machine
end

