-- ==== Sys2Proof/Machine/MemInstr.lean ====
section
/-! DEFINITION. The memory instructions LDW, STW, STAG, LD16 and ST16 (spec 03_instruction_set.md R110, R111, R121; 02 R33, R63,
R67 to R71, R75, R76; 04 R132, R138 to R140). -/
namespace Sys2Proof.Machine

/-! ### Where an access goes (R33, R70, R283, R386) -/

/-- The place of a core's access. -/
inductive Place where
  /-- A core-private word. -/
  | priv (k : Nat)
  /-- A word of the own bent's SRAM, as its device word address (R33). -/
  | own (w : Nat)
  /-- A word of the own bent's control registers. -/
  | ctl (k : Nat)
  /-- A word of bent control space that no chapter defines (R241). -/
  | blank
  /-- A device word reached over the Deck. -/
  | deck (w : Nat)
  /-- A word of a DDR5 region (R272). -/
  | ddr (r o : Nat)
  /-- A word of another chain unit, or of any unit while the own one has no address (R386). -/
  | remote (u : BitVec 4) (w : Nat)

/-- A word of the Viaduct remote window as a word of the unit it names (R386). -/
def remoteWord (w : Nat) : Nat :=
  if w % 0x01000000 < 0x00800000 then 0x01000000 + w % 0x01000000 else 0x04000000 + (w % 0x01000000 - 0x00800000)

/-- The place of device word w for core c, its own bent's SRAM apart (R33, R283). -/
def deckPlace (c w : Nat) : Place :=
  if isBentSram w && (w - 0x04000000) / 0x10000 == bentOf c then .own w else .deck w

/-- The place of core word w for core c. -/
def Dev.placeOf (d : Dev) (c w : Nat) : Place :=
  if isOwnSram w then .own (0x04000000 + 0x10000 * bentOf c + w)
  else if isPrivate w then .priv (w - 0x10000)
  else if isOwnCtl w then
    let k := w - 0x20000
    if k < 0x1000 then .ctl k
    else if k < 0x1800 then .deck (quePortAddr (128 * spanOf (bentOf c) + (k - 0x1000) / 16) (k % 16))
    else .blank
  else if isDdrWin w then
    let r := Tab.find 0#32 (d.bent (bentOf c)).ddrWin (ddrWinOf w)
    .ddr (fieldOf r 9 0) (ddrOffOf w)
  else if isViaduct w then
    let u := BitVec.ofNat 4 ((w - 0x10000000) / 0x01000000)
    if d.chain.uvalid && u == d.chain.unit then deckPlace c (remoteWord w) else .remote u (remoteWord w)
  else deckPlace c w

/-- A number that tells words of the machine apart, whichever way a core names them. -/
def Place.key (c : Nat) : Place → Nat
  | .priv k => 0x10000 + k
  | .own w => w
  | .ctl k => 0x08200000 + 0x1000 * bentOf c + k
  | .blank => 0
  | .deck w => w
  | .ddr r o => 2 ^ 40 + r * 2 ^ 27 + o
  | .remote u w => 2 ^ 41 + u.toNat * 2 ^ 32 + w

/-! ### Forwarding from the store buffer (R139) -/

/-- What the store buffer gives a load of one word. -/
inductive Fwd where
  | store (x : Word)
  | wait
  | memory
deriving DecidableEq, Repr

/-- Whether a part writes some of the lanes, or the tag, that a load reads. -/
def partTouches (p : WordPart) (lanes : BitVec 4) (tag : Bool) : Bool := (lanes &&& p.lanes) != 0#4 || (tag && p.tagWr)

/-- The youngest older buffered store to the word serves the load (R139); a load of which it wrote nothing while a still older one
did waits, so that program order stands (R131; DEDUCED, log entry 20). -/
def Dev.forward (d : Dev) (c key : Nat) (lanes : BitVec 4) (tag : Bool) : Fwd :=
  let hits := ((d.core c).stores.flatMap (fun e => e.parts)).filter (fun p => (d.placeOf c p.addr.toNat).key c == key)
  match hits.getLast? with
  | none => .memory
  | some p =>
    if (lanes &&& ~~~p.lanes) = 0#4 ∧ (!tag || p.tagWr) = true then .store p.word
    else if hits.any (fun q => partTouches q lanes tag) then .wait
    else .memory

/-! ### Loads -/

/-- The data of a load written to its destination (R110, R121): one word, or the two of a split pair. -/
def Core.loadWrite (k : Core) (dest : LoadDest) (ws : List Word) : Core :=
  let w0 := ws.headD wordZero
  let w1 := ws.getD 1 w0
  match dest with
  | .word rd => k.setReg rd.toNat w0
  | .byte rd lane => k.setByte rd.toNat (laneOf w0.pay lane.toNat)
  | .pair pd lane =>
    k.setPair pd.toNat (if lane = 3#2 then laneOf w1.pay 0 ++ laneOf w0.pay 3
      else laneOf w0.pay (lane.toNat + 1) ++ laneOf w0.pay lane.toNat)

/-- A word that a load reads: its core word address, the lanes and whether the tag is wanted, and the address a trap reports. -/
structure LoadPart where
  w : Nat
  lanes : BitVec 4
  tag : Bool
  addr : W32
  second : Bool

/-- The result of reading one word inside the bent, or that it must come over the Deck. -/
inductive Got where
  | word (x : Word) (d : Dev)
  | bad (p : LoadPart) (d : Dev)
  | wait
  | away

/-- One word of a load served inside the bent (R33, R71, R139, R241, R245); a word with a side effect waits for the divide in EX
(R63). -/
def Dev.readNear (d : Dev) (m : List Host.Cell) (c : Nat) (p : LoadPart) (f : Found) : Got :=
  let pl := d.placeOf c p.w
  match d.forward c (pl.key c) p.lanes p.tag with
  | .store x => .word x d
  | .wait => .wait
  | .memory =>
    match pl with
    | .priv k => if (d.core c).div.isSome then .wait else .word (d.privRead c k) (d.onCore c (fun x => x.privClear k))
    | .ctl k => if (d.core c).div.isSome then .wait
        else .word (d.bentRead (bentOf c) k) (d.onBent (bentOf c) (fun x => x.clearOn k))
    | .blank => .word wordZero d
    | .own w => if (d.core c).drained || d.foundAt w f != .uncorrectable then
        (match d.sramRead w f (BitVec.ofNat 12 c) with
          | (true, d') => .word (Memory.word m w) d'
          | (false, d') => .bad p d')
        else .wait
    | .deck _ | .ddr _ _ | .remote _ _ => .away

/-- The words of a load served inside the bent, first to last; each is read, and the first that is bad is reported (R244, R245). -/
def Dev.readAllNear (d : Dev) (m : List Host.Cell) (c : Nat) : List (LoadPart × Found) → List Word → Option LoadPart → DevRes ⊕ (List Word × Dev)
  | [], acc, none => .inr (acc.reverse, d)
  | [], _, some q => .inl (.trap (trapMemError 0#4 q.addr q.second) d)
  | p :: r, acc, bad =>
    match d.readNear m c p.1 p.2 with
    | .word x d' => Dev.readAllNear d' m c r (x :: acc) bad
    | .bad q d' => Dev.readAllNear d' m c r acc (match bad with | some z => some z | none => some q)
    | .wait | .away => .inl .hold

/-- Whether a queue port is read: a QOP (R283, R217). -/
def Place.isQueue : Place → Bool
  | .deck w => (quePort w).isSome
  | .priv _ | .own _ | .ctl _ | .blank | .ddr _ _ | .remote _ _ => false

/-- Whether an access to a place has a side effect when read: any register or queue port (R63). -/
def Place.isReg : Place → Bool
  | .deck w => isDevReg w
  | .priv _ | .own _ | .ctl _ | .blank | .ddr _ _ | .remote _ _ => false

/-- The transaction of a load of one word or of a split pair (R217, R222). -/
def Dev.loadTxn (d : Dev) (c : Nat) (ps : List LoadPart) (id : Nat) : Txn :=
  let k := d.core c
  let pl := d.placeOf c (ps.headD ⟨0, 0#4, false, 0#32, false⟩).w
  let t := { newTxn id (BitVec.ofNat 12 c) k.cls (if pl.isQueue then .qop else .rd) 0#32 (.load (BitVec.ofNat 11 c)) with
    paced := k.psr.paced, count := ps.length,
    parts := if 1 < ps.length then ps.map (fun p => { addr := BitVec.ofNat 32 p.w, lanes := p.lanes, tagWr := false, word := wordZero })
      else [] }
  match pl with
  | .deck w => { t with addr := BitVec.ofNat 32 w }
  | .ddr r o => { t with addr := BitVec.ofNat 32 o, ddr := some (r, o) }
  | .remote u w => { t with addr := BitVec.ofNat 32 w, dest := some u }
  | .priv _ | .own _ | .ctl _ | .blank => t

/-- The word of the own bent's SRAM that a load reads from its bank: one that the store buffer does not give it. -/
def ownRead : Fwd × Place → Option Nat
  | (.memory, .own w) => some w
  | _ => none

/-- A load of one word or of a split pair: inside the bent, once the bank's arbiter grants it (R247), else sent over the Deck (R132, R140). A split of
which the store buffer holds one word waits for its acceptance, since both words are read in one request (R140). -/
def Dev.load (d : Dev) (m : List Host.Cell) (c : Nat) (ps : List LoadPart) (dest : LoadDest) (f : Finds) : DevRes :=
  let k := d.core c
  let places := ps.map (fun p => d.placeOf c p.w)
  let fwds := (ps.zip places).map (fun p => d.forward c (p.2.key c) p.1.lanes p.1.tag)
  let far := places.any (fun p => match p with | .deck _ | .ddr _ _ | .remote _ _ => true | .priv _ | .own _ | .ctl _ | .blank => false)
  if 8 ≤ k.loads.length then .hold
  else if far && fwds.any (fun f => f == .memory) then
    if fwds.any (fun f => f != .memory) then .hold
    else if places.any Place.isReg && k.div.isSome then .hold
    else
      let a := (ps.headD ⟨0, 0#4, false, 0#32, false⟩).addr
      let e : LoadEntry :=
        { seq := k.issued, txn := d.nextId, dest := dest, pc := k.pc, addr := a, dead := false }
      .sent ((d.onCore c (fun x => { x with loads := x.loads ++ [e] })).issueTxn (d.loadTxn c ps))
  else
    let claim := d.nearClaim c k.issued k.cls .rd ((fwds.zip places).filterMap ownRead)
    match claim.2.readAllNear m c (((List.range ps.length).zip ps).map (fun e => (e.2, foundIn f e.1))) [] none with
    | .inl .hold => .hold
    | .inl r => if claim.1 then r else .waits claim.2
    | .inr (ws, d') => if claim.1 then .next (d'.onCore c (fun x => x.loadWrite dest ws)) else .waits claim.2

/-! ### Stores -/

/-- The address under which the store buffer keeps a word: the core word address. -/
def storePart (w : Nat) (lanes : BitVec 4) (tagWr : Bool) (x : Word) : WordPart :=
  { addr := BitVec.ofNat 32 w, lanes := lanes, tagWr := tagWr, word := x }

/-- A store of class cls enters the buffer: every older store of a lower class is raised to it (R223). -/
def Dev.raiseStores (d : Dev) (c : Nat) (cls : BitVec 2) : Dev :=
  let low := (d.core c).stores.filter (fun e => decide (cls.toNat < e.cls.toNat))
  low.foldl (fun x e => match e.txn with | some id => x.raiseTxn id cls | none => x)
    (d.onCore c (fun k => { k with stores := k.stores.map (fun e => if cls.toNat < e.cls.toNat then { e with cls := cls } else e) }))

/-- A store of one word or of a split pair enters the store buffer (R132, R138, R223). A store to the core-private range or to an
undefined word of bent control space is ignored (R71, R241), and so is a tag write to a register or to a RAW region (R111). -/
def Dev.store (d : Dev) (c : Nat) (ps : List WordPart) (tagOnly : Bool) (addr : W32) : DevRes :=
  let k := d.core c
  let w := (ps.headD (storePart 0 0#4 false wordZero)).addr.toNat
  let pl := d.placeOf c w
  let none_ := match pl with
    | .priv _ | .blank => true
    | .ctl _ => tagOnly
    | .deck a => tagOnly && isDevReg a
    | .ddr _ _ => tagOnly && !bitOf (Tab.find 0#32 (d.bent (bentOf c)).ddrWin (ddrWinOf w)) 30
    | .own _ | .remote _ _ => false
  if none_ then .next d
  else if 8 < k.storeCount + ps.length ∨ 24 < k.inFlight + d.signalsOut c + ps.length then .hold
  else
    let e : StoreEntry :=
      { seq := k.issued, parts := ps, tagOnly := tagOnly, cls := k.cls, txn := none, pc := k.pc, addr := addr }
    .next ((d.raiseStores c k.cls).onCore c (fun x => { x with stores := x.stores ++ [e] }))

/-! ### Compact operands -/

/-- The byte lanes of a compact access from byte address n, one or two bytes, word by word (R75, R140). -/
def Core.compactParts (k : Core) (n : BitVec 16) (two : Bool) : List (Nat × BitVec 4 × BitVec 16) :=
  let lane := n.toNat % 4
  let w := (k.compactWord n).toNat
  if !two then [(w, 1#4 <<< lane, n)]
  else if lane = 3 then [(w, 8#4, n), ((k.compactWord (n + 1#16)).toNat, 1#4, n + 1#16)]
  else [(w, 3#4 <<< lane, n)]

/-- The parts of a compact load. -/
def Core.compactLoad (k : Core) (n : BitVec 16) (two : Bool) : List LoadPart :=
  ((k.compactParts n two).zip [false, true]).map
    (fun e => { w := e.1.1, lanes := e.1.2.1, tag := false, addr := e.1.2.2.setWidth 32, second := e.2 })

/-- The parts of a compact store of a value of one or two bytes; the word's tag becomes RAW (R76). -/
def Core.compactStore (k : Core) (n : BitVec 16) (two : Bool) (v : BitVec 16) : List WordPart :=
  let lane := n.toNat % 4
  let val : W32 := v.setWidth 32
  ((k.compactParts n two).zip [false, true]).map (fun e =>
    storePart e.1.1 e.1.2.1 true (rawWord (if e.2 then val >>> 8 else (if two then val else val &&& 0xFF#32) <<< (8 * lane))))

/-! ### The instructions -/

/-- Registers that the base field of a memory instruction reads. -/
def baseReads (compact : Bool) (ra : Reg) : List Nat :=
  if compact then (if ra.toNat = 0 then [] else [2 * ra.toNat, 2 * ra.toNat + 1]) else [ra.toNat]

/-- LDW of core c (R110, R121). -/
def Dev.doLdw (d : Dev) (m : List Host.Cell) (c : Nat) (rd ra : Reg) (off : BitVec 15) (f : Finds) : Dev :=
  let cp := (d.core c).psr.compact
  d.runDev c { reads := baseReads cp ra, writes := [rd.toNat] } (fun k =>
    if cp then
      match k.compactBase ra with
      | none => .trap trapIllegal d
      | some b =>
        let n := compactAddr b off
        d.load m c (k.compactLoad n false) (.byte rd (n.setWidth 2)) f
    else
      let base := k.lone ra.toNat
      let a := effAddr base.pay off
      match k.addrFault (d.bent (bentOf c)) base a false with
      | some t => .trap t d
      | none => d.load m c [⟨a.toNat, 0xF#4, true, a, false⟩] (.word rd) f)

/-- STW of core c (R110, R121). -/
def Dev.doStw (d : Dev) (c : Nat) (rs ra : Reg) (off : BitVec 15) : Dev :=
  let cp := (d.core c).psr.compact
  d.runDev c { reads := rs.toNat :: baseReads cp ra } (fun k =>
    if cp then
      match k.compactBase ra with
      | none => .trap trapIllegal d
      | some b =>
        let n := compactAddr b off
        d.store c (k.compactStore n false ((k.byte rs.toNat).setWidth 16)) false (n.setWidth 32)
    else
      let base := k.lone ra.toNat
      let a := effAddr base.pay off
      match k.addrFault (d.bent (bentOf c)) base a true with
      | some t => .trap t d
      | none => d.store c [storePart a.toNat 0xF#4 true (k.lone rs.toNat)] false a)

/-- STAG of core c (R110, R111); undefined in compact mode (R125). -/
def Dev.doStag (d : Dev) (c : Nat) (rs ra : Reg) (off : BitVec 15) : Dev :=
  let cp := (d.core c).psr.compact
  d.runDev c { reads := [rs.toNat, ra.toNat] } (fun k =>
    if cp then .trap trapIllegal d
    else
      let base := k.lone ra.toNat
      let a := effAddr base.pay off
      match k.addrFault (d.bent (bentOf c)) base a true with
      | some t => .trap t d
      | none => d.store c [storePart a.toNat 0#4 true { pay := 0#32, tag := (k.lone rs.toNat).pay.setWidth 8 }] true a)

/-- LD16 of core c (R121, R140); undefined in tagged mode (R125). -/
def Dev.doLd16 (d : Dev) (m : List Host.Cell) (c : Nat) (pd pa : Reg) (off : BitVec 15) (f : Finds) : Dev :=
  let cp := (d.core c).psr.compact
  d.runDev c { reads := baseReads cp pa, writes := [2 * pd.toNat, 2 * pd.toNat + 1] } (fun k =>
    if !cp || !isPair pd then .trap trapIllegal d
    else match k.compactBase pa with
      | none => .trap trapIllegal d
      | some b =>
        let n := compactAddr b off
        d.load m c (k.compactLoad n true) (.pair pd (n.setWidth 2)) f)

/-- ST16 of core c (R121, R140); undefined in tagged mode (R125). -/
def Dev.doSt16 (d : Dev) (c : Nat) (ps pa : Reg) (off : BitVec 15) : Dev :=
  let cp := (d.core c).psr.compact
  d.runDev c { reads := [2 * ps.toNat, 2 * ps.toNat + 1] ++ baseReads cp pa } (fun k =>
    if !cp || !isPair ps then .trap trapIllegal d
    else match k.compactBase pa with
      | none => .trap trapIllegal d
      | some b =>
        let n := compactAddr b off
        let parts := k.compactStore n true (k.pair ps.toNat)
        d.store c parts false (n.setWidth 32))

/-- LDW (R110). -/
def execLdw (c : CoreId) (rd ra : Reg) (off : BitVec 15) (found : Finds) (s : State) : Host.Outcome State Fault Refusal :=
  s.keep (s.dev.doLdw s.mem c.toNat rd ra off found)

/-- STW (R110). -/
def execStw (c : CoreId) (rs ra : Reg) (off : BitVec 15) (s : State) : Host.Outcome State Fault Refusal :=
  s.keep (s.dev.doStw c.toNat rs ra off)

/-- STAG (R110, R111). -/
def execStag (c : CoreId) (rs ra : Reg) (off : BitVec 15) (s : State) : Host.Outcome State Fault Refusal :=
  s.keep (s.dev.doStag c.toNat rs ra off)

/-- LD16 (R121). -/
def execLd16 (c : CoreId) (pd pa : Reg) (off : BitVec 15) (found : Finds) (s : State) : Host.Outcome State Fault Refusal :=
  s.keep (s.dev.doLd16 s.mem c.toNat pd pa off found)

/-- ST16 (R121). -/
def execSt16 (c : CoreId) (ps pa : Reg) (off : BitVec 15) (s : State) : Host.Outcome State Fault Refusal :=
  s.keep (s.dev.doSt16 c.toNat ps pa off)

end Sys2Proof.Machine
end

