-- ==== Sys2Proof/Machine/Settle.lean ====
section
/-! DEFINITION. Commands that answered ACCEPTED and wait for a moment inside the part: a switch point (R470 to R476), an iteration
boundary (R359), an idle moment of a core (R358, R483), the last loop stopped (R399). `Dev.settle` ends each job whose moment has come. -/
namespace Sys2Proof.Machine

/-! ### LOOP_UPDATE (R471 to R474) -/

/-- The rollback counter of an image in code store advanced to its index (R460, R450: header bytes 6 and 7), a step every 20 µs, one at a
time (R461; DEDUCED, log entry 140). -/
def Dev.advanceRb (d : Dev) (m : List Host.Cell) (addr : W32) : Dev :=
  let w := (Memory.code m (addr.toNat + 1)).pay
  let c := fieldOf w 23 16
  let x := laneOf w 3
  let old := Tab.find 0#8 d.sec.rb c
  if old.toNat < x.toNat ∧ c < 32 then
    let left := d.sec.advancing d.clk
    let from_ := left.foldl (fun t e => max t e.2.2) d.clk
    { d with sec := { d.sec with rb := Tab.put d.sec.rb c x, adv := left ++ [(c, old, from_ + 16000 * (x.toNat - old.toNat))] } }
  else d

/-- A power loss in the middle of an advance leaves its counter at some value from its old one to the target, a free choice (R461). -/
def Dev.cutAdvances (d : Dev) : Dev :=
  let d1 := (d.sec.advancing d.clk).foldl (fun x e =>
    let c := x.freshNat ((x.sec.counter e.1).toNat - e.2.1.toNat + 1)
    { c.2 with sec := { c.2.sec with rb := Tab.put c.2.sec.rb e.1 (BitVec.ofNat 8 (e.2.1.toNat + c.1)) } }) d
  { d1 with sec := { d1.sec with adv := [] } }

/-- Whether an image is bound by some loop. -/
def Dev.imageBound (d : Dev) (addr : W32) : Bool := d.allBinds.any (fun l => l.image == addr)

/-- The images off the list whose lines are free now, because no loop is bound from them any more, forgotten (R413, R460). -/
def Dev.freeKept (d : Dev) : Dev := d.onKs (fun k => { k with kept := k.kept.filter (fun i => d.imageBound i.addr) })

/-- An image taken off Keystone's list; its lines are free once no loop is bound from it (R413, R460, R474). -/
def Dev.dropImage (d : Dev) (addr : W32) : Dev :=
  (d.onKs (fun k => { k with images := k.images.filter (fun i => i.addr != addr),
                             kept := k.kept ++ k.images.filter (fun i => i.addr == addr) })).freeKept

/-- After an update's switch: the loop runs the new image, the old one's lines are free, the rollback counter advances, the start hold
of a deadline loop begins (R474, R175). -/
def Dev.finishUpdate (d : Dev) (m : List Host.Cell) (l : Loop) (new : Image) : Dev :=
  let d1 := d.onKs (fun k => { k with loops := k.loops.map (fun x =>
    if x.num == l.num then { x with image := new.addr, entry := new.entry } else x) })
  let d2 := (d1.dropImage l.image).advanceRb m new.addr
  let d3 := if l.slack.isSome then d2.scrStartHold (bentOf l.core.toNat) else d2
  d3.refreshBanks

/-! ### LOOP_MIGRATE (R475, R476) -/

/-- The device word address of a loop's state block. -/
def Loop.block (l : Loop) : Nat := 0x04000000 + 0x10000 * bentOf l.core.toNat + l.sbase.toNat

/-- Keystone reads the next words of a state block that moves, in class C1 (R222, R475 step 4). -/
def Dev.moveRead (d : Dev) (l : Loop) (next : Nat) : Dev :=
  let mv : Move := { loop := l.num, next := next, asked := d.nextId }
  (d.onKs (fun k => { k with moves := k.moves.filter (fun x => x.loop != l.num) ++ [mv] })).issueTxn (fun id =>
    { newTxn id ksReq 1#2 .rd (BitVec.ofNat 32 (l.block + next)) (.move l.num) with count := min 8 (l.slen.toNat - next) })

/-- The words that Keystone has read of a state block written to the target's, tags and all (R475 step 4). -/
def Dev.moveWrite (d : Dev) (l t : Loop) (mv : Move) (ws : List Word) : Dev :=
  (d.onKs (fun k => { k with moves := k.moves.map (fun x => if x.loop == l.num then { x with asked := d.nextId, got := ws } else x) })).issueTxn (fun id =>
    { newTxn id ksReq 1#2 .wr (BitVec.ofNat 32 (t.block + mv.next)) (.move l.num) with
      count := ws.length,
      parts := ((List.range ws.length).zip ws).map (fun e =>
        { addr := BitVec.ofNat 32 (t.block + mv.next + e.1), lanes := 0xF#4, tagWr := true, word := e.2 }) })

/-- The loop as its migration's target declares it. -/
def Dev.moveTarget (d : Dev) (num : BitVec 16) : Option Loop :=
  d.ks.jobs.findSome? (fun j => match j.kind with
    | .migrate n t _ _ => if n == num then some t else none
    | _ => none)

/-- A response to a transaction of a moving state block: words read are written to the target, and after the write the next ones are read; delayed
ones are counted (R231). -/
def Dev.moveOn (d : Dev) (num : BitVec 16) (id : Nat) (late : Bool) (ws : List Word) : Dev :=
  match d.ks.moves.find? (fun x => x.loop == num && x.asked == id), d.loop num, d.moveTarget num with
  | some mv, some l, some t =>
    let d1 := if late then d.onKs (fun k => { k with jobs := k.jobs.map (fun j => match j.kind with
        | .migrate n _ _ _ => if n == num then { j with late := j.late + 1 } else j
        | _ => j) }) else d
    if mv.got.isEmpty && !ws.isEmpty then d1.moveWrite l t mv ws
    else
      let next := mv.next + mv.got.length
      if next < l.slen.toNat then d1.moveRead l next
      else d1.onKs (fun k => { k with moves := k.moves.map (fun x => if x.loop == num then { x with next := next, got := [], asked := d1.nextId } else x) })
  | _, _, _ => d

/-- A word of a moving state block that cannot be read, or that no target takes (R345). -/
def Dev.moveLost (d : Dev) (num : BitVec 16) (src : Nat) : Dev :=
  d.onKs (fun k => { k with moves := k.moves.map (fun x => if x.loop == num then { x with bad := some src } else x) })

/-- The queue that drives a BIU source, if any (R292). -/
def Dev.queueFor (d : Dev) (b n : Nat) : Option Nat :=
  (d.queues.find? (fun e => e.2.en && e.2.biuEn && e.2.bent.toNat == b && e.2.src.toNat == n && n < 64)).map (·.1)

/-- The trigger moved to the target bent (R476): a comparator keeps its phase, a queue's notice is rewritten, a latch is set again. -/
def Dev.moveTrigger (d : Dev) (l t : Loop) : Dev :=
  let b := bentOf l.core.toNat
  let b' := bentOf t.core.toNat
  let n := l.trigger.toNat
  let n' := t.trigger.toNat
  let d1 := match l.alarm, t.alarm with
    | some a, some a' =>
      let x := (d.bent b).biu.alarm a
      d.onBiu b' (fun u => u.onAlarm a' (fun y => { y with mode := x.mode, armed := x.armed, cmp := x.cmp, per := x.per }))
    | _, _ => d
  let d2 := match d1.queueFor b n with
    | some q =>
      let e := d1.onQueue q (fun x => { x with bent := BitVec.ofNat 7 b', src := BitVec.ofNat 6 n' })
      (e.queLevel q b n false).queLevel q b' n' (e.queue q).asserts
    | none => d1
  if isLatchedSrc n && (d.source b n).level then d2.setLatch b' n' else d2

/-- A job taken off and ended. -/
def Dev.endJob (d : Dev) (j : Job) (st det : BitVec 16) : Dev :=
  (d.onKs (fun k => { k with jobs := k.jobs.filter (fun x => x != j) })).finalResult j st det

/-- Steps 4 to 6 of a migration, whose final result is DONE: the state block is copied, and then the trigger moves; a word of the block that
cannot be copied ends it with FAULT_ACTIVE naming the source, the loop stopped where it was (R345). -/
def Dev.finishMigrate (d : Dev) (j : Job) (l t : Loop) (started : Bool) (gap : W32) : Dev :=
  let b' := bentOf t.core.toNat
  let mv := d.ks.moves.find? (fun x => x.loop == l.num)
  let d0 := d.onKs (fun k => { k with moves := k.moves.filter (fun x => x.loop != l.num) })
  match mv with
  | none => d.moveRead l 0
  | some mv =>
    match mv.bad with
    | some s => (d0.releaseBind t).endJob j stFaultActive (BitVec.ofNat 16 s)
    | none =>
    if mv.next < l.slen.toNat then d else
    let d1 := d0.moveTrigger l t
    let d2 := d1.onKs (fun k => { k with loops := k.loops.map (fun x => if x.num == l.num then t else x) })
    let d3 := if started then d2.enableSrc b' t.trigger.toNat else d2
    let d4 := d3.onBent b' (fun x => { x with lastGap := d.time - gap, migIn := satInc x.migIn })
    let d5 := if bentOf l.core.toNat = b' then d4.releaseBind l else (d4.releaseBind l).clearUnable (bentOf l.core.toNat)
    (((d5.refreshBent b').refreshCore t.core.toNat).refreshBanks).endJob j stDone 0#16

/-! ### Idle moments (R358, R483) -/

/-- Whether a core is at an idle moment with no frame. -/
def Core.idleMoment (k : Core) : Bool :=
  match k.status with
  | .waiting => k.frames.isEmpty && k.entry.isNone
  | .stopped | .gated => true
  | .running => false

/-- The core that takes a logical slot at a swap (R483 steps 3 and 5, R484): the data mode, windows and vector lines of the old one, its
counters at 0, no trap record. -/
def Core.swapped (k : Core) : Core :=
  { status := k.status, psr := k.psr.idle, winMask := k.winMask,
    cmptBase := k.cmptBase, vecLines := k.vecLines, vecReq := k.vecReq, waitSince := k.waitSince, stores := k.stores,
    loads := k.loads.map (fun e => { e with dead := true }), issued := k.issued }

/-- Steps 5 to 7 of R483. -/
def Dev.swapSlot (d : Dev) (b pslot free lslot : Nat) : Dev :=
  let d1 := d.onCore (coreOf b lslot) Core.swapped
  let d2 := d1.onBent b (fun x => { x with
    phys := Tab.put x.phys lslot (BitVec.ofNat 5 free), seq := x.seq + 1#8, spareFree := false, retired := setBit x.retired pslot true })
  (d2.clearUnable b).recordSpares

/-- LIV_SWAPSTAT after a SPARE_SWAP has ended (R487): result 0 done, 1 self-test failed, 2 no idle moment. -/
def Dev.noteSwap (d : Dev) (res : BitVec 3) (b : BentId) (p : BitVec 5) (l : SlotId) : Dev :=
  d.onKs (fun k => { k with swapValid := true, swapResult := res, swapBent := b, swapPslot := p, swapLslot := l })

/-! ### The jobs -/

/-- Every started loop stopped as LOOP_STOP without NOW does it (R399): a switch armed for it is disarmed (R470), and one that is not in an
iteration loses its trigger's EN. -/
def Dev.stopIdleLoops (d : Dev) : Dev :=
  let d1 := (d.ks.loops.filter (fun l => d.started l)).foldl (fun x l => x.disarmLoop l) d
  (d1.ks.loops.filter (fun l => d1.started l && !d1.iterating l)).foldl (fun x l => x.loopOff l) d1

/-- One job brought to its end where its moment has come. -/
def Dev.settleJob (d : Dev) (m : List Host.Cell) (j : Job) : Eff :=
  match j.kind with
  | .update n img =>
    (match d.loop n, d.image img with
    | some l, some i =>
      if (Tab.find {} (d.bent (bentOf l.core.toNat)).sw (slotOf l.core.toNat) : Switch).armed then (d, [])
      else ((d.finishUpdate m l i).endJob j stDone 0#16, [])
    | _, _ => (d, []))
  | .migrate n t st (some g) =>
    (match d.loop n with
    | some l => (d.finishMigrate j l t st g, [])
    | none => (d, []))
  | .migrate _ _ _ none => (d, [])
  | .loopStart n start =>
    (match d.loop n with
    | some l => if (d.core l.core.toNat).idleMoment then ((d.startLoop l start).endJob j stDone 0#16, []) else (d, [])
    | none => (d.endJob j stBadParam 0#16, []))
  | .loopStop n ub =>
    (match d.loop n with
    | some l =>
      if d.iterating l then (d, [])
      else
        let d1 := d.loopOff l
        ((if ub then d1.unbindLoop l else d1).endJob j stDone 0#16, [])
    | none => (d.endJob j stDone 0#16, []))
  | .modeSet t =>
    if t == mStandby && (d.mode.mode == mRun || d.mode.mode == mDegraded) then
      let d1 := d.stopIdleLoops
      if d1.ks.loops.any d1.started then (d1, []) else ((d1.setMode mStandby 0#3).endJob j stDone 0#16, [])
    else if t == mStandby && d.mode.recov then (d.stopIdleLoops, [])
    else (d, [])
  | .spareSwap b p f l =>
    let k := d.core (coreOf b.toNat l.toNat)
    if k.idleMoment && (d.offeredTo b.toNat l.toNat).isNone then
      (((d.swapSlot b.toNat p.toNat f.toNat l.toNat).noteSwap 0#3 b p l).endJob j stDone 0#16, [])
    else (d, [])
  | .undo t => ((d.onKs (fun k => { k with
      jobs := k.jobs.filter (fun x => x != j), moves := k.moves.filter (fun x => x.loop != t.num) })).releaseBind t, [])
  | .loopLoad _ | .secImage _ _ _ | .viaEnum | .remote _ => (d, [])

/-- The jobs of a list settled one after another. -/
def Dev.settleAll (d : Dev) (m : List Host.Cell) : List Job → Eff
  | [] => (d, [])
  | j :: r =>
    let e := d.settleJob m j
    let e2 := Dev.settleAll e.1 m r
    (e2.1, e.2 ++ e2.2)

/-- Every waiting job whose moment has come is ended; a halted Keystone ends none (R494). -/
def Dev.settle (d : Dev) (m : List Host.Cell) : Eff := if d.ks.halted then (d, []) else d.settleAll m d.ks.jobs

/-- An effect followed by the end of every waiting job whose moment has come with it. -/
def settleEff (m : List Host.Cell) (e : Eff) : Eff :=
  let e2 := e.1.settle (applyAll m e.2)
  (e2.1, e.2 ++ e2.2)

end Sys2Proof.Machine
end

