-- ==== Sys2Proof/Machine/Biu.lean ====
section
/-! DEFINITION. Delivery of sources to cores (spec 06_bent_interrupt_unit.md R199, R206, R208; 04_self_timed_pipeline.md R142 to R147,
R154, R156; 07 R222) and the writes of a BIU that any requester may make (R213). -/
namespace Sys2Proof.Machine

/-! ### BIU_OFFER (R199, R205) -/

/-- BIU_OFFER: one delivery decision of a bent that is not asleep (R419). -/
def execBiuOffer (b : BentId) (s : State) : Host.Outcome State Fault Refusal :=
  s.commit ((if (s.dev.bent b.toNat).asleep then s.dev else s.dev.biuDecide b.toNat).settle s.mem)

/-! ### CORE_UNGATE_DONE (R206) -/

/-- The slot that the BIU un-gates for source n: the lowest slot of its mask that is GATED and whose core is not retired (R206). -/
def Dev.ungateSlot (d : Dev) (b n : Nat) : Option Nat :=
  let x := d.bent b
  (List.range 16).find? (fun i =>
    (d.source b n).mask.getLsbD i && (d.core (coreOf b i)).status == .gated && !x.retired.getLsbD (x.physOf i).toNat)

/-- Whether source n asks for slot i to be un-gated. -/
def Dev.wantsSlot (d : Dev) (b i n : Nat) : Bool :=
  let x := d.source b n
  x.st == .pending && x.en && x.wake && !d.hasCandidate b n && d.ungateSlot b n == some i

/-- CORE_UNGATE_DONE: a slot un-gated for a WAKE source is WAITING (R206). -/
def execCoreUngateDone (b : BentId) (slot : SlotId) (s : State) : Host.Outcome State Fault Refusal :=
  let d := s.dev
  s.keep (if (d.bent b.toNat).biu.src.any (fun e => d.wantsSlot b.toNat slot.toNat e.1) then
      d.onCore (coreOf b.toNat slot.toNat) (fun k => { k.ungate with waitSince := d.clk })
    else d)

/-! ### INTERRUPT_ENTRY (R143 to R145, R156) -/

/-- The class of the transactions of an entry of core c that serves source n (R222). A core with no loop has no class by R222: a free
choice (DESIGN CHOICE, log entry 11). -/
def Dev.entryClass (d : Dev) (c n : Nat) : BitVec 2 × Dev :=
  if (d.core c).psr.paced then (0#2, d)
  else match d.loopOf c n with
    | some l => (if l.deadline != 0#32 then 0#2 else l.cls, d)
    | none =>
      let cls := fun l : Loop => if l.paced || l.deadline != 0#32 then 0 else l.cls.toNat
      match d.loopsOn c with
      | [] => (BitVec.ofNat 2 (d.freshNat 3).1, (d.freshNat 3).2)
      | l :: r => (BitVec.ofNat 2 (r.foldl (fun m x => min m (cls x)) (cls l)), d)

/-- The divide in EX at an acceptance (R142): abandoned with every younger instruction, its PC saved, when no younger instruction has
completed. -/
def Core.killDiv (k : Core) : Core :=
  match k.div with
  | none => k
  | some v => { k with div := none, pc := v.pc, loads := k.loads.map (fun e => if v.seq < e.seq then { e with dead := true } else e) }

/-- Whether a divide lets core k accept an entry (R142). -/
def Core.divAllows (k : Core) : Bool :=
  match k.div with
  | none => true
  | some v => !v.younger

/-- Whether core c may accept an entry now (R143); a paced one where an instruction would issue or while a divide runs (R156). -/
def Dev.mayAccept (d : Dev) (c : Nat) : Bool :=
  let k := d.core c
  k.entry.isNone && k.divAllows &&
    (match k.status with
    | .waiting => true
    | .running => k.psr.i && (!k.psr.paced || k.div.isSome || (k.drained && (d.lineFor c (lineOf k.pc)).isSome))
    | .gated | .stopped => false)

/-- The registers of the newest frame take their values (R145, steps 8 to 11). -/
def Core.fillFrame (k : Core) : Core :=
  match k.frames with
  | [] => k
  | f :: r => { k with frames := { f with g28 := k.reg 28, g29 := k.reg 29, g30 := k.reg 30, g31 := k.reg 31 } :: r }

/-- Whether the frame of an entry still waits for an older load to a register that it saves (R145, steps 8 to 11). -/
def Core.frameWaits (k : Core) (e : EntryRec) : Bool := e.pushed && [28, 29, 30, 31].any k.loadPending

/-- The vector's line chosen by core c (R126, R134); on a paced core it becomes current and the next line is requested (R154). -/
def Dev.enterLine (d : Dev) (c : Nat) (vec : W32) : Dev :=
  let n := lineOf vec
  if (d.core c).psr.paced then
    d.onCore c (fun k => { k with curLine := (lineIn k.vecLines n).map (fun v => (n, v)), nextLine := none, reqLine := some (n + 1, d.clk) })
  else d.selectLine c n

/-- Core c takes up source n as the entry in progress: vector, CURPRI, CORE_WAKE and class are those of the source (R145 steps 1 and 12,
R146). -/
def Dev.takeUp (d : Dev) (c n : Nat) (pushed : Bool) : Dev :=
  let b := bentOf c
  let x := d.source b n
  let r := d.entryClass c n
  let src := BitVec.ofNat 8 n
  let e : EntryRec := { src := src, pushed := pushed, accept := d.timeAt b }
  let d1 := r.2.onCore c (fun k => { k with
    status := .running, entry := some e, pc := x.vec, psr := { k.psr with curPri := x.pri }, wake := d.timeAt b, cls := r.1,
    serving := some src })
  (d1.onSource b n (fun y => { y with st := .entering (BitVec.ofNat 4 (slotOf c)) })).enterLine c x.vec

/-- Steps 0 to 7 of an entry: acceptance of the offered source; a running core pushes its frame (R82, R145); P1 ends with the delivery (R425).
A delivery waits until its vector's line is loaded (R472). -/
def Dev.acceptEntry (d : Dev) (c : Nat) : Dev :=
  match d.offeredTo (bentOf c) (slotOf c) with
  | none => d
  | some n =>
    let k := d.core c
    if !d.mayAccept c || d.coreStill c || k.vecReq.any (fun e => e.1 == lineOf (d.source (bentOf c) n).vec) then d
    else
      let running := k.status == .running
      let d1 := d.leaveP1.onCore c (fun x =>
        let y := x.killDiv
        if running then { y with frames := y.frame :: y.frames } else y)
      d1.takeUp c n running

/-- Steps 8 to 14: g28 to g31 saved once no older load to them is outstanding, and the claim, after which the first handler instruction
may issue (R145, R201). -/
def Dev.claimEntry (d : Dev) (c : Nat) : Dev :=
  match (d.core c).entry with
  | none => d
  | some e =>
    if (d.core c).frameWaits e then d
    else ((d.claim (bentOf c) (slotOf c) e.src.toNat).onCore c (fun k =>
      { (if e.pushed then k.fillFrame else k) with entry := none })).markIter c e.src.toNat true

/-- An entry of core c, whole or in its two parts (DESIGN CHOICE, log entry 9). -/
def Dev.interruptEntry (d : Dev) (c : Nat) : EntryPhase → Dev
  | .whole => if (d.core c).entry.isSome then d else (d.acceptEntry c).claimEntry c
  | .accept => d.acceptEntry c
  | .claim => d.claimEntry c

/-- INTERRUPT_ENTRY (R145). -/
def execInterruptEntry (c : CoreId) (ph : EntryPhase) (s : State) : Host.Outcome State Fault Refusal :=
  s.keep (s.dev.interruptEntry c.toNat ph)

/-! ### TAKEOVER (R146) -/

/-- A takeover of the entry in progress of core c by the source offered to it: the displaced source returns to PENDING (R198). -/
def Dev.takeover (d : Dev) (c : Nat) : Dev :=
  match (d.core c).entry, d.offeredTo (bentOf c) (slotOf c) with
  | some e, some n =>
    if (d.core c).psr.i && d.mayPreempt (bentOf c) n (d.source (bentOf c) e.src.toNat).pri.toNat then
      (d.takeUp c n e.pushed).returnPending (bentOf c) e.src.toNat
    else d
  | _, _ => d

/-- TAKEOVER (R146). -/
def execTakeover (c : CoreId) (s : State) : Host.Outcome State Fault Refusal :=
  s.commit ((s.dev.takeover c.toNat).settle s.mem)

/-! ### ALARM_MATCH (R208 to R210) -/

/-- How often PER is added to CMP to place it after TIME, where it lies at or before it (R208): none where no number of additions does. -/
def periodsToAdd (cmp per time : W32) : Option Nat :=
  let late := (time - cmp).toNat
  let p := per.toNat
  if p < 2 ^ 31 then some (late / p + 1)
  else if p = 2 ^ 31 then (if late = 0 ∨ late = 2 ^ 31 then none else some 1)
  else some ((2 ^ 31 - late) / (2 ^ 32 - p) + 1)

/-- Comparator k of a bent after a match under PERIODIC (R208). Where PER is 8000_0000h and no number of additions places CMP after TIME,
the CMP it gets is a free value (DESIGN CHOICE, log entry 11). -/
def Dev.periodic (d : Dev) (b k : Nat) : Dev :=
  let a := (d.bent b).biu.alarm k
  if a.per = 0#32 then d.onBiu b (fun u => u.onAlarm k (fun x => { x with armed := false }))
  else match periodsToAdd a.cmp a.per (d.timeAt b) with
    | some n => d.onBiu b (fun u => u.onAlarm k (fun x =>
        { x with cmp := x.cmp + BitVec.ofNat 32 (n * x.per.toNat), missed := satAdd x.missed (n - 1) }))
    | none => d.fresh.2.onBiu b (fun u => u.onAlarm k (fun x => { x with cmp := d.fresh.1 }))

/-- Whether comparator k of a bent matches now (R208). -/
def Dev.alarmMatches (d : Dev) (b k : Nat) : Bool :=
  let a := (d.bent b).biu.alarm k
  a.armed && a.mode != 0#2 && !before (d.timeAt b) a.cmp

/-- A match of comparator k: 0 to 23 set their latch (R208); 24 to 31 release the group whose collection they time (R209, R210). -/
def Dev.alarmMatch (d : Dev) (b k : Nat) : Dev :=
  if !d.alarmMatches b k then d
  else
    let a := (d.bent b).biu.alarm k
    let d1 := if a.mode = 2#2 then d.periodic b k else d.onBiu b (fun u => u.onAlarm k (fun x => { x with armed := false }))
    if k < 24 then d1.setLatch b (64 + k)
    else if ((d.bent b).biu.group a.cgOwn.toNat).collect then d1.releaseGroup b a.cgOwn.toNat true else d1

/-- ALARM_MATCH (R208). -/
def execAlarmMatch (b : BentId) (k : BitVec 5) (s : State) : Host.Outcome State Fault Refusal :=
  s.keep (s.dev.alarmMatch b.toNat k.toNat)

/-! ### TIMEBASE_PULSE (R192) -/

/-- Timebase ticks between the pulses of source 176 + k: 1 Hz, 1 kHz, 10 kHz, 100 kHz at 800 MHz. -/
def pulseTicks (k : BitVec 2) : Nat := [800000000, 800000, 80000, 8000].getD k.toNat 8000

/-- TIMEBASE_PULSE: at a whole multiple of its period on the timebase, source 176 + k of every bent is set (R192); none while the
timebase is stopped (R305, R422). -/
def execTimebasePulse (k : BitVec 2) (s : State) : Host.Outcome State Fault Refusal :=
  let d := s.dev
  s.keep (if d.tbCounts && d.tb.toNat % pulseTicks k == 0 then (List.range 128).foldl (fun x b => x.biuEvent b (176 + k.toNat)) d else d)

/-! ### Writes (R208, R213) -/

/-- BIU_SWSET (R192, R213): each 1 sets the latch of a software event source. -/
def Dev.swSet (d : Dev) (b : Nat) (val : W32) : Dev :=
  (List.range 8).foldl (fun x j => if bitOf val j then x.setLatch b (184 + j) else x) d

/-- BIU_SWSET: any requester may write it. -/
def execBiuSwset (_req : ReqId) (b : BentId) (val : W32) (s : State) : Host.Outcome State Fault Refusal :=
  s.keep (s.dev.swSet b.toNat val)

/-- BIU_ALMCMP written (R208): comparators 0 to 23 re-arm in ONCE and PERIODIC, and stand disarmed in OFF and WATCH; 24 to 31 are
read-only (R213). -/
def Dev.almCmp (d : Dev) (b k : Nat) (val : W32) : Dev :=
  if k < 24 then d.onBiu b (fun u => u.onAlarm k (fun a => { a with cmp := val, armed := a.mode == 1#2 || a.mode == 2#2 })) else d

/-- BIU_ALMCMP_WRITE: any requester may write it (R213). -/
def execBiuAlmcmpWrite (_req : ReqId) (b : BentId) (k : BitVec 5) (val : W32) (s : State) : Host.Outcome State Fault Refusal :=
  s.keep (s.dev.almCmp b.toNat k.toNat val)

end Sys2Proof.Machine
end

