-- ==== Sys2Proof/Machine/DdrOps.lean ====
section
/-! DEFINITION. Reads and writes of DDR5 and of code store (spec 08_memories.md R257 to R280, R529): what a region answers, where its
bytes lie, its errors, its tag cache; the reserved region and the poisoned words of code store. -/
namespace Sys2Proof.Machine

/-! ### What a target answers -/

/-- The answer of a memory or a register to a request for one word. -/
inductive Acc where
  | word (x : Word)
  | error (detail : BitVec 4)
  | absent
  | wait
deriving DecidableEq, Repr

/-! ### DDR5 regions (R270, R273, R274, R529) -/

/-- The poison mark and the transaction word of word o of region r. -/
def ddrWordId (r o : Nat) : Nat := 2 ^ 40 + r * 2 ^ 27 + o

/-- The channel of a region. -/
def chanOf (r : Nat) : Nat := r / 256

/-- Whether a region is TAGGED (R273). -/
def Dev.regionTagged (d : Dev) (r : Nat) : Bool := (d.ddr (chanOf r)).regattr.getLsbD (r % 256)

/-- Why a region cannot be accessed at all, if so: ERROR on a failed channel (R529), NOT_PRESENT on an empty, untrained or sleeping one
and beyond its capacity (R236, R270), a wait while its carve-out is written (R274). -/
def Dev.regionState (d : Dev) (r : Nat) : Option Acc :=
  let x := d.ddr (chanOf r)
  if x.failed then some (.error 2#4)
  else if !x.ready || x.asleep || decide (fieldOf x.cfg 8 0 ≤ r % 256) then some .absent
  else if x.tagInit.contains (r % 256) then some .wait
  else none

/-- The key of byte i of a region (DESIGN CHOICE, log entry 4). -/
def ddrKey (r i : Nat) : Nat := ddrKeyBase + r * 2 ^ 29 + i

/-- Whether byte i of a region lies in a carve-out that the controller has filled with E0h (R274; DESIGN CHOICE, log entry 4). -/
def Dev.inFilled (d : Dev) (r i : Nat) : Bool :=
  (d.ddr (chanOf r)).tagFill.getLsbD (r % 256) && decide (0x18000000 ≤ i) && decide (i < 0x1E000000)

/-- Byte i of a region. -/
def Dev.ddrByte (d : Dev) (m : List Host.Cell) (r i : Nat) : Byte :=
  let v := Memory.get m (ddrKey r i)
  if d.inFilled r i then v ^^^ 0xE0#8 else v

/-- Byte i of a region set to v. -/
def Dev.ddrPut (d : Dev) (r i : Nat) (v : Byte) : MemOp :=
  .byte (ddrKey r i) (if d.inFilled r i then v ^^^ 0xE0#8 else v)

/-- The stored word o of a region, its tag RAW in a RAW region (R273). -/
def Dev.ddrStored (d : Dev) (m : List Host.Cell) (r o : Nat) : Word :=
  { pay := wordOfBytes (d.ddrByte m r (4 * o)) (d.ddrByte m r (4 * o + 1)) (d.ddrByte m r (4 * o + 2)) (d.ddrByte m r (4 * o + 3)),
    tag := if d.regionTagged r then d.ddrByte m r (0x18000000 + o) else tagRaw }

/-- The bytes of a word that a part writes; its tag only in a TAGGED region (R273). -/
def Dev.ddrOps (d : Dev) (r o : Nat) (p : WordPart) : List MemOp :=
  let bytes := (List.range 4).filterMap (fun l =>
    if p.lanes.getLsbD l then some (d.ddrPut r (4 * o + l) (laneOf p.word.pay l)) else none)
  bytes ++ (if p.tagWr && d.regionTagged r then [d.ddrPut r (0x18000000 + o) p.word.tag] else [])

/-! ### Tag cache (R275) -/

/-- A count in units of 256: the count, and the events since its last rise. -/
def countBy256 (v : BitVec 16) (sub : Byte) : BitVec 16 × Byte := (if sub = 0xFF#8 then satInc v else v, sub + 1#8)

/-- The tag line of word o of a region, over its channel. -/
def tagLine (r o : Nat) : Nat := (r % 256 * 2 ^ 29 + 0x18000000 + o) / 64

/-- An access to a tag line: 512 sets of 8 ways, the least recently used leaving (R275; DEDUCED, log entry 27). -/
def Ddr.touchTag (x : Ddr) (t : Nat) : Ddr :=
  let set := x.tagCache.filter (fun n => n != t && n % 512 == t % 512)
  let rest := x.tagCache.filter (fun n => n % 512 != t % 512)
  let cache := t :: (set.take 7 ++ rest)
  if x.tagCache.contains t then
    let c := countBy256 x.tcHit x.tcHitSub
    { x with tagCache := cache, tcHit := c.1, tcHitSub := c.2 }
  else
    let c := countBy256 x.tcMiss x.tcMissSub
    { x with tagCache := cache, tcMiss := c.1, tcMissSub := c.2 }

/-! ### DDR5 errors (R276, R277, R278, R280, R437) -/

/-- The poison mark of the tag of word o of region r (R276). -/
def ddrTagId (r o : Nat) : Nat := 2 ^ 44 + r * 2 ^ 27 + o

/-- Whether word o of a region is poisoned, by its payload line or by its tag line (R276). -/
def Dev.ddrPoisoned (d : Dev) (r o : Nat) : Bool := d.poisoned (ddrWordId r o) || (d.regionTagged r && d.poisoned (ddrTagId r o))

/-- Words marked poisoned. -/
def Dev.poisonAll (d : Dev) (ws : List Nat) : Dev := { d with poison := d.poison ++ ws.filter (fun w => !d.poisoned w) }

/-- The marks of a line whose read is uncorrectable (R276): the 16 words of a payload line, or the 64 words whose tags the line holds. The
line is given by the offset of its first word; the last 32 MiB of a TAGGED region hold nothing (R273). -/
def Dev.lineMarks (d : Dev) (r o : Nat) : List Nat :=
  if d.regionTagged r && decide (0x06000000 ≤ o) then
    if o < 0x07800000 then (List.range 64).map (fun i => ddrTagId r ((o - 0x06000000) * 4 + i)) else []
  else (List.range 16).map (fun i => ddrWordId r (o + i))

/-- The channel-local number of the line of word o of a region (R270). -/
def ddrLineOf (r o : Nat) : Nat := r % 256 * 2 ^ 23 + o / 16

/-- A row due for soft repair (R278). -/
def Ddr.dueRow (x : Ddr) (row : Nat) : Ddr := if x.due.contains row then x else { x with due := x.due ++ [row] }

/-- The patrol pass at a clock reading (R277; passes of HOURS from clock 0 on, DESIGN CHOICE, log entry 114). -/
def Ddr.passAt (x : Ddr) (clk : Nat) : Nat := clk / (x.scrubHours.toNat * 2880000000000)

/-- A corrected burst in a line of a row: corrected bursts in two different lines of it within one pass make the row due (R278). -/
def Ddr.noteCorrected (x : Ddr) (clk row line : Nat) : Ddr :=
  let n := x.passAt clk
  let seen := if x.pass = n then x.seen else []
  let y := { x with pass := n, patrolled := if x.pass = n then x.patrolled else [], seen := if seen.contains (row, line) then seen else seen ++ [(row, line)] }
  if seen.any (fun e => e.1 == row && e.2 != line) then y.dueRow row else y

/-- A corrected burst: counted, its location recorded (SUB from the line, device, DIMM and rank as found); DDR_CE at each multiple of
2^16. -/
def Dev.ddrCorrected (d : Dev) (r o : Nat) (loc : BitVec 6) : Dev :=
  let ch := chanOf r
  let line := ddrLineOf r o
  let sub : BitVec 1 := BitVec.ofNat 1 line
  let c0 := (d.ddr ch).ce
  let d1 := d.onDdr ch (fun x => { x.noteCorrected d.clk (Config.ddrRow ch line) line with ce := satInc x.ce, errLoc := sub ++ loc })
  if c0 != 0xFFFFFFFF#32 && (c0.toNat + 1) % 65536 == 0 then d1.raise 577 ch 0#16 else d1

/-- An uncorrectable burst: counted, the line's address and the requester recorded, DDR_UE raised, its row due for repair (R278). -/
def Dev.ddrBad (d : Dev) (r o : Nat) (req : ReqId) : Dev :=
  let ch := chanOf r
  let line := ddrLineOf r o
  (d.onDdr ch (fun x => { x.dueRow (Config.ddrRow ch line) with
    ue := satInc x.ue, errAddr := BitVec.ofNat 37 (64 * line), ueValid := true, errReq := req })).raise 578 ch 0#16

/-! ### The bursts of an access (R275 to R277) -/

/-- A word that an access uses: its offset, what the reads of its line and of its tag's line find, and whether the access needs the old word. -/
structure DdrUse where
  o : Nat
  f : Found
  tagF : Found
  need : Bool

/-- The worst of some findings. -/
def worst (l : List Found) : Found :=
  if l.contains .uncorrectable then .uncorrectable
  else (l.find? (fun f => match f with | .single _ => true | .good | .uncorrectable => false)).getD .good

/-- One read of the line that begins at word o: an uncorrectable one poisons it (R276); a line that holds a poisoned word which the access needs
counts as uncorrectable again; a corrected one is written back (R277). -/
def Dev.ddrBurst (d : Dev) (r o : Nat) (f : Found) (known : Bool) (req : ReqId) : Dev :=
  match f with
  | .uncorrectable => (d.poisonAll (d.lineMarks r o)).ddrBad r o req
  | .single bit => if known then d.ddrBad r o req else d.ddrCorrected r o bit
  | .good => if known then d.ddrBad r o req else d

/-- The tag line of the words from 64 l on: read from DRAM on a miss of the tag cache alone (R275). -/
def Dev.tagBurst (d : Dev) (r : Nat) (us : List DdrUse) (req : ReqId) (l : Nat) : Dev :=
  let mine := us.filter (fun u => u.o / 64 == l)
  let t := tagLine r (64 * l)
  let d1 := d.onDdr (chanOf r) (fun x => x.touchTag t)
  if (d.ddr (chanOf r)).tagCache.contains t then d1
  else d1.ddrBurst r (0x06000000 + 16 * l) (worst (mine.map (fun u => u.tagF))) (mine.any (fun u => u.need && d.poisoned (ddrTagId r u.o))) req

/-- The payload line of the words from 16 l on. -/
def Dev.payBurst (d : Dev) (r : Nat) (us : List DdrUse) (req : ReqId) (l : Nat) : Dev :=
  let mine := us.filter (fun u => u.o / 16 == l)
  d.ddrBurst r (16 * l) (worst (mine.map (fun u => u.f))) (mine.any (fun u => u.need && d.poisoned (ddrWordId r u.o))) req

/-- The bursts by which an access reads what it uses of a region: each line once, tag lines first; the first request takes the channel out of
power-down (R425). -/
def Dev.ddrOpen (d0 : Dev) (r : Nat) (us : List DdrUse) (req : ReqId) : Dev :=
  if (d0.regionState r).isSome then d0
  else
    let d := d0.onDdr (chanOf r) (fun x => { x with powerDown := false })
    let tagged := d.regionTagged r
    let vs := if tagged then us.filter (fun u => decide (u.o < 0x06000000)) else us
    let d1 := if tagged then ((vs.map (fun u => u.o / 64)).eraseDups).foldl (fun x l => x.tagBurst r vs req l) d else d
    ((vs.map (fun u => u.o / 16)).eraseDups).foldl (fun x l => x.payBurst r vs req l) d1

/-- Word o of a region read, its bursts done (R270, R273, R276). -/
def Dev.ddrRead (d : Dev) (m : List Host.Cell) (r o : Nat) : Acc :=
  match d.regionState r with
  | some a => a
  | none =>
    if d.regionTagged r && decide (0x06000000 ≤ o) then .absent
    else if d.ddrPoisoned r o then .error 0#4
    else .word (d.ddrStored m r o)

/-- Whether a part covers all that a region stores of a word. -/
def Dev.ddrWhole (d : Dev) (r : Nat) (p : WordPart) : Bool := p.lanes == 0xF#4 && (p.tagWr || !d.regionTagged r)

/-- What a write of a part uses of a region: nothing for a tag write to a RAW region (R273). -/
def Dev.ddrUseOf (d : Dev) (r : Nat) (p : WordPart) (f tagF : Found) : List DdrUse :=
  if p.lanes = 0#4 ∧ d.regionTagged r = false then []
  else [{ o := p.addr.toNat, f := f, tagF := tagF, need := !d.ddrWhole r p }]

/-- A part of word o of a region written, its bursts done: ACK is a word of no meaning (R276 by the rules of R244; a tag write to a RAW
region has no effect, R273). -/
def Dev.ddrWrite (d : Dev) (r o : Nat) (p : WordPart) : Acc × Eff :=
  match d.regionState r with
  | some a => (a, (d, []))
  | none =>
    if d.regionTagged r && decide (0x06000000 ≤ o) then (.absent, (d, []))
    else if d.ddrPoisoned r o && !(p.lanes == 0#4 && !d.regionTagged r) then
      if d.ddrWhole r p then (.word wordZero, ((d.heal (ddrWordId r o)).heal (ddrTagId r o), d.ddrOps r o p)) else (.error 1#4, (d, []))
    else (.word wordZero, (d, d.ddrOps r o p))

/-- The carve-out of a region written whole: its bytes have good check bits (R274). -/
def Dev.healTags (d : Dev) (r : Nat) : Dev :=
  { d with poison := d.poison.filter (fun w =>
      !(decide (ddrTagId r 0 ≤ w) && decide (w < ddrTagId (r + 1) 0))
        && !(decide (ddrWordId r 0x06000000 ≤ w) && decide (w < ddrWordId r 0x07800000))) }

/-- The marks of a region whose attribute becomes RAW: a tag that cannot be read is then a byte of a payload word that cannot (R273, R276). -/
def Dev.tagsToWords (d : Dev) (r : Nat) : Dev :=
  { d with poison := (d.poison.map (fun w =>
      if ddrTagId r 0 ≤ w ∧ w < ddrTagId (r + 1) 0 then ddrWordId r (0x06000000 + (w - ddrTagId r 0) / 4) else w)).eraseDups }

/-! ### Code store (R257, R259, R260, R264) -/

/-- Whether a requester sees the reserved region (R260). -/
def seesReserved (req : ReqId) : Bool := req == ksReq || req == wsReq

/-- A word of the spare record's copies as Keystone reads it (R260, R261). -/
def Dev.recordWord (d : Dev) (m : List Host.Cell) (w : Nat) : Word :=
  if d.recLines.contains (w / 16) then Memory.code m w else
  let r := if w < 0x02034000 then d.spareA else d.spareB
  rawWord (Config.spareWord (2 * r.seq + (if r.good then 0 else 1)) (w % 0x4000))

/-- Whether reads of a line wait for a write (R264): of the line itself from step 2 to step 7, of every line of its bank while the bank writes. -/
def Dev.lineHeld (d : Dev) (line : Nat) : Bool :=
  let bank := fun l : Nat => (codeSlice (16 * l), codeBank (16 * l))
  d.ws.phase != .idle && (d.ws.line == line || (d.ws.phase == .writing && bank d.ws.line == bank line))

/-- Whether a read of a code word for a requester reads its line from the array now (R260, R264). -/
def Dev.readsLine (d : Dev) (req : ReqId) (w : Nat) : Bool :=
  isCode w && !(isReserved w && !seesReserved req) && !(decide (0x02030000 ≤ w) && decide (w < 0x02038000)) && !d.lineHeld (w / 16)
    && !(d.span (codeSlice w)).asleep

/-- The lines of code store that the words of one read lie in, each read from the array once (R259): finding 16 l + i is that of word i of the
l-th of them. -/
def Dev.codeOpen (d : Dev) (ws : List Nat) (f : Finds) (req : ReqId) : Dev :=
  let ls := ((ws.filter (d.readsLine req)).map (fun w => w / 16)).eraseDups
  ((List.range ls.length).zip ls).foldl (fun x e => x.readLine e.2 ((List.range 16).map (fun i => foundIn f (16 * e.1 + i)))) d

/-- A code word read for a requester other than a fill, its line read (R257, R259, R260, R264). -/
def Dev.codeRead (d : Dev) (m : List Host.Cell) (w : Nat) (req : ReqId) : Acc :=
  if isReserved w && !seesReserved req then .word wordZero
  else if d.lineHeld (w / 16) then .wait
  else if 0x02030000 ≤ w ∧ w < 0x02038000 then .word (d.recordWord m w)
  else if d.poisoned w then .error 0#4
  else .word (Memory.code m w)

/-! ### Any device word (R216, R236, R240) -/

/-- The domain of the centre node, or of a DDR5 controller, in which a device register stands, Keystone's own apart (R240, R298). -/
def centreDomain (w : Nat) : Option Nat :=
  if 0x08003000 ≤ w ∧ w < 0x08004000 then some domSequencer
  else if 0x08010000 ≤ w ∧ w < 0x08020000 then some domTimebase
  else if 0x08020000 ≤ w ∧ w < 0x08030000 then some domSensor
  else if 0x08030000 ≤ w ∧ w < 0x08040000 then some domCollector
  else if 0x08040000 ≤ w ∧ w < 0x08050000 then some domPower
  else if 0x08050000 ≤ w ∧ w < 0x08060000 then some domSecurity
  else if 0x08090000 ≤ w ∧ w < 0x08094000 then some (domDdr ((w - 0x08090000) / 0x1000))
  else none

/-- Whether the timing domain of a device word's target sleeps (R236), or its bent is out of service (R415). -/
def Dev.wordAsleep (d : Dev) (w : Nat) : Bool :=
  if isDeck w then (d.span ((w - 0x01000000) / 0x100000)).asleep
  else if isCode w then (d.span (codeSlice w)).asleep
  else if isBentSram w then d.bentStill ((w - 0x04000000) / 0x10000) || (d.span ((w - 0x04000000) / 0x100000)).asleep
  else if 0x08200000 ≤ w ∧ w < 0x08280000 then d.bentStill ((w - 0x08200000) / 0x1000) || (d.span ((w - 0x08200000) / 0x10000)).asleep
  else if 0x08100000 ≤ w ∧ w < 0x08180000 then (d.span ((w - 0x08100000) / 0x10000)).asleep
  else match centreDomain w with
    | some n => (d.xing n).hold
    | none => false

/-- A device word read for a requester: memory or a register (R240). Queue port words are operations and not reads (R283). -/
def Dev.wordRead (d : Dev) (m : List Host.Cell) (w : Nat) (f : Found) (req : ReqId) : Acc × Dev :=
  if d.wordAsleep w then (.absent, d)
  else if isCode w then (d.codeRead m w req, d)
  else if isDeck w || isBentSram w then
    match d.sramRead w f req with
    | (true, d') => (.word (Memory.word m w), d')
    | (false, d') => (.error 0#4, d')
  else if isDevReg w then (.word (d.regRead req w), d.regClear w)
  else (.absent, d)

end Sys2Proof.Machine
end

