-- ==== Sys2Proof/Machine/CodeStore.lean ====
section
/-! DEFINITION. The code-store write sequencer (spec 08_memories.md R257, R261, R263 to R267; 04_self_timed_pipeline.md R137). -/
namespace Sys2Proof.Machine

/-! ### The sequencer's operations -/

/-- The write sequencer changed by f. -/
def Dev.onWs (d : Dev) (f : WriteSeq → WriteSeq) : Dev := { d with ws := f d.ws }

/-- The words of a line sent to the bank's slice, as two WRs of the sequencer (R217, R221, R222; DESIGN CHOICE, log entry 138). -/
def Dev.wsSend (d : Dev) (a : Nat) (ws : List W32) : Dev :=
  (List.range 2).foldl (fun x h => x.issueTxn (fun id => { newTxn id wsReq 1#2 .wr (BitVec.ofNat 32 (a + 8 * h)) .sequencer with
    count := 8,
    parts := (List.range 8).map (fun i =>
      { addr := BitVec.ofNat 32 (a + 8 * h + i), lanes := 0xF#4, tagWr := false, word := { pay := ws.getD (8 * h + i) 0#32, tag := tagRaw } }) })) d

/-- The sequencer's words have reached the bank: it writes them (R264, step 3). -/
def Dev.wsArrived (d : Dev) : Dev :=
  if d.ws.phase == .sending && !d.txns.any (fun t => t.origin == .sequencer) then d.onWs (fun s => { s with phase := .writing }) else d

/-- A line write taken up by the sequencer (R264, step 2): refused in a bank that holds a bound paced image (R263). -/
def Dev.wsStart (d : Dev) (addr : W32) (erase : Bool) (words : List W32) : Dev :=
  let a := addr.toNat
  if !isCode a || a % 16 != 0 then d.onWs (fun s => { s with result := 3#3, tries := 0#4 })
  else if (d.span (codeSlice a)).pacedBank.getLsbD (codeBank a) then d.onWs (fun s => { s with result := 2#3, tries := 0#4 })
  else
    let ws := if erase then List.replicate 16 0xFFFFFFFF#32 else words
    (d.onWs (fun s => { s with phase := .sending, erase := erase, tries := 0#4, remap := false, line := a / 16, words := ws })).wsSend a ws

/-- The words of CST_WSBUF. -/
def WriteSeq.buffer (s : WriteSeq) : List W32 := (List.range 16).map (fun i => Tab.find 0#32 s.buf i)

/-- A write to CST_WSCMD (R267): Keystone alone, and only while the sequencer is idle. -/
def Dev.wsCommand (d : Dev) (req : ReqId) (op : Nat) : Dev :=
  if req != ksReq || d.ws.phase != .idle then d
  else if op = 1 then d.wsStart d.ws.addr false d.ws.buffer
  else if op = 2 then d.wsStart d.ws.addr true []
  else d

/-- Spare lines used in a bank of a slice. -/
def Dev.sparesUsed (d : Dev) (sl bank : Nat) : Nat := Tab.find 0 (d.span sl).bankSpares bank

/-- The memory changes of a line write. -/
def lineOps (line : Nat) : Nat → List W32 → List MemOp
  | _, [] => []
  | i, w :: r => .word (16 * line + i) 0xF#4 false { pay := w, tag := 0#8 } :: lineOps line (i + 1) r

/-- The words of a line with good check bits again. -/
def Dev.healLine (d : Dev) (line : Nat) : Dev := { d with poison := d.poison.filter (fun w => w / 16 != line) }

/-- A write of a line of code store noted: how often it has been written, and that it is the latest (R482). -/
def Dev.stampLine (d : Dev) (line : Nat) : Dev :=
  { d with lineWrites := d.lineWrites + 1, wear := Tab.put d.wear line ((Tab.find (0, 0) d.wear line).1 + 1, d.lineWrites + 1) }

/-- A line of the spare record's copies written by itself: it reads as written, and its copy's digest matches no more (R260, R261). -/
def Dev.overwriteRecord (d : Dev) (line : Nat) : Dev :=
  let bad := fun (r : SpareRec) => { r with good := false }
  if line < 0x203000 ∨ 0x203800 ≤ line then d
  else
    let d1 := { d with recLines := if d.recLines.contains line then d.recLines else d.recLines ++ [line] }
    if line < 0x203400 then { d1 with spareA := bad d1.spareA } else { d1 with spareB := bad d1.spareB }

/-- A write attempt whose line reads back as the buffer (R264, step 4): the line holds the new words, and invalidation follows. -/
def Dev.wsMatched (d : Dev) : Eff :=
  let s := d.ws
  ((((d.healLine s.line).stampLine s.line).overwriteRecord s.line).onWs (fun x => { x with phase := .invalidating, tries := x.tries + 1#4 }),
    lineOps s.line 0 s.words)

/-- A line gone from every line cache, line buffer and vector line register (R137, R264 step 6); a core that runs in it requests it again. -/
def Dev.invalidateLine (d : Dev) (line : Nat) : Dev :=
  let keep := fun l : List (Nat × BitVec 16) => l.filter (fun e => e.1 != line)
  let d1 : Dev := { d with
    bents := d.bents.map (fun e => (e.1, { e.2 with lineCache := keep e.2.lineCache }))
    cores := d.cores.map (fun e => (e.1, { e.2 with lineBuf := keep e.2.lineBuf, vecLines := keep e.2.vecLines })) }
  d1.cores.foldl (fun x e => if e.2.status == .running && !e.2.psr.paced && lineOf e.2.pc == line then x.selectLine e.1 line else x) d1

/-- What a line reads as whose write does not end well: old, new or poisoned, a free choice (R265; of a write that ends with RESULT 4 the
spec states nothing, DESIGN CHOICE, log entry 36). -/
def Dev.cutLine (d : Dev) : Eff :=
  let s := d.ws
  if s.phase == .writing then
    let c := d.freshNat 3
    if c.1 = 0 then (c.2, [])
    else if c.1 = 1 then (c.2.healLine s.line, lineOps s.line 0 (s.words.take 16))
    else ((List.range 16).foldl (fun x i => x.poisonWord (16 * s.line + i)) c.2, [])
  else (d, [])

/-- A line write that ends with RESULT 4; a line that it remapped is recorded (R266, R267). -/
def Dev.wsFail (d : Dev) : Eff :=
  let e := d.cutLine
  let d1 := (e.1.invalidateLine d.ws.line).onWs (fun x => { x with phase := .idle, result := 4#3 })
  (if d.ws.remap then d1.recordSpares else d1, e.2)

/-- A write attempt that reads back otherwise (R264, step 5; R266): repeated up to three tries, then remapped to a free spare line of the
bank for three more; with no spare free, or after the sixth try, it ends with RESULT 4 (DEDUCED, log entry 35). -/
def Dev.wsMismatch (d : Dev) : Eff :=
  let s := d.ws
  let w := 16 * s.line
  let sl := codeSlice w
  let bank := codeBank w
  let n := s.tries.toNat + 1
  let d1 := d.onWs (fun x => { x with tries := x.tries + 1#4 })
  if n = 3 ∧ s.remap = false then
    if 256 ≤ d.sparesUsed sl bank then
      let e := d1.wsFail
      (e.1.raise 548 sl (BitVec.ofNat 16 bank), e.2)
    else
      ((d1.onWs (fun x => { x with remap := true, remaps := x.remaps ++ [x.line] })).onSpan sl (fun y =>
        { y with bankSpares := Tab.put y.bankSpares bank (d.sparesUsed sl bank + 1), cstSpares := y.cstSpares - 1#16 }), [])
  else if 6 ≤ n then d1.wsFail
  else (d1, [])

/-- Step 7 of R264: the sequencer is idle and RESULT is set; a remap is recorded (R261, R266). -/
def Dev.wsDone (d : Dev) : Dev :=
  let d1 := (d.invalidateLine d.ws.line).onWs (fun s => { s with phase := .idle, result := if s.remap then 1#3 else 0#3 })
  if d.ws.remap then d1.recordSpares else d1

/-! ### Images copied by Keystone (R264, R354, R367, R455) -/

/-- Lines of a copy. -/
def Copy.lines (c : Copy) : Nat := (c.len + 63) / 64

/-- The line that a copy writes next. -/
def Copy.line (c : Copy) : Nat := c.dest / 16 + c.next

/-- The words of a copy's next line: the staged words that its reads have brought; past its length FFFF_FFFFh (R455). -/
def Copy.words (c : Copy) : List W32 :=
  let ws := c.asked.flatMap (fun i => Tab.find [] c.got i)
  (List.range 16).map (fun i => ((ws[i]?).map (fun w => w.pay)).getD 0xFFFFFFFF#32)

/-- Whether every staged word of a copy's next line has come. -/
def Copy.ready (c : Copy) : Bool := !c.asked.isEmpty && c.asked.all (fun i => c.got.any (fun e => e.1 == i))

/-- The staged words left of a copy from its next line on. -/
def Copy.left (c : Copy) : Nat := min 16 ((c.len + 3) / 4 - 16 * c.next)

/-- The reads by which Keystone fetches the staged words of a copy's next line, in class C1 (R222). -/
def Dev.askCopy (d : Dev) (c : Copy) : Dev :=
  let runs := (List.range 2).filterMap (fun h => if 8 * h < c.left then some (8 * h, min 8 (c.left - 8 * h)) else none)
  let ids := (List.range runs.length).map (fun i => d.nextId + i)
  let d1 := d.onKs (fun k => { k with copies := k.copies.map (fun x => if x = c then { x with asked := ids, got := [] } else x) })
  runs.foldl (fun x r => x.issueTxn (fun id =>
    { newTxn id ksReq 1#2 .rd (BitVec.ofNat 32 (c.stage + 16 * c.next + r.1)) (.copy c.src) with count := r.2 })) d1

/-- Whether a job is the one behind a copy. -/
def Job.copies (j : Job) (c : Copy) : Bool :=
  j.src == c.src && (match j.kind with
    | .loopLoad _ | .secImage _ _ _ => true
    | .modeSet _ | .loopStart _ _ | .loopStop _ _ | .migrate _ _ _ _ | .undo _ | .update _ _ | .viaEnum | .remote _ | .spareSwap _ _ _ _ => false)

/-- A copy that ends unfinished: its command ends with a result, and its lines are free again (R354). -/
def Dev.dropCopy (d : Dev) (c : Copy) (st det : BitVec 16) : Dev :=
  (d.onKs (fun k => { k with copies := k.copies.filter (fun x => x != c) })).endJobs (fun j => j.copies c) st det

/-- The next line of a copy, whose words have come, given to the sequencer (R264 step 1); a bank that has come to hold a bound paced image ends
the command (R263). -/
def Dev.copyLine (d : Dev) (c : Copy) : Dev :=
  let a := BitVec.ofNat 32 (c.dest + 16 * c.next)
  let ws := c.words
  let d1 := (d.onWs (fun s => { s with buf := (List.range ws.length).zip ws, addr := a })).wsStart a false ws
  if d1.ws.phase == .idle then d1.dropCopy c stRefCap 1#16 else d1

/-! ### The security engine's reads (R466) -/

/-- The security engine's requester ID (R221). -/
def secReq : ReqId := 0x805#12

/-- The engine reads on while it has a free entry and words are left (R235, R466); the first argument bounds the reads sent. -/
def Dev.engineReadN : Nat → Dev → Dev
  | 0, d => d
  | n + 1, d =>
    if d.sec.rdBad.isSome ∨ d.entryFree secReq = false then d
    else match d.sec.todo with
      | [] => d
      | (a, k) :: r =>
        Dev.engineReadN n (({ d with sec := { d.sec with todo := if k ≤ 8 then r else (a + 8, k - 8) :: r } } : Dev).issueTxn (fun id =>
          { newTxn id secReq 1#2 .rd (BitVec.ofNat 32 a) .engine with count := min 8 k }))

/-- The engine sends what it can. -/
def Dev.engineRead (d : Dev) : Dev := d.engineReadN 8

/-- The engine begins an operation on runs of code words, for the check of a copy or for a command (R466). -/
def Dev.engineStart (d : Dev) (runs : List (Nat × Nat)) (subject : Option CmdSrc) : Dev :=
  ({ d with sec := { d.sec with busy := true, todo := runs, rdBad := none, subject := subject } } : Dev).engineRead

/-- Whether the engine has read what it began to read, or met what keeps it from reading on. -/
def Dev.engineDone (d : Dev) : Bool := (d.sec.rdBad.isSome || d.sec.todo.isEmpty) && !d.txns.any (fun t => t.origin == .engine)

/-- The engine free again: its operation has ended, or was cut off, and no reply to it matters any more. -/
def Dev.engineFree (d : Dev) : Dev :=
  { d with
    sec := { d.sec with busy := false, todo := [], rdBad := none, subject := none },
    txns := d.txns.map (fun t => if t.origin == .engine then { t with origin := .discard } else t) }

/-- The copy at the head goes on: the staged words of its next line are read; once they have come and the sequencer is idle the line is written;
after the last the security engine reads the image (R264, R265, R453). -/
def Dev.pumpCopies (d : Dev) : Nat → Dev
  | 0 => d
  | n + 1 =>
    if d.ws.phase != .idle then d
    else match d.ks.copies with
      | [] => d
      | c :: _ =>
        if c.next < c.lines then
          (if c.asked.isEmpty then d.askCopy c
          else if c.ready then (d.copyLine c).pumpCopies n
          else d)
        else if d.sec.busy then d
        else d.engineStart [(c.dest, (c.len + 3) / 4)] none

/-- Every copy that can go on does. -/
def Dev.copyOn (d : Dev) : Dev := d.pumpCopies (d.ks.copies.length + 1)

/-- The response to a read of staged words: its words, and whether it was delayed (R231). -/
def Dev.gotStaged (d : Dev) (src : CmdSrc) (id : Nat) (late : Bool) (ws : List Word) : Dev :=
  (d.onKs (fun k => { k with
    copies := k.copies.map (fun c => if c.src == src && c.asked.contains id then { c with got := Tab.put c.got id ws } else c),
    jobs := k.jobs.map (fun j => if late && k.copies.any (fun c => c.asked.contains id && j.copies c) then { j with late := j.late + 1 } else j) })).copyOn

/-- A staged word that cannot be read, or that no target answers for, ends the command (R345). -/
def Dev.lostStaged (d : Dev) (id src : Nat) : Dev :=
  match d.ks.copies.find? (fun c => c.asked.contains id) with
  | some c => (d.dropCopy c stFaultActive (BitVec.ofNat 16 src)).copyOn
  | none => d

/-- A line that the sequencer has written counts for the copy that it belongs to. -/
def Dev.countLine (d : Dev) (line : Nat) : Dev :=
  d.onKs (fun k => { k with copies := match k.copies with
    | [] => []
    | c :: r => if c.line = line ∧ c.next < c.lines then { c with next := c.next + 1, asked := [], got := [] } :: r else c :: r })

/-- A line write that failed ends the command that wrote the line with FAULT_ACTIVE naming CST_SPAREOUT (R266). -/
def Dev.lineFailed (d : Dev) : Dev :=
  match d.ks.copies with
  | [] => d
  | c :: _ => if d.ws.phase == .idle && c.line == d.ws.line && decide (c.next < c.lines) then (d.dropCopy c stFaultActive 548#16).copyOn else d

/-! ### The rows -/

/-- CST_WRITE: a CST_WSCMD write with OP 01b (R264, R267). -/
def execCstWrite (req : ReqId) (s : State) : Host.Outcome State Fault Refusal := s.keep (s.dev.wsCommand req 1)

/-- CST_ERASE: a CST_WSCMD write with OP 10b (R264, R267). -/
def execCstErase (req : ReqId) (s : State) : Host.Outcome State Fault Refusal := s.keep (s.dev.wsCommand req 2)

/-- CST_BANK_WRITE_DONE (R264, steps 3 to 5). -/
def execCstBankWriteDone (matched : Bool) (s : State) : Host.Outcome State Fault Refusal :=
  let d := s.dev
  s.commit (if d.ws.phase != .writing then (d, [])
    else if matched then d.wsMatched
    else (d.wsMismatch.1.lineFailed, d.wsMismatch.2))

/-- CST_INVALIDATE_DONE (R264, steps 6 and 7): the copy that the line belongs to goes on. -/
def execCstInvalidateDone (s : State) : Host.Outcome State Fault Refusal :=
  let d := s.dev
  s.keep (if d.ws.phase == .invalidating then (d.wsDone.countLine d.ws.line).copyOn else d)

end Sys2Proof.Machine
end

