-- ==== Sys2Proof/Machine/Living.lean ====
section
/-! DEFINITION. The bent switch registers as Keystone uses them (spec 17_living_service.md R468 to R470, R476, R486). -/
namespace Sys2Proof.Machine

/-- Whether a source's state at arming is itself a switch point (R468). -/
def SrcState.switchNow : SrcState → Bool
  | .idle | .pending | .held => true
  | .offered _ | .entering _ | .claimed _ => false

/-- Whether a source can return to PENDING without a claim (R468). -/
def SrcState.mayReturn : SrcState → Bool
  | .offered _ | .entering _ => true
  | .idle | .pending | .held | .claimed _ => false

/-- Keystone arms the switch entry of slot i (R468): at once applied when the source is IDLE, PENDING or HELD. -/
def Dev.armSwitch (d : Dev) (b i : Nat) (kind : Bool) (src : SrcId) (vec : W32) : Dev :=
  let w : Switch := { armed := true, since := d.clk, back := (d.source b src.toNat).st.mayReturn, kind := kind, src := src, vec := vec }
  let d1 := d.onBent b (fun x => { x with sw := Tab.put x.sw i w })
  if src.toNat < 192 && (d.source b src.toNat).st.switchNow then d1.applySwitch b i else d1

/-- LIV_SWCTL written with ARMED 1 (R468): Keystone alone (R486). -/
def execLivSwctlArm (req : ReqId) (b : BentId) (slot : SlotId) (kind : Bool) (src : SrcId) (vec : W32) (s : State) :
    Host.Outcome State Fault Refusal :=
  s.commit ((if req = ksReq then s.dev.armSwitch b.toNat slot.toNat kind src vec else s.dev).settle s.mem)

/-- LIV_SWCTL written with ARMED 0 (R470): Keystone alone. A command behind the entry ends as one whose switch point did not come in time
(DEDUCED, log entry 28). -/
def execLivSwctlDisarm (req : ReqId) (b : BentId) (slot : SlotId) (s : State) : Host.Outcome State Fault Refusal :=
  s.commit ((if req = ksReq then s.dev.disarm b.toNat slot.toNat stBusyPort 3#16 else s.dev).settle s.mem)

/-- Whether the switch entry of slot i has waited 2 × PERIOD + 10 ms (R470). -/
def Dev.switchLate (d : Dev) (b i : Nat) : Bool :=
  let w : Switch := Tab.find {} (d.bent b).sw i
  w.armed && (match d.loopOf (coreOf b i) w.src.toNat with
    | some l => decide (w.since + 64 * l.period.toNat + 8000000 ≤ d.clk)
    | none => false)

/-- SWITCH_TIMEOUT (R470): the switch is disarmed, and its command ends with BUSY_PORT 0003h. -/
def execSwitchTimeout (b : BentId) (slot : SlotId) (s : State) : Host.Outcome State Fault Refusal :=
  let d := s.dev
  s.commit ((if d.switchLate b.toNat slot.toNat then d.disarm b.toNat slot.toNat stBusyPort 3#16 else d).settle s.mem)

/-- LIV_LATCH written (R476): the latch of a latched source is set; sources 88 to 95 are never asserted (R207). -/
def Dev.livLatch (d : Dev) (b n : Nat) : Dev := if isLatchedSrc n && !(decide (88 ≤ n) && decide (n < 96)) then d.setLatch b n else d

/-- LIV_LATCH: Keystone alone (R486). -/
def execLivLatch (req : ReqId) (b : BentId) (src : SrcId) (s : State) : Host.Outcome State Fault Refusal :=
  s.keep (if req = ksReq then s.dev.livLatch b.toNat src.toNat else s.dev)

end Sys2Proof.Machine
end

