-- ==== Sys2Proof/Machine/Scr.lean ====
section
/-! DEFINITION. Deadlines, detectors, the control law and the package budget (spec 05_speed_voltage_scribe.md R163 to R189). -/
namespace Sys2Proof.Machine

/-- A fast raise where the Scribe moves the bent's code (R176). -/
def Dev.fastRaise (d : Dev) (b n : Nat) : Dev := if d.scrLive b then d.scrFast b n else d

/-! ### DEADLINE_MISS (R169, R170) -/

/-- Whether an iteration of a slack entry has passed its deadline with the boundary not yet reached, and has not been counted (R169). -/
def Dev.isMiss (d : Dev) (b : Nat) (e : Slack) : Bool :=
  e.valid && e.deadline != 0#32 && !e.missed &&
    (match e.opened.orElse (fun _ => (d.source b e.source.toNat).since) with
    | some stamp => decide (e.deadline.toNat < unitsUp ((d.tbAt b).toNat - stamp.toNat))
    | none => false)

/-- A miss counted (R170): the bent's source, a fast raise of 10 codes, SAFETY_MISS for a safety loop (R446). -/
def Dev.deadlineMiss (d : Dev) (b i k : Nat) : Dev :=
  let e := (d.bent b).scr.entry i k
  let st := (d.core (coreOf b i)).status
  if d.bentStill b || (e.opened.isSome && st != .waiting && st != .running) || !d.isMiss b e then d
  else
    let d1 := d.onScr b (fun a => a.onEntry i k (fun x => { x with miss := satInc x.miss, missed := true }))
    let d2 := (d1.raise (128 + b) b (BitVec.ofNat 16 (16 * k + i))).fastRaise b 10
    if e.safety then d2.raise 752 b (BitVec.ofNat 16 i) else d2

/-- DEADLINE_MISS (R170). -/
def execDeadlineMiss (b : BentId) (slot : SlotId) (entry : BitVec 2) (s : State) : Host.Outcome State Fault Refusal :=
  s.keep (s.dev.deadlineMiss b.toNat slot.toNat entry.toNat)

/-! ### NEAR_MISS, TIMING_LATE (R171 to R173, R187) -/

/-- The present matched-delay code of a stage. -/
def Scribe.delay (a : Scribe) : Stage → BitVec 4
  | .ex => a.exDly
  | .me => a.meDly

/-- The matched delay of a stage lengthened by n codes, up to 15. -/
def Scribe.lengthen (a : Scribe) (n : Nat) : Stage → Scribe
  | .ex => { a with exDly := BitVec.ofNat 4 (min 15 (a.exDly.toNat + n)) }
  | .me => { a with meDly := BitVec.ofNat 4 (min 15 (a.meDly.toNat + n)) }

/-- A detector of physical slot p fired in this period (R173, R188). -/
def Scribe.noteFiring (a : Scribe) (p : Nat) : Scribe := { a with quiet := 0, windowNow := a.windowNow ++ [(p, 1)] }

/-- A near miss (R171, R187). -/
def Dev.nearMiss (d : Dev) (b p : Nat) (st : Stage) : Dev :=
  if 17 ≤ p || d.bentStill b then d
  else
    let a := (d.bent b).scr
    let d1 := (d.onScr b (fun x => { x.noteFiring p with near := satInc x.near })).strobe (0x880 + 8 * b + (match st with | .ex => 0 | .me => 1))
    if d.scrLive b && decide (a.presentCode < 100) && decide (a.request.toNat ≤ a.grant.toNat) then d1.scrFast b 1
    else if a.delay st != 15#4 then d1.onScr b (fun x => x.lengthen 1 st)
    else if 100 ≤ a.actual.toNat then d1.goUnable b
    else d1

/-- NEAR_MISS (R171). -/
def execNearMiss (b : BentId) (pslot : BitVec 5) (stage : Stage) (s : State) : Host.Outcome State Fault Refusal :=
  s.keep (s.dev.nearMiss b.toNat pslot.toNat stage)

/-- A late arrival (R172). -/
def Dev.timingLate (d : Dev) (b p : Nat) (st : Stage) : Dev :=
  if 17 ≤ p || d.bentStill b then d
  else ((d.onScr b (fun x => ({ x.noteFiring p with late := satInc x.late }).lengthen 2 st)).strobe (0x882 + 8 * b)).raise 512 b 0#16

/-- TIMING_LATE (R172). -/
def execTimingLate (b : BentId) (pslot : BitVec 5) (stage : Stage) (s : State) : Host.Outcome State Fault Refusal :=
  s.keep (s.dev.timingLate b.toNat pslot.toNat stage)

/-! ### SCRIBE_CONTROL_PERIOD (R163 to R165, R169, R173 to R175, R187, R189) -/

/-- The temperature the Scribe uses for a bent, in 1/16 °C: the hottest valid sensor of its span, else 105 °C (R165). -/
def Dev.scrTemp (d : Dev) (b : Nat) : Int :=
  let ts := (List.range 4).filterMap (fun j =>
    let t := Tab.find (false, 0#16) d.temps (4 * spanOf b + j)
    if t.1 then some t.2.toInt else none)
  match ts with
  | [] => 1680
  | t :: r => r.foldl max t

/-- AGEING as the model of R165 infers it from K and a temperature, with 24 more fraction bits (DEDUCED, log entry 21). -/
def inferAge (k : BitVec 16) (t : Int) : Nat := (k.toNat * 160000 * 2 ^ 24) / (160000 - 9 * (t - 800)).toNat

/-- AGEING moved 1/1,024 of the way to a value (R165). -/
def Scribe.ageToward (a : Scribe) (v : Nat) : Scribe :=
  { a with ageing := BitVec.ofInt 40 ((a.ageing.toNat : Int) + ((v : Int) - a.ageing.toNat).fdiv 1024) }

/-- AGEING as SCR_COND shows it. -/
def Scribe.shownAge (a : Scribe) : BitVec 16 := a.ageing.extractLsb' 24 16

/-- AGEING after a measurement; a change of what SCR_COND shows enters the spare record (R190, R261), and the notice is raised once
(R165, R189). -/
def Dev.scrAge (d : Dev) (b : Nat) : Dev :=
  let a := (d.bent b).scr
  if !a.ageingKnown then d
  else
    let d0 := d.onScr b (fun x => x.ageToward (inferAge x.k (d.scrTemp b)))
    let d1 := if (d0.bent b).scr.shownAge != a.shownAge then d0.recordSpares else d0
    if !a.ageNoticed && decide ((d1.bent b).scr.ageing.toNat / 2 ^ 24 < 0x7A3D) then
      (d1.onScr b (fun x => { x with ageNoticed := true })).raise 515 b 0#16
    else d1

/-- Quiet periods counted; at 16 each lengthened delay shortens by one code (R173). -/
def Scribe.shorten (a : Scribe) : Scribe :=
  let q := if a.windowNow.isEmpty then a.quiet + 1 else 0
  let a1 := { a with quiet := q, window := (a.windowNow :: a.window).take 16, windowNow := [] }
  if q < 16 then a1
  else { a1 with quiet := 0
                 exDly := if a.exGrade.toNat < a.exDly.toNat then a.exDly - 1#4 else a.exDly
                 meDly := if a.meGrade.toNat < a.meDly.toNat then a.meDly - 1#4 else a.meDly }

/-- A worst utilisation: worst elapsed time over deadline, and the slot and entry it was found at. -/
structure Util where
  num : Nat
  den : Nat
  slot : Nat
  entry : Nat

/-- The worst utilisation of the unpaced deadline loops with an iteration in the period (R174); the first of equal ones (DEDUCED, log entry 26). -/
def Scribe.worstUtil (a : Scribe) : Option Util :=
  (List.range 64).foldl (fun best n =>
    let e := a.entry (n / 4) (n % 4)
    if e.valid && !e.paced && e.accRan && e.deadline != 0#32 then
      let u : Util := { num := e.accWorst.toNat, den := e.deadline.toNat, slot := n / 4, entry := n % 4 }
      match best with
      | none => some u
      | some v => if v.num * u.den < u.num * v.den then some u else some v
    else best) none

/-- The slack entries at the end of a period (R169). -/
def Scribe.closePeriod (a : Scribe) : Scribe :=
  { a with slack := a.slack.map (fun e =>
      (e.1, { e.2 with worst := if e.2.accRan then e.2.accWorst else 0#32, accWorst := 0#32, accRan := false })) }

/-- SCR_UTIL after a period (R190; DEDUCED, log entry 26); after one in which no unpaced deadline loop ran, SLOT and ENTRY keep what they showed
(DESIGN CHOICE, log entry 131). -/
def Scribe.putUtil (a : Scribe) (u : Option Util) : Scribe :=
  match u with
  | none => { a with utilU := 0#16 }
  | some v => { a with utilU := BitVec.ofNat 16 (min 0xFFFF (v.num * 32768 / v.den)), utilSlot := BitVec.ofNat 4 v.slot,
                       utilEntry := BitVec.ofNat 2 v.entry }

/-- Whether code c meets everything the law requires (R174, R175, R177). -/
def Scribe.meets (a : Scribe) (u : Option Util) (rate : Option (BitVec 3)) (c : Nat) : Bool :=
  (match u with
    | none => true
    | some v => decide (a.pred a.actual.toNat * v.num * (256 + a.margin.toNat) ≤ a.pred c * v.den * 256))
  && (match rate with
    | none => true
    | some r => a.pacedMet r c)
  && (a.policy != 1#2 || decide (a.pred a.fixed.toNat ≤ a.pred c))

/-- The lowest code from the floor to 100 that meets the law, 101 if none (R174). -/
def Scribe.lawCode (a : Scribe) (u : Option Util) (rate : Option (BitVec 3)) : Nat :=
  ((List.range 101).find? (fun c => decide (a.floor.toNat ≤ c) && a.meets u rate c)).getD 101

/-- The requests of the control law (R174, R175, R179, R187). `current` of R174 is the monitored code (DEDUCED, log entry 100). While lowerings are
held back a request that still waits or a code being slewed to is not lowered either. -/
def Dev.controlLaw (d : Dev) (b : Nat) (u : Option Util) : Dev :=
  let a := (d.bent b).scr
  let rate := (d.bent b).pace.map (·.rate)
  let raw := a.lawCode u rate
  let overfull := decide (100 < raw)
  let cur := a.actual.toNat
  let idle := u.isNone && rate.isNone && a.policy != 1#2 && a.slack.any (fun e => e.2.valid)
  let c := if idle then cur else min 100 raw
  let streak := if overfull && !a.held then a.unableStreak + 1 else 0
  let ok := if overfull then 0 else a.inRange + 1
  let d1 := d.onScr b (fun x => { x with
    target := BitVec.ofNat 7 c, unableStreak := streak, inRange := ok, startHold := x.startHold - 1, noLower := x.noLower - 1 })
  let d2 := if a.unable then (if 16 ≤ ok then d1.clearUnable b else d1) else if 4 ≤ streak then d1.goUnable b else d1
  if (d2.bent b).scr.unable then (if (d2.bent b).scr.request.toNat < 100 then d2.scrAsk b 100 else d2)
  else if cur < c then d2.scrAsk b (if a.startHold = 0 ∧ a.noLower = 0 then c else max c a.request.toNat)
  else if c + 2 ≤ cur ∧ a.startHold = 0 ∧ a.noLower = 0 then d2.scrAsk b (max c (cur - 10))
  else d2

/-- Whether a monitored code stands more than 3 codes from the grant (R186). -/
def Scribe.strays (a : Scribe) (code : Nat) : Bool := decide (a.grant.toNat + 3 < code) || decide (code + 3 < a.grant.toNat)

/-- One control period of a bent: the voltage monitor's code and the process monitor's count, the meters, the law (R163, R174). While the
regulator slews there is no gate, and K and AGEING stay (R163). The delays shorten before the law of the same period (DEDUCED, log
entry 103). -/
def Dev.controlPeriod (d : Dev) (b : Nat) (actual : BitVec 7) (count : BitVec 16) : Dev :=
  if 100 < actual.toNat ∨ d.bentStill b = true then d
  else
    let d0 := d.onScr b (fun a => { a with actual := actual, strayed := a.strayed && a.strays actual.toNat })
    let d1 := if (d.bent b).scr.slew then d0 else (d0.scrMeasure b actual.toNat count).scrAge b
    let u := (d1.bent b).scr.worstUtil
    let d2 := d1.onScr b (fun a => (a.shorten.closePeriod).putUtil u)
    if d2.scrLive b then d2.controlLaw b u else d2

/-- SCRIBE_CONTROL_PERIOD (R174). -/
def execScribeControlPeriod (b : BentId) (actual : BitVec 7) (count : BitVec 16) (s : State) : Host.Outcome State Fault Refusal :=
  s.keep (s.dev.controlPeriod b.toNat actual count)

/-! ### BUDGET_EVALUATION (R180 to R185, R423) -/

/-- The estimate of a bent's power at code c, in µW (R182; rounded down, DEDUCED, log entry 26). -/
def Scribe.estAt (a : Scribe) (c : Nat) : Nat :=
  a.pest.toNat * 1000 * (100 + c) ^ 2 * a.pred c / ((100 + a.actual.toNat) ^ 2 * a.pred a.actual.toNat)

/-- The extra cost of a bent above its floor at a code. -/
def Scribe.extra (a : Scribe) (c : Nat) : Int := (a.estAt c : Int) - a.estAt a.floor.toNat

/-- The grant of a bent's request under a common cap, none where its tier's requests all fit (R182). -/
def Scribe.capped (a : Scribe) : Option Nat → Nat
  | none => a.request.toNat
  | some x => max a.floor.toNat (min a.request.toNat x)

/-- The extra cost of the bents of a tier at codes that f gives. -/
def Dev.tierCost (d : Dev) (bs : List Nat) (f : Scribe → Nat) : Int :=
  bs.foldl (fun n b => n + (d.bent b).scr.extra (f (d.bent b).scr)) 0

/-- The common cap of a tier: none where all its requests fit what is available, else the highest code that fits (R182). -/
def Dev.tierCap (d : Dev) (bs : List Nat) (avail : Int) : Option Nat :=
  if d.tierCost bs (fun a => a.request.toNat) ≤ avail then none
  else some ((((List.range 101).reverse).find? (fun x => decide (d.tierCost bs (fun a => min a.request.toNat x) ≤ avail))).getD 0)

/-- The grant of one bent at an evaluation (R183, R184; none before the first calibration and in TEST, R161, R416): a bent granted less than it
requests is held; BUDGET_SHORT is raised when a tier-1 bent becomes held, or, for every tier-0 bent granted above its floor, when tier 0 alone passes
the ceiling (R438: on the rise; which bents of tier 0 is a DESIGN CHOICE, log entry 104). -/
def Dev.evaluateBent (d : Dev) (b tier code : Nat) (overfull : Bool) : Dev :=
  let a := (d.bent b).scr
  let held := decide (code < a.request.toNat)
  let short := (tier == 1 && held) || (tier == 0 && overfull && decide (a.floor.toNat < code))
  let d1 := (if d.scrLive b then d.giveGrant b code held else d).onScr b (fun x => { x with
    tier := BitVec.ofNat 2 tier, hcount := if held then satInc x.hcount else x.hcount, short := short })
  let d2 := d1.onSpan (spanOf b) (fun s => { s with spanHeld := setBit s.spanHeld (b % 16) held })
  if short && !a.short then d2.raise 516 b (BitVec.ofNat 16 tier) else d2

/-- The grants of one tier with the cap found for it. -/
def Dev.evaluateTier (d : Dev) (bs : List Nat) (tier : Nat) (cap : Option Nat) (overfull : Bool) : Dev :=
  bs.foldl (fun x b => x.evaluateBent b tier ((d.bent b).scr.capped cap) overfull) d

/-- The estimates of bents taken over (R182). -/
def Dev.putEstimates (d : Dev) (fixed : Nat) (pest : List (BentId × BitVec 16)) : Dev :=
  let d1 := pest.foldl (fun x e => x.onScr e.1.toNat (fun a => { a with pest := e.2 })) d
  let sum := (List.range 128).foldl (fun n b => n + (d1.bent b).scr.pest.toNat) 0
  d1.onPwr (fun p => { p with pest := BitVec.ofNat 32 (fixed + sum) })

/-- One budget evaluation (R182). -/
def Dev.budgetEvaluation (d0 : Dev) (fixed : Nat) (pest : List (BentId × BitVec 16)) : Dev :=
  if 2 ≤ d0.pwr.pstate.toNat then d0
  else
    let d := (d0.putEstimates fixed pest).onXing domPower (fun x => { x with lines := [] })
    let bents := (List.range 128).filter (fun b => !d.mode.bentOut.getLsbD b)
    let t0 := bents.filter (fun b => d.tierOf b == 0)
    let t1 := bents.filter (fun b => d.tierOf b == 1)
    let t2 := bents.filter (fun b => d.tierOf b == 2)
    let floors := bents.foldl (fun n b => n + (d.bent b).scr.estAt (d.bent b).scr.floor.toNat) 0
    let a0 : Int := (d.pwr.ceil.toNat * 1000000 : Int) - fixed * 1000 - floors - d.tierCost t0 (fun a => a.request.toNat)
    let c1 := d.tierCap t1 a0
    let a1 := a0 - d.tierCost t1 (fun a => a.capped c1)
    let c2 := d.tierCap t2 a1
    let overfull := decide (a0 < 0)
    ((d.evaluateTier t0 0 none overfull).evaluateTier t1 1 c1 overfull).evaluateTier t2 2 c2 overfull

/-- BUDGET_EVALUATION (R182). -/
def execBudgetEvaluation (fixed : Nat) (pest : List (BentId × BitVec 16)) (s : State) : Host.Outcome State Fault Refusal :=
  s.keep (s.dev.budgetEvaluation fixed pest)

/-! ### REG_FAULT, REGULATOR_SLEW_DONE (R161, R186) -/

/-- REG_FAULT (R186, R187): the monitored code stands more than 3 codes from the grant after the slew; a deviation that stands raises nothing
more (R438). -/
def execRegFault (b : BentId) (code : BitVec 7) (s : State) : Host.Outcome State Fault Refusal :=
  let d := s.dev
  let a := (d.bent b.toNat).scr
  s.keep (if a.slew || d.bentStill b.toNat || !a.strays code.toNat then d
    else
      let d1 := d.onScr b.toNat (fun x => { x with actual := code, strayed := true })
      (if a.strayed then d1 else d1.raise 514 b.toNat (code.setWidth 16)).goUnable b.toNat)

/-- REGULATOR_SLEW_DONE (R161): the regulator has reached the granted code, and the monitor reports that code (DESIGN CHOICE within the
errors of R161 and R163, log entry 101). -/
def execRegulatorSlewDone (b : BentId) (s : State) : Host.Outcome State Fault Refusal :=
  let d := s.dev
  s.keep (if (d.bent b.toNat).scr.slew then d.onScr b.toNat (fun a => { a with slew := false, actual := a.grant, strayed := false }) else d)

/-! ### SENSOR_SAMPLE (R165, R432, R437) -/

/-- The sensors of a span, those not yet sampled left out. -/
def spanTemps (t : Tab (Bool × BitVec 16)) (s : Nat) : List (Nat × Bool × BitVec 16) :=
  t.filter (fun e => decide (4 * s ≤ e.1) && decide (e.1 < 4 * s + 4))

/-- The first valid sensor of a span above a temperature, in 1/16 °C. -/
def hotSensor (t : Tab (Bool × BitVec 16)) (s : Nat) (limit : Int) : Option Nat :=
  ((spanTemps t s).find? (fun e => e.2.1 && decide (limit < e.2.2.toInt))).map (·.1)

/-- Whether a span that has been sampled has no valid sensor. -/
def spanBlind (t : Tab (Bool × BitVec 16)) (s : Nat) : Bool := !(spanTemps t s).isEmpty && (spanTemps t s).all (fun e => !e.2.1)

/-- The causes of a span that have risen with a sample (R438): SNS_FAULT, whose detail names the span's lowest sensor (DESIGN CHOICE, log
entry 102), PWR_THERMAL above 105 °C, PWR_OVERTEMP above 115 °C. -/
def Dev.senseSpan (d : Dev) (old : Tab (Bool × BitVec 16)) (s : Nat) : Dev :=
  let d1 := if spanBlind d.temps s && !spanBlind old s then d.raise 517 s (BitVec.ofNat 16 (4 * s)) else d
  let rise := fun (x : Dev) (limit : Int) (src : Nat) =>
    match hotSensor d.temps s limit, hotSensor old s limit with
    | some n, none => x.raise src s (BitVec.ofNat 16 n)
    | _, _ => x
  rise (rise d1 1680 745) 1840 746

/-- The 32 readings of a sample, each with its strobe (R496). -/
def Dev.putTemps (d : Dev) (r : List (Bool × BitVec 16)) : Dev :=
  (List.range 32).foldl (fun x n => x.strobe (0xE02 + 4 * n))
    { d with temps := (List.range 32).zip (r ++ List.replicate (32 - r.length) (false, 0#16)) }

/-- SENSOR_SAMPLE (R165): the hub runs in P0, P1 and P2 (R419); a sensor above 105 °C wakes the part from P2 (R432). -/
def execSensorSample (readings : List (Bool × BitVec 16)) (s : State) : Host.Outcome State Fault Refusal :=
  let d := s.dev
  s.keep (if 3 ≤ d.pwr.pstate.toNat then d
    else
      let d1 := d.putTemps readings
      let d2 := (List.range 8).foldl (fun x i => x.senseSpan d.temps i) d1
      if (List.range 8).any (fun i => (hotSensor d1.temps i 1680).isSome) then d2.wakeBy 7 else d2)

end Sys2Proof.Machine
end

