-- ==== Sys2Proof/Machine/Faults.lean ====
section
/-! DEFINITION. Fault collection and reaction (spec 15_faults_and_reactions.md R438 to R448). -/
namespace Sys2Proof.Machine

/-! ### BIU notices (R448) -/

/-- Whether a latch stands for class c as bent b's notice sees it. -/
def Collector.noticeLatch (f : Collector) (c b : Nat) : Bool :=
  if c < 4 then (f.src (128 * c + b)).latched else f.srcs.any (fun e => e.2.latched && fltClass e.1 == c)

/-- The collector's requester ID (R221). -/
def fltReq : ReqId := 0x807#12

/-- The level that a notice source has been given: what the last EVT on its way brings, else what it shows. -/
def Dev.noticeGiven (d : Dev) (b n : Nat) : Bool :=
  match (d.txns.filter (fun t => t.req == fltReq && t.ungranted && t.ev == some (BitVec.ofNat 7 b, BitVec.ofNat 8 n))).getLast? with
  | some t => t.evKind == .level true
  | none => (d.source b n).level

/-- The notice sources of every bent that runs follow the latches of the enabled classes: an EVT of the collector in class C0 brings a change
(R217, R222; DEDUCED, log entry 110). -/
def Dev.syncNotices (d : Dev) : Dev :=
  (List.range 16).foldl (fun x c =>
    (List.range 128).foldl (fun y b =>
      let want := d.flt.notice.getLsbD c && d.flt.noticeLatch c b
      if y.noticeGiven b (144 + c) == want || y.bentStill b || (y.xing b).hold then y else y.sendEvt fltReq 0#2 b (144 + c) (.level want)) x) d

/-- The notices after a change of latches; nothing while no class is enabled. -/
def Dev.notices (d : Dev) : Dev := if d.flt.notice = 0#16 then d else d.syncNotices

/-! ### FAULT_RAISE (R440, R441, R443) -/

/-- The source of highest programmed severity among those raised, the lowest number among equals (R440). -/
def Collector.firstOf (f : Collector) : List Nat → Option Nat
  | [] => none
  | n :: r =>
    match f.firstOf r with
    | none => some n
    | some m =>
      if (f.sevOf m).toNat < (f.sevOf n).toNat || ((f.sevOf m).toNat == (f.sevOf n).toNat && decide (n < m)) then some n else some m

/-- The sources of a tick in the order in which they are applied (R440); the first argument bounds their number. -/
def Collector.order (f : Collector) : Nat → List Nat → List Nat
  | 0, _ => []
  | k + 1, l =>
    match f.firstOf l with
    | none => []
    | some n => n :: f.order k (l.filter (fun x => x != n))

/-- The effective severity of a raise of source n (R440). -/
def Collector.effSev (f : Collector) (n : Nat) : BitVec 3 :=
  let sev := f.sevOf n
  if f.srcs.any (fun e => e.2.latched && fltClass e.1 == fltClass n) && decide (sev.toNat < 4) then sev + 1#3 else sev

/-- The lowest instance of a source among the raises of a tick, with its detail (R438). -/
def lowestRaise (rs : List Raise) (n : Nat) : Raise :=
  (rs.filter (fun r => r.src == n)).foldl (fun best r => if r.inst < best.inst then r else best)
    ((rs.find? (fun r => r.src == n)).getD { src := n, inst := 0, detail := 0#16 })

/-- The first-fault record after a raise (R443); `made` says whether this tick has made the record. -/
def Collector.record (f : Collector) (n : Nat) (sev : BitVec 3) (r : Raise) (time : W32) (made : Bool) : Collector :=
  if f.valid then (if made then { f with also := true } else f)
  else { f with valid := true, also := false, sev := sev, source := n, promoted := false, inst := BitVec.ofNat 8 r.inst,
                detail := r.detail, time := time }

/-- One source applied (R440). -/
def Collector.applySrc (f : Collector) (rs : List Raise) (time : W32) (made : Bool) (n : Nat) : Collector :=
  if f.sevOf n = 0#3 then f.onSrc n (fun x => { x with ign := satInc x.ign })
  else
    let sev := f.effSev n
    let esc := decide ((f.sevOf n).toNat < sev.toNat)
    let is := if 512 ≤ n then (rs.filter (fun r => r.src == n)).map (·.inst) else []
    (f.record n sev (lowestRaise rs n) time made).onSrc n (fun x => { x with
      latched := true, lsev := if x.lsev.toNat < sev.toNat then sev else x.lsev, esc := x.esc || esc,
      insts := (x.insts ++ is).eraseDups })

/-- The sources of a tick applied one after another; `made` says whether this tick has made the record. -/
def Collector.applyAll (f : Collector) (rs : List Raise) (time : W32) (made : Bool) : List Nat → Collector
  | [] => f
  | n :: r =>
    let f1 := f.applySrc rs time made n
    Collector.applyAll f1 rs time (made || (!f.valid && f1.valid)) r

/-- The latched severity that source n reached in this tick, 0 where it is IGNORE. -/
def Collector.reached (f : Collector) (n : Nat) : Nat := if f.sevOf n = 0#3 then 0 else (f.src n).lsev.toNat

/-- The first-fault record, as vector 1 looks at it (R326). -/
def Collector.recordOf (f : Collector) : Bool × Bool × BitVec 3 × Nat × Bool × Byte × BitVec 16 × W32 :=
  (f.valid, f.also, f.sev, f.source, f.promoted, f.inst, f.detail, f.time)

/-- Whether a change of the collector sends vector 1 (R326): the record changes, or the latch of one of some sources is set or rises. -/
def Collector.tells (f g : Collector) (ns : List Nat) : Bool :=
  f.recordOf != g.recordOf
    || ns.any (fun n => (g.src n).latched && (!(f.src n).latched || decide ((f.src n).lsev.toNat < (g.src n).lsev.toNat)))

/-- Whether a job would start a core again. -/
def Job.startsCore (j : Job) : Bool :=
  match j.kind with
  | .loopStart _ _ => true
  | _ => false

/-- The reactions of a tick whose highest reached latch is v (R441, R430): vector 1 where the tick tells the hosts something, the end of P1,
a negotiation's end, a wake from P2, SAFE_HOLD, the stop of every core, after which no LOOP_START that still waits starts one (R345, R441; DEDUCED,
log entry 151). -/
def Dev.react (d : Dev) (tell : Bool) (v : Nat) : Eff :=
  if v = 0 then (d, [])
  else
    let d1 := (if tell then d.bothVec 1#11 else d).notices
    if v < 3 then (d1.modeCheck, [])
    else
      let d2 := (d1.refuseSleep domPower 8).wakeBy 6
      let e := if 2 ≤ d2.pwr.pstate.toNat then (d2, []) else d2.safeTrigger 1#3
      if v < 4 then e
      else ((e.1.cores.foldl (fun x k => x.haltCore k.1) e.1).endJobs Job.startsCore stFaultActive (BitVec.ofNat 16 e.1.flt.source), e.2)

/-- One tick of the collector: the raises that have arrived are latched (R440). -/
def Dev.faultTick (d : Dev) : Eff :=
  let rs := d.flt.raises
  if rs.isEmpty then (d, [])
  else
    let ns := (rs.map (·.src)).eraseDups
    let f0 : Collector := { d.flt with raises := [] }
    let f1 := Collector.applyAll f0 rs (d.timeAt domCollector) false (f0.order ns.length ns)
    let v := ns.foldl (fun m n => max m (f1.reached n)) 0
    (({ d.leaveP1 with flt := f1 } : Dev).strobe 0xE87).react (d.flt.tells f1 ns) v

/-- FAULT_RAISE (R440). -/
def execFaultRaise (s : State) : Host.Outcome State Fault Refusal :=
  s.commit (settleEff s.mem s.dev.faultTick)

/-! ### FLT_CLR (R443, R444) -/

/-- The record after a clear (R443): promoted to the uncleared latch of highest latched severity, the lowest number among equals, when its
source is no longer latched. -/
def Collector.promote (f : Collector) (time : W32) : Collector :=
  if !f.valid || (f.src f.source).latched then f
  else
    let best := f.srcs.foldl (fun (b : Option (Nat × FltSrc)) e =>
      if !e.2.latched then b
      else match b with
        | none => some e
        | some x => if x.2.lsev.toNat < e.2.lsev.toNat || (x.2.lsev == e.2.lsev && decide (e.1 < x.1)) then some e else b) none
    match best with
    | none => { f with valid := false, also := false, sev := 0#3, source := 0, promoted := false, inst := 0#8, detail := 0#16,
                       time := 0#32 }
    | some e => { f with also := false, sev := e.2.lsev, source := e.1, promoted := true, detail := 0#16, time := time,
                         inst := BitVec.ofNat 8 (if e.1 < 512 then e.1 % 128 else (sortNat e.2.insts).headD 0) }

/-- The causes that are levels and still stand raise their source again once its latch is cleared (R438, R444; which causes are levels:
DEDUCED, log entry 121). -/
def Dev.reraise (d : Dev) (n : Nat) : Dev :=
  let spans := fun (x : Dev) (limit : Int) =>
    (List.range 8).foldl (fun y s => match hotSensor d.temps s limit with
      | some i => y.raise n s (BitVec.ofNat 16 i)
      | none => y) x
  if n = 514 then d.bents.foldl (fun x e => if e.2.scr.strayed then x.raise 514 e.1 (e.2.scr.actual.setWidth 16) else x) d
  else if n = 516 then d.bents.foldl (fun x e => if e.2.scr.short then x.raise 516 e.1 (e.2.scr.tier.setWidth 16) else x) d
  else if n = 517 then (List.range 8).foldl (fun x s => if spanBlind d.temps s then x.raise 517 s (BitVec.ofNat 16 (4 * s)) else x) d
  else if n = 676 then
    let d1 := if d.cfReceived .up then d.raise 676 0 0#16 else d
    if d.cfReceived .dn then d1.raise 676 1 0#16 else d1
  else if n = 744 then (List.range 17).foldl (fun x r => if d.pwr.railsBad.getLsbD r then x.raise 744 r 0#16 else x) d
  else if n = 745 then spans d 1680
  else if n = 746 then spans d 1840
  else d

/-- The latch of source n cleared (R444). -/
def Dev.clearLatch (d : Dev) (n : Nat) : Dev :=
  if (d.flt.src n).latched then
    (d.onFlt (fun f => f.onSrc n (fun x => { x with latched := false, esc := false, lsev := 0#3, insts := [] }))).reraise n
  else d

/-- Some latches cleared: the record, the notices and DEGRADED follow (R443, R444, R448, R406); a record that changes sends vector 1 (R326). -/
def Dev.clearLatches (d : Dev) (ns : List Nat) : Dev :=
  let d1 := (ns.foldl (fun x n => x.clearLatch n) d).onFlt (fun f => f.promote (d.timeAt domCollector))
  ((if d.flt.recordOf != d1.flt.recordOf then d1.bothVec 1#11 else d1).notices).modeCheck

/-- Every latch cleared. -/
def Dev.clearAllLatches (d : Dev) : Dev := d.clearLatches (d.flt.srcs.map (·.1))

/-- FLT_CLR_ALL (R444): Keystone alone (R449). -/
def execFltClrAll (req : ReqId) (s : State) : Host.Outcome State Fault Refusal :=
  s.keep (if req = ksReq then s.dev.clearAllLatches else s.dev)

/-- FLT_CLR_SOURCE (R444): Keystone alone (R449). -/
def execFltClrSource (req : ReqId) (n : BitVec 10) (s : State) : Host.Outcome State Fault Refusal :=
  s.keep (if req = ksReq then s.dev.clearLatches [n.toNat] else s.dev)

/-! ### FLT_KICK, the watchdogs (R445, R447) -/

/-- A kick (R445): it ends a grace; after a stop, ALIVE_K runs again when a restart was announced. With no firmware
running nothing kicks (R412), nor while Keystone is halted (R494). -/
def Dev.kick (d : Dev) : Dev :=
  if d.ks.firmware && !d.ks.halted then
    d.onKs (fun k => { k with kicked := true, lastKick := d.clk, stopped := k.stopped && k.graceEnd.isNone, graceEnd := none })
  else d

/-- A restart announced (R445): up to 60 ms without kicks; KS_RESTART. -/
def Dev.grace (d : Dev) : Dev :=
  let slot := if d.ks.kbusy then d.ks.restartSlotB else d.ks.slotB
  (d.onKs (fun k => { k with graceEnd := some (d.clk + 48000000) })).raise 723 0 (if slot then 1#16 else 0#16)

/-- FLT_KICK (R445): Keystone alone (R449). -/
def execFltKick (req : ReqId) (s : State) : Host.Outcome State Fault Refusal :=
  s.keep (if req = ksReq then s.dev.kick else s.dev)

/-- FLT_KICK.GRACE (R445): Keystone alone (R449). -/
def execFltKickGrace (req : ReqId) (s : State) : Host.Outcome State Fault Refusal :=
  s.keep (if req = ksReq then s.dev.grace else s.dev)

/-- Whether a missing kick is still to be raised (R445). -/
def Dev.kickMissing (d : Dev) : Bool := d.ks.kicked && !d.ks.stopped && !d.flt.selfBad && d.kickLate

/-- A missing kick raised (R445). -/
def Dev.watchdog (d : Dev) : Dev :=
  if d.kickMissing then (d.onKs (fun k => { k with stopped := true, graceEnd := none })).raise 722 0 0#16 else d

/-- KS_WDOG (R445). -/
def execKsWdog (s : State) : Host.Outcome State Fault Refusal :=
  s.keep s.dev.watchdog

/-- KS_LOCKSTEP (R445): the pair disagrees; a grace that is open is over, so that only a restart lets ALIVE_K run again. -/
def execKsLockstep (s : State) : Host.Outcome State Fault Refusal :=
  s.keep ((s.dev.onKs (fun k => { k with stopped := true, graceEnd := none })).raise 721 0 0#16)

/-- FLT_SELF (R447): the collector's own parity check fails, and both ALIVE pins stop. -/
def execFltSelf (s : State) : Host.Outcome State Fault Refusal :=
  s.keep ((s.dev.onFlt (fun f => { f with selfBad := true })).raise 760 0 0#16)

/-- ALIVE_TOGGLE (R445, R446, R314): ALIVE_K and ALIVE_S change level while their conditions hold; STAT_HEART counts ALIVE_K's. -/
def execAliveToggle (s : State) : Host.Outcome State Fault Refusal :=
  let d := s.dev
  s.keep (d.onFlt (fun f => { f with
    aliveK := if d.kRun then !f.aliveK else f.aliveK
    aliveS := if d.sRun then !f.aliveS else f.aliveS
    heart := if d.kRun then f.heart + 1#32 else f.heart }))

end Sys2Proof.Machine
end

