-- ==== Sys2Proof/Machine/Resets.lean ====
section
/-! DEFINITION. Resets, COMMISSION, SAFE_N and the recovery phase (spec 13_modes_and_bringup.md R399 to R416, R531; 09 R300, R306;
10 R333; 11 R340, R348; 19 R508, R512). -/
namespace Sys2Proof.Machine

/-! ### CORE_RESET, BENT_RESET (R408 to R410) -/

/-- Step 1 of a core reset (R408): the core stops issuing; what it has issued completes, without effect on the registers that the reset takes. -/
def Dev.resetBegin (d : Dev) (c : Nat) : Dev :=
  (if (d.core c).status == .stopped then d else d.stopCore c).onCore c (fun k => { k with
    div := none, loads := k.loads.map (fun e => { e with dead := true }) })

/-- The buffered stores of a core abandoned (R408): one that waits for a tracker entry or for another try is gone, and nothing awaits the response of
one on its way. -/
def Dev.dropStores (d : Dev) (c : Nat) : Dev :=
  let gone := fun (t : Txn) => t.origin == .store (BitVec.ofNat 11 c) && (match t.st with
    | .queued | .backoff _ => true
    | .path _ | .sent | .remote | .answered _ => false)
  { d.onCore c (fun k => { k with stores := [] }) with txns := d.txns.filter (fun t => !gone t) }

/-- Steps 1 to 4 of a core reset once its stores are done (R408): a store that still waits is abandoned, its stack passes to the completion sample
(R204), its registers, frames, fetch structures, trap record and counters are those of reset. -/
def Dev.resetEnd (d : Dev) (c : Nat) : Dev :=
  let b := bentOf c
  let i := slotOf c
  (((d.dropStores c).clearStack b i).clearBad b i).onCore c (fun k => {
    status := .stopped, psr := { compact := k.psr.compact, t := k.psr.t, paced := k.psr.paced }, winMask := k.winMask,
    cmptBase := k.cmptBase, issued := k.issued, loads := k.loads })

/-- The latch of a latched source cleared, and every source idle (R409). -/
def Src.afterBentReset (x : Src) (n : Nat) : Src :=
  { x with st := .idle, level := if isLatchedSrc n then false else x.level, after := none, again := false }

/-- The runtime state of a BIU cleared (R409); its configuration stays. -/
def Biu.afterBentReset (u : Biu) : Biu :=
  { u with
    src := u.src.map (fun e => (e.1, e.2.afterBentReset e.1)), prioStacks := [],
    groups := u.groups.map (fun e => (e.1, { e.2 with collect := false, events := 0#8 })),
    alarms := u.alarms.map (fun e => (e.1, { e.2 with armed := false })) }

/-- The slack measurements and SCR_EVENTS cleared (R409); the counts of misses and overruns stay. -/
def Scribe.afterBentReset (a : Scribe) : Scribe :=
  { a with late := 0#16, near := 0#16,
           slack := a.slack.map (fun e => (e.1, { e.2 with worst := 0#32, missed := false, accWorst := 0#32, accRan := false, opened := none })) }

/-- The cores that a reset takes. -/
def ResetRun.cores (r : ResetRun) : List Nat := if r.whole then (List.range 16).map (coreOf r.num) else [r.num]

/-- The runtime state of a bent cleared by its reset (R409); every loop of the bent is left stopped. -/
def Dev.clearBent (d : Dev) (b : Nat) : Dev :=
  ((d.loopsIn b).foldl (fun x l => x.loopOff l) d).onBent b (fun x => { x with
    biu := x.biu.afterBentReset, scr := x.scr.afterBentReset, lineCache := [], fills := [] })

/-- The stores of a reset's cores are done, or have been awaited for 10 µs (R408). -/
def Dev.resetReady (d : Dev) (r : ResetRun) : Bool :=
  r.cores.all (fun c => (d.core c).stores.isEmpty) || decide (r.since + 8000 ≤ d.clk)

/-- The reset in progress brought to its end where its stores are done or abandoned (R408 to R410). -/
def Dev.resetTry (d : Dev) : Dev :=
  match d.mode.rst with
  | none => d
  | some r =>
    if d.resetReady r then
      let d1 := (r.cores.foldl (fun x c => x.resetEnd c) d).onMode (fun m => { m with rst := none })
      if r.whole then d1.clearBent r.num else d1
    else d

/-- A reset begun (R408 to R410). -/
def Dev.resetStart (d : Dev) (r : ResetRun) : Dev :=
  ((r.cores.foldl (fun x c => x.resetBegin c) d).onMode (fun m => { m with rst := some r })).resetTry

/-- MODE_RSTCTL written (R408 to R410, R417): Keystone, or the semaphore's holder through MEM_WRITE, which Keystone serves; ignored while a reset is
in progress, and a bent reset in BOOT (R409). -/
def Dev.rstctl (d : Dev) (req : ReqId) (op core bent : Nat) : Dev :=
  if req != ksReq || d.mode.rst.isSome then d
  else if op = 1 then d.resetStart { whole := false, num := core, since := d.clk }
  else if op = 2 && d.mode.mode != mBoot then d.resetStart { whole := true, num := bent, since := d.clk }
  else d

/-- CORE_RESET (R408). -/
def execCoreReset (req : ReqId) (c : CoreId) (s : State) : Host.Outcome State Fault Refusal :=
  s.commit (settleEff s.mem (s.dev.rstctl req 1 c.toNat 0, []))

/-- BENT_RESET (R409). -/
def execBentReset (req : ReqId) (b : BentId) (s : State) : Host.Outcome State Fault Refusal :=
  s.commit (settleEff s.mem (s.dev.rstctl req 2 0 b.toNat, []))

/-! ### COLD_RESET, RESET_RELEASE (R407, R508) -/

/-- The memory that a cold reset clears: Deck SRAM, bent SRAM and DDR5 (R249, R250, R279, R407). -/
def coldClears : List MemOp :=
  [.clear (8 * 0x01000000) (8 * 0x01800000), .clear (8 * 0x04000000) (8 * 0x04800000), .clear ddrKeyBase (ddrKeyBase + 1024 * 2 ^ 29)]

/-- What OTP and the configuration area keep of the security engine (R407, R457, R459, R460, R463). -/
def Sec.kept (c : Sec) : Sec :=
  { cert := c.cert, adv := c.adv, rootPresent := c.rootPresent, rootRevoked := c.rootRevoked, roots := c.roots, rb := c.rb, idEd := c.idEd, idMl := c.idMl,
    serial := c.serial, vendor := c.vendor, jedec := c.jedec, rev := c.rev, subsys := c.subsys }

/-- The reset cause as MODE_RESET codes it (R417). -/
def coldCode : ColdCause → BitVec 4
  | .por => 8#4
  | .pin => 4#4
  | .wake => 1#4

/-- A cold reset (R407): everything is cleared but code store, spare record, grade record and OTP; a wake from P4 keeps its record
(R432). The part is held in reset until its release. -/
def Dev.coldReset (d : Dev) (cause : ColdCause) : Dev :=
  let p : Power := {
    inReset := true, enRet := false, enCore := false, thermTrip := d.pwr.thermTrip && cause != .por,
    railsUp := if cause = .por then 0#17 else d.pwr.railsUp &&& 0x18000#17,
    wakeSrc := if cause = .wake then d.pwr.wakeSrc else 0#8, wakeFrom := if cause = .wake then d.pwr.wakeFrom else 0#3 }
  let k : Keystone := { slotB := d.ks.slotB, images := d.ks.images.map (fun i => { i with verified := false }) }
  { clk := d.clk, freeCtr := d.freeCtr, nextId := d.nextId, spareA := d.spareA, spareB := d.spareB, grades := d.grades, wear := d.wear,
    lineWrites := d.lineWrites,
    poison := d.poison.filter isCode, bifurc := d.bifurc, headPin := d.headPin, ks := k, sec := d.sec.kept, pwr := p
    resetLow := d.resetLow, jtag := if cause = .por then {} else if d.resetLow then d.jtag else d.jtag.released
    mode := { rstCause := coldCode cause } }

/-- Whether a cold reset can start: a wake only from P4 (R418, R432). -/
def Dev.mayCold (d : Dev) : ColdCause → Bool
  | .por | .pin => true
  | .wake => d.pwr.pstate == 4#3 && d.pwr.waking

/-- The level of RESET_N with a cold reset: it is low at power-on and while it causes one (R418). -/
def Dev.pullReset (d : Dev) (cause : ColdCause) : Dev := { d with resetLow := d.resetLow || cause != .wake }

/-- COLD_RESET (R407). A line whose write it cuts is torn (R265), and so is a copy of the spare record (R261). -/
def execColdReset (cause : ColdCause) (s : State) : Host.Outcome State Fault Refusal :=
  let d := s.dev
  s.commit (if d.mayCold cause then
    ((((if cause = .por then d.cutLine.1.cutAdvances else d.cutLine.1).tearRecord).pullReset cause).coldReset cause, coldClears ++ d.cutLine.2)
  else (d, []))

/-- Whether the reset can be released (R513, R516): every rail good, and after a thermal trip only by RESET_N. -/
def Dev.mayRelease (d : Dev) : Bool :=
  d.pwr.inReset && d.pwr.railsUp == 0x1FFFF#17 && (!d.pwr.thermTrip || d.mode.rstCause == 4#4)

/-- Rails that were not good in their bound raise PWR_RAIL once the collector runs (R513). -/
def Dev.lateRails (d : Dev) : Dev :=
  ((List.range 17).filter (fun r => d.pwr.railsBad.getLsbD r)).foldl (fun x r => x.raise 744 r 0#16) (d.onPwr (fun p => { p with railsBad := 0#17 }))

/-- RESET_RELEASE (R508): the straps are sampled (R307, R391, R396), and BOOT begins. -/
def execResetRelease (bifurc head : Bool) (s : State) : Host.Outcome State Fault Refusal :=
  let d := s.dev
  s.keep (if d.mayRelease then
    ({ (d.onPwr (fun p => { p with inReset := false, thermTrip := false })).onChain (fun c => { c with
        head := head, uvalid := head, up := { c.up with en := !head } }) with
      resetLow := false, bifurc := bifurc, headPin := head, jtag := d.jtag.released } : Dev).lateRails
    else d)

/-! ### Warm reset (R407, R348) -/

/-- A request that a port has doorbelled, answered BUSY_PORT 0001h by the port (R340, R348). -/
def Dev.answerBusy (d : Dev) (p : Port) : Dev :=
  if (d.port p).busy then
    let d1 := d.onPort p (fun t => t.putReply stBusyPort 1#16 (Tab.find 0#32 t.reqBuf 1) 0#32 [])
    if d.noVec (.port p) then d1 else d1.sendVec p 0#11
  else d

/-- Keystone stops taking commands (R348, R479): ACCEPTED commands end BUSY_PORT 0001h, requests doorbelled and forwarded requests are
answered so, and unfinished copies are gone. -/
def Dev.keystoneDown (d : Dev) : Dev :=
  let d1 := { d with txns := d.txns.filter (fun t => match t.origin with
    | .keystone _ => false
    | .copy _ | .move _ => false
    | .load _ | .store _ | .signal _ | .hostWrite _ | .hostRead _ _ | .viaduct _ _ _ _ | .fill _ _ | .paced _ _ | .engine | .sequencer | .debug | .discard =>
      true) }
  let d2 := ((d1.tidyChans.endJobs (fun _ => true) stBusyPort 1#16).answerBusy .a).answerBusy .b
  (d2.ks.fwd.foldl (fun x f => x.reply (.fwd f.unit f.port) stBusyPort 1#16 []) d2).onKs (fun k => { k with copies := [], moves := [], prog := none })

/-- What a warm reset leaves of a bent: its counts since cold reset (R486). -/
def Bent.afterWarm (x : Bent) : Bent := { migIn := x.migIn, updates := x.updates, lastGap := x.lastGap }

/-- What a warm reset leaves of a span: the bindings and the Scribe's state go. -/
def Span.afterWarm (x : Span) : Span := { x with slots := [], pacedBank := 0#8, spanHeld := 0#16, spanUnable := 0#16, starts := [] }

/-- What a warm reset leaves of Keystone: the slot, the images, the LIV_ records. -/
def Keystone.afterWarm (k : Keystone) : Keystone :=
  { slotB := k.slotB, images := k.images.map (fun i => { i with verified := false }), live := k.live, revert := k.revert,
    restartMs := k.restartMs, swapValid := k.swapValid, swapResult := k.swapResult, swapBent := k.swapBent, swapPslot := k.swapPslot,
    swapLslot := k.swapLslot }

/-- Latches, instances and the first-fault record cleared (R407, R444); severities and counts of ignored raises stay. -/
def Collector.afterWarm (f : Collector) : Collector :=
  { f with srcs := f.srcs.map (fun e => (e.1, { e.2 with latched := false, esc := false, lsev := 0#3, insts := [] })),
           valid := false, also := false, sev := 0#3, source := 0, promoted := false, inst := 0#8, detail := 0#16, time := 0#32 }

/-- Whether a transaction belongs to a requester that a warm reset clears: a core, its bent's fills, Keystone; or tells of a latch that it clears
(R448). -/
def Txn.ofCoreOrKs (t : Txn) : Bool := isCoreReq t.req || t.req == ksReq || t.req == fltReq || (decide (0x810 ≤ t.req.toNat) && decide (t.req.toNat < 0x818))

/-- A warm reset (R407): BOOT with REASON 0 (R531). A cause that still stands raises its source again (R444); a record that is gone and a semaphore
that is free send vectors 1 and 2 (R326). -/
def Dev.warmReset (d0 : Dev) : Dev :=
  let d := d0.keystoneDown.engineFree
  let d1 := { d with
    cores := [], bents := d.bents.map (fun (e : Nat × Bent) => (e.1, e.2.afterWarm)), spans := d.spans.map (fun (e : Nat × Span) => (e.1, e.2.afterWarm)),
    txns := d.txns.filter (fun t => !t.ofCoreOrKs), queues := [], poison := d.poison.filter (fun w => isCode w || decide (ddrKeyBase ≤ w)),
    ks := d.ks.afterWarm, sem := { d.sem with holder := none, lease := 0#16, expiry := 0, grantTick := none },
    flt := d.flt.afterWarm, sec := { d.sec with dbgScope := 0#4, challenge := none }, plb := [], jtag := d.jtag.released }
  let d2 := (d1.tidyChans.setMode mBoot 0#3).onPwr (fun p => { p with nego := none })
  let d3 := if d.flt.recordOf != d2.flt.recordOf then d2.bothVec 1#11 else d2
  let d4 := if d.sem.holder.isSome then d3.bothVec 2#11 else d3
  let d5 := ((d.flt.srcs.filter (fun e => e.2.latched)).map (fun e => e.1)).foldl (fun x n => x.reraise n) d4
  d5.onMode (fun m => { m with
    rstCause := 2#4, bootReason := 0#3, warm := true, commDone := false, pendSafe := m.safePin, pendWhy := 2#3, bootSlot := false,
    fallback := false, resA := 0#4, resB := 0#4, srBad := false, bootMs := 0#16, noFirmware := false, rst := none })

/-- The memory that a warm reset initialises again (R249, R250, R407). -/
def warmClears : List MemOp := coldClears.take 2

/-! ### Crossings found unstable (R300, R306) -/

/-- A cell of domain n found unstable (R300): XING_STAT, XING_SUM.FIRST, XING_UNSTABLE; the last values it accepted stand. -/
def Dev.xingUnstable (d : Dev) (n : Nat) : Dev :=
  let first := if d.xings.any (fun e => e.2.unstable) then d.xFirst else BitVec.ofNat 8 n
  let d1 := d.onXing n (fun x => { x with unstable := true, ucount := satInc x.ucount, frozen := true, tb := some (x.tb.getD d.tb) })
  (({ d1 with xFirst := first } : Dev).strobe (0xC80 + 2 * n)).raise 640 n 0#16

/-- XING_UNSTABLE (R300). -/
def execXingUnstable (dom : Byte) (s : State) : Host.Outcome State Fault Refusal :=
  s.keep (if dom.toNat < 154 then s.dev.xingUnstable dom.toNat else s.dev)

/-! ### COMMISSION_COMPLETE (R399, R414, R415, R531) -/

/-- A bent out of service (R415): its cores stop and are gated, its regulator is turned off. -/
def Dev.bentOff (d0 : Dev) (b : Nat) : Dev :=
  let d := d0.regulatorOff b
  let d1 := (List.range 16).foldl (fun x i => (x.haltCore (coreOf b i)).onCore (coreOf b i) (fun k => { k with status := .gated })) d
  d1.onMode (fun m => { m with bentOut := setBit m.bentOut b true })

/-- A core that fails its self-test (R415): the spare takes its logical slot; without a spare the bent goes out of service. A spare that
fails is retired itself. -/
def Dev.retire (d : Dev) (b p : Nat) : Dev :=
  let x := d.bent b
  if 17 ≤ p ∨ x.retired.getLsbD p = true ∨ d.mode.bentOut.getLsbD b = true then d
  else match x.logicalOf p with
    | none => d.onBent b (fun y => { y with retired := setBit y.retired p true, spareFree := false })
    | some i =>
      if x.spareFree then
        ((d.onCore (coreOf b i) Core.swapped).onBent b (fun y => { y with
          phys := Tab.put y.phys i (BitVec.ofNat 5 x.freeSlot), seq := y.seq + 1#8, spareFree := false,
          retired := setBit y.retired p true })).onMode (fun m => { m with swaps := m.swaps + 1#8 })
      else d.bentOff b

/-- The cores that fail, those without a logical slot first. -/
def Dev.retireAll (d : Dev) (ps : List (BentId × BitVec 5)) : Dev :=
  let spare := fun e : BentId × BitVec 5 => ((d.bent e.1.toNat).logicalOf e.2.toNat).isNone
  (ps.filter spare ++ ps.filter (fun e => !spare e)).foldl (fun x e => x.retire e.1.toNat e.2.toNat) d

/-- Whether grading runs (R414 step 2). -/
def Dev.grades? (d : Dev) : Bool := d.grades.isEmpty || d.mode.regrade

/-- Grading (R414 step 2): the points and graded delays found enter the grade record, and REGRADE clears. -/
def Dev.grade (d : Dev) (r : CommReport) : Dev :=
  let g0 : Tab Grade := (List.range 128).map (fun b =>
    let pts := (r.curves.filter (fun e => e.1.toNat == b && decide (e.2.1 < 11))).map (fun e => (e.2.1, e.2.2.1, e.2.2.2))
    let dl := (r.grades.find? (fun e => e.1.toNat == b)).map (fun e => (e.2.1, e.2.2))
    (b, ({ curve := pts.foldl (fun t e => Tab.put t e.1 e.2) [], me := (dl.getD (8#4, 8#4)).1, ex := (dl.getD (8#4, 8#4)).2 } : Grade)))
  ({ d with grades := g0 }).onMode (fun m => { m with regrade := false, graded := true })

/-- The recorded curve and graded delays loaded into every bent's agent. -/
def Dev.loadGrades (d : Dev) : Dev :=
  d.grades.foldl (fun x e => x.onScr e.1 (fun a => { a with curve := e.2.curve, meGrade := e.2.me, exGrade := e.2.ex })) d

/-- The first Scribe calibration of a bent (R414 step 3, R190): K from the monitor's count at code 100 (DESIGN CHOICE, log entry 106) and
the delays; AGEING at once where the record carries none. -/
def Dev.calibrate (d : Dev) (b : Nat) (count : BitVec 16) (me ex : BitVec 4) : Dev :=
  let t := d.scrTemp b
  (d.scrMeasure b 100 count).onScr b (fun a =>
    let a1 := { a with meDly := me, exDly := ex }
    if a.ageingKnown then a1 else { a1 with ageing := BitVec.ofNat 40 (inferAge a.k t), ageingKnown := true })

/-- The crossing verify (R414 step 4, R415). -/
def Dev.verifyXings (d : Dev) (bad : Option Byte) : Dev :=
  match bad with
  | none => { d with xverDone := true, xverFail := false, xverDom := 0#8 }
  | some n => ({ d with xverDone := true, xverFail := true, xverDom := n }).xingUnstable n.toNat

/-- The rollback counter of the firmware that first completes COMMISSION (R460): counter 0 advances to the index in its slot's header. -/
def Dev.firmwareRb (d : Dev) (m : List Host.Cell) : Dev :=
  d.advanceRb m (if d.ks.slotB then 0x02018000#32 else 0x02000000#32)

/-- COMMISSION left for STANDBY, or for SAFE_HOLD while PENDSAFE is 1 or a latch of HOLD or STOP is uncleared (R399). -/
def Dev.leaveCommission (d : Dev) (reason : BitVec 3) : Eff :=
  if d.mode.pendSafe || d.flt.atLeast 3 then d.enterSafe (if d.mode.pendSafe && d.mode.pendWhy == 2#3 then 2#3 else 1#3)
  else (d.setMode mStandby reason, [])

/-- An SRAM row that fails its self-test is repaired under R253 (R415). -/
def Dev.retireRow (d : Dev) (m : SramRef) (k row : Nat) : Dev :=
  let rows := match m with | .bent _ => 128 | .deck _ => 2048
  if rows ≤ row ∨ ((d.sram m).bank k).repaired.contains row then d else d.startRepair m k row

/-- COMMISSION's checks done (R414). -/
def Dev.commissionDone (d : Dev) (m : List Host.Cell) (r : CommReport) : Eff :=
  let d1 := d.onMode (fun x => { x with swaps := 0#8, graded := false })
  let d2 := r.badBents.foldl (fun x b => if x.mode.bentOut.getLsbD b.toNat then x else x.bentOff b.toNat) (d1.retireAll r.badSlots)
  let d3 := ((if d.grades? then d2.grade r else d2).loadGrades)
  let d4 := r.calib.foldl (fun x e => x.calibrate e.1.toNat e.2.1 e.2.2.1 e.2.2.2) d3
  let d5 := if d2.mode.swaps != 0#8 || d2.mode.bentOut != d.mode.bentOut || !r.badSlots.isEmpty || !r.calib.isEmpty then d4.recordSpares
    else d4
  let d5a := r.badRows.foldl (fun x e => x.retireRow e.1 e.2.1.toNat e.2.2.toNat) d5
  let d6 := ((d5a.verifyXings r.xFail).onMode (fun x => { x with commDone := true, calibrated := true })).firmwareRb m
  if d6.mode.holdComm then (d6, []) else d6.leaveCommission d6.mode.bootReason

/-- COMMISSION_COMPLETE (R414). -/
def execCommissionComplete (r : CommReport) (s : State) : Host.Outcome State Fault Refusal :=
  let d := s.dev
  s.commit (if d.mode.mode == mCommission && !d.mode.commDone then d.commissionDone s.mem r else (d, []))

/-! ### SAFE_N (R402) -/

/-- SAFE_N accepted low (R402, R432): SAFEPIN, SAFE_PIN, and SAFE_HOLD or PENDSAFE; in P2 and P3 the wake comes first. -/
def Dev.safeAccept (d : Dev) : Eff :=
  let d1 := ({ d.onMode (fun m => { m with safePin := true }) with safeNLow := true }).raise 753 0 0#16
  let d2 := (d1.refuseSleep domPower 8).wakeBy 5
  if 2 ≤ d2.pwr.pstate.toNat then (d2, []) else d2.safeTrigger 2#3

/-- SAFE_N_ACCEPT (R402): nothing while it is accepted already, in reset, or in P4, where no domain judges it. -/
def execSafeNAccept (s : State) : Host.Outcome State Fault Refusal :=
  let d := s.dev
  s.commit (if d.mode.safePin || d.pwr.inReset || d.pwr.pstate == 4#3 then (d, []) else settleEff s.mem d.safeAccept)

/-- SAFE_N_RELEASE (R402): SAFE_N is high again. -/
def execSafeNRelease (s : State) : Host.Outcome State Fault Refusal :=
  s.keep { s.dev.onMode (fun m => { m with safePin := false }) with safeNLow := false }

/-! ### RECOVERY_PHASE_END (R405) -/

/-- The loops that the entry to SAFE_HOLD stopped, started again as LOOP_START with START 0. -/
def Dev.restartHeld (d : Dev) : Dev :=
  (d.ks.loops.filter (fun l => l.heldStop)).foldl (fun x l => x.startLoop l 0#32) d

/-- The end of the recovery phase (R405 steps 2 to 4): a verify that fails ends it in SAFE_HOLD with FAULT_ACTIVE naming XING_UNSTABLE. -/
def Dev.recoveryEnd (d : Dev) (fail : Option Byte) : Dev :=
  match fail with
  | some _ =>
    (((d.verifyXings fail).onMode (fun m => { m with recov := false })).setCells false).endJobs (fun j => j.isModeSet) stFaultActive 640#16
  | none =>
    let d0 := if d.xings.any (fun e => e.2.unstable || e.2.ovr) then d.verifyXings none else d
    let d1 := if d.mode.recovTarget == mRun then d0.restartHeld else d0
    let target := if d.mode.recovTarget == mRun then (if d1.degradeCond then mDegraded else mRun) else mStandby
    let d2 := d1.onKs (fun k => { k with loops := k.loops.map (fun l => { l with heldStop := false }) })
    (d2.setMode target 4#3).endJobs (fun j => j.isModeSet) stDone 0#16

/-- Whether the recovery phase can end: for STANDBY every safety loop has stopped; for RUN the cores of the loops
to start are at an idle moment (R358); a domain that fails its verify showed UNSTABLE or OVR. -/
def Dev.mayEndRecovery (d : Dev) (fail : Option Byte) : Bool :=
  d.mode.mode == mSafeHold && d.mode.recov &&
    (match fail with
    | some n => (d.xing n.toNat).unstable || (d.xing n.toNat).ovr
    | none =>
      if d.mode.recovTarget == mRun then d.ks.loops.all (fun l => !l.heldStop || (d.core l.core.toNat).idleMoment)
      else !d.ks.loops.any d.started)

/-- RECOVERY_PHASE_END (R405). -/
def execRecoveryPhaseEnd (fail : Option Byte) (s : State) : Host.Outcome State Fault Refusal :=
  let d := s.dev
  s.commit (settleEff s.mem (if d.mayEndRecovery fail then d.recoveryEnd fail else d, []))

end Sys2Proof.Machine
end

