-- ==== Sys2Proof/Machine/ViaLink.lean ====
section
/-! DEFINITION. Links of the Viaduct (spec 12_viaduct_chain.md R376 to R384, R388, R390): what a flit's header does, replay, link loss,
retraining, the change of reach and of the chain fault. -/
namespace Sys2Proof.Machine

/-! ### Headers (R379, R383, R384) -/

/-- Flit buffers of a receiving port by class (R384). -/
def buffersOf (cls : BitVec 2) : Nat := if cls = 0#2 then 32 else 64

/-- ACK releases the ledger up to that flit (R383). -/
def Via.acked (v : Via) (a : BitVec 12) : Via :=
  match v.ledger.findIdx? (fun f => f.seq == a) with
  | some i => { v with ledger := v.ledger.drop (i + 1), stalled := 0 }
  | none => v

/-- The ledger sent again from its oldest flit, with the present ACK and CF (R383); nothing to send is no replay. -/
def Via.replay (v : Via) (now : Nat) (cf : Bool) : Via :=
  if v.ledger.isEmpty then v
  else
    let again := v.ledger.map (fun f => { f with sentAt := now, ack := v.nextRx - 1#12, cf := cf })
    { v with ledger := again, tx := again.getLast?, retry := satAdd v.retry v.ledger.length, stalled := v.stalled + 1 }

/-- What a good flit's header does: ACK, CREDIT, CF and NAK. -/
def Via.header (v : Via) (now : Nat) (cf : Bool) (h : FlitHdr) : Via :=
  let v1 := v.acked h.ack
  let v2 := { v1 with credits := Tab.put v1.credits h.cls.toNat (min (buffersOf h.cls) (v1.credit h.cls + h.credit.toNat)), cfIn := h.cf }
  if h.nak then v2.replay now cf else v2

/-- CFAULT that has risen while the unit's own contribution is 0 raises VIA_CHAINFAULT (R390). -/
def Dev.cfRise (d old : Dev) (p : ViaPort) : Dev :=
  if !old.chainFault && d.chainFault && !d.chainOwn then d.raise 676 (match p with | .up => 0 | .dn => 1) 0#16 else d

/-- A port as a fault instance (R437). -/
def viaInst : ViaPort → Nat
  | .up => 0
  | .dn => 1

/-- A retrain (R377): a lane that failed is marked bad; the ledger is kept. -/
def Dev.viaRetrain (d : Dev) (p : ViaPort) (bad : BitVec 5) : Dev :=
  if (d.via p).st == .up then
    d.onVia p (fun v => { v with st := .train, retraining := true, trainAt := d.clk, stalled := 0, bad := v.bad ||| bad })
  else d

/-- Eight replays in a row without progress retrain the link (R377). -/
def Dev.viaStalled (d : Dev) (p : ViaPort) : Dev := if 8 ≤ (d.via p).stalled then d.viaRetrain p 0#5 else d

/-- The header of a flit received on port p. -/
def Dev.viaHeader (d : Dev) (p : ViaPort) (h : FlitHdr) : Dev :=
  (((d.onVia p (fun v => v.header d.clk (d.cfSent p) h)).viaStalled p).viaPump).cfRise d p

/-- A flit that was lost or damaged: one NAK with the last good SEQ for each gap (R383). -/
def Via.gap (v : Via) : Via := if v.nakSent then v else { v with nakSent := true, nakDue := true }

/-- A flit of n sequence numbers received on port p (R383): one out of sequence is discarded, with one NAK for each gap. -/
def Dev.viaTake (d : Dev) (p : ViaPort) (h : FlitHdr) (n : Nat) (f : Dev → Dev) : Dev :=
  let v := d.via p
  if v.st != .up then d
  else if h.seq != v.nextRx then d.onVia p Via.gap
  else f ((d.onVia p (fun v => { v with nextRx := v.nextRx + BitVec.ofNat 12 n, nakSent := false })).viaHeader p h)

/-- Whether a port serves flits other than those of enumeration and link state: a unit without address and a link with mismatched
addresses discard them (R378, R391). -/
def Dev.viaServes (d : Dev) (p : ViaPort) : Bool := d.chain.uvalid && !(d.via p).topo

/-- A flit for the own unit, or for another, to which it is passed on by way of the flit buffers and a CHANNEL cell (R384, R385); the buffers of what
is taken or discarded are free at once. -/
def Dev.viaRoute (d : Dev) (p : ViaPort) (h : FlitHdr) (bodies : List FlitBody) (f : Dev → Dev) : Dev :=
  if !d.viaServes p then d.viaFree p h.cls bodies.length
  else if h.dest = d.chain.unit then f (d.viaFree p h.cls bodies.length)
  else (d.onVia p (fun v => { v with rx := v.rx ++ bodies.map (fun b =>
    ({ seq := 0#12, cls := h.cls, dest := h.dest, src := h.src, body := b, sentAt := 0 } : OutFlit)) })).viaPump

/-! ### Reach (R381, R388) -/

/-- A REACH flit on each port whose mask to send has changed. -/
def Dev.tellReach (d old : Dev) : Dev :=
  let one := fun (x : Dev) (p : ViaPort) => if d.reachSent p != old.reachSent p then x.sendReach p else x
  one (one d .up) .dn

/-- Whether a transaction waits on a unit that is no longer reached. -/
def Dev.cutOff (d : Dev) (t : Txn) : Bool :=
  match t.st, t.dest with
  | .remote, some u => !d.reaches u
  | _, _ => false

/-- Whether a job is an ACCEPTED command forwarded to a unit that is no longer reached (R372). -/
def Dev.jobCutOff (d : Dev) (j : Job) : Bool :=
  match j.kind with
  | .remote u => !d.reaches u
  | _ => false

/-- What a change of reach does (R372, R381, R388): REACH flits, NOT_PRESENT for transactions and UNIT_ABSENT 0002h for commands that wait
on units no longer reached. -/
def Dev.reachChanged (d old : Dev) : Dev :=
  let d1 := d.tellReach old
  let d2 := { d1 with txns := d1.txns.map (fun t => if d1.cutOff t then { t with st := .answered .notPresent } else t) }
  let keep := fun (t : PortSt) => { t with stale := t.stale.filter (fun e => d2.reaches e.1) }
  ({ d2 with portA := keep d2.portA, portB := keep d2.portB } : Dev).endJobs d2.jobCutOff stUnitAbsent 2#16

/-! ### Link loss (R377, R387, R388) -/

/-- A port that is DOWN: what it held is gone. -/
def Via.down (v : Via) : Via :=
  { v with st := .down, retraining := false, spare := false, half := false, lanes := 0#5, nvalid := false, nunit := 0#4, topo := false,
           nextTx := 0#12, nextRx := 0#12, ledger := [], waiting := [], rx := [], cells := [], owed := [], nakDue := false, tx := none,
             credits := [(0, 32), (1, 64), (2, 64)], nakSent := false,
           stalled := 0, reach := 0#16, cfIn := false }

/-- The timebase that the UP link disciplined runs free (R394). -/
def Dev.runFree (d : Dev) (p : ViaPort) : Dev := if p = .up ∧ d.tbSrc = 2#2 then { d with tbSlew := 0 } else d

/-- A link goes DOWN (R377, R388): one that was UP or retraining counts a loss, raises VIA_LINKDOWN where the table says so, and cuts off
what was reached over it. -/
def Dev.linkDown (d : Dev) (p : ViaPort) (loud : Bool) : Dev :=
  if (d.via p).lost then d.onVia p Via.down
  else
    let d1 := (d.runFree p).onVia p (fun v => { v.down with downs := satInc v.downs })
    let d2 := if loud then d1.raise 674 (viaInst p) 0#16 else d1
    (d2.reachChanged d).modeCheck

/-- VIA_PCTL.EN and SBEN set by a write (R376, R377): EN 0 takes the link DOWN; SBEN 1 is ignored while PLUMB B holds either ball, and lets
the level at the ball in. -/
def Dev.viaEnable (d : Dev) (p : ViaPort) (en sb : Bool) : Dev :=
  let held := (Tab.find {} d.plb 6 : PlbPin).en || (Tab.find {} d.plb 7 : PlbPin).en
  let d1 := d.onVia p (fun v => { v with en := en, sbEn := (match p with | .up => false | .dn => sb && (v.sbEn || !held)) })
  let d2 := d1.cfRise d p
  if !en && (d.via p).st != .down then d2.linkDown p true else d2

end Sys2Proof.Machine
end

