-- ==== Sys2Proof/Machine/RegWrite.lean ====
section
/-! DEFINITION. Writes of device registers (spec 00_scope.md R9, R11 and the register tables of every chapter): which fields a requester
may write, and what a write does. Fields marked RO that Keystone sets take its writes, as requester 800h. -/
namespace Sys2Proof.Machine

/-- Whether an RWL field takes a write of a requester (R9). -/
def Dev.rwl (d : Dev) (req : ReqId) : Bool :=
  d.mode.mode == mCommission || d.mode.mode == mStandby || (d.mode.mode == mBoot && req == ksReq)

/-- Hours of a pass: 0 is taken as 1 (R256, R280); likewise STARVE (R238, R239). -/
def atLeastOne (v : Byte) : Byte := if v = 0#8 then 1#8 else v

/-! ### MEM_ (R256) -/

/-- A write of word k of the MEM_ registers of an SRAM. -/
def Sram.write (x : Sram) (rwl : Bool) (k : Nat) (v : W32) : Sram :=
  if k = 0 then (if rwl then { x with scrub := atLeastOne (bitsAt 8 v 24), scren := bitOf v 8, ceShift := bitsAt 4 v 0 } else x)
  else if k = 2 then (if bitOf v 31 then { x with ueValid := false } else x)
  else x

/-! ### BIU configuration (R208, R210 to R213) -/

/-- BIU_SRCn written (R198, R211): the priority of a source being entered is that of its slot, whose offer may fall with it (R199). -/
def Dev.putSrc (d : Dev) (b n : Nat) (v : W32) : Dev :=
  let d1 := d.onSource b n (fun x => { x with wake := bitOf v 30, cge := bitOf v 29, cg := bitsAt 4 v 25, mask := bitsAt 16 v 8, pri := bitsAt 8 v 0 })
  let d2 := match (d1.source b n).st with
    | .offered i | .entering i => d1.recheckSlot b i.toNat
    | .idle | .held | .pending | .claimed _ => d1
  if bitOf v 31 then d2.enableSrc b n else d2.disableSrc b n

/-- BIU_CGCTLg written (R209, R210, R212): the group that sets TEN takes comparator 24 + g/2, and releases it with TEN. -/
def Dev.putGroup (d : Dev) (b g : Nat) (v : W32) : Dev :=
  let ten := bitOf v 31
  let k := 24 + g / 2
  let a := (d.bent b).biu.alarm k
  let own := a.cgHeld && a.cgOwn.toNat == g
  let d1 := d.onBiu b (fun u => u.onGroup g (fun x => { x with ten := ten, limit := bitsAt 16 v 8, count := bitsAt 8 v 0 }))
  if ten && !a.cgHeld then d1.onBiu b (fun u => u.onAlarm k (fun x => { x with cgHeld := true, cgOwn := BitVec.ofNat 4 g }))
  else if !ten && own then d1.onBiu b (fun u => u.onAlarm k (fun x => { x with cgHeld := false, cgOwn := 0#4, mode := 0#2, armed := false }))
  else d1

/-- BIU_ALMCTLk written (R208): OFF and WATCH leave ARMED 0, ONCE and PERIODIC set it. -/
def Alarm.putCtl (a : Alarm) (v : W32) : Alarm :=
  let m : BitVec 2 := bitsAt 2 v 30
  { a with mode := m, armed := m == 1#2 || m == 2#2, cgHeld := bitOf v 12, cgOwn := bitsAt 4 v 8, wsrc := bitsAt 8 v 0 }

/-- A comparator's word j written. -/
def Dev.putAlarm (d : Dev) (ks : Bool) (b k j : Nat) (v : W32) : Dev :=
  match j with
  | 0 => if ks then d.onBiu b (fun u => u.onAlarm k (fun a => a.putCtl v)) else d
  | 1 => d.almCmp b k v
  | 2 => if k < 24 then d.onBiu b (fun u => u.onAlarm k (fun a => { a with per := v })) else d
  | _ => d

/-- A word of a BIU written, from local word 0002_0300h on. -/
def Dev.biuWrite (d : Dev) (ks : Bool) (b k : Nat) (v : W32) : Dev :=
  if k = 26 then d.swSet b v
  else if 19 ≤ k ∧ k < 25 then d.onBiu b (fun u => { u with undeliv := u.undeliv &&& ~~~ (v.setWidth 192 <<< (32 * (k - 19))) })
  else if 0x340 ≤ k ∧ k < 0x3C0 then d.putAlarm ks b ((k - 0x340) / 4) (k % 4) v
  else if !ks then d
  else if k = 0 then d.onBiu b (fun u => { u with preMargin := bitsAt 8 v 0 })
  else if 0x100 ≤ k ∧ k < 0x1C0 then d.putSrc b (k - 0x100) v
  else if 0x200 ≤ k ∧ k < 0x2C0 then d.onSource b (k - 0x200) (fun x => { x with vec := v })
  else if 0x300 ≤ k ∧ k < 0x320 ∧ k % 2 = 0 then d.putGroup b ((k - 0x300) / 2) v
  else d

/-! ### A bent's other words (R28, R54, R66, R90, R190, R271, R486) -/

/-- The four entries of a unit-table word (R54); rows and columns 0 and 31 are fixed (R55). -/
def Bent.putUpt (x : Bent) (k : Nat) (v : W32) : Bent :=
  let a := k / 8
  (List.range 4).foldl (fun y j =>
    let c := 4 * (k % 8) + j
    if a = 0 ∨ a = 31 ∨ c = 0 ∨ c = 31 then y else { y with upt := Tab.put y.upt (32 * a + c) (bitsAt 5 v (8 * j)) }) x

/-- A Scribe word that Keystone sets. -/
def Scribe.write (a : Scribe) (k : Nat) (v : W32) : Scribe :=
  if k = 0 then { a with period := bitsAt 8 v 24, pmargin := bitsAt 8 v 16, margin := bitsAt 8 v 8, policy := bitsAt 2 v 0 }
  else if k = 1 then { a with fixed := bitsAt 7 v 16, floor := bitsAt 7 v 0 }
  else if 0x10 ≤ k ∧ k < 0x1B then { a with curve := Tab.put a.curve (k - 0x10) (bitsAt 16 v 16, bitsAt 16 v 0) }
  else if 0x100 ≤ k ∧ k < 0x200 then
    a.onEntry ((k - 0x100) / 16) ((k - 0x100) / 4 % 4) (fun e => match k % 4 with
      | 0 => { e with valid := bitOf v 31, safety := bitOf v 30, paced := bitOf v 29, source := bitsAt 8 v 0 }
      | 1 => { e with deadline := v }
      | _ => e)
  else a

/-- LIV_SWCTL written by Keystone (R468, R470): ARMED 1 arms with the vector of LIV_SWVEC, ARMED 0 disarms. -/
def Dev.putSwctl (d : Dev) (b i : Nat) (v : W32) : Dev :=
  if bitOf v 31 then d.armSwitch b i (bitOf v 30) (bitsAt 8 v 0) (Tab.find {} (d.bent b).sw i : Switch).vec
  else d.disarm b i stBusyPort 3#16

/-- Local word 0002_0000h + k of bent b written. -/
def Dev.bentWrite (d : Dev) (req : ReqId) (b k : Nat) (v : W32) : Dev :=
  let ks := req == ksReq
  if 0x300 ≤ k ∧ k < 0x800 then d.biuWrite ks b (k - 0x300) v
  else if 0xC00 ≤ k ∧ k < 0xC10 then d.onBent b (fun x => { x with sram := x.sram.write (d.rwl req) (k - 0xC00) v })
  else if !ks then d
  else if k = 8 then d.onBent b (fun x => { x with unitId := v })
  else if 0x10 ≤ k ∧ k < 0x20 then d.onBent b (fun x => { x with winBase := Tab.put x.winBase (k - 0x10) v })
  else if 0x20 ≤ k ∧ k < 0x30 then d.onBent b (fun x => { x with winLim := Tab.put x.winLim (k - 0x20) v })
  else if k = 0x30 then d.onBent b (fun x => { x with winPerm := v })
  else if 0x40 ≤ k ∧ k < 0x50 then d.onBent b (fun x => { x with ddrWin := Tab.put x.ddrWin (k - 0x40) (v &&& 0xC00003FF#32) })
  else if 0x100 ≤ k ∧ k < 0x200 then d.onBent b (fun x => x.putUpt (k - 0x100) v)
  else if k = 0x240 then d.onBent b (fun x => { x with inspSel := bitsAt 4 v 0 })
  else if 0x800 ≤ k ∧ k < 0xA00 then d.onScr b (fun a => a.write (k - 0x800) v)
  else if 0xB00 ≤ k ∧ k < 0xB20 then
    if k % 2 = 0 then d.putSwctl b ((k - 0xB00) / 2) v
    else d.onBent b (fun x => { x with sw := Tab.modify {} x.sw ((k - 0xB00) / 2) (fun w => { w with vec := v }) })
  else if k = 0xB20 then d.livLatch b (fieldOf v 7 0)
  else d

/-- The words of a bent's control space with a field that R9 lets a requester write: BIU_UNDELIV, BIU_SWSET, BIU_ALMCMP and BIU_ALMPER,
BENT_INSPSEL (R90), LIV_LATCH, MEM_CTL and MEM_ERRINFO; every other word is RO (R190, R213, R486). -/
def bentWritable (k : Nat) : Bool :=
  (decide (0x313 ≤ k) && decide (k < 0x31B)) && k != 0x319
    || (decide (0x640 ≤ k) && decide (k < 0x6C0) && (k % 4 == 1 || k % 4 == 2))
    || k == 0x240 || k == 0xB20 || k == 0xC00 || k == 0xC02

/-! ### Queues (R294, R297) -/

/-- The configuration words of a queue, as Keystone writes them. -/
def Queue.config (q : Queue) (k : Nat) (v : W32) : Queue :=
  match k with
  | 0 => { q with en := bitOf v 31, ledger := bitOf v 30, safe := bitOf v 29, safeLen := bitsAt 3 v 24, size := bitsAt 4 v 20,
                  offset := bitsAt 20 v 0 }
  | 1 => { q with biuEn := bitOf v 31, bent := bitsAt 7 v 24, src := bitsAt 6 v 16, level := bitsAt 16 v 0 }
  | 2 => { q with msiEn := bitOf v 31, port := bitOf v 30, ptagEn := bitOf v 24, ptag := bitsAt 8 v 16, vec := bitsAt 11 v 0 }
  | 9 => { q with safeTag := v }
  | 12 => { q with safeW := Tab.put q.safeW 0 v }
  | 13 => { q with safeW := Tab.put q.safeW 1 v }
  | 14 => { q with safeW := Tab.put q.safeW 2 v }
  | 15 => { q with safeW := Tab.put q.safeW 3 v }
  | _ => q

/-- Queue n with another configuration: the source that it drove falls, the one that it drives now follows its level (R292). -/
def Dev.reconfigure (d : Dev) (n : Nat) (q : Queue) : Dev :=
  let old := d.queue n
  let d1 := d.setQueue n q
  let moved := old.biuEn && (!q.biuEn || old.bent != q.bent || old.src != q.src)
  let d2 := if moved then d1.queLevel n old.bent.toNat old.src.toNat false else d1
  if q.biuEn then d2.queLevel n q.bent.toNat q.src.toNat q.asserts else d2

/-- A write of 1 to QUE_CTL.FLUSH (R294): the queue is emptied, and FLUSH reads 1 until the flush is done. -/
def Dev.startFlush (d : Dev) (n : Nat) : Dev :=
  if (d.queue n).en then (d.queFlushed n).onQueue n (fun q => { q with flushing := true }) else d

/-- Word k of queue n written. -/
def Dev.queWrite (d : Dev) (req : ReqId) (n k : Nat) (v : W32) : Dev :=
  if k = 3 then d.onQueue n (fun q => { q with ovr := q.ovr && !bitOf v 28, trunc := q.trunc && !bitOf v 27, intr := q.intr && !bitOf v 26 })
  else if k = 8 then (if bitOf v 0 then d.startFlush n else d)
  else if req == ksReq then d.reconfigure n ((d.queue n).config k v)
  else d

/-! ### Spans (R239, R256, R262, R268) -/

/-- Word w of span s's block written. -/
def Dev.spanWrite (d : Dev) (req : ReqId) (s w : Nat) (v : W32) : Dev :=
  let rwl := d.rwl req
  let ks := req == ksReq
  if w = 0x100 then (if rwl then d.onSpan s (fun x => { x with starve := atLeastOne (bitsAt 8 v 24) }) else d)
  else if 0x110 ≤ w ∧ w < 0x124 then
    if rwl ∧ w % 4 = 0 then d.onTarget (s, (w - 0x110) / 4) (fun t => { t with high := BitVec.ofNat 6 (clampHigh (fieldOf v 5 0)) }) else d
  else if 0x200 ≤ w ∧ w < 0x210 then d.onSpan s (fun x => { x with sram := x.sram.write rwl (w - 0x200) v })
  else if w = 0x303 then (if ks then d.onSpan s (fun x => { x with pacedBank := bitsAt 8 v 0 }) else d)
  else if 0x310 ≤ w ∧ w < 0x31C then
    if ks then d.onSpan s (fun x => { x with slots := if bitOf v 31 then Tab.put x.slots (w - 0x310) (bitsAt 11 v 0) else Tab.drop x.slots (w - 0x310) })
    else d
  else if 0x1000 ≤ w ∧ w < 0x1800 then d.queWrite req (128 * s + (w - 0x1000) / 16) (w % 16) v
  else d

/-! ### DDR5 (R274, R280) -/

/-- Whether a window of some bent maps a region. -/
def Dev.regionMapped (d : Dev) (r : Nat) : Bool :=
  d.bents.any (fun e => e.2.ddrWin.any (fun w => bitOf w.2 31 && fieldOf w.2 9 0 == r))

/-- The attribute of a region changed (R274): a change to TAGGED fills the carve-out, and accesses to the region wait until it is done. -/
def Dev.setAttr (d : Dev) (r : Nat) (tagged : Bool) : Dev :=
  if d.regionTagged r = tagged ∨ d.regionMapped r = true then d
  else (if tagged then d else d.tagsToWords r).onDdr (chanOf r) (fun x => { x with
    regattr := setBit x.regattr (r % 256) tagged
    tagInit := if tagged then x.tagInit ++ [r % 256] else x.tagInit.filter (fun k => k != r % 256) })

/-- Word k of controller n written. -/
def Dev.ddrRegWrite (d : Dev) (req : ReqId) (n k : Nat) (v : W32) : Dev :=
  if k = 5 then d.onDdr n (fun x => if bitOf v 31 then { x with ueValid := false } else x)
  else if k = 7 then (if d.rwl req then d.onDdr n (fun x => { x with scrubHours := atLeastOne (bitsAt 8 v 24), scrubEn := bitOf v 0 }) else d)
  else if 0x100 ≤ k ∧ k < 0x108 then
    if req == ksReq then (List.range 32).foldl (fun x j => x.setAttr (256 * n + 32 * (k - 0x100) + j) (bitOf v j)) d else d
  else d

/-! ### Ports (R335, R336) -/

/-- Word k of the PCI_ registers of a port written; words 5 to 8 of port B in I3C mode ignore it. -/
def PortSt.pciWrite (t : PortSt) (pcie : Bool) (k : Nat) (v : W32) : PortSt :=
  if k = 0 then { t with b0host := bitOf v 31, b4keep := bitOf v 1, tagKeep := bitOf v 0 }
  else if k = 1 then (if fieldOf v 9 0 ≤ 896 then { t with b4base := bitsAt 10 v 0 } else t)
  else if k = 5 ∧ pcie = true then { t with ptmEn := bitOf v 31, ptmInt := BitVec.ofNat 16 (max 1 (min 1000 (fieldOf v 15 0))) }
  else t

/-! ### The centre node -/

/-- TB_CTL written (R81): SRC 10b only on a unit that is not HEAD, 11b only with two endpoints. The old source disciplines the counter
no longer: its correction ends, and every source counts its good exchanges anew (R328, R394). -/
def Dev.putTbSrc (d : Dev) (s : BitVec 2) : Dev :=
  if s = d.tbSrc ∨ (s = 2#2 ∧ d.chain.head = true) ∨ (s = 3#2 ∧ d.bifurc = false) then d
  else { d with
    tbSrc := s, tbLock := false, tbSlew := 0, portA := { d.portA with ptmGood := 0 }, portB := { d.portB with ptmGood := 0 },
    chain := { d.chain with good := 0 } }

/-- FLT_ words written (R444, R445, R449). -/
def Dev.fltWrite (d : Dev) (req : ReqId) (k : Nat) (v : W32) : Dev :=
  let ks := req == ksReq
  if k = 4 then (if d.rwl req then ((d.onFlt (fun f => { f with notice := bitsAt 16 v 0 }))).syncNotices else d)
  else if k = 8 then
    (if ks then (if bitOf v 31 then d.clearAllLatches else d.clearLatches [fieldOf v 9 0]) else d)
  else if k = 9 then
    (if ks then
      let d1 := if bitOf v 1 then d.grace else d
      if bitOf v 0 then d1.kick else d1
    else d)
  else if 0x400 ≤ k ∧ k < 0x700 ∧ fltNamed (k - 0x400) = true ∧ d.rwl req = true then
    d.onFlt (fun f => f.onSrc (k - 0x400) (fun x => { x with sev := some (BitVec.ofNat 3 (min 4 (fieldOf v 2 0))) }))
  else d

/-- A ceiling as written: R435 lists 40 to 210, and a value outside becomes the nearer end (DESIGN CHOICE, log entry 144). -/
def clampWatts (v : Byte) : Byte := if v.toNat < 40 then 40#8 else if 210 < v.toNat then 210#8 else v

/-- PWR_ words written (R435): VALID of PWR_REFUSER by any requester, the settings by Keystone. -/
def Power.write (p : Power) (ks : Bool) (k : Nat) (v : W32) : Power :=
  if k = 5 then (if bitOf v 31 then { p with refValid := false } else p)
  else if !ks then p
  else match k with
    | 1 => { p with p1dwell := bitsAt 8 v 24, viaOk := bitOf v 0 }
    | 2 => { p with ceil := clampWatts (bitsAt 8 v 0) }
    | 6 => { p with wakeEn := bitsAt 8 v 0 }
    | 7 => { p with alarm := v }
    | 11 => { p with gateDwell := bitsAt 16 v 0 }
    | _ => p

/-- A selection given to a pin (R499, R501): one that is unchanged has no effect; any other clears the count, after 20 ns in which a pin already
enabled is held low. -/
def PlbPin.choose (p : PlbPin) (en event : Bool) (div : BitVec 4) (signal : BitVec 12) (now : Nat) : PlbPin :=
  let q : PlbPin := { p with en := en, event := event, div := div, signal := signal }
  if q = p then p else
    { q with count := 0#16, ovf := false, shown := false, toggled := none, changed := if p.shown then some now else p.changed,
             lowUntil := if p.en then now + 16 else now }

/-- PLB_PIN written by Keystone (R501). -/
def Dev.plbWrite (d : Dev) (j : Nat) (v : W32) : Dev :=
  { d with plb := Tab.modify {} d.plb j (fun p =>
    let q := p.choose (bitOf v 31) (bitOf v 30) (bitsAt 4 v 26) (bitsAt 12 v 0) d.clk
    if bitOf v 25 then { q with ovf := false } else q) }

/-- VIA_ words written (R396). -/
def Dev.viaWrite (d : Dev) (req : ReqId) (k : Nat) (v : W32) : Dev :=
  let pctl := fun (p : ViaPort) =>
    let d1 := if d.rwl req then d.viaEnable p (bitOf v 31) (bitOf v 30) else d
    if bitOf v 29 then d1.viaRetrain p 0#5 else d1
  if k = 1 then (if d.rwl req then d.onChain (fun c => { c with cfSev := BitVec.ofNat 3 (fieldOf v 2 0) }) else d)
  else if k = 0x10 then pctl .up
  else if k = 0x20 then pctl .dn
  else d

/-- A write-sequencer word written by Keystone (R267). -/
def Dev.wsWrite (d : Dev) (req : ReqId) (k : Nat) (v : W32) : Dev :=
  if req != ksReq then d
  else if k < 16 then d.onWs (fun s => { s with buf := Tab.put s.buf k v })
  else if k = 16 then d.onWs (fun s => { s with addr := v })
  else if k = 17 then d.wsCommand req (fieldOf v 1 0)
  else d

/-- Device word w written whole for a requester (R240). -/
def Dev.regWrite (d : Dev) (req : ReqId) (w : Nat) (v : W32) : Dev :=
  let ks := req == ksReq
  if 0x08200000 ≤ w ∧ w < 0x08280000 then d.bentWrite req ((w - 0x08200000) / 0x1000) (w % 0x1000) v
  else if 0x08100000 ≤ w ∧ w < 0x08180000 then d.spanWrite req ((w - 0x08100000) / 0x10000) (w % 0x10000) v
  else if w = 0x08000104 then (if d.rwl req then d.onMode (fun m => { m with regrade := bitOf v 31, holdComm := bitOf v 30 }) else d)
  else if w = 0x08000110 then d.rstctl req (fieldOf v 31 30) (fieldOf v 22 12) (fieldOf v 6 0)
  else if w = 0x08002000 then
    (if d.rwl req then { d with abtStarve := atLeastOne (bitsAt 8 v 24), abtHigh := BitVec.ofNat 6 (clampHigh (fieldOf v 5 0)) } else d)
  else if 0x08003000 ≤ w ∧ w < 0x08003013 then d.wsWrite req (w - 0x08003000) v
  else if 0x08004000 ≤ w ∧ w < 0x0800409A then
    d.onXing (w - 0x08004000) (fun x => { x with unstable := x.unstable && !bitOf v 31, ovr := x.ovr && !bitOf v 30 })
  else if w = 0x08010002 then (if d.rwl req then d.putTbSrc (bitsAt 2 v 0) else d)
  else if 0x08030000 ≤ w ∧ w < 0x08040000 then d.fltWrite req (w - 0x08030000) v
  else if 0x08040000 ≤ w ∧ w < 0x08050000 then d.onPwr (fun p => p.write ks (w - 0x08040000) v)
  else if w = 0x08050003 then (if ks ∧ bitOf v 0 = true then { d with sec := { d.sec with dbgScope := 0#4 } } else d)
  else if 0x08060000 ≤ w ∧ w < 0x08060008 then (if ks then d.plbWrite (w - 0x08060000) v else d)
  else if 0x08070000 ≤ w ∧ w < 0x08080000 then d.viaWrite req (w - 0x08070000) v
  else if 0x08080000 ≤ w ∧ w < 0x08080100 then (if ks then d.onPort .a (fun t => t.pciWrite true (w - 0x08080000) v) else d)
  else if 0x08080100 ≤ w ∧ w < 0x08080200 then (if ks then d.onPort .b (fun t => t.pciWrite d.bifurc (w - 0x08080100) v) else d)
  else if 0x08090000 ≤ w ∧ w < 0x08094000 then d.ddrRegWrite req ((w - 0x08090000) / 0x1000) (w % 0x1000) v
  else d

/-! ### A write of some lanes -/

/-- Whether a write of device word w acts bit by bit, so that a lane that is not written counts as zeros: W1C, W1S and WO words. -/
def actsOnOnes (w : Nat) : Bool :=
  if 0x08200000 ≤ w ∧ w < 0x08280000 then
    let k := w % 0x1000
    decide (0x313 ≤ k) && decide (k < 0x319) || k == 0x31A || k == 0xC02
  else if 0x08100000 ≤ w ∧ w < 0x08180000 then
    let k := w % 0x10000
    k == 0x202 || (decide (0x1000 ≤ k) && decide (k < 0x1800) && (k % 16 == 3 || k % 16 == 8))
  else (decide (0x08004000 ≤ w) && decide (w < 0x0800409A)) || w == 0x08040005
    || (decide (0x08090000 ≤ w) && decide (w < 0x08094000) && w % 0x1000 == 5)

/-- A word with the lanes of a mask taken from v. -/
def mergeLanes (cur v : W32) (lanes : BitVec 4) : W32 :=
  (List.range 4).foldl (fun x l => if lanes.getLsbD l then setLane x l (laneOf v l) else x) cur

/-- Device register w written by a part (R240): lanes that the part does not write keep their value (DEDUCED, log entry 29); a part that writes no
lane, a tag write, does nothing (R111). -/
def Dev.regPart (d : Dev) (req : ReqId) (p : WordPart) : Dev :=
  let w := p.addr.toNat
  if p.lanes = 0#4 then d
  else if p.lanes = 15#4 then d.regWrite req w p.word.pay
  else d.regWrite req w (mergeLanes (if actsOnOnes w then 0#32 else (d.regRead req w).pay) p.word.pay p.lanes)

/-! ### Any device word (R216, R236, R240) -/

/-- A part of a device word written for a requester: `.word` stands for ACK; a code store word takes no write but the sequencer's
(R260). -/
def Dev.wordWrite (d : Dev) (p : WordPart) (f : Found) (req : ReqId) : Acc × Eff :=
  let w := p.addr.toNat
  if d.wordAsleep w then (.absent, (d, []))
  else if isCode w then (.word wordZero, (d, []))
  else if isDeck w || isBentSram w then
    match d.sramWrite p f req with
    | (true, e) => (.word wordZero, e)
    | (false, e) => (.error 1#4, e)
  else if isDevReg w then (.word wordZero, (d.regPart req p, []))
  else (.absent, (d, []))

end Sys2Proof.Machine
end

