-- ==== Sys2Proof/Machine/Deck.lean ====
section
/-! DEFINITION. The rows of the Deck: the store buffer's drain, the targets' grants and the responses (spec 07_deck_and_traffic.md R217 to
R237; 04 R138 to R142; 08 R244 to R246; 10 R320; 12 R387). -/
namespace Sys2Proof.Machine

/-! ### STORE_BUFFER_SEND (R138, R217) -/

/-- The oldest buffered store taken out of the buffer. -/
def Core.popStore (k : Core) : Core := { k with stores := k.stores.tail }

/-- The transactions of stores that no core will send again. -/
def Dev.dropUnsent (d : Dev) (es : List StoreEntry) : Dev :=
  es.foldl (fun x e => match e.txn with | some id => x.dropTxn id | none => x) d

/-- Whether a buffered store is not on its way to its target: not sent, or refused (R230). -/
def Dev.unsent (d : Dev) (e : StoreEntry) : Bool :=
  match e.txn with
  | none => true
  | some id => ((d.txn id).map (fun t => match t.st with
      | .backoff _ | .answered .retry => true
      | .queued | .path _ | .sent | .remote | .answered _ => false)).getD false

/-- A MEM_ERROR of the instruction numbered q stops a core that runs (R245, R246): no younger store is sent after it, younger loads write
nothing, a younger divide ends; a younger store on its way is not sent again. -/
def Dev.memError (d : Dev) (c q : Nat) (pc : W32) (t : TrapRec) : Dev :=
  let k := d.core c
  if k.status == .stopped || k.status == .gated then d
  else
    let gone := k.stores.filter (fun e => decide (q < e.seq) && d.unsent e)
    let d1 := d.onCore c (fun k => { k with
      stores := (k.stores.filter (fun e => !(decide (q < e.seq) && d.unsent e))).map (fun e => if q < e.seq then { e with dead := true } else e)
      loads := k.loads.map (fun e => if q < e.seq then { e with dead := true } else e)
      div := match k.div with | some v => if q < v.seq then none else some v | none => none })
    (d1.dropUnsent gone).takeTrap c pc t

/-- The words of the own bent's SRAM that a buffered store writes. -/
def Dev.ownWords (d : Dev) (c : Nat) (e : StoreEntry) : List Nat :=
  e.parts.filterMap (fun p => match d.placeOf c p.addr.toNat with
    | .own w => some w
    | .priv _ | .ctl _ | .blank | .deck _ | .ddr _ _ | .remote _ _ => none)

/-- A buffered store to the own bent's SRAM applied (R33, R244): a refused part stops the core with MEM_ERROR (R245). -/
def Dev.storeOwn (d : Dev) (c : Nat) (e : StoreEntry) (f : Finds) : Eff :=
  let req : ReqId := BitVec.ofNat 12 c
  let go := fun (x : Option (Nat × W32) × Eff) (q : Nat × WordPart) =>
    let a := match d.placeOf c q.2.addr.toNat with
      | .own w => w
      | .priv _ | .ctl _ | .blank | .deck _ | .ddr _ _ | .remote _ _ => q.2.addr.toNat
    match x.2.1.sramWrite { q.2 with addr := BitVec.ofNat 32 a } (foundIn f q.1) req with
    | (true, y) => (x.1, (y.1, x.2.2 ++ y.2))
    | (false, y) => ((match x.1 with | some z => some z | none => some (q.1, q.2.addr)), (y.1, x.2.2))
  let out := ((List.range e.parts.length).zip e.parts).foldl go (none, (d.onCore c Core.popStore, []))
  match out.1 with
  | none => out.2
  | some (i, _) =>
    let a := if i = 0 then e.addr else ((e.addr + 1#32).setWidth 16).setWidth 32
    (out.2.1.memError c e.seq e.pc (trapMemError 1#4 a (i == 1)), [])

/-- The transaction of a buffered store (R217). -/
def Dev.storeTxn (d : Dev) (c : Nat) (e : StoreEntry) (id : Nat) : Txn :=
  let pl := d.placeOf c ((e.parts.head?.map (fun p => p.addr.toNat)).getD 0)
  let ty := if e.tagOnly then .tw else if pl.isQueue then .qop else .wr
  let t := { newTxn id (BitVec.ofNat 12 c) e.cls ty 0#32 (.store (BitVec.ofNat 11 c)) with paced := (d.core c).psr.paced, count := e.parts.length }
  let at_ := fun (w : Nat) => e.parts.map (fun p => if e.parts.length = 1 then { p with addr := BitVec.ofNat 32 w } else p)
  match pl with
  | .deck w => { t with addr := BitVec.ofNat 32 w, parts := at_ w }
  | .ddr r o => { t with addr := BitVec.ofNat 32 o, parts := at_ o, ddr := some (r, o) }
  | .remote u w => { t with addr := BitVec.ofNat 32 w, parts := at_ w, dest := some u }
  | .priv _ | .own _ | .ctl _ | .blank => t

/-- The oldest buffered store of a core leaves the buffer: inside the bent it is accepted once the bank's arbiter grants it (R33, R247); else it is
sent, and no other leaves before its target has accepted it (R138). -/
def Dev.storeSend (d : Dev) (c : Nat) (f : Finds) : Eff :=
  match (d.core c).stores with
  | [] => (d, [])
  | e :: r =>
    if e.txn.isSome then (d, [])
    else match d.placeOf c ((e.parts.head?.map (fun p => p.addr.toNat)).getD 0) with
      | .own _ =>
        let claim := d.nearClaim c e.seq e.cls .wr (d.ownWords c e)
        if claim.1 then claim.2.storeOwn c e f else (claim.2, [])
      | .ctl k =>
        let p := e.parts.headD (storePart 0 0#4 false wordZero)
        let a := 0x08200000 + 0x1000 * bentOf c + k
        ((d.onCore c Core.popStore).regPart (BitVec.ofNat 12 c) { p with addr := BitVec.ofNat 32 a }, [])
      | .priv _ | .blank => (d.onCore c Core.popStore, [])
      | .deck _ | .ddr _ _ | .remote _ _ =>
        ((d.onCore c (fun k => { k with stores := { e with txn := some d.nextId } :: r })).issueTxn (d.storeTxn c e), [])

/-- STORE_BUFFER_SEND (R138). -/
def execStoreBufferSend (c : CoreId) (found : Finds) (s : State) : Host.Outcome State Fault Refusal :=
  s.commit (settleEff s.mem (s.dev.storeSend c.toNat found))

/-! ### Grants at a target (R218, R220, R224 to R229) -/

/-- The address of word i of a transaction. -/
def Txn.addrAt (t : Txn) (i : Nat) : W32 :=
  match t.parts with
  | [] => t.addr + BitVec.ofNat 32 i
  | p :: ps => (((p :: ps)[i]?).getD p).addr

/-- What the words of a transaction have met so far. -/
structure Served where
  words : List Word := []
  err : Option (BitVec 4 × W32) := none
  absent : Bool := false
  wait : Bool := false
  d : Dev
  ops : List MemOp := []

/-- An error noted: the first one is reported (R218). -/
def Served.fail (s : Served) (det : BitVec 4) (a : W32) : Served :=
  { s with err := match s.err with | some e => some e | none => some (det, a) }

/-- One word of a read (R244: the words that are not poisoned are read in the normal way). -/
def Served.read (m : List Host.Cell) (t : Txn) (f : Finds) (s : Served) (i : Nat) : Served :=
  let got := match t.ddr with
    | some (r, o) => (s.d.ddrRead m r (o + i), s.d)
    | none => s.d.wordRead m (t.addrAt i).toNat (foundIn f i) t.req
  let s1 := { s with d := got.2 }
  match got.1 with
  | .word x => { s1 with words := s.words ++ [x] }
  | .error e => s1.fail e (match t.ddr with | some (_, o) => BitVec.ofNat 32 (o + i) | none => t.addrAt i)
  | .absent => { s1 with absent := true }
  | .wait => { s1 with wait := true }

/-- One word of a write (R244: the words that are not poisoned are applied). -/
def Served.write (t : Txn) (f : Finds) (s : Served) (e : Nat × WordPart) : Served :=
  let p := e.2
  let got := match t.ddr with
    | some (r, _) => s.d.ddrWrite r p.addr.toNat p
    | none => s.d.wordWrite p (foundIn f e.1) t.req
  let s1 := { s with d := got.2.1, ops := s.ops ++ got.2.2 }
  match got.1 with
  | .word _ => s1
  | .error e => s1.fail e p.addr
  | .absent => { s1 with absent := true }
  | .wait => { s1 with wait := true }

/-- The D bit of a response (R228). -/
def Txn.dBit (t : Txn) : Bool := t.delayed && t.cls == 1#2

/-- Whether a transaction is a split store of a core, of which neither half is applied when one meets an error (R140). -/
def Txn.splitStore (t : Txn) : Bool :=
  match t.origin with
  | .store _ => decide (1 < t.parts.length)
  | _ => false

/-- The response to what a transaction met, none while it has to wait. -/
def Served.answer (s : Served) (t : Txn) (reads : Bool) : Option (Resp × Eff) :=
  if s.wait then none
  else if s.absent then some (.notPresent, (s.d, s.ops))
  else match s.err with
    | some (e, a) => some (.error e a, (s.d, if t.splitStore then [] else s.ops))
    | none => some (if reads then .data t.dBit s.words else .ack t.dBit, (s.d, s.ops))

/-- The words of a read. -/
def Txn.size (t : Txn) : Nat := if t.parts.isEmpty then t.count else t.parts.length

/-- A read at its target; of DDR5 after its bursts (R276, R277), of code store after the reads of its lines (R259). -/
def Dev.serveRead (d : Dev) (m : List Host.Cell) (f : Finds) (t : Txn) : Option (Resp × Eff) :=
  let n := t.size
  let d1 := match t.ddr with
    | some (r, o) => d.ddrOpen r ((List.range n).map (fun i => { o := o + i, f := foundIn f i, tagF := foundIn f (n + i), need := true })) t.req
    | none => d.codeOpen ((List.range n).map (fun i => (t.addrAt i).toNat)) f t.req
  ((List.range n).foldl (Served.read m t f) { d := d1 }).answer t true

/-- A write that changes no word of its target by itself: the sequencer's words, which the bank writes as a line (R264), and a debug access to a word
without a writable field (R9, R494). -/
def Txn.noWrite (t : Txn) : Bool :=
  match t.origin with
  | .sequencer => true
  | .debug => !bentWritable (t.addr.toNat % 0x1000)
  | .load _ | .store _ | .signal _ | .hostWrite _ | .hostRead _ _ | .viaduct _ _ _ _ | .fill _ _ | .paced _ _ | .keystone _ | .copy _ | .move _ | .engine | .discard =>
    false

/-- A write or a tag write at its target; to DDR5 by read-modify-write (R276). -/
def Dev.serveWrite (d : Dev) (f : Finds) (t : Txn) : Option (Resp × Eff) :=
  if t.noWrite then some (if d.wordAsleep t.addr.toNat then .notPresent else .ack t.dBit, (d, [])) else
  let ps := (List.range t.parts.length).zip t.parts
  let d1 := match t.ddr with
    | some (r, _) => d.ddrOpen r (ps.flatMap (fun e => d.ddrUseOf r e.2 (foundIn f e.1) (foundIn f (t.parts.length + e.1)))) t.req
    | none => d
  (ps.foldl (Served.write t f) { d := d1 }).answer t false

/-- An event at its bent (R192, R236). -/
def Dev.serveEvent (d : Dev) (t : Txn) : Option (Resp × Eff) :=
  match t.ev with
  | none => some (.ack t.dBit, (d, []))
  | some (b, n) =>
    if d.wordAsleep (0x08200000 + 0x1000 * b.toNat) then some (.notPresent, (d, []))
    else some (.ack t.dBit, (match t.evKind with
      | .event => if isLatchedSrc n.toNat then d.biuEvent b.toNat n.toNat else d
      | .level v => d.levelInto b.toNat n.toNat v
      | .item => d.biuEvent b.toNat n.toNat, []))

/-- The transaction with a number granted at its target, if it is one that a row serves and its turn has come. -/
def Dev.grant (d : Dev) (id : Nat) (ok : Txn → Bool) (f : Txn → Option (Resp × Eff)) : Eff :=
  match d.txn id with
  | none => (d, [])
  | some t =>
    if !(ok t && t.waits) then (d, [])
    else if t.overfull then (d.turnAway t, [])
    else if !d.mayGrant t then (d, [])
    else match f t with
      | none => (d, [])
      | some (r, e) => ((e.1.granted t).answer id r, e.2)

/-- The queue port that a QOP addresses (R283). -/
def Txn.port (t : Txn) : Option (Nat × Nat) :=
  match t.ty with
  | .qop => quePort t.addr.toNat
  | .rd | .wr | .tw | .fill | .evt => none

/-- A QOP to a reserved port word, which is a plain access (R284). -/
def Txn.reservedPort (t : Txn) : Bool := match t.port with | some (_, k) => decide (11 ≤ k) | none => false

/-- Whether a transaction is one of a command that Keystone serves, which its own row carries out. -/
def Txn.byKeystone (t : Txn) : Bool :=
  match t.origin with
  | .keystone _ => true
  | .load _ | .store _ | .signal _ | .hostWrite _ | .hostRead _ _ | .viaduct _ _ _ _ | .fill _ _ | .paced _ _ | .copy _ | .move _ | .engine | .sequencer | .debug
  | .discard => false

/-- The transactions that each row serves. -/
def Txn.isRd (t : Txn) : Bool :=
  !t.byKeystone && match t.ty with
  | .rd => true
  | .qop => t.reservedPort && t.parts.isEmpty
  | .wr | .tw | .fill | .evt => false
def Txn.isWr (t : Txn) : Bool :=
  !t.byKeystone && match t.ty with
  | .wr => true
  | .qop => t.reservedPort && !t.parts.isEmpty
  | .rd | .tw | .fill | .evt => false
def Txn.isTw (t : Txn) : Bool :=
  match t.ty with
  | .tw => true
  | .rd | .wr | .fill | .qop | .evt => false
def Txn.isEvt (t : Txn) : Bool :=
  match t.ty with
  | .evt => true
  | .rd | .wr | .tw | .fill | .qop => false

/-- DECK_RD (R217, R218). -/
def execDeckRd (id : Nat) (found : Finds) (s : State) : Host.Outcome State Fault Refusal :=
  s.commit (settleEff s.mem (s.dev.grant id Txn.isRd (s.dev.serveRead s.mem found)))

/-- DECK_WR (R217, R218). -/
def execDeckWr (id : Nat) (found : Finds) (s : State) : Host.Outcome State Fault Refusal :=
  s.commit (settleEff s.mem (s.dev.grant id Txn.isWr (s.dev.serveWrite found)))

/-- DECK_TW (R217, R218). -/
def execDeckTw (id : Nat) (found : Finds) (s : State) : Host.Outcome State Fault Refusal :=
  s.commit (settleEff s.mem (s.dev.grant id Txn.isTw (s.dev.serveWrite found)))

/-- DECK_EVT (R193, R217, R218). -/
def execDeckEvt (id : Nat) (s : State) : Host.Outcome State Fault Refusal :=
  s.commit (settleEff s.mem (s.dev.grant id Txn.isEvt s.dev.serveEvent))

/-! ### DECK_STARVE (R226) -/

/-- Where a transaction waits for a grant: the span whose hub, target or bent link it is, or 8 for the abutment's arbiters and the centre node. -/
def Txn.waitsIn (t : Txn) : Option Nat :=
  if t.waits then t.target.map (fun g => g.1)
  else match t.gate with
    | some (.link b) => some (spanOf b)
    | some (.hub s) => some s
    | some .centre | some (.port _) => some 8
    | none => none

/-- The starvation limit there, in clock ticks. -/
def Dev.starveLimit (d : Dev) (n : Nat) : Nat := 800 * (if n = 8 then d.abtStarve.toNat else (d.span n).starve.toNat)

/-- A starved request recorded and raised. -/
def Dev.noteStarve (d : Dev) (n : Nat) (req : ReqId) : Dev :=
  let d1 := if n = 8 then { d with abtReq := req, abtCnt := satInc d.abtCnt }
    else d.onSpan n (fun s => { s with starveReq := req, starveCnt := satInc s.starveCnt })
  d1.raise 608 n (req.setWidth 16)

/-- DECK_STARVE: a C1 or C2 request has waited longer than the limit; once per request. -/
def execDeckStarve (id : Nat) (s : State) : Host.Outcome State Fault Refusal :=
  let d := s.dev
  s.keep (match d.txn id with
    | none => d
    | some t =>
      match t.waitsIn with
      | none => d
      | some n =>
        if t.cls != 0#2 && !t.starved && decide (t.since + d.starveLimit n < d.clk) then
          (d.onTxn id (fun u => { u with starved := true })).noteStarve n t.req
        else d)

/-! ### Responses at a core (R132, R142, R219, R237, R245, R246) -/

/-- A load's response: the entry is freed; a killed load writes nothing (R142); one that is younger than the divide in EX has completed
past it. -/
def Core.takeData (k : Core) (id : Nat) (ws : List Word) : Core :=
  match k.loads.find? (fun e => e.txn == id) with
  | none => k
  | some e =>
    let k1 := { k with loads := k.loads.filter (fun x => x.txn != id) }
    if e.dead then k1
    else
      let k2 := k1.loadWrite e.dest ws
      match k2.div with
      | some v => if v.seq < e.seq then { k2 with div := some { v with younger := true } } else k2
      | none => k2

/-- A store's response: its entry leaves the buffer. -/
def Core.takeStore (k : Core) (id : Nat) : Core := { k with stores := k.stores.filter (fun e => e.txn != some id) }

/-- The trap address of an access whose second half, at word a, met the error (R140). -/
def secondHalf (t : Txn) (a : W32) : Bool :=
  match t.parts with
  | [_, p] => p.addr == a
  | _ => false

/-- ERROR at a core: a killed load is discarded. -/
def Dev.coreError (d : Dev) (c : Nat) (t : Txn) (det : BitVec 4) (a : W32) : Dev :=
  let k := d.core c
  let second := secondHalf t a
  let at_ := fun (x : W32) => if second then ((x + 1#32).setWidth 16).setWidth 32 else x
  match k.loads.find? (fun e => e.txn == t.id), k.stores.find? (fun e => e.txn == some t.id) with
  | some e, _ =>
    let d1 := d.onCore c (fun x => { x with loads := x.loads.filter (fun y => y.txn != t.id) })
    if e.dead then d1 else d1.memError c e.seq e.pc (trapMemError det (at_ e.addr) second)
  | none, some e => (d.onCore c (fun x => x.takeStore t.id)).memError c e.seq e.pc (trapMemError det (at_ e.addr) second)
  | none, none => d

/-! ### Responses at a host port and at a Viaduct port (R308, R320, R387, R388) -/

/-- The words of a completion: payloads, or for a read of the tag aperture one tag byte each. -/
def completionWords (tags : Bool) (ws : List Word) : List Word :=
  if tags then ws.map (fun w => { pay := w.tag.setWidth 32, tag := 0#8 }) else ws.map (fun w => { pay := w.pay, tag := 0#8 })

/-- A completion sent on a port. -/
def PortSt.complete (t : PortSt) (ws : List Word) (ep : Bool) : PortSt := { t with lastCpl := ws, lastCplUr := false, lastCplEp := ep }

/-- Completions whose words have all come are sent, in the order of the requests (R319); the first argument bounds their number. -/
def PortSt.sendCpls : Nat → PortSt → PortSt
  | 0, t => t
  | n + 1, t =>
    match t.reads with
    | [] => t
    | r :: rest =>
      if r.ids.all (fun i => r.got.any (fun e => e.1 == i)) then
        PortSt.sendCpls n (({ t with reads := rest } : PortSt).complete (if r.ep then [] else r.fixed ++ r.ids.flatMap (fun i => Tab.find [] r.got i)) r.ep)
      else t

/-- The answer to a transaction of a host's read (R319, R320). -/
def PortSt.gotRead (t : PortSt) (id : Nat) (ws : List Word) (ep : Bool) : PortSt :=
  PortSt.sendCpls t.reads.length
    { t with reads := t.reads.map (fun r => if r.ids.contains id then { r with got := Tab.put r.got id ws, ep := r.ep || ep } else r) }

/-- NOT_PRESENT at a port: counted; a read completes with ones (R320). -/
def Dev.portAbsent (d : Dev) (p : Port) (id : Nat) (reads : Option Bool) (n : Nat) : Dev :=
  let ones : Bool → Word := fun tags => { pay := if tags then 0xFF#32 else 0xFFFFFFFF#32, tag := 0#8 }
  d.onPort p (fun t =>
    let t1 := { t with errNp := satInc t.errNp }
    match reads with
    | some tags => t1.gotRead id (List.replicate n (ones tags)) false
    | none => t1)

/-- ERROR at a port: counted, logged by AER; a read completes with EP set (R320). -/
def Dev.portError (d : Dev) (p : Port) (id : Nat) (reads : Bool) : Dev :=
  ((d.aerLog p).onPort p (fun t =>
    let t1 := { t with errEp := satInc t.errEp, aerEp := true }
    if reads then t1.gotRead id [] true else t1)).raise 704 (Port.num p) 0#16

/-- A response returned to the unit that sent the transaction, discarded when it is no longer reached. -/
def Dev.relay (d : Dev) (t : Txn) (u : BitVec 4) (req : ReqId) (tag : Byte) (r : Resp) : Dev :=
  if d.reaches u then d.viaSend (d.routeTo u) t.cls u d.chain.unit (.rsp req tag r) else d

/-! ### A response delivered to whoever waits for it -/

/-- The result of a debug access, for the next Capture-DR (R494). -/
def Dev.tapResult (d : Dev) (addr : W32) (err : Bool) (data : W32) : Dev :=
  { d with jtag := { d.jtag with inspErr := err, inspAddr := addr, inspData := data } }

/-- A read of the security engine, or the write of a line, that no target serves: the engine reports the fault source that tells why (R345), the
sequencer ends with RESULT 4 (DESIGN CHOICE, log entry 138). -/
def Dev.engineStopped (d : Dev) (src : Nat) : Dev := { d with sec := { d.sec with rdBad := some src } }
def Dev.wsLost (d : Dev) : Dev := if d.ws.phase == .sending then (d.onWs (fun s => { s with phase := .idle, result := 4#3 })).lineFailed else d

/-- DATA delivered. -/
def Dev.giveData (d : Dev) (t : Txn) (ws : List Word) : Dev :=
  match t.origin with
  | .copy src => d.gotStaged src t.id t.dBit ws
  | .move n => d.moveOn n t.id t.dBit ws
  | .engine => d.engineRead
  | .debug => d.tapResult t.addr false (ws.headD wordZero).pay
  | .load c => d.onCore c.toNat (fun k => k.takeData t.id ws)
  | .store c => d.onCore c.toNat (fun k => k.takeStore t.id)
  | .hostRead p tags => d.onPort p (fun x => x.gotRead t.id (completionWords tags ws) false)
  | .viaduct _ u req tag => d.relay t u req tag (.data t.dBit ws)
  | .signal _ | .hostWrite _ | .fill _ _ | .paced _ _ | .keystone _ | .sequencer | .discard => d

/-- ACK delivered. -/
def Dev.giveAck (d : Dev) (t : Txn) : Dev :=
  match t.origin with
  | .store c => d.onCore c.toNat (fun k => k.takeStore t.id)
  | .viaduct _ u req tag => d.relay t u req tag (.ack t.dBit)
  | .sequencer => d.wsArrived
  | .debug => d.tapResult t.addr false d.jtag.inspData
  | .move n => d.moveOn n t.id t.dBit []
  | .load _ | .signal _ | .hostWrite _ | .hostRead _ _ | .fill _ _ | .paced _ _ | .keystone _ | .copy _ | .engine | .discard => d

/-- NOT_PRESENT delivered. -/
def Dev.giveAbsent (d : Dev) (t : Txn) : Dev :=
  match t.origin with
  | .load c => d.onCore c.toNat (fun k => k.takeData t.id [wordNv, wordNv])
  | .store c => d.onCore c.toNat (fun k => k.takeStore t.id)
  | .hostRead p tags => d.portAbsent p t.id (some tags) t.count
  | .hostWrite p => d.portAbsent p t.id none 0
  | .viaduct _ u req tag => d.relay t u req tag .notPresent
  | .copy _ => d.lostStaged t.id 609
  | .move n => d.moveLost n 609
  | .engine => d.engineStopped 609
  | .sequencer => d.wsLost
  | .debug => d.tapResult t.addr true d.jtag.inspData
  | .signal _ | .fill _ _ | .paced _ _ | .keystone _ | .discard => d

/-- ERROR delivered. -/
def Dev.giveError (d : Dev) (t : Txn) (det : BitVec 4) (a : W32) : Dev :=
  match t.origin with
  | .load c | .store c => d.coreError c.toNat t det a
  | .hostRead p _ => d.portError p t.id true
  | .hostWrite p => d.portError p t.id false
  | .viaduct _ u req tag => d.relay t u req tag (.error det a)
  | .copy _ => d.lostStaged t.id 545
  | .move n => d.moveLost n 545
  | .engine => d.engineStopped 547
  | .sequencer => d.wsLost
  | .debug => d.tapResult t.addr true d.jtag.inspData
  | .signal _ | .fill _ _ | .paced _ _ | .keystone _ | .discard => d

/-- Whether a response carries the D bit. -/
def lateResp : Resp → Bool
  | .data b _ | .ack b => b
  | .retry | .notPresent | .error _ _ => false

/-- A transaction whose response arrives leaves the tracker; a delayed one is counted once (R228, R231). -/
def Dev.arrived (d : Dev) (t : Txn) (r : Resp) : Dev :=
  let d1 := d.leave t
  if lateResp r then d1.countDelay t.req else d1

/-- The response of the transaction with a number taken, if it is of the kind that a row delivers. -/
def Dev.respond (d : Dev) (id : Nat) (f : Dev → Txn → Resp → Dev) : Dev :=
  match d.txn id with
  | none => d
  | some t =>
    match t.st with
    | .answered r => f d t r
    | .queued | .path _ | .sent | .backoff _ | .remote => d

/-- DECK_DATA_RETURN (R218). -/
def execDeckDataReturn (id : Nat) (s : State) : Host.Outcome State Fault Refusal :=
  s.commit (settleEff s.mem (s.dev.respond id (fun d t r =>
    match r with
    | .data _ ws => (d.arrived t r).giveData t ws
    | .ack _ | .retry | .notPresent | .error _ _ => d), []))

/-- DECK_ACK_RETURN (R218, R219). -/
def execDeckAckReturn (id : Nat) (s : State) : Host.Outcome State Fault Refusal :=
  s.commit (settleEff s.mem (s.dev.respond id (fun d t r =>
    match r with
    | .ack _ => (d.arrived t r).giveAck t
    | .data _ _ | .retry | .notPresent | .error _ _ => d), []))

/-- DECK_NOT_PRESENT_RETURN (R237, R320). -/
def execDeckNotPresentReturn (id : Nat) (s : State) : Host.Outcome State Fault Refusal :=
  s.commit (settleEff s.mem (s.dev.respond id (fun d t r =>
    match r with
    | .notPresent => ((d.arrived t r).countNp t.req).giveAbsent t
    | .data _ _ | .ack _ | .retry | .error _ _ => d), []))

/-- DECK_ERROR_RETURN (R245, R320). -/
def execDeckErrorReturn (id : Nat) (s : State) : Host.Outcome State Fault Refusal :=
  s.commit (settleEff s.mem (s.dev.respond id (fun d t r =>
    match r with
    | .error det a => (d.arrived t r).giveError t det a
    | .data _ _ | .ack _ | .retry | .notPresent => d), []))

/-! ### RETRY (R230, R231) -/

/-- The wait after the r-th refusal, in clock ticks: 160 ns doubled at each, at most 5.12 µs. -/
def retryWait (r : Nat) : Nat := if 6 ≤ r then 4096 else 128 * 2 ^ (r - 1)

/-- Whether a transaction is not sent again: a load that R142 has killed, a store younger than a MEM_ERROR (R246). -/
def Dev.deadTxn (d : Dev) (t : Txn) : Bool :=
  match t.origin with
  | .load c => (d.core c.toNat).loads.any (fun e => e.txn == t.id && e.dead)
  | .store c => (d.core c.toNat).stores.any (fun e => e.txn == some t.id && e.dead)
  | .signal _ | .hostWrite _ | .hostRead _ _ | .viaduct _ _ _ _ | .fill _ _ | .paced _ _ | .keystone _ | .copy _ | .move _ | .engine | .sequencer | .debug
  | .discard => false

/-- RETRY: the requester waits and sends the transaction again, at once where it has been raised meanwhile (R223); that of a killed load is
discarded (R142), and so is that of a store which is not sent again (R246). A fill agent, which R230 does not name, waits as the others do (DESIGN
CHOICE, log entry 136). -/
def Dev.takeRetry (d : Dev) (t : Txn) : Dev :=
  let d1 := d.countRetry t.req (t.refusals == 0)
  if d.deadTxn t then (d1.leave t).giveData t []
  else if t.cls != 2#2 then (d1.dropTxn t.id).arrive { t with refusals := t.refusals + 1 }
  else d1.onTxn t.id (fun u => { u with refusals := u.refusals + 1, st := .backoff (d.clk + retryWait (u.refusals + 1)) })

/-- DECK_RETRY_RETURN (R230). -/
def execDeckRetryReturn (id : Nat) (s : State) : Host.Outcome State Fault Refusal :=
  s.commit (settleEff s.mem (s.dev.respond id (fun d t r =>
    match r with
    | .retry => d.takeRetry t
    | .data _ _ | .ack _ | .notPresent | .error _ _ => d), []))

/-- RETRY_RESEND (R230): the wait is over, and the transaction is sent again. -/
def execRetryResend (id : Nat) (s : State) : Host.Outcome State Fault Refusal :=
  let d := s.dev
  s.keep (match d.txn id with
    | none => d
    | some t =>
      match t.st with
      | .backoff u => if u ≤ d.clk then (d.dropTxn id).arrive t else d
      | .queued | .path _ | .sent | .remote | .answered _ => d)

end Sys2Proof.Machine
end

