-- ==== Sys2Proof/Machine/Sem.lean ====
section
/-! DEFINITION. The port semaphore (spec 10_host_ports.md R330 to R334): acquisition, heartbeat, release, lease expiry, ties. -/
namespace Sys2Proof.Machine

/-- The other port. -/
def otherPort : Port → Port
  | .a => .b
  | .b => .a

/-- Whether a port takes a host's accesses: out of reset and in P0 to P2 (R314, R433), its link up; port B in I3C mode has no link
(R336). -/
def Dev.portLive (d : Dev) (p : Port) : Bool :=
  !d.pwr.inReset && decide (d.pwr.pstate.toNat < 3) && (!d.isPcie p || (d.port p).linkUp)

/-- The semaphore changed by f. -/
def Dev.onSem (d : Dev) (f : Sem → Sem) : Dev := { d with sem := f d.sem }

/-- A write or a heartbeat of a port refused: counted in its REFUSALS (R330, R331). -/
def Dev.semRefuse (d : Dev) (p : Port) : Dev := d.onSem (fun m => m.onStat p (fun x => { x with refusals := satInc x.refusals }))

/-- A SEM_ACQ of a port refused with a RESULT. -/
def Dev.acqRefuse (d : Dev) (p : Port) (r : BitVec 3) : Dev :=
  (d.semRefuse p).onSem (fun m => m.onStat p (fun x => { x with result := r }))

/-- The semaphore held by a port with a lease of L ms, which lasts L × 100,000 ticks of 100 MHz (R331). -/
def Dev.semHold (d : Dev) (p : Port) (lease : BitVec 16) (r : BitVec 3) : Dev :=
  d.onSem (fun m => ({ m with holder := some p, lease := lease, expiry := d.clk + 800000 * lease.toNat }).onStat p (fun x => { x with result := r }))

/-- A free semaphore granted; vector 2 is sent on both ports (R326). -/
def Dev.semGrant (d : Dev) (p : Port) (lease : BitVec 16) : Dev :=
  ((d.semHold p lease 1#3).onSem (fun m => { m with grantTick := some (d.clk / 8, p) })).bothVec 2#11

/-- Both ports acquire a free semaphore in one 100 MHz tick (R332): the port named by LOSER wins, and the other becomes LOSER. -/
def Dev.semTie (d : Dev) (p q : Port) (lease : BitVec 16) : Dev :=
  if d.sem.loser = p then ((d.acqRefuse q 3#3).semHold p lease 1#3).onSem (fun m => { m with loser := q, grantTick := none })
  else (d.acqRefuse p 3#3).onSem (fun m => { m with loser := p, grantTick := none })

/-- A raise that the collector has not applied yet withdrawn. -/
def Dev.unraise (d : Dev) (src inst : Nat) : Dev := d.onFlt (fun f => { f with raises := f.raises.filter (fun r => !(r.src == src && r.inst == inst)) })

/-- A heartbeat or an acquisition of the port whose lease ran out in this very tick comes first (R332): the port holds the semaphore as if the lease
had not run out, and the other port's acquisition is refused. The vectors sent stand (DEDUCED, log entry 62). -/
def Dev.semSaved (d : Dev) (p : Port) : Dev :=
  match d.sem.lapsed with
  | some (t, q, lease, old) =>
    if q = p ∧ t = d.clk / 8 then
      let d1 := if d.sem.holder = some (otherPort p) then d.acqRefuse (otherPort p) 3#3 else d
      (d1.onSem (fun m => { m.onStat p (fun _ => old) with holder := some p, lease := lease, grantTick := none, lapsed := none })).unraise 706 (Port.num p)
    else d
  | none => d

/-- SEM_ACQ of a port (R331). -/
def Dev.semAcquire (d0 : Dev) (p : Port) (lease : BitVec 16) : Dev :=
  let d := d0.semSaved p
  if lease = 0#16 ∨ 60000 < lease.toNat then d.acqRefuse p 4#3
  else match d.sem.holder with
    | none => d.semGrant p lease
    | some q =>
      if q = p then d.semHold p lease 2#3
      else if d.sem.grantTick = some (d.clk / 8, q) then d.semTie p q lease
      else (d.acqRefuse p 3#3).onSem (fun m => { m with lateAcq := some (d.clk / 8, p, lease, d.sem.stat p) })

/-- SEM_HB of a port (R331). -/
def Dev.semBeat (d0 : Dev) (p : Port) : Dev :=
  let d := d0.semSaved p
  if d.sem.holder = some p then d.onSem (fun m => { m with expiry := d.clk + 800000 * m.lease.toNat }) else d.semRefuse p

/-- The semaphore free. -/
def Sem.freed (m : Sem) : Sem := { m with holder := none, lease := 0#16, expiry := 0, grantTick := none, lapsed := none }

/-- A lease that has run out noted (R332). -/
def Dev.semLapse (d : Dev) (p : Port) (was : Sem) : Dev := d.onSem (fun m => { m with lapsed := some (d.clk / 8, p, was.lease, was.stat p) })

/-- An acquisition of this tick that was refused because the other port held the semaphore is granted once that port gives it up in the same
tick: releases and expiry come before the acquisitions of ports that do not hold it (R332). -/
def Dev.semLate (d : Dev) : Dev :=
  match d.sem.lateAcq with
  | some (t, p, lease, old) =>
    if t = d.clk / 8 ∧ d.sem.holder = none then (d.onSem (fun m => { m.onStat p (fun _ => old) with lateAcq := none })).semGrant p lease else d
  | none => d

/-- SEM_REL of a port (R331). -/
def Dev.semRelease (d : Dev) (p : Port) (v : W32) : Dev :=
  if bitOf v 0 ∧ d.sem.holder = some p then ((d.onSem Sem.freed).bothVec 2#11).semLate else d

/-- A forced release (R333): FORCED and WHY of the losing port, vector 2 on both ports, SEM_FORCED. -/
def Dev.semForce (d : Dev) (p : Port) (why : BitVec 2) : Dev :=
  (((d.onSem (fun m => m.freed.onStat p (fun x => { x with forced := true, why := why }))).bothVec 2#11).raise 706 (Port.num p)
    (why.setWidth 16)).semLate

/-- Word k of the semaphore registers of a port written through its BAR0 (R334). -/
def Dev.semWrite (d : Dev) (p : Port) (k : Nat) (v : W32) : Dev :=
  match k with
  | 0 => d.semAcquire p (bitsAt 16 v 0)
  | 1 => d.semBeat p
  | 2 => d.semRelease p v
  | 4 => d.onSem (fun m => m.onStat p (fun x => { x with
      forced := x.forced && !bitOf v 28, why := x.why &&& ~~~ (bitsAt 2 v 26) }))
  | _ => d

/-- SEM_LEASE_EXPIRY (R331, R333): the holder's lease has run out. -/
def execSemLeaseExpiry (s : State) : Host.Outcome State Fault Refusal :=
  let d := s.dev
  s.keep (match d.sem.holder with
    | some p => if d.sem.expiry ≤ d.clk then (d.semForce p 1#2).semLapse p d.sem else d
    | none => d)

end Sys2Proof.Machine
end

