-- ==== Sys2Proof/Machine/Bar0.lean ====
section
/-! DEFINITION. Writes of a port's control page (spec 10_host_ports.md R313, R315, R321, R322, R330; 11 R339 to R341): the command doorbell,
the host doorbells, the buffers, the semaphore and PCI_ words. -/
namespace Sys2Proof.Machine

/-- The requester ID of a port (R221). -/
def portReq : Port → ReqId
  | .a => 0x801#12
  | .b => 0x802#12

/-- Whether a port serves a request that needs the Deck or Keystone: in P0 and P1 (R433). -/
def Dev.portServes (d : Dev) (p : Port) : Bool := d.portLive p && decide (d.pwr.pstate.toNat < 2)

/-- A posted write of a port that its target has not accepted yet (R219, R321). -/
def Txn.postedBy (t : Txn) (p : Port) : Bool := t.origin == .hostWrite p && !(t.st matches .answered _)

/-- Whether every posted write that a port received earlier has been accepted (R321). -/
def Dev.portDrained (d : Dev) (p : Port) : Bool := !d.txns.any (fun t => t.postedBy p)

/-- Whether a port takes another request: it has a free tracker entry, and nothing that it took before waits for one (R323, R235). -/
def Dev.portRoom (d : Dev) (p : Port) : Bool := decide ((d.txns.filter (fun t => t.req == portReq p)).length < 256)

/-- A host's request on a port's link brings it out of L1, and the part out of P1 with it (R425, R434). -/
def Dev.portTouched (d : Dev) (p : Port) : Dev :=
  (if (d.port p).l1 then d.leaveP1 else d).onPort p (fun t => { t with l1 := false, l12 := false })

/-- A request that the port cannot serve now: in P2 it wakes the part, and the port holds it (R432, R433). Elsewhere the port does not take it. The
model holds no request: one that is held is a command that comes again (DESIGN CHOICE, log entry 146). -/
def Dev.wakeRequest (d : Dev) (p : Port) : Dev :=
  if d.pwr.pstate = 2#3 ∧ d.portLive p = true then d.wakeBy (match p with | .a => 3 | .b => 4) else d

/-- An Unsupported Request at a port: counted, logged by AER (R313, R317, R322). -/
def Dev.unsupported (d : Dev) (p : Port) : Dev :=
  ((d.aerLog p).onPort p (fun t => { t with errUr := satInc t.errUr, aerUr := true })).raise 704 (Port.num p) 0#16

/-- An Unsupported Request that answers a read. -/
def Dev.unsupportedRead (d : Dev) (p : Port) : Dev :=
  (d.unsupported p).onPort p (fun t => { t with lastCpl := [], lastCplUr := true, lastCplEp := false })

/-! ### B0HOST (R322) -/

/-- A BAR0 write of a requester: while B0HOST is 1 that of another requester than PCI_HOSTRID is dropped, counted and logged; the I3C target has
no requester IDs. -/
def Dev.fromHost (d : Dev) (p : Port) (rid : BitVec 16) (f : Dev → Dev) : Dev :=
  let t := d.port p
  if d.isPcie p && t.b0host && rid != t.hostRid.getD 0#16 then
    ((d.aerLog p).onPort p (fun x => { x with errDrop := satInc x.errDrop, aerUr := true })).raise 704 (Port.num p) 0#16
  else f d

/-! ### CMD_DB (R339 to R341) -/

/-- A write of CMD_DB (R339 step 3, R340, R341). -/
def Dev.doorbell (d : Dev) (p : Port) (v : W32) : Dev :=
  if !bitOf v 0 then d
  else if (d.port p).busy then d.onPort p (fun t => { t with drops := satInc t.drops })
  else
    let d1 := d.onPort p (fun t => { t with busy := true, done := false, dbAt := d.clk, fwdTo := none })
    if d.keystoneUp then d1.leaveP1 else d1.answerBusy p

/-- CMD_DB (R339): the port holds it until the writes before it have been accepted (R321). -/
def execCmdDb (p : Port) (rid : BitVec 16) (val : W32) (s : State) : Host.Outcome State Fault Refusal :=
  let d := s.dev
  s.keep (if d.portServes p && d.portDrained p then (d.portTouched p).fromHost p rid (fun x => x.doorbell p val) else d.wakeRequest p)

/-! ### The semaphore's writes (R322, R331) -/

/-- SEM_ACQ (R331). -/
def execSemAcq (p : Port) (rid : BitVec 16) (val : W32) (s : State) : Host.Outcome State Fault Refusal :=
  s.keep (if s.dev.portLive p then s.dev.fromHost p rid (fun x => x.semWrite p 0 val) else s.dev)

/-- SEM_HB (R331). -/
def execSemHb (p : Port) (rid : BitVec 16) (val : W32) (s : State) : Host.Outcome State Fault Refusal :=
  s.keep (if s.dev.portLive p then s.dev.fromHost p rid (fun x => x.semWrite p 1 val) else s.dev)

/-- SEM_REL (R331). -/
def execSemRel (p : Port) (rid : BitVec 16) (val : W32) (s : State) : Host.Outcome State Fault Refusal :=
  s.keep (if s.dev.portLive p then s.dev.fromHost p rid (fun x => x.semWrite p 2 val) else s.dev)

/-! ### PCI_HDB (R315) -/

/-- A port's transaction in class C1 (R222, R320). -/
def portTxn (p : Port) (ty : TxnType) (addr : W32) (o : Origin) (id : Nat) : Txn := newTxn id (portReq p) 1#2 ty addr o

/-- A write of PCI_HDBb: an event for each bit that is 1 (R315). -/
def Dev.hostDoorbell (d : Dev) (p : Port) (b : BentId) (v : W32) : Dev :=
  ((List.range 16).filter (bitOf v)).foldl (fun x j => x.issueTxn (fun id =>
    { portTxn p .evt 0#32 (.hostWrite p) id with count := 0, ev := some (b, BitVec.ofNat 8 (112 + j)) })) d

/-- PCI_HDB (R315). -/
def execPciHdb (p : Port) (rid : BitVec 16) (b : BentId) (val : W32) (s : State) : Host.Outcome State Fault Refusal :=
  let d := s.dev
  s.keep (if d.portServes p && d.portDrained p && d.portRoom p then (d.portTouched p).fromHost p rid (fun x => x.hostDoorbell p b val) else d.wakeRequest p)

/-! ### Any word of BAR0 (R313) -/

/-- A PCI_ register written through BAR0: only by the semaphore's holder (R330, R335). -/
def Dev.pciWriteHost (d : Dev) (p : Port) (k : Nat) (v : W32) : Dev :=
  if d.sem.holder = some p then d.onPort p (fun t => t.pciWrite (d.isPcie p) k v) else d.semRefuse p

/-- A word of the request buffer written (R341). -/
def PortSt.putReq (t : PortSt) (k : Nat) (v : W32) : PortSt :=
  if t.busy then { t with drops := satInc t.drops } else { t with reqBuf := Tab.put t.reqBuf k v }

/-- Whether a write at a byte offset of BAR0 is one of those that R321 holds. -/
def heldOffset (off : Nat) : Bool := off == 0x1020 || (decide (0x1800 ≤ off) && decide (off < 0x1A00))

/-- The aligned word at a byte offset of a port's BAR0 written (R313). -/
def Dev.bar0Write (d : Dev) (p : Port) (off : Nat) (v : W32) : Dev :=
  if 0x1000 ≤ off ∧ off < 0x1020 then d.semWrite p ((off - 0x1000) / 4) v
  else if off = 0x1020 then d.doorbell p v
  else if off = 0x1024 then d.onPort p (fun t => { t with done := t.done && !bitOf v 30, adone := t.adone && !bitOf v 28 })
  else if 0x1100 ≤ off ∧ off < 0x1124 then d.pciWriteHost p ((off - 0x1100) / 4) v
  else if 0x1800 ≤ off ∧ off < 0x1A00 then d.hostDoorbell p (BitVec.ofNat 7 ((off - 0x1800) / 4)) v
  else if 0x2000 ≤ off ∧ off < 0x3000 then d.onPort p (fun t => t.putReq ((off - 0x2000) / 4) v)
  else if 0x4000 ≤ off ∧ off < 0xC000 ∧ d.isPcie p = true then d.onPort p (fun t => { t with msixTab := Tab.put t.msixTab ((off - 0x4000) / 4) v })
  else d

end Sys2Proof.Machine
end

