-- ==== Sys2Proof/Machine/Trust.lean ====
section
/-! DEFINITION. Solposter images and what the security engine makes of them (spec 16_trust.md R450 to R460): the header, the keys that are
trusted, the order of the checks, the counts. Hashes and signatures are uninterpreted (DESIGN CHOICE, log entry 10). -/
namespace Sys2Proof.Machine

/-! ### Reading an image (R450, R452) -/

/-- The bytes of an image in code store. -/
def imageBytes (m : List Host.Cell) (addr len : Nat) : List Byte :=
  (bytesOfWords ((List.range ((len + 3) / 4)).map (fun i => (Memory.code m (addr + i)).pay))).take len

/-- n bytes of a list from offset o. -/
def bytesAt (bs : List Byte) (o n : Nat) : List Byte := (bs.drop o).take n

/-- A 64-byte digest at offset o, byte i in bits [8i+7:8i]. -/
def hashAt (bs : List Byte) (o : Nat) : BitVec 512 := BitVec.ofNat 512 (leNat bs o 64)

/-- The bytes of a digest. -/
def hashBytes (h : BitVec 512) : List Byte := natBytes h.toNat 64

/-- The image digest (R452). -/
def imageDigest (bs : List Byte) : BitVec 512 := Config.sha512 (bs.take 144 ++ bs.drop 3520)

/-- TYPE, RBCTR and RBIDX of an image. -/
def imageType (bs : List Byte) : Byte := byteAt bs 5
def imageCtr (bs : List Byte) : Byte := byteAt bs 6
def imageIdx (bs : List Byte) : Byte := byteAt bs 7

/-- Whether an image carries its keys (R450). -/
def carriesKeys (ty : Byte) : Bool := ty == 1#8 || ty == 5#8

/-- The byte offset of PAYLOAD (R450). -/
def payloadAt (ty : Byte) : Nat := if carriesKeys ty then 5504 else 3520

/-- TARGET as R451 and R455 have it for a type. -/
def targetGood (ty : Byte) (target len : Nat) : Bool :=
  if ty = 1#8 ∨ ty = 4#8 then target == 0
  else if ty = 2#8 then decide (target < (len - 3520) / 4)
  else target != 0

/-- RBCTR as R451 has it for a type. -/
def counterGood (ty ctr : Byte) : Bool :=
  if ty = 1#8 then ctr == 0#8 else if ty = 5#8 then ctr == 1#8 else decide (2 ≤ ctr.toNat) && decide (ctr.toNat ≤ 31)

/-- Step 1 of R453, for an image whose length is given and a command that allows some types. -/
def headerGood (bs : List Byte) (len : Nat) (types : List Byte) : Bool :=
  let ty := imageType bs
  leNat bs 0 4 == 0x504C4F53 && byteAt bs 4 == 1#8 && types.contains ty && leNat bs 12 4 == len
    && decide ((if carriesKeys ty then 5508 else 3524) ≤ len) && targetGood ty (leNat bs 8 4) len && counterGood ty (imageCtr bs)

/-! ### Trusted keys (R454) -/

/-- A key pair: Ed25519, ML-DSA-65. -/
abbrev KeyPair := List Byte × List Byte

/-- Whether a pair of key hashes is an unrevoked vendor root slot (R454, R456). -/
def Sec.rootHas (c : Sec) (ed ml : BitVec 512) : Bool :=
  (List.range 2).any (fun k =>
    c.rootPresent.getLsbD k && !c.rootRevoked.getLsbD k && ((c.roots[k]?).map (fun r => r.1 == ed && r.2 == ml)).getD false)

/-- Whether a key pair hashes to a pair of digests. -/
def KeyPair.hashesTo (k : KeyPair) (ed ml : BitVec 512) : Bool := Config.sha512 k.1 == ed && Config.sha512 k.2 == ml

/-- The key pair that signs an image, if it is trusted (step 2 of R453). -/
def Sec.signer (c : Sec) (bs : List Byte) : Option KeyPair :=
  let ed := hashAt bs 16
  let ml := hashAt bs 80
  if carriesKeys (imageType bs) then
    let k : KeyPair := (bytesAt bs 3520 32, bytesAt bs 3552 1952)
    if k.hashesTo ed ml && c.rootHas ed ml then some k else none
  else
    match c.cert with
    | none => none
    | some t => t.sets.find? (fun k => KeyPair.hashesTo k ed ml)

/-! ### The checks (R453) -/

/-- What a check finds; `unread` where a word of the image cannot be read and the check cannot be made, with the fault source that tells why
(R259, R345). -/
inductive Verdict where
  | good
  | auth (detail : BitVec 16)
  | rollback (ctr : Byte)
  | unread (src : Nat)
deriving DecidableEq, Repr

/-- Step 3 of R453: both signatures are verified. -/
def signatures (k : KeyPair) (ed ml : List Byte) (digest : BitVec 512) : Verdict :=
  match Config.edVerify k.1 ed digest, Config.mlVerify k.2 ml digest with
  | true, true => .good
  | false, true => .auth 1#16
  | true, false => .auth 2#16
  | false, false => .auth 3#16

/-- The checks of R453 in their order. -/
def Sec.check (c : Sec) (bs : List Byte) (len : Nat) (types : List Byte) : Verdict :=
  if !headerGood bs len types then .auth 5#16
  else match c.signer bs with
    | none => .auth 4#16
    | some k =>
      match signatures k (bytesAt bs 144 64) (bytesAt bs 208 3309) (imageDigest bs) with
      | .good => if (imageIdx bs).toNat < (c.counter (imageCtr bs).toNat).toNat then .rollback (imageCtr bs) else .good
      | v => v

/-- The detail of SEC_AUTH and of the status for a verdict (R437, R453, R467). -/
def Verdict.detail : Verdict → BitVec 16
  | .good => 0#16
  | .auth d => d
  | .rollback c => c.setWidth 16
  | .unread s => BitVec.ofNat 16 s

/-- A check counted, its result recorded, a rejection raised (R467, R437). -/
def Dev.noteCheck (d : Dev) (v : Verdict) : Dev :=
  let c := { d.sec with checks := satInc d.sec.checks, lastDet := v.detail }
  match v with
  | .good => { d with sec := { c with lastRes := 1#4 } }
  | .auth x => ({ d with sec := { c with lastRes := 2#4, fails := satInc c.fails } }).raise 736 0 x
  | .rollback x => ({ d with sec := { c with lastRes := 3#4, fails := satInc c.fails } }).raise 736 0 (0x8000#16 ||| x.setWidth 16)
  | .unread _ => d

/-- The status with which a check ends a command (R349). -/
def Verdict.status : Verdict → BitVec 16
  | .good => stDone
  | .auth _ => stAuthFail
  | .rollback _ => stRollback
  | .unread _ => stFaultActive

/-- The check of an image that lies in code store, when the engine has read it or met a fault source there (R259, R345, R453). -/
def Sec.checkStored (c : Sec) (m : List Host.Cell) (addr len : Nat) (types : List Byte) (bad : Option Nat) : Verdict :=
  match bad with
  | some s => .unread s
  | none => c.check (imageBytes m addr len) len types

/-- The runs of code words that an image takes up. -/
def Image.runs (i : Image) : List (Nat × Nat) := [(i.addr.toNat, (i.len + 3) / 4)]

/-- An image of Keystone's list checked where it lies (R413, R457), its words read: a rejected one leaves the list, and its lines are
free when no loop is bound from it (R413, R460). -/
def Dev.recheckImage (d : Dev) (m : List Host.Cell) (i : Image) (bad : Option Nat) : Verdict × Dev :=
  let v := d.sec.checkStored m i.addr.toNat i.len [i.type] bad
  let d1 := d.noteCheck v
  (v, match v with
    | .good => d1.onKs (fun k => { k with images := k.images.map (fun x => if x.addr == i.addr then { x with verified := true } else x) })
    | .unread _ => d1
    | .auth _ | .rollback _ => d1.dropImage i.addr)

/-! ### Firmware slots (R411, R456, R480) -/

/-- First code word of a firmware slot (R260). -/
def slotBase (slotB : Bool) : Nat := if slotB then 0x02018000 else 0x02000000

/-- The length in bytes of a slot's image, as its header has it, within the slot. -/
def slotLen (m : List Host.Cell) (slotB : Bool) : Nat := min 393216 (Memory.code m (slotBase slotB + 3)).pay.toNat

/-- The check of a firmware slot (R411 step 4, R453): its image read whole. -/
def Dev.checkSlot (d : Dev) (m : List Host.Cell) (slotB : Bool) : Verdict × Dev :=
  let r := d.readSpan (slotBase slotB) ((slotLen m slotB + 3) / 4)
  let v := r.2.sec.checkStored m (slotBase slotB) (slotLen m slotB) [1#8] (if r.1 then some 547 else none)
  (v, r.2.noteCheck v)

/-- The vendor root slot under whose keys a firmware slot is signed (R454, R456). -/
def Sec.rootOf (c : Sec) (m : List Host.Cell) (slotB : Bool) : Option Nat :=
  let bs := imageBytes m (slotBase slotB) 144
  (List.range 2).find? (fun k => ((c.roots[k]?).map (fun r => r.1 == hashAt bs 16 && r.2 == hashAt bs 80)).getD false)

/-- Firmware that carries out a revocation blows the other root slot's revoke bit at its first start (R456). -/
def Dev.revokeOther (d : Dev) (m : List Host.Cell) (slotB revokes : Bool) : Dev :=
  match d.sec.rootOf m slotB with
  | some k => if revokes then { d with sec := { d.sec with rootRevoked := setBit d.sec.rootRevoked (1 - k) true } } else d
  | none => d

end Sys2Proof.Machine
end

