-- ==== Sys2Proof/Machine/Boot.lean ====
section
/-! DEFINITION. BOOT (spec 13_modes_and_bringup.md R411 to R413; 01 R25, R26; 08 R254, R261, R268, R269, R278, R279). -/
namespace Sys2Proof.Machine

/-! ### The firmware slot (R411 step 4, R412) -/

/-- A slot's result as MODE_BOOT codes it (R417): AUTH_FAIL 0005h is a malformed header; a slot of which a word cannot be read counts as
AUTH_FAIL (DESIGN CHOICE, log entry 141). -/
def slotCode : Verdict → BitVec 4
  | .good => 1#4
  | .auth x => if x = 5#16 then 4#4 else 2#4
  | .rollback _ => 3#4
  | .unread _ => 2#4

/-- MODE_BOOT's result of a slot (R417); true is slot B. -/
def Dev.noteSlot (d : Dev) (slotB : Bool) (v : Verdict) : Dev :=
  d.onMode (fun m => if slotB then { m with resB := slotCode v } else { m with resA := slotCode v })

/-- BOOT step 4 (R411): the active slot checked, and after a failure the other one: the slot that verifies, whether both were tried. -/
def Dev.trySlots (d : Dev) (m : List Host.Cell) : Option Bool × Bool × Dev :=
  let a := d.ks.slotB
  let e := d.checkSlot m a
  let d1 := e.2.noteSlot a e.1
  if e.1 = .good then (some a, false, d1)
  else
    let f := d1.checkSlot m (!a)
    (if f.1 = .good then some (!a) else none, true, f.2.noteSlot (!a) f.1)

/-! ### The spare record (R25, R254, R261, R268) -/

/-- A bent's recorded map loaded. -/
def Dev.loadMap (d : Dev) (e : SpareMap) : Dev :=
  d.onBent e.bent (fun x =>
    let a := match e.ageing with
      | some v => { x.scr with ageing := v ++ 0#24, ageingKnown := true }
      | none => x.scr
    { x with phys := e.phys, seq := e.seq, spareFree := e.spareFree, retired := e.retired, scr := a })

/-- A recorded row repair applied again. -/
def Dev.loadRow (d : Dev) (e : SramRef × Nat × Nat) : Dev :=
  d.onSram e.1 (fun x => x.onBank e.2.1 (fun b => { b with used := b.used + 1#8, repaired := b.repaired ++ [e.2.2] }))

/-- A recorded line remap applied again. -/
def Dev.loadRemap (d : Dev) (line : Nat) : Dev :=
  let w := 16 * line
  let n := d.sparesUsed (codeSlice w) (codeBank w)
  d.onSpan (codeSlice w) (fun s => { s with bankSpares := Tab.put s.bankSpares (codeBank w) (n + 1), cstSpares := s.cstSpares - 1#16 })

/-- The repairs and maps that the part held before are forgotten, as the record alone gives them. -/
def Dev.clearSpares (d : Dev) : Dev :=
  { d with
    spans := d.spans.map (fun (e : Nat × Span) => (e.1, { e.2 with
      bankSpares := [], cstSpares := 0x0800#16,
      sram := { e.2.sram with banks := e.2.sram.banks.map (fun (b : Nat × Bank) => (b.1, { b.2 with used := 0#8, repaired := [], repairing := [] })) } }))
    ws := { d.ws with remaps := [] } }

/-- BOOT step 2 (R411): the copy of the record in force loaded (R261); with neither copy good, identity maps and no repairs, and SRBAD
(R412). -/
def Dev.loadSpares (d : Dev) : Dev :=
  let d1 := ((List.range 128).filter (fun b => d.mode.bentOut.getLsbD b)).foldl (fun x b => x.onXing b (fun z => { z with hold := false })) d.clearSpares
  if !d.spareRec.good then d1.onMode (fun m => { m with srBad := true, bentOut := 0#128 })
  else
    let r := d1.spareRec
    let d2 := r.sramRows.foldl Dev.loadRow (r.maps.foldl Dev.loadMap d1)
    let d3 := r.remaps.foldl Dev.loadRemap { d2 with ws := { d2.ws with remaps := r.remaps } }
    ((List.range 128).filter (fun b => r.bentOut.getLsbD b)).foldl (fun x b => x.regulatorOff b) (d3.onMode (fun m => { m with bentOut := r.bentOut }))

/-! ### DDR5 (R269, R278, R279) -/

/-- Whether modules are of the options of R269: one or two alike DIMMs of supported options, 16 to 128 GB on the channel. -/
def setupFits (x : ChanSetup) : Bool :=
  x.supported && (x.dimms == 1#2 || x.dimms == 2#2) && decide (32 ≤ x.regions) && decide (x.regions ≤ 256)

/-- The speed at which a channel trains (R269): the highest that every DIMM and the population allow and at which training succeeds. -/
def setupSpeed (x : ChanSetup) : Option Nat :=
  if setupFits x then [3, 2, 1].find? (fun s => decide (s ≤ x.speed.toNat) && (x.dimms == 1#2 || s == 1) && x.trains.getLsbD (s - 1)) else none

/-- DDR_CFG of a channel that trained at a speed, 0 for none (R280). -/
def setupCfg (x : ChanSetup) (s : Nat) : W32 :=
  placeNat s 28 ||| place x.dimms 26 ||| flag x.x4 25 ||| flag x.rank2 24 ||| placeNat (min x.regions 256) 0

/-- A channel set up (R269): trained and READY, or left untrained with SPEED 0 and DDR_CONFIG. -/
def Dev.trainChannel (d : Dev) (e : ChanId × ChanSetup) : Dev :=
  match setupSpeed e.2 with
  | some s => d.onDdr e.1.toNat (fun x => { x with cfg := setupCfg e.2 s, ready := true })
  | none => (d.onDdr e.1.toNat (fun x => { x with cfg := setupCfg e.2 0, ready := false })).raise 576 e.1.toNat 0#16

/-- The listed hard repairs (R278): the rows of the trained channels are repaired and leave the list. -/
def Dev.hardRepairs (d : Dev) : Dev :=
  let due := fun e : Nat × Nat => (d.ddr e.1).ready
  if d.spareRec.ddrRows.any due then
    let left := d.spareRec.ddrRows.filter (fun e => !due e)
    d.putRecord { d.spareRec with ddrRows := left }
  else d

/-- The rows that still await hard repair, per channel (R280). -/
def Dev.listRows (d : Dev) : Dev :=
  (List.range 4).foldl (fun x n =>
    let rows := (x.spareRec.ddrRows.filter (fun e => e.1 == n)).map (·.2)
    if rows.isEmpty then x else x.onDdr n (fun y => { y with rows := rows, pend := BitVec.ofNat 8 (min 255 rows.length) })) d

/-- BOOT step 6 (R411): after a cold reset alone. -/
def Dev.bootDdr (d : Dev) (r : BootReport) : Dev :=
  if d.mode.warm then d else (r.ddr.foldl Dev.trainChannel d).hardRepairs.listRows

/-! ### The configuration set and the recorded images (R411 step 7, R457) -/

/-- A device word that holds an RWL field. -/
def isRwlWord (w : Nat) : Bool :=
  w == 0x08000104 || w == 0x08002000 || w == 0x08010002 || w == 0x08030004 || w == 0x08070001 || w == 0x08070010 || w == 0x08070020
    || (decide (0x08030400 ≤ w) && decide (w < 0x08030700))
    || (decide (0x08090000 ≤ w) && decide (w < 0x08094000) && w % 0x1000 == 7)
    || (decide (0x08200000 ≤ w) && decide (w < 0x08280000) && w % 0x1000 == 0xC00)
    || (decide (0x08100000 ≤ w) && decide (w < 0x08180000)
      && (w % 0x10000 == 0x100 || w % 0x10000 == 0x200
        || (decide (0x110 ≤ w % 0x10000) && decide (w % 0x10000 < 0x124) && w % 4 == 0)))

/-- The RWL defaults of the configuration set written by Keystone, once one is on its list (R411 step 7, R457). -/
def Dev.bootConfig (d : Dev) (cfg : List (W32 × W32)) : Dev :=
  if !d.ks.images.any (fun i => i.type == 4#8) then d
  else (cfg.filter (fun e => isRwlWord e.1.toNat)).foldl (fun x e => x.regWrite ksReq e.1.toNat e.2) d

/-- The installed unit tables and configuration sets verified again (R457). -/
def Dev.bootImages (d : Dev) (m : List Host.Cell) : Dev :=
  (d.ks.images.filter (fun i => i.type == 3#8 || i.type == 4#8)).foldl (fun x i =>
    let r := x.readSpan i.addr.toNat ((i.len + 3) / 4)
    (r.2.recheckImage m i (if r.1 then some 547 else none)).2) d

/-- The version of the firmware in a slot: the spec gives the firmware's content no layout (DESIGN CHOICE, log entry 16). -/
def firmwareVersion (m : List Host.Cell) (slotB : Bool) : W32 :=
  let a := if slotB then 0x02018000 else 0x02000000
  Config.fwVersion ((List.range (min 0x18000 ((Memory.code m (a + 3)).pay.toNat / 4))).map (fun i => (Memory.code m (a + i)).pay))

/-! ### BOOT_COMPLETE -/

/-- BOOT's steps 2 to 8 with a slot that verifies: the firmware starts and kicks (R445), and COMMISSION follows. -/
def Dev.bootRun (d : Dev) (m : List Host.Cell) (r : BootReport) (slotB both : Bool) : Dev :=
  let d1 := ((d.onMode (fun x => { x with bootSlot := slotB, fallback := both })).onKs (fun k =>
    { k with
      slotB := slotB, firmware := true, live := false, kicked := true, lastKick := d.clk, fwVer := firmwareVersion m slotB })).revokeOther m slotB r.revokes
  let d2 := if both then d1.raise 720 0 (if slotB then 0#16 else 1#16) else d1
  let d3 := ((d2.bootDdr r).bootImages m).bootConfig r.cfg
  (d3.setMode mCommission d3.mode.bootReason).onMode (fun x => { x with bootMs := r.ms, commDone := false })

/-- BOOT_COMPLETE (R411): with no slot that verifies the part stays in BOOT (R412). -/
def Dev.bootComplete (d : Dev) (m : List Host.Cell) (r : BootReport) : Dev :=
  match d.loadSpares.trySlots m with
  | (some b, both, d1) => d1.bootRun m r b both
  | (none, _, d1) => d1.onMode (fun x => { x with noFirmware := true })

/-- Whether BOOT can come to its end: the part is out of reset, and BOOT has not ended without firmware. -/
def Dev.mayBoot (d : Dev) : Bool := d.mode.mode == mBoot && !d.pwr.inReset && !d.mode.noFirmware

/-- BOOT_COMPLETE (R411). -/
def execBootComplete (r : BootReport) (s : State) : Host.Outcome State Fault Refusal :=
  let d := s.dev
  s.keep (if d.mayBoot then d.bootComplete s.mem r else d)

/-! ### DDR_TAGINIT_DONE (R274) -/

/-- DDR_TAGINIT_DONE: the carve-out of the region that became TAGGED first holds E0h in every byte. -/
def execDdrTaginitDone (ch : ChanId) (s : State) : Host.Outcome State Fault Refusal :=
  let d := s.dev
  s.commit (match (d.ddr ch.toNat).tagInit with
    | [] => (d, [])
    | r :: rest =>
      let g := 256 * ch.toNat + r
      ((d.healTags g).onDdr ch.toNat (fun x => { x with tagInit := rest, tagFill := setBit x.tagFill r true }),
        [.clear (ddrKey g 0x18000000) (ddrKey g 0x1E000000)]))

end Sys2Proof.Machine
end

