-- ==== Sys2Proof/Machine/I3c.lean ====
section
/-! DEFINITION. The I3C management target (spec 10_host_ports.md R329, R336): port B while BIFURC is 0. -/
namespace Sys2Proof.Machine

/-- The target's provisional ID (R329). -/
def Dev.i3cPid (d : Dev) : BitVec 48 := Config.i3cPid d.sec.serial

/-- Whether port B is the I3C target and in P0 or P1; in P2 a transaction wakes the part first (R432). -/
def Dev.i3cLive (d : Dev) : Bool := !d.isPcie .b && d.portServes .b

/-- An I3C transaction that the target cannot serve now wakes the part from P2 (R432). -/
def Dev.i3cWakes (d : Dev) : Dev := if d.isPcie .b then d else d.wakeRequest .b

/-- I3C_DYNAMIC_ADDRESS: ENTDAA, or SETDASA from static address 3Ah. -/
def execI3cDynamicAddress (addr : BitVec 7) (s : State) : Host.Outcome State Fault Refusal :=
  let d := s.dev
  s.keep (if d.i3cLive then (d.leaveP1).onPort .b (fun t => { t with i3cAddr := some addr }) else d.i3cWakes)

/-- Whether a private transfer can reach the target: it has a dynamic address. -/
def Dev.i3cHears (d : Dev) : Bool := d.i3cLive && d.portB.i3cAddr.isSome

/-- The byte offset n bytes on, wrapping from 3FFFh to 0000h; an offset beyond the layout stays beyond it (DESIGN CHOICE, log entry 117). -/
def i3cNext (o : BitVec 16) (n : Nat) : BitVec 16 := if o.toNat < 0x4000 then BitVec.ofNat 16 ((o.toNat + n) % 0x4000) else o

/-- The words of a private write from byte offset o on, each with its offset: a word is written only when its four bytes have all arrived in this
transfer. -/
def i3cWords (o : BitVec 16) (bs : List Byte) : List (Nat × W32) :=
  (List.range bs.length).filterMap (fun n =>
    let at_ := (i3cNext o n).toNat
    if at_ % 4 = 3 ∧ 3 ≤ n ∧ at_ < 0x4000 then
      some (at_ - 3, wordOfBytes (byteAt bs (n - 3)) (byteAt bs (n - 2)) (byteAt bs (n - 1)) (byteAt bs n))
    else none)

/-- Words of a private write written in order; the first one that R321 holds waits, and those behind it with it. -/
def Dev.i3cPut (d : Dev) : List (Nat × W32) → Dev
  | [] => d.onPort .b (fun t => { t with i3cRest := [] })
  | e :: r =>
    if heldOffset e.1 && !d.portDrained .b then d.onPort .b (fun t => { t with i3cRest := e :: r })
    else Dev.i3cPut (d.bar0Write .b e.1 e.2) r

/-- The words that R321 has held written once it holds them no more. -/
def Dev.i3cFlow (d : Dev) : Dev := if d.portB.i3cRest.isEmpty || !d.i3cLive then d else d.i3cPut d.portB.i3cRest

/-- A private write: a 2-byte little-endian offset, then data. -/
def Dev.i3cWrite (d : Dev) (bs : List Byte) : Dev :=
  if bs.length < 2 then d
  else
    let o : BitVec 16 := BitVec.ofNat 16 (leNat bs 0 2)
    let data := bs.drop 2
    (d.i3cPut (i3cWords o data)).onPort .b (fun t => { t with i3cOff := i3cNext o data.length })

/-- Whether the target can take another transfer: nothing of the last one waits. -/
def Dev.i3cReady (d : Dev) : Bool := d.i3cHears && d.portB.i3cRest.isEmpty

/-- I3C_PRIVATE_WRITE (R329); a word that R321 holds waits, and the words behind it. -/
def execI3cPrivateWrite (data : List Byte) (s : State) : Host.Outcome State Fault Refusal :=
  let d := s.dev.i3cFlow
  s.keep (if d.i3cReady then d.leaveP1.i3cWrite data else d.i3cWakes)

/-- The bytes of a private read: after the last byte of a word its RC fields are cleared. -/
def Dev.i3cBytes (d : Dev) (o : BitVec 16) : Nat → List Byte × Dev
  | 0 => ([], d)
  | n + 1 =>
    let r := Dev.i3cBytes d o n
    let at_ := (i3cNext o n).toNat
    let w := at_ - at_ % 4
    let x := if at_ % 4 = 3 ∧ at_ < 0x4000 then r.2.bar0Clear .b w else r.2
    (r.1 ++ [if at_ < 0x4000 then laneOf (r.2.bar0Read .b w) (at_ % 4) else 0#8], x)

/-- A private read of n bytes from the last offset set; a word read in part counts as read. -/
def Dev.i3cRead (d : Dev) (n : Nat) : Dev :=
  let o := (d.port .b).i3cOff
  let r := d.i3cBytes o n
  let last := (i3cNext o (n - 1)).toNat
  let ws := r.1.map (fun b => ({ pay := b.setWidth 32, tag := 0#8 } : Word))
  (if n = 0 ∨ 0x4000 ≤ last then r.2 else r.2.bar0Clear .b (last - last % 4)).onPort .b (fun t =>
    { t with i3cOff := i3cNext o n, lastCpl := ws, lastCplUr := false, lastCplEp := false })

/-- Whether a read of n bytes from the last offset set stays in the status page, which nothing holds up (R314). -/
def Dev.i3cStatus (d : Dev) (n : Nat) : Bool := decide (d.portB.i3cOff.toNat + n ≤ 0x1000)

/-- I3C_PRIVATE_READ (R329): behind the writes before it (R321), but for the status page (R314). -/
def execI3cPrivateRead (n : BitVec 13) (s : State) : Host.Outcome State Fault Refusal :=
  let d := s.dev.i3cFlow
  s.keep (if d.i3cHears && (d.i3cStatus n.toNat || (d.i3cReady && d.portDrained .b)) then d.leaveP1.i3cRead n.toNat else d.i3cWakes)

end Sys2Proof.Machine
end

