-- ==== Sys2Proof/Machine/Pci.lean ====
section
/-! DEFINITION. The PCI Express endpoints (spec 10_host_ports.md R308 to R328): the apertures of BAR2 and BAR4, configuration writes,
resets, PTM, pending vectors. -/
namespace Sys2Proof.Machine

/-! ### A request cut into transactions (R217, R219, R319) -/

/-- Whether a port takes a memory request: an endpoint in P0 or P1 whose link is up, with room for its transactions; a request stays
inside one 4 KiB page (R323, R433; PRESUMED, log entry 30). -/
def Dev.pciTakes (d : Dev) (p : Port) (off bytes : Nat) : Bool :=
  d.isPcie p && d.portServes p && d.portRoom p && decide (off % 4096 + bytes ≤ 4096)

/-- A memory or configuration request that an endpoint cannot serve now (R433). -/
def Dev.pciWakes (d : Dev) (p : Port) : Dev := if d.isPcie p then d.wakeRequest p else d

/-- The words of a write that starts at a byte offset: the offset of the word, its lanes, its payload. -/
def hostWords (off : Nat) (data : List (Option Byte)) : List (Nat × BitVec 4 × W32) :=
  let bs := List.replicate (off % 4) none ++ data
  ((List.range ((bs.length + 3) / 4)).map (fun i =>
    let lane := fun (l : Nat) => (bs.getD (4 * i + l) none)
    (off / 4 + i, (List.range 4).foldl (fun (v : BitVec 4) l => setBit v l (lane l).isSome) 0#4,
      wordOfBytes ((lane 0).getD 0#8) ((lane 1).getD 0#8) ((lane 2).getD 0#8) ((lane 3).getD 0#8)))).filter (fun e => e.2.1 != 0#4)

/-- Consecutive numbers in runs of at most eight, from the left. -/
def runsOf {α : Type} (l : List (Nat × α)) : List (List (Nat × α)) :=
  (l.foldl (fun acc e =>
    match acc with
    | (x :: xs) :: r => if x.1 + 1 = e.1 ∧ xs.length < 7 then (e :: x :: xs) :: r else [e] :: (x :: xs) :: r
    | _ => [e] :: acc) []).reverse.map List.reverse

/-- The lists of at most eight elements that a list is cut into; the first argument bounds their number. -/
def eights {α : Type} : Nat → List α → List (List α)
  | 0, _ => []
  | n + 1, l => if l.isEmpty then [] else l.take 8 :: eights n (l.drop 8)

/-- A posted write of a port: its transaction. -/
def Dev.postWrite (d : Dev) (p : Port) (ty : TxnType) (addr : Nat) (ddr : Option (Nat × Nat)) (parts : List WordPart) : Dev :=
  d.issueTxn (fun id => { portTxn p ty (BitVec.ofNat 32 addr) (.hostWrite p) id with parts := parts, count := parts.length, ddr := ddr })

/-- A read of a port: its transaction. -/
def Dev.sendRead (d : Dev) (p : Port) (ty : TxnType) (tags : Bool) (addr count : Nat) (ddr : Option (Nat × Nat)) : Dev :=
  d.issueTxn (fun id => { portTxn p ty (BitVec.ofNat 32 addr) (.hostRead p tags) id with count := count, ddr := ddr })

/-- The numbers lo to lo + n - 1 cut where a multiple of `per` begins. -/
def blocksOf (per lo n : Nat) : List (List Nat) :=
  if n = 0 then []
  else
    let l := (List.range n).map (fun i => lo + i)
    (List.range ((lo + n - 1) / per - lo / per + 1)).map (fun k => l.filter (fun x => x / per == lo / per + k))

/-- One completion's share of a read (R319): its transactions of at most eight words; `at_` gives the place of a word. -/
def Dev.sendBlock (d : Dev) (p : Port) (ty : TxnType) (tags : Bool) (at_ : Nat → Nat × Option (Nat × Nat)) (xs : List Nat) : Dev :=
  let cs := eights xs.length xs
  let d1 := d.onPort p (fun t => { t with reads := t.reads ++ [{ ids := (List.range cs.length).map (fun i => d.nextId + i) }] })
  cs.foldl (fun x c => x.sendRead p ty tags (at_ (c.headD 0)).1 c.length (at_ (c.headD 0)).2) d1

/-- A read of n words, or tags, from number lo on, its completions split on 64-byte boundaries (R319). -/
def Dev.sendReads (d : Dev) (p : Port) (ty : TxnType) (tags : Bool) (at_ : Nat → Nat × Option (Nat × Nat)) (lo n : Nat) : Dev :=
  (blocksOf (if tags then 64 else 16) lo n).foldl (fun x b => x.sendBlock p ty tags at_ b) d

/-! ### BAR2 (R316 to R321) -/

/-- What a word of BAR2 is (R317). -/
inductive Bar2Kind where | sram | code | window | none
deriving DecidableEq, Repr

/-- The kind of a device word address in BAR2. -/
def bar2Kind (w : Nat) : Bar2Kind :=
  if isDeck w || isBentSram w then .sram
  else if isCode w then .code
  else if 0x03000000 ≤ w ∧ w < 0x03004000 then .window
  else .none

/-- The port words of the consecutive QOPs that a write of the host queue window becomes (R287): the item is opened by the first and
completed by the last. -/
def qopPorts (k n : Nat) : List Nat :=
  if n = 1 then [k]
  else match k with
    | 1 => 1 :: List.replicate (n - 1) 0
    | 2 => List.replicate (n - 1) 0 ++ [2]
    | 3 => 1 :: (List.replicate (n - 2) 0 ++ [2])
    | k => List.replicate n k

/-- A payload write of the host queue window (R283, R287). -/
def Dev.windowWrite (d : Dev) (p : Port) (ws : List (Nat × BitVec 4 × W32)) : Dev :=
  match ws with
  | [] => d
  | (w, _, _) :: _ =>
    let a := w - 0x03000000
    let parts := ws.map (fun e => ({ addr := BitVec.ofNat 32 e.1, lanes := e.2.1, tagWr := true, word := { pay := e.2.2, tag := tagRaw } } : WordPart))
    let chunks8 := eights parts.length parts
    ((qopPorts (a % 16) chunks8.length).zip chunks8).foldl (fun x e => x.postWrite p .qop (quePortAddr (a / 16) e.1) none e.2) d

/-- A payload write of SRAM: WRs of at most eight words; the tag is RAW unless TAGKEEP is 1 (R318, R319). -/
def Dev.sramPost (d : Dev) (p : Port) (ws : List (Nat × BitVec 4 × W32)) : Dev :=
  (runsOf ws).foldl (fun x r => x.postWrite p .wr ((r.head?.map (·.1)).getD 0) none (r.map (fun e =>
    { addr := BitVec.ofNat 32 e.1, lanes := e.2.1, tagWr := !(d.port p).tagKeep, word := { pay := e.2.2, tag := tagRaw } }))) d

/-- A payload write of BAR2. -/
def Dev.bar2Write (d : Dev) (p : Port) (off : Nat) (data : List (Option Byte)) : Dev :=
  let ws := (hostWords off data).map (fun e => (0x01000000 + e.1, e.2))
  match bar2Kind (0x01000000 + off / 4) with
  | .sram => d.sramPost p ws
  | .window => d.windowWrite p ws
  | .code | .none => d.unsupported p

/-- Whether a payload write of BAR2 goes to a push port of the host queue window, for which R321 holds it. -/
def pushWrite (off : Nat) : Bool :=
  let w := 0x01000000 + off / 4
  bar2Kind w == .window && decide (w % 16 < 4)

/-- BAR2_PAYLOAD_WRITE (R316 to R321). -/
def execBar2PayloadWrite (p : Port) (off : BitVec 28) (data : List (Option Byte)) (s : State) : Host.Outcome State Fault Refusal :=
  let d := s.dev
  s.keep (if d.pciTakes p off.toNat data.length && (!pushWrite off.toNat || d.portDrained p)
    then (d.portTouched p).bar2Write p off.toNat data else d.pciWakes p)

/-- A payload read of some words of BAR2 (R317, R319). -/
def Dev.bar2Read (d : Dev) (p : Port) (w n : Nat) : Dev :=
  match bar2Kind w with
  | .sram | .code => d.sendReads p .rd false (fun x => (x, none)) w n
  | .window =>
    let a := w - 0x03000000
    d.sendReads p .qop false (fun _ => (quePortAddr (a / 16) (a % 16), none)) w n
  | .none => d.unsupportedRead p

/-- BAR2_PAYLOAD_READ (R316, R317, R321). -/
def execBar2PayloadRead (p : Port) (off : BitVec 28) (words : BitVec 11) (s : State) : Host.Outcome State Fault Refusal :=
  let d := s.dev
  s.keep (if d.pciTakes p off.toNat (4 * words.toNat) && d.portDrained p
    then (d.portTouched p).bar2Read p (0x01000000 + off.toNat / 4) words.toNat else d.pciWakes p)

/-- A tag write of one word: a TW (R319). -/
def Dev.tagPost (d : Dev) (p : Port) (w : Nat) (ddr : Option (Nat × Nat)) (t : Byte) : Dev :=
  d.postWrite p .tw w ddr [{ addr := BitVec.ofNat 32 w, lanes := 0#4, tagWr := true, word := { pay := 0#32, tag := t } }]

/-- A write of the tag aperture (R317). -/
def Dev.bar2Tags (d : Dev) (p : Port) (w : Nat) (tags : List Byte) : Dev :=
  match bar2Kind w with
  | .sram => ((List.range tags.length).zip tags).foldl (fun x e => x.tagPost p (w + e.1) none e.2) d
  | .code | .window | .none => d.unsupported p

/-- BAR2_TAG_WRITE (R316, R317, R319). -/
def execBar2TagWrite (p : Port) (off : BitVec 28) (tags : List Byte) (s : State) : Host.Outcome State Fault Refusal :=
  let d := s.dev
  s.keep (if d.pciTakes p off.toNat tags.length then (d.portTouched p).bar2Tags p (0x01000000 + off.toNat) tags else d.pciWakes p)

/-- A read of the tag aperture (R317): a code store word has tag 00h. -/
def Dev.bar2TagsRead (d : Dev) (p : Port) (w n : Nat) : Dev :=
  match bar2Kind w with
  | .sram | .code => d.sendReads p .rd true (fun x => (x, none)) w n
  | .window | .none => d.unsupportedRead p

/-- BAR2_TAG_READ (R316, R317, R321). -/
def execBar2TagRead (p : Port) (off : BitVec 28) (count : BitVec 13) (s : State) : Host.Outcome State Fault Refusal :=
  let d := s.dev
  s.keep (if d.pciTakes p off.toNat count.toNat && d.portDrained p
    then (d.portTouched p).bar2TagsRead p (0x01000000 + off.toNat) count.toNat else d.pciWakes p)

/-! ### BAR4 (R324, R325) -/

/-- Where a byte offset of BAR4 lies. -/
inductive Bar4Place where
  | payload
  | carve
  | zero
deriving DecidableEq, Repr

/-- The part of a region that a region byte lies in. -/
def bar4Place (tagged : Bool) (i : Nat) : Bar4Place :=
  if !tagged || decide (i < 0x18000000) then .payload else if i < 0x1E000000 then .carve else .zero

/-- Whether a region answers NOT_PRESENT (R236, R270). -/
def Dev.regionAbsent (d : Dev) (r : Nat) : Bool := d.regionState r == some .absent

/-- The region of a byte offset of BAR4 (R324). -/
def Dev.bar4Region (d : Dev) (p : Port) (off : Nat) : Nat := (d.port p).b4base.toNat + off / 2 ^ 29

/-- A payload write of a region: the tag is RAW unless B4KEEP is 1 (R325). -/
def Dev.ddrPost (d : Dev) (p : Port) (r : Nat) (ws : List (Nat × BitVec 4 × W32)) : Dev :=
  (runsOf ws).foldl (fun x c => x.postWrite p .wr 0 (some (r, (c.head?.map (·.1)).getD 0)) (c.map (fun e =>
    { addr := BitVec.ofNat 32 e.1, lanes := e.2.1, tagWr := !(d.port p).b4keep, word := { pay := e.2.2, tag := tagRaw } }))) d

/-- A write of BAR4: payload words, or carve-out bytes, each the tag of a word (R273, R325). -/
def Dev.bar4Write (d : Dev) (p : Port) (off : Nat) (data : List (Option Byte)) : Dev :=
  let r := d.bar4Region p off
  let i := off % 2 ^ 29
  match bar4Place (d.regionTagged r) i with
  | .payload => d.ddrPost p r (hostWords i data)
  | .carve => ((List.range data.length).zip data).foldl (fun x e =>
      match e.2 with
      | some t => x.tagPost p (i + e.1 - 0x18000000) (some (r, i + e.1 - 0x18000000)) t
      | none => x) d
  | .zero => if d.regionAbsent r then d.onPort p (fun t => { t with errNp := satInc t.errNp }) else d

/-- BAR4_WRITE (R324, R325). -/
def execBar4Write (p : Port) (off : BitVec 36) (data : List (Option Byte)) (s : State) : Host.Outcome State Fault Refusal :=
  let d := s.dev
  s.keep (if d.pciTakes p off.toNat data.length then (d.portTouched p).bar4Write p off.toNat data else d.pciWakes p)

/-- A read of n words past the carve-out: zeros, or ones where the region answers NOT_PRESENT, in completions of up to 64 bytes that wait for the
reads before them (R319, R320, R325). -/
def Dev.bar4Zero (d : Dev) (p : Port) (r lo n : Nat) : Dev :=
  let w : Word := { pay := if d.regionAbsent r then 0xFFFFFFFF#32 else 0#32, tag := 0#8 }
  d.onPort p (fun t =>
    let t1 := { t with errNp := if d.regionAbsent r then satInc t.errNp else t.errNp,
                       reads := t.reads ++ (blocksOf 16 lo n).map (fun b => { ids := [], fixed := List.replicate b.length w }) }
    PortSt.sendCpls t1.reads.length t1)

/-- A read of some bytes of BAR4: the words that hold them, or carve-out bytes. -/
def Dev.bar4Read (d : Dev) (p : Port) (off n : Nat) : Dev :=
  let r := d.bar4Region p off
  let i := off % 2 ^ 29
  match bar4Place (d.regionTagged r) i with
  | .payload =>
    d.sendReads p .rd false (fun x => (0, some (r, x))) (i / 4) ((i % 4 + n + 3) / 4)
  | .carve =>
    d.sendReads p .rd true (fun x => (0, some (r, x))) (i - 0x18000000) n
  | .zero => d.bar4Zero p r (i / 4) ((i % 4 + n + 3) / 4)

/-- BAR4_READ (R321, R324, R325). -/
def execBar4Read (p : Port) (off : BitVec 36) (count : BitVec 13) (s : State) : Host.Outcome State Fault Refusal :=
  let d := s.dev
  s.keep (if d.pciTakes p off.toNat count.toNat && d.portDrained p then (d.portTouched p).bar4Read p off.toNat count.toNat else d.pciWakes p)

/-! ### Configuration space, resets of an endpoint (R308, R310, R322) -/

/-- The words of configuration space where the capabilities of R310 stand; the spec gives no place, and the structures are those of the base
specification (PRESUMED, log entry 25): Power Management at 40h, MSI-X at 50h, PCI Express at 70h, and from 100h on AER, Serial Number, PTM, L1 PM
Substates, LTR, Secondary PCI Express, Physical Layer 16.0 GT/s, Lane Margining. -/
def cfgPm : Nat := 17
def cfgLink : Nat := 32
def cfgAerUncor : Nat := 65
def cfgAerHeader : Nat := 71

/-- The bits of a word of configuration space that a write sets (R310, R311; the fields of the base specification, PRESUMED, log entry 25): the
Command word without I/O space and INTx, the bases of BAR0, BAR2 and BAR4, the cache line and interrupt lines; PowerState and PME_En; Function Mask
and MSI-X Enable; Device, Link, Device 2 and Link 2 Control without Relaxed Ordering, L0s, AtomicOps and ID-Based Ordering; the masks and severities
of AER; PTM Enable; the L1 PM Substates controls; the LTR latencies; Link Control 3; the margining controls. No other bit takes a write. -/
def cfgMask (reg : Nat) : W32 :=
  match reg with
  | 1 => 0x0000FBFE#32
  | 3 => 0x000000FF#32
  | 4 => 0xFFFF0000#32
  | 5 => 0xFFFFFFFF#32
  | 6 => 0xE0000000#32
  | 7 => 0xFFFFFFFF#32
  | 8 => 0x00000000#32
  | 9 => 0xFFFFFFF0#32
  | 15 => 0x000000FF#32
  | 17 => 0x00000103#32
  | 20 => 0xC0000000#32
  | 30 => 0x000071EF#32
  | 32 => 0x000002CA#32
  | 38 => 0x0000141F#32
  | 40 => 0x0000FFBF#32
  | 66 => 0x005FF030#32
  | 67 => 0x005FF030#32
  | 69 => 0x0000F1C1#32
  | 70 => 0x00000140#32
  | 88 => 0x00000001#32
  | 92 => 0xE3FF000F#32
  | 93 => 0x000000FB#32
  | 95 => 0x1FFF1FFF#32
  | 97 => 0x00000003#32
  | n => if 122 ≤ n ∧ n < 138 then 0x0000FF7F#32 else 0#32

/-- The value of the writable bits of a word before the first write. -/
def cfgReset (reg : Nat) : W32 :=
  match reg with
  | 30 => 0x00002000#32
  | 40 => 0x00000004#32
  | 67 => 0x00462030#32
  | 69 => 0x00002000#32
  | _ => 0#32

/-- The writable bits of a word as they stand. -/
def PortSt.cfgStored (t : PortSt) (reg : Nat) : W32 := Tab.find (cfgReset reg) t.cfg reg

/-- The bits of a word of configuration space that the part fixes (R310): Device ID and Vendor ID, class code and revision, the 64-bit BARs with BAR4
prefetchable, the subsystem identifiers; PME from D3hot; the MSI-X table of 2,048 entries at 4000h and its PBA at C000h of BAR0; the values of the
PCI Express capability; ECRC; the Device Serial Number; a PTM requester; L1.1 and L1.2 with T_POWER_ON 40 µs. -/
def Dev.cfgFixed (d : Dev) (reg : Nat) : W32 :=
  match reg with
  | 0 => 0x20480000#32 ||| d.sec.vendor.setWidth 32
  | 1 => 0x00100000#32
  | 2 => 0x11800000#32 ||| d.sec.rev.setWidth 32
  | 4 => 0x4#32
  | 6 => 0x4#32
  | 8 => 0xC#32
  | 11 => d.sec.subsys
  | 13 => 0x00000040#32
  | 16 => 0x40035001#32
  | 17 => 0x00000008#32
  | 20 => 0x07FF7011#32
  | 21 => 0x00004000#32
  | 22 => 0x0000C000#32
  | 28 => 0x00020010#32
  | 29 => 0x10008022#32
  | 31 => 0x00410804#32 ||| placeNat (if d.bifurc then 8 else 16) 4
  | 37 => 0x0003081F#32
  | 39 => 0x0000001E#32
  | 64 => 0x14820001#32
  | 70 => 0x000000A0#32
  | 82 => 0x15810003#32
  | 83 => d.sec.serial.setWidth 32
  | 84 => d.sec.serial.extractLsb' 32 32
  | 86 => 0x1681001F#32
  | 87 => 0x00000001#32
  | 90 => 0x1781001E#32
  | 91 => 0x0021001F#32
  | 94 => 0x18010018#32
  | 96 => 0x1B010019#32
  | 108 => 0x1E010026#32
  | 120 => 0x00010027#32
  | _ => 0#32

/-- The words of configuration space that show the state of the link and of AER: Link Status, the uncorrectable errors logged, the header of the
first. -/
def PortSt.cfgState (t : PortSt) (reg : Nat) : W32 :=
  match reg with
  | 17 => t.pmState.setWidth 32
  | 32 => if t.linkUp then place t.speed 16 ||| place t.width 20 else 0#32
  | 65 => flag t.aerUr 20 ||| flag t.aerEp 12
  | n =>
    if cfgAerHeader ≤ n ∧ n < cfgAerHeader + 4 then
      match t.aerHdr with
      | some k => Config.freeWord (k + (n - cfgAerHeader))
      | none => 0#32
    else 0#32

/-- A word of an endpoint's configuration space. -/
def Dev.cfgWord (d : Dev) (p : Port) (reg : Nat) : W32 :=
  (if reg = cfgPm then (d.port p).cfgStored reg &&& 0xFFFFFFFC#32 else (d.port p).cfgStored reg) ||| d.cfgFixed reg ||| (d.port p).cfgState reg

/-- A word of configuration space written (R310, R311): PowerState takes the endpoint to D0 or D3hot, and a 1 clears an error that AER has logged. -/
def PortSt.cfgWrite (t : PortSt) (reg : Nat) (v : W32) : PortSt :=
  let t1 := { t with cfg := Tab.put t.cfg reg (v &&& cfgMask reg) }
  if reg = cfgPm then { t1 with pmState := if bitsAt 2 v 0 = 3#2 then 3#2 else if bitsAt 2 v 0 = 0#2 then 0#2 else t.pmState }
  else if reg = cfgAerUncor then
    let ur := t.aerUr && !bitOf v 20
    let ep := t.aerEp && !bitOf v 12
    { t1 with aerUr := ur, aerEp := ep, aerHdr := if ur || ep then t.aerHdr else none }
  else t1

/-- PCI_CONFIG_WRITE: a word of configuration space; the first one after the endpoint's reset gives PCI_HOSTRID (R322). -/
def execPciConfigWrite (p : Port) (rid : BitVec 16) (reg : BitVec 10) (val : W32) (s : State) : Host.Outcome State Fault Refusal :=
  let d := s.dev
  s.keep (if d.isPcie p && d.portServes p then
    (d.portTouched p).onPort p (fun t => { t.cfgWrite reg.toNat val with hostRid := some (t.hostRid.getD rid) })
  else d.pciWakes p)

/-- The port whose PTM disciplines the timebase (R81). -/
def Dev.tbPort (d : Dev) : Option Port := if d.tbSrc = 1#2 then some .a else if d.tbSrc = 3#2 then some .b else none

/-- What an endpoint's reset clears of its port: configuration space with its AER status and power state, MSI-X, PTM state with PCI_PTMCTL
(R308, R422), PCI_HOSTRID (R322), the completions being gathered. -/
def PortSt.endpointReset (t : PortSt) : PortSt :=
  { t with cfg := [], pmState := 0#2, aerUr := false, aerEp := false, aerHdr := none, reads := [], msixTab := [], pba := 0#2048, hostRid := none,
           ptmEn := false, ptmInt := 0x000A#16, ptmOfs := none, ptmResid := 0#16, ptmGood := 0, ptmFails := 0 }

/-- A read of an endpoint that was reset: its completion is discarded (R308). -/
def Txn.orphan (t : Txn) (p : Port) : Txn :=
  match t.origin with
  | .hostRead q _ => if q = p then { t with origin := .discard } else t
  | .load _ | .store _ | .signal _ | .hostWrite _ | .viaduct _ _ _ _ | .fill _ _ | .paced _ _ | .keystone _ | .copy _ | .move _ | .engine | .sequencer | .debug
  | .discard => t

/-- An endpoint reset, or its link gone down (R308): the timebase that its PTM disciplined runs free; the semaphore that its port holds is
released by force. -/
def Dev.endpointReset (d : Dev) (p : Port) : Dev :=
  let d1 := { d.onPort p PortSt.endpointReset with txns := d.txns.map (fun t => t.orphan p) }
  let d2 := if d1.tbPort = some p then { d1 with tbSlew := 0, tbLock := false } else d1
  if d2.sem.holder = some p then d2.semForce p 2#2 else d2

/-- DL_Down (R308, R437): the link is down. -/
def Dev.linkLost (d : Dev) (p : Port) : Dev :=
  if (d.port p).linkUp then
    (d.onPort p (fun t => { t with linkUp := false, l1 := false, l12 := false, speed := 0#4, width := 0#5 })).raise 705 (Port.num p) 0#16
  else d

/-- Whether an endpoint is powered and out of reset. -/
def Dev.endpointOn (d : Dev) (p : Port) : Bool := d.isPcie p && !d.pwr.inReset && decide (d.pwr.pstate.toNat < 3)

/-- PERST (R308). -/
def execPerst (p : Port) (s : State) : Host.Outcome State Fault Refusal :=
  let d := s.dev
  s.keep (if d.endpointOn p then (d.linkLost p).endpointReset p else d)

/-- FLR (R308): the link stays up. -/
def execFlr (p : Port) (s : State) : Host.Outcome State Fault Refusal :=
  let d := s.dev
  s.keep (if d.endpointOn p && (d.port p).linkUp then d.endpointReset p else d)

/-- DL_DOWN (R308). -/
def execDlDown (p : Port) (s : State) : Host.Outcome State Fault Refusal :=
  let d := s.dev
  s.keep (if d.endpointOn p && (d.port p).linkUp then (d.linkLost p).endpointReset p else d)

/-- DL_UP (R310, R335): the link is up at a speed of 1 to 4 and a width. -/
def execDlUp (p : Port) (speed : BitVec 4) (width : BitVec 5) (s : State) : Host.Outcome State Fault Refusal :=
  let d := s.dev
  let good := decide (1 ≤ speed.toNat) && decide (speed.toNat ≤ 4)
    && (width == 1#5 || width == 4#5 || width == 8#5 || (width == 16#5 && !d.bifurc))
  s.keep (if d.endpointOn p && !(d.port p).linkUp && good then
    d.onPort p (fun t => { t with linkUp := true, l1 := false, l12 := false, speed := speed, width := width })
  else d)

/-! ### PTM (R328) -/

/-- A signed residual as PCI_PTMSTAT.RESID and VIA_TBSTAT.RESID show it: 16 bits, saturated. -/
def resid16 (r : Int) : BitVec 16 := if 32767 < r then 0x7FFF#16 else if r < -32768 then 0x8000#16 else BitVec.ofInt 16 r

/-- A failed dialogue: the third in a row takes LOCK. -/
def Dev.ptmFailed (d : Dev) (p : Port) : Dev :=
  let n := (d.port p).ptmFails + 1
  let d1 := d.onPort p (fun t => { t with ptmFails := n, ptmGood := 0 })
  if d.tbPort = some p ∧ 3 ≤ n then { d1 with tbLock := false } else d1

/-- The drift that a later dialogue measures, slewed out under R78, and LOCK by it. -/
def Dev.ptmDrift (d : Dev) (p : Port) (r : Int) : Dev :=
  let good := if r.natAbs ≤ 4 then (d.port p).ptmGood + 1 else 0
  let lock := if 16 < r.natAbs then false else if 8 ≤ good then true else d.tbLock
  { d.onPort p (fun t => { t with ptmResid := resid16 r, ptmGood := good }) with tbSlew := r, tbLock := lock }

/-- A dialogue that gives the host's time: the first sets the offset, later ones discipline the timebase. -/
def Dev.ptmValid (d : Dev) (p : Port) (host : BitVec 64) : Dev :=
  let localTime := d.tb + d.pwr.slept
  let d1 := d.onPort p (fun t => { t with ptmFails := 0 })
  match (d.port p).ptmOfs with
  | none => d1.onPort p (fun t => { t with ptmOfs := some (host - localTime) })
  | some o => if d.tbPort = some p then d1.ptmDrift p (host - localTime - o).toInt else d1

/-- PTM_DIALOGUE (R328): its result, the host's time or none where it failed; in D3hot the endpoint requests none (R310). -/
def execPtmDialogue (p : Port) (host : Option (BitVec 64)) (s : State) : Host.Outcome State Fault Refusal :=
  let d := s.dev
  s.keep (if d.isPcie p && d.portServes p && (d.port p).ptmEn && (d.port p).pmState != 3#2 then
    (match host with
    | some h => d.ptmValid p h
    | none => d.ptmFailed p)
  else d)

/-! ### MSIX_PENDING_SEND (R327) -/

/-- MSIX_PENDING_SEND: a pending vector that has been unmasked is sent. -/
def execMsixPendingSend (p : Port) (vec : BitVec 11) (s : State) : Host.Outcome State Fault Refusal :=
  let d := s.dev
  let t := d.port p
  s.keep (if d.endpointOn p && t.pba.getLsbD vec.toNat && t.canSend vec.toNat then
    d.onPort p (fun t => { t with pba := setBit t.pba vec.toNat false, lastMsix := some vec, msixSent := t.msixSent + 1 })
  else d)

end Sys2Proof.Machine
end

