-- ==== Sys2Proof/Machine/Power.lean ====
section
/-! DEFINITION. Power states and wake (spec 14_power_states.md R419 to R434; 07 R236; 19 R512): P1, the gating of idle cores, sleep
negotiation, sleep, wake. -/
namespace Sys2Proof.Machine

/-! ### P1 (R424, R425) -/

/-- A link of an endpoint that is up stands in L1. -/
def Dev.inL1 (d : Dev) (p : Port) : Dev := d.onPort p (fun t => { t with l1 := d.isPcie p && t.linkUp })

/-- Whether an idle link of a port goes to L1 by ASPM (R424): it is down, or its host has enabled L1 in Link Control (R310). -/
def Dev.l1Allowed (d : Dev) (p : Port) : Bool := !d.isPcie p || !(d.port p).linkUp || bitOf ((d.port p).cfgStored cfgLink) 1

/-- Whether the conditions of R424 have held for the dwell, and no kick is missing (R445). -/
def Dev.p1Due (d : Dev) : Bool :=
  d.quietForP1 && d.l1Allowed .a && d.l1Allowed .b && !d.kickMissing && decide (d.pwr.busyAt + 800 * d.pwr.p1dwell.toNat ≤ d.clk)

/-- The channels that run go to power-down (R419, R425). -/
def Dev.powerDown (d : Dev) : Dev := (List.range 4).foldl (fun x n => if (x.ddr n).ready then x.onDdr n (fun y => { y with powerDown := true }) else x) d

/-- P1_ENTRY (R424): the dwell is over, and every link that is up is in L1; Keystone's clock is gated, the cells of its domain hold (R305), and
DDR5 goes to power-down. -/
def execP1Entry (s : State) : Host.Outcome State Fault Refusal :=
  let d := s.dev
  s.keep (if d.p1Due then
    let d1 := (((d.inL1 .a).inL1 .b).powerDown).onPwr (fun p => { p with pstate := 1#3, p1cnt := satInc p.p1cnt })
    (d1.onKs (fun k => { k with gated := true })).onXing domKeystone (fun x => { x with hold := true })
  else d)

/-- P1_EXIT (R425). -/
def execP1Exit (cause : P1Cause) (s : State) : Host.Outcome State Fault Refusal :=
  let d := s.dev
  s.keep (if d.pwr.pstate = 1#3 then
    (match cause with
    | .l1Exit p => d.leaveP1.onPort p (fun t => { t with l1 := false })
    | .delivery | .deck | .doorbell | .i3c | .raise => d.leaveP1)
  else d)

/-! ### CORE_GATE (R427) -/

/-- Whether a slot can be gated: WAITING for the dwell with no bound loop, nothing offered to it, in P0 or P1. -/
def Dev.mayGate (d : Dev) (c : Nat) : Bool :=
  let k := d.core c
  decide (d.pwr.pstate.toNat < 2) && k.status == .waiting && k.entry.isNone && !d.allBinds.any (fun l => l.core.toNat == c)
    && (d.offeredTo (bentOf c) (slotOf c)).isNone && decide (k.waitSince + 800 * d.pwr.gateDwell.toNat ≤ d.clk)

/-- CORE_GATE (R427). -/
def execCoreGate (c : CoreId) (s : State) : Host.Outcome State Fault Refusal :=
  let d := s.dev
  s.keep (if d.mayGate c.toNat then d.onCore c.toNat (fun k => { k with status := .gated }) else d)

/-! ### Sleep negotiation (R428 to R431, R236) -/

/-- The domains in the order in which they are asked. -/
def negoOrder (target : BitVec 3) : List Nat :=
  List.range 128 ++ [145, 146, 142, 143, 147] ++ [137, 138, 139, 140] ++ [128, 129, 130, 131, 132, 133, 134, 135, 136, 144, 141]
    ++ (if target = 2#3 then [] else [148, 149, 150, 151])

/-- The domain asked after one, if any. -/
def nextAsked (target : BitVec 3) (dom : Nat) : Option Nat := (((negoOrder target).dropWhile (fun n => n != dom)).drop 1).head?

/-- Whether a transaction is in flight at a domain that granted it before it was asked to power down. -/
def Txn.inFlightAt (t : Txn) (dom : Nat) : Bool :=
  t.domain == some dom && (match t.st with | .answered r => r != .notPresent | .queued | .path _ | .sent | .backoff _ | .remote => false)

/-- Whether the abutment has granted a transaction onward that has not completed yet (R236). -/
def Txn.pastAbutment (t : Txn) : Bool :=
  match t.route.findIdx? (fun g => g matches .port _) with
  | none => false
  | some i =>
    match t.st with
    | .path k => decide (i < k)
    | .sent | .remote => true
    | .answered r => r != .notPresent
    | .queued | .backoff _ => false

/-- Whether a domain has drained (R236). -/
def Dev.drainedAt (d : Dev) (dom : Nat) : Bool := !d.txns.any (fun t => t.inFlightAt dom || (dom == domAbutment && t.pastAbutment))

/-- Why a domain refuses, if it does (R428): the number of the reason. -/
def Dev.refusal (d : Dev) (n : Nego) (l12 : Bool) : Option Nat :=
  let dom := n.asked
  if dom < 128 then
    if (d.loopsIn dom).any d.started then some 2
    else if d.cores.any (fun e => bentOf e.1 == dom && e.2.status == .running) then some 3
    else none
  else if dom = domViaUp then (if d.chain.up.st == .up && !d.pwr.viaOk then some 7 else none)
  else if dom = domViaDown then (if d.chain.dn.st == .up && !d.pwr.viaOk then some 7 else none)
  else if dom = domPcie then
    (if n.target = 2#3 ∧ l12 = true ∧ (d.portA.linkUp = true ∨ (d.bifurc = true ∧ d.portB.linkUp = true)) then some 4 else none)
  else if dom = domSecurity then (if d.engineBusy then some 5 else none)
  else if dom = domSequencer then (if d.ws.phase != .idle then some 5 else none)
  else if dom = domKeystone then (if d.ks.takenSince then some 6 else none)
  else none

/-- Keystone writes the reply of the command before it acknowledges (R431). -/
def Dev.sleepReply (d0 : Dev) (n : Nego) : Dev :=
  let d := match n.ceil with
    | some v => d0.onPwr (fun p => { p with ceil := v })
    | none => d0
  if n.isMode then d.endJobs Job.isModeSet stDone 0#16
  else match n.src with
    | some s => d.reply s stDone 0#16 []
    | none => d

/-- The link of a Viaduct port taken DOWN by sleep (R419): not a loss in the sense of R406. -/
def Dev.viaSleep (d : Dev) (p : ViaPort) : Dev := (d.onVia p (fun v => { v with wasUp := false })).linkDown p false

/-- What P2 and P3 share (R419, R422, R426, R432): the timebase stops, Keystone is gated, the Viaduct links are DOWN, DDR5 refreshes itself,
ALIVE_S is held low. -/
def Dev.stopClocks (d : Dev) (target : BitVec 3) : Dev :=
  let d1 := (d.watchdog.viaSleep .up).viaSleep .dn
  let d2 := (List.range 4).foldl (fun x n => if (x.ddr n).ready then x.onDdr n (fun y => { y with selfRef := true }) else x) d1
  let d3 := (d2.onKs (fun k => { k with gated := true })).onPwr (fun p => { p with pstate := target, nego := none, sleepClk := d.clk, wakeStep := 0 })
  ({ d3 with tbLock := d3.tbLock && d3.tbSrc != 2#2 } : Dev).onFlt (fun f => { f with aliveS := false })

/-- P2 (R419): the endpoints are in L1.2; vector 3 is sent (R326). -/
def Dev.enterP2 (d : Dev) : Dev :=
  let l12 := fun (x : Dev) (p : Port) => x.onPort p (fun t => { t with l12 := d.isPcie p && t.linkUp, l1 := false })
  (l12 (l12 ((d.bothVec 3#11).stopClocks 2#3) .a) .b)

/-- What a BIU keeps in P3: its configuration (R434). -/
def Biu.deep (u : Biu) : Biu := { u.afterBentReset with bad := 0#16, undeliv := 0#192, spurLast := 0#8, spurCount := 0#16 }

/-- What a Scribe agent keeps in P3: its settings, its calibration and the declarations of its loops (R434). -/
def Scribe.deep (a : Scribe) : Scribe :=
  { period := a.period, pmargin := a.pmargin, margin := a.margin, policy := a.policy, fixed := a.fixed, floor := a.floor, k := a.k,
    ageing := a.ageing, ageingKnown := a.ageingKnown, ageNoticed := a.ageNoticed, meGrade := a.meGrade, exGrade := a.exGrade,
    meDly := a.meDly, exDly := a.exDly, curve := a.curve,
    slack := a.slack.map (fun e => (e.1, { valid := e.2.valid, safety := e.2.safety, paced := e.2.paced, source := e.2.source, deadline := e.2.deadline })) }

/-- What an SRAM keeps in P3: its row repairs. -/
def Sram.deep (x : Sram) : Sram := { banks := x.banks.map (fun e => (e.1, { used := e.2.used, repaired := e.2.repaired })) }

/-- What a bent keeps in P3, by its own retention or because Keystone restores it (R434). -/
def Bent.deep (x : Bent) : Bent :=
  { phys := x.phys, seq := x.seq, spareFree := x.spareFree, retired := x.retired, unitId := x.unitId, upt := x.upt, winBase := x.winBase,
    winLim := x.winLim, winPerm := x.winPerm, ddrWin := x.ddrWin, pace := x.pace, biu := x.biu.deep, scr := x.scr.deep, migIn := x.migIn,
    updates := x.updates, lastGap := x.lastGap, sram := x.sram.deep, asleep := x.asleep }

/-- A core after P3: that of a bound loop waits, the others are gated. -/
def Core.deep (k : Core) (bound : Bool) : Core :=
  { status := if bound then .waiting else .gated, psr := { compact := k.psr.compact, t := k.psr.t, paced := k.psr.paced },
    winMask := k.winMask, cmptBase := k.cmptBase, vecLines := k.vecLines, vecReq := k.vecReq, issued := k.issued }

/-- What P3 loses (R419, R434): the bents' SRAM and runtime state, the endpoints, the collector, the semaphore, the sensor readings, the training of
DDR5. -/
def Dev.deepLoss (d : Dev) : Dev :=
  let bound := fun c : Nat => d.allBinds.any (fun l => l.core.toNat == c)
  { d with
    cores := d.cores.map (fun (e : Nat × Core) => (e.1, e.2.deep (bound e.1)))
    bents := d.bents.map (fun (e : Nat × Bent) => (e.1, e.2.deep))
    spans := d.spans.map (fun (e : Nat × Span) => (e.1, { e.2 with spanUnable := 0#16, spanHeld := 0#16 }))
    poison := d.poison.filter (fun w => !isBentSram w)
    ddrs := d.ddrs.map (fun (e : Nat × Ddr) => (e.1, { e.2 with untrained := e.2.ready }))
    portA := d.portA.sent, portB := d.portB.sent, sem := {}, temps := [], txns := [], chans := d.chans.map (fun e => (e.1, { e.2 with entries := [] }))
    flt := { aliveK := d.flt.aliveK, heart := d.flt.heart } }

/-- The semaphore changes holder where one held it: vector 2 (R326, R431). -/
def Dev.tellFreed (d : Dev) : Dev := if d.sem.holder.isSome then d.bothVec 2#11 else d

/-- P3 (R419, R431, R512): as P2, and the core rails go, with the registers of the power controller but for what the always-on domain keeps. -/
def Dev.enterP3 (d : Dev) : Dev :=
  (((d.tellFreed.bothVec 3#11).stopClocks 3#3).deepLoss).onPwr (fun p => { p with
    enCore := false, p1dwell := 0x14#8, viaOk := false, ceil := 0xA5#8, pest := 0#32, refValid := false, refReason := 0#8, refDomain := 0#8,
    p1cnt := 0#32, gateDwell := 0x0064#16 })

/-- P4 (R397, R419, R512): mode OFF; the always-on domain alone keeps its contents. The change sends vector 3 (R326). -/
def Dev.enterP4 (d0 : Dev) : Dev :=
  let d := d0.tellFreed.bothVec 3#11
  let p : Power := { pstate := 4#3, wakeSrc := d.pwr.wakeSrc, wakeFrom := d.pwr.wakeFrom, wakeEn := d.pwr.wakeEn, alarm := d.pwr.alarm,
                     sleepClk := d.clk, enRet := false, enCore := false, railsUp := d.pwr.railsUp }
  let k : Keystone := { slotB := d.ks.slotB, images := d.ks.images.map (fun i => { i with verified := false }) }
  { clk := d.clk, freeCtr := d.freeCtr, nextId := d.nextId, spareA := d.spareA, spareB := d.spareB, grades := d.grades, wear := d.wear,
    lineWrites := d.lineWrites,
    poison := d.poison.filter isCode, bifurc := d.bifurc, headPin := d.headPin, ks := k, sec := d.sec.kept, pwr := p
    portA := d.portA.sent, portB := d.portB.sent
    mode := { mode := mOff, prev := d.mode.mode, reason := 0#3 } }

/-- The sleep state of a negotiation entered (R419 to R421): bent SRAM is lost in P3, and every memory but code store in P4. -/
def Dev.enterSleep (d : Dev) (target : BitVec 3) : Eff :=
  if target = 2#3 then (d.enterP2, [])
  else if target = 3#3 then (d.enterP3, [.clear (8 * 0x04000000) (8 * 0x04800000)])
  else (d.enterP4, coldClears)

/-- The asked domain acknowledges: the next one is asked, and after the last the part sleeps. -/
def Dev.acknowledge (d : Dev) (n : Nego) : Eff :=
  let d1 := if n.asked = domKeystone then d.sleepReply n else d
  let n1 := if n.asked = domKeystone then { n with src := none, isMode := false } else n
  match nextAsked n.target n.asked with
  | some k => ((d1.onPwr (fun p => { p with nego := some { n1 with asked := k, stopped := k :: n1.stopped } })).setAsleep k true, [])
  | none => d1.enterSleep n.target

/-- SLEEP_DOMAIN_ANSWER (R428): the domain asked refuses for a reason that the state gives, or because a host has not enabled L1.2, which
`refuse` says; it acknowledges once it has drained. -/
def execSleepDomainAnswer (refuse : Bool) (s : State) : Host.Outcome State Fault Refusal :=
  let d := s.dev
  s.commit (settleEff s.mem (match d.pwr.nego with
    | none => (d, [])
    | some n =>
      match d.refusal n refuse with
      | some r => (d.refuseSleep n.asked r, [])
      | none => if d.drainedAt n.asked then d.acknowledge n else (d, [])))

/-- DRAIN_TIMEOUT (R236, R428): the domain asked has not drained in 10 µs. -/
def execDrainTimeout (s : State) : Host.Outcome State Fault Refusal :=
  let d := s.dev
  s.commit (settleEff s.mem (match d.pwr.nego with
    | none => (d, [])
    | some n => (if d.drainedAt n.asked then d else d.refuseSleep n.asked 1, [])))

/-! ### Wake (R432 to R434) -/

/-- WAKE_N (R432): low for at least 2 crystal cycles. -/
def execWakeN (s : State) : Host.Outcome State Fault Refusal := s.keep (s.dev.wakeBy 1)

/-- Whether the always-on alarm has matched: PWR_ALARM crystal cycles of 24,414.0625 ticks since the timebase stopped (R422, R432). -/
def Dev.alarmDue (d : Dev) : Bool :=
  decide (2 ≤ d.pwr.pstate.toNat) && d.pwr.alarm != 0#32 && decide (16 * d.pwr.sleepClk + 390625 * d.pwr.alarm.toNat ≤ 16 * d.clk)

/-- AON_ALARM (R432). -/
def execAonAlarm (s : State) : Host.Outcome State Fault Refusal :=
  s.keep (if s.dev.alarmDue then s.dev.wakeBy 2 else s.dev)

/-- Whether a port can carry a request that wakes: a link that is up, or I3C on port B. -/
def Dev.portCanWake (d : Dev) (p : Port) : Bool := !d.isPcie p || (d.port p).linkUp

/-- PORT_WAKE_REQUEST (R432, R433): a request that is not served without a wake. -/
def execPortWakeRequest (p : Port) (s : State) : Host.Outcome State Fault Refusal :=
  let d := s.dev
  s.keep (if d.portCanWake p then d.wakeBy (match p with | .a => 3 | .b => 4) else d)

/-- Ticks of the timebase in a stop of some ticks of time, counted in whole crystal cycles (R422). -/
def crystalTicks (stop : Nat) : Nat := stop * 16 / 390625 * 390625 / 16

/-- The domains that a test picks run again; bents take what their cells have kept (R305), but for one out of service (R415). -/
def Dev.awake (d : Dev) (p : Nat → Bool) : Dev :=
  let held := fun (n : Nat) => decide (n < 128) && d.mode.bentOut.getLsbD n
  let kept := (d.xings.filter (fun (e : Nat × Xing) =>
    decide (e.1 < 128) && p e.1 && !held e.1 && !(e.2.lines.isEmpty && e.2.levels.isEmpty && e.2.grant.isNone))).map (·.1)
  kept.foldl (fun x b => (x.takeLevels b).takeEvents b) { d with
    bents := d.bents.map (fun (e : Nat × Bent) => (e.1, if p e.1 then { e.2 with asleep := false } else e.2))
    spans := d.spans.map (fun (e : Nat × Span) => (e.1, if p (domHub e.1) then { e.2 with asleep := false } else e.2))
    ddrs := d.ddrs.map (fun (e : Nat × Ddr) => (e.1, if p (domDdr e.1) then { e.2 with asleep := false, selfRef := false, untrained := false } else e.2))
    xings := d.xings.map (fun (e : Nat × Xing) => (e.1, if p e.1 then { e.2 with hold := held e.1 } else e.2)) }

/-- Step 2 of a wake (R434): the timebase resumes, and PWR_SLEPT is brought up (R422). -/
def Dev.resumeTb (d : Dev) : Dev :=
  if 2 ≤ d.pwr.wakeStep then d
  else { d.onPwr (fun p => { p with wakeStep := 2, slept := p.slept + BitVec.ofNat 64 (crystalTicks (d.clk - p.sleepClk)) }) with
    tbLock := d.tbLock && !(d.pwr.pstate == 3#3 && d.tbPort.isSome) }

/-- The next of steps 2 to 5 of a wake (R434): the timebase; the span hubs and queue engines; DDR5; the bents. -/
def Dev.wakeNext (d : Dev) : Dev :=
  let done := fun (n : Nat) (x : Dev) => x.onPwr (fun p => { p with wakeStep := n })
  match d.pwr.wakeStep with
  | 1 => d.resumeTb
  | 2 => done 3 (d.awake (fun n => decide (128 ≤ n) && decide (n ≤ domAbutment)))
  | 3 => done 4 (d.awake (fun n => decide (domDdr 0 ≤ n) && decide (n < domDdr 4)))
  | 4 => done 5 (d.awake (fun n => decide (n < 128)))
  | _ => d

/-- From step 3 on a wake by SAFE_N, or by a latch of HOLD or STOP, leads to SAFE_HOLD (R434, R531). -/
def Dev.wakeToSafe (d : Dev) : Eff :=
  if d.pwr.wakeSafe && decide (3 ≤ d.pwr.wakeStep) then
    (d.onPwr (fun p => { p with wakeSafe := false })).safeTrigger (if d.pwr.wakePin then 2#3 else 1#3)
  else (d, [])

/-- What a tick does to a wake in progress whose rails are good: its next step (DESIGN CHOICE, log entry 145). -/
def Dev.wakeOn (d : Dev) : Eff :=
  if d.pwr.waking && (d.pwr.pstate == 2#3 || d.pwr.pstate == 3#3) && d.pwr.railsUp == 0x1FFFF#17 then d.wakeNext.wakeToSafe else (d, [])

/-- A wake from P2 or P3 reaches P0 (R434 step 7), with whatever steps are left: Keystone, vector 3. -/
def Dev.wakeDone (d : Dev) : Eff :=
  let d1 := (d.resumeTb.awake (fun _ => true)).onPwr (fun p => { p with wakeStep := 7 })
  let e := d1.wakeToSafe
  let d2 := (e.1.onPwr (fun p => { p with pstate := 0#3, waking := false, wakePin := false, wakeStep := 0, busyAt := d.clk })).onKs (fun k =>
    { k with gated := false, lastKick := d.clk })
  (d2.bothVec 3#11, e.2)

/-- WAKE_COMPLETE (R434): the rails of the off domains are good (R513). -/
def execWakeComplete (s : State) : Host.Outcome State Fault Refusal :=
  let d := s.dev
  s.commit (settleEff s.mem
    (if d.pwr.waking && (d.pwr.pstate == 2#3 || d.pwr.pstate == 3#3) && d.pwr.railsUp == 0x1FFFF#17 then d.wakeDone else (d, [])))

end Sys2Proof.Machine
end

