-- ==== Sys2Proof/Machine/CmdCore.lean ====
section
/-! DEFINITION. How Keystone takes a request (spec 11_command_packets.md R337, R340 to R347, R370 to R372): the checks in their order, the
forwarding to another chain unit, Keystone's own Deck transactions. -/
namespace Sys2Proof.Machine

/-! ### The opcode table (R351) -/

/-- What R351 states of an opcode: its number, whether a request's LENGTH fits it (given its payload bytes), the modes that allow it,
whether it changes state, whether R345 excepts it, whether BULK may be set. -/
structure CmdSpec where
  op : Nat
  len : Nat → (Nat → Nat) → Bool
  modes : List (BitVec 3)
  changes : Bool := false
  excepted : Bool := false
  bulk : Bool := false

/-- Every opcode of R351. -/
def opcodes : List Nat :=
  [0x0101, 0x0102, 0x0201, 0x0202, 0x0301, 0x0302, 0x0303, 0x0304, 0x0305, 0x0306, 0x0401, 0x0402, 0x0501, 0x0502, 0x0503, 0x0601, 0x0602,
   0x0603, 0x0701, 0x0702, 0x0703, 0x0801, 0x0802, 0x0803, 0x0901, 0x0902, 0x0A01, 0x0B01, 0x0B02]

/-- The modes of R351. -/
def modesAll : List (BitVec 3) := [mCommission, mStandby, mRun, mDegraded, mSafeHold, mTest]
def modesCSRD : List (BitVec 3) := [mCommission, mStandby, mRun, mDegraded]

/-- A fixed payload length. -/
def exact (n : Nat) : Nat → (Nat → Nat) → Bool := fun len _ => len == n

/-! ### Taking a request (R339, R342) -/

/-- Whether a source has a request that waits to be taken. -/
def Dev.waiting (d : Dev) : CmdSrc → Bool
  | .port p => (d.port p).busy && (d.port p).fwdTo.isNone && !((d.pwr.nego.map (fun n => n.src == some (.port p))).getD false)
  | .fwd u p => d.ks.fwd.any (fun f => f.unit == u && f.port == p) && !((d.pwr.nego.map (fun n => n.src == some (.fwd u p))).getD false)

/-- Whether a transaction is Keystone's for the command of a source. -/
def Txn.ofCmd (t : Txn) (src : CmdSrc) : Bool := t.origin == .keystone src

/-- Whether a transaction is Keystone's for the command of another source, which it serves first (R342). -/
def Txn.ofOther (t : Txn) (src : CmdSrc) : Bool :=
  match t.origin with
  | .keystone x => x != src
  | .load _ | .store _ | .signal _ | .hostWrite _ | .hostRead _ _ | .viaduct _ _ _ _ | .fill _ _ | .paced _ _ | .copy _ | .move _ | .engine | .sequencer | .debug
  | .discard => false

/-- The three places from which Keystone takes requests: port A, port B, the Viaduct (R342, R371). -/
def placeOfSrc : CmdSrc → Nat
  | .port .a => 0
  | .port .b => 1
  | .fwd _ _ => 2

/-- The first request that waits at each place; forwarded requests are taken as they came (DEDUCED, log entry 118). -/
def Dev.heads (d : Dev) : List CmdSrc :=
  ([CmdSrc.port .a, .port .b].filter d.waiting) ++ ((d.ks.fwd.map (fun f => CmdSrc.fwd f.unit f.port)).find? d.waiting).toList

/-- How far a source's place lies behind the one served last, in turn (R342). -/
def Dev.turnOf (d : Dev) (src : CmdSrc) : Nat := (placeOfSrc src + 2 - d.ks.served) % 3

/-- Whether a command of a source has begun its work: it runs to its end under the checks it has passed (R344). -/
def Dev.begun (d : Dev) (src : CmdSrc) : Bool := (d.ks.prog.map (fun p => p.src == src)).getD false

/-- Whether the command of another source has begun its work, which Keystone serves to its end first (R342). -/
def Dev.begunOther (d : Dev) (src : CmdSrc) : Bool :=
  match d.ks.prog with
  | some p => p.src != src && d.waiting p.src
  | none => false

/-- Whether it is a source's turn (R342): it is served already, or it heads its place and no other place that waits comes before. -/
def Dev.itsTurn (d : Dev) (src : CmdSrc) : Bool :=
  d.begun src || d.txns.any (fun t => t.ofCmd src) || (d.heads.contains src && d.heads.all (fun x => decide (d.turnOf src ≤ d.turnOf x)))

/-- Whether Keystone can take a source's request as a command of an opcode; a request with an unknown opcode is taken by any command row
(DESIGN CHOICE, log entry 31). -/
def Dev.canTake (d : Dev) (src : CmdSrc) (op : Nat) : Bool :=
  d.keystoneUp && !d.ks.halted && decide (d.pwr.pstate.toNat < 2) && d.waiting src && d.itsTurn src && !d.begunOther src && !d.txns.any (fun t => t.ofOther src)
    && (d.opcode src == op || !opcodes.contains (d.opcode src))

/-- REFUSED_HELD of the semaphore (R330). -/
def semDetail : Option Port → BitVec 16
  | some .a => 0x0000#16
  | some .b => 0x0001#16
  | none => 0x00FF#16

/-- Step 1 of R343. -/
def Dev.badHeader (d : Dev) (src : CmdSrc) : Bool :=
  d.reqWord src 3 != 0#32 || d.lenWord src % 4 != 0 || decide (4080 < d.lenWord src)

/-- Whether a request is for this unit (R343 step 2, R370): a forwarded one always is. -/
def Dev.isOwn (d : Dev) : CmdSrc → Bool
  | .fwd _ _ => true
  | .port p => d.unitByte (.port p) == 0xFF || (d.chain.uvalid && d.unitByte (.port p) == d.chain.unit.toNat)

/-- A request sent on to another unit of the chain, or refused (R370 steps 2 to 5). -/
def Dev.forwardTo (d : Dev) (p : Port) (changes : Bool) : Dev :=
  let src : CmdSrc := .port p
  let u := d.unitByte src
  let dst : BitVec 4 := BitVec.ofNat 4 u
  if !d.chain.uvalid || decide (d.chain.chainLen.toNat ≤ u) then d.reply src stUnitAbsent 1#16 []
  else if changes && d.sem.holder != some p then d.reply src stRefHeld (semDetail d.sem.holder) []
  else if !d.reaches dst then d.reply src stUnitAbsent 2#16 []
  else
    let words := (List.range (4 + d.lenWord src / 4)).map (d.reqWord src)
    (d.onPort p (fun t => { t with fwdTo := some dst, fwdAt := d.clk })).sendCmd dst p words

/-- Steps 3 to 8 of R343, and the semaphore of the target unit (R371). -/
def Dev.firstFailure (d : Dev) (src : CmdSrc) (c : CmdSpec) : Option (BitVec 16 × BitVec 16) :=
  let flags := d.flagsByte src
  let held := match src with
    | .port p => d.sem.holder != some p
    | .fwd _ _ => d.sem.holder.isSome
  if d.opcode src != c.op then some (stBadOpcode, 0#16)
  else if !c.len (d.lenWord src) (fun i => (d.pay8 src i).toNat) then some (stBadLength, 2#16)
  else if 4 ≤ flags ∨ (flags % 2 = 1 ∧ c.bulk = false) then some (stBadParam, 0xFFFD#16)
  else if !c.modes.contains d.mode.mode then some (stWrongMode, d.mode.mode.setWidth 16)
  else if c.changes && held then some (stRefHeld, semDetail d.sem.holder)
  else if c.changes && !c.excepted && d.flt.atLeast 4 then some (stFaultActive, BitVec.ofNat 16 d.flt.source)
  else none

/-- How far the command of a source has come (R231). -/
def Dev.progOf (d : Dev) (src : CmdSrc) : KsProg :=
  match d.ks.prog with
  | some p => if p.src = src then p else { src := src }
  | none => { src := src }

/-- A request checked up to step 8 of R343, then served; one that has begun its work goes on. -/
def Dev.serveCmd (d : Dev) (src : CmdSrc) (c : CmdSpec) (body : Dev → Eff) : Eff :=
  if d.begun src then body d
  else if d.badHeader src then (d.reply src stBadLength 1#16 [], [])
  else if !d.isOwn src then
    (match src with
    | .port p =>
      if 16 ≤ d.unitByte src then d.reply src stBadParam 0xFFFF#16 []
      else d.forwardTo p (c.changes && d.opcode src == c.op)
    | .fwd _ _ => d, [])
  else match d.firstFailure src c with
    | some (st, det) => (d.reply src st det [], [])
    | none => body d

/-- The transactions of a command that has ended, which were still to be granted, are gone. -/
def Dev.dropCmd (d : Dev) (src : CmdSrc) : Dev :=
  if d.txns.any (fun t => t.ofCmd src) then ({ d with txns := d.txns.filter (fun t => !t.ofCmd src) } : Dev).tidyChans.flow else d

/-- A command of an opcode taken from a source. One whose Deck access waits for its grant keeps what it has done, to go on then. -/
def Dev.takeCmd (d : Dev) (src : CmdSrc) (c : CmdSpec) (body : Dev → Eff) : Eff :=
  if !d.canTake src c.op then (d, [])
  else
    let e := (if d.pwr.nego.isSome then d.onKs (fun k => { k with takenSince := true }) else d).serveCmd src c body
    (if e.1.waiting src then e.1 else (e.1.dropCmd src).onKs (fun k => { k with served := placeOfSrc src, prog := none }), e.2)

/-- A command refused. -/
def Dev.refuse (d : Dev) (src : CmdSrc) (st det : BitVec 16) : Eff := (d.reply src st det [], [])

/-- BAD_PARAM at a payload offset. -/
def Dev.badParam (d : Dev) (src : CmdSrc) (off : Nat) : Eff := d.refuse src stBadParam (BitVec.ofNat 16 off)

/-- The payload offset of the first check that fails, in a list of checks with their offsets. -/
def firstBad : List (Nat × Bool) → Option Nat
  | [] => none
  | (off, bad) :: r => if bad then some off else firstBad r

/-- A command that would answer ACCEPTED (R343 step 11, R347): BUSY_PORT 0002h while one of its source is running. -/
def Dev.acceptOr (d : Dev) (src : CmdSrc) (go : Dev → Eff) : Eff :=
  if d.running src then d.refuse src stBusyPort 2#16 else go d

/-- The reply of bytes. -/
def Dev.replyBytes (d : Dev) (src : CmdSrc) (bs : List Byte) : Dev := d.reply src stDone 0#16 (wordsOfBytes bs)

/-! ### Keystone's Deck transactions (R222, R224 to R231, R345) -/

/-- What one of Keystone's transactions met: refused (C2 at or above the threshold), let through, delayed or not, answered NOT_PRESENT on its
way, or not granted yet. -/
inductive KsGrant where
  | refused (d : Dev)
  | through (late : Bool) (d : Dev)
  | absent (d : Dev)
  | wait (d : Dev)

/-- The transaction of a command that waits for the same access. -/
def Dev.ksWaiting (d : Dev) (src : CmdSrc) (t : Txn) : Option Txn :=
  d.txns.find? (fun u => u.ofCmd src && u.addr == t.addr && u.ddr == t.ddr && u.ty == t.ty)

/-- A transaction of Keystone put on its way, unless it is already. -/
def Dev.ksIssue (d : Dev) (src : CmdSrc) (t : Txn) : Nat × Dev :=
  match d.ksWaiting src t with
  | some u => (u.id, d)
  | none => (d.nextId, d.issueTxn (fun id => { t with id := id, origin := .keystone src }))

/-- A transaction of Keystone at its target (R224 to R229). -/
def Dev.ksSend (d : Dev) (src : CmdSrc) (t : Txn) : KsGrant :=
  let e := d.ksIssue src t
  match e.2.txn e.1 with
  | none => .wait e.2
  | some u =>
    if u.st == .answered .notPresent then .absent (e.2.leave u)
    else if u.waits && u.overfull then
      .refused (((match u.target with
        | some g => e.2.onTarget g (fun x => { x with refs := satInc x.refs })
        | none => e.2).countRetry ksReq true).leave u)
    else if e.2.mayGrant u then .through (u.delayed && u.cls == 1#2) (((e.2.granted u).countLate u).leave u)
    else .wait e.2

/-- A command left until its next access is granted, with what it has done so far. -/
def Dev.ksWait (d : Dev) (p : KsProg) : Dev := d.onKs (fun k => { k with prog := some p })

/-- The access by which a command reaches a bent's control registers, or a span's queue engine (DESIGN CHOICE, log entry 111: one
transaction for each bent and each queue that a command touches). -/
def ksAccess (w : Nat) : Txn := newTxn 0 ksReq 1#2 .wr (BitVec.ofNat 32 w) .discard
def bentAccess (b : Nat) : Txn := ksAccess (0x08200000 + 0x1000 * b)
def queAccess (q : Nat) : Txn := ksAccess (0x08101000 + q / 128 * 0x10000 + 16 * (q % 128))

/-- A command with the Deck accesses that it still has to make: each is granted in its turn; then what the command does, told how many of all
were delayed (R231). One that meets NOT_PRESENT ends FAULT_ACTIVE naming DECK_NOTPRESENT (R237, R345). -/
def Dev.ksAll (src : CmdSrc) (go : Nat → Dev → Eff) : List Txn → KsProg → Dev → Eff
  | [], p, d => go p.late d
  | t :: r, p, d =>
    match d.ksSend src t with
    | .refused e | .absent e => ((e.countNp ksReq).reply src stFaultActive 609#16 [], [])
    | .wait e => (e.ksWait p, [])
    | .through l e =>
      if e.wordAsleep t.addr.toNat then ((e.countNp ksReq).reply src stFaultActive 609#16 [], [])
      else Dev.ksAll src go r { p with done := p.done + 1, late := p.late + if l then 1 else 0 } e

/-- A command whose Deck accesses have all been granted. -/
def Dev.ksDone (d : Dev) (src : CmdSrc) (ts : List Txn) (go : Nat → Dev → Eff) : Eff :=
  Dev.ksAll src go (ts.drop (d.progOf src).done) (d.progOf src) d

/-! ### The security engine at work for a command (R461, R466) -/

/-- An operation of the security engine for a command, on runs of code words: the command waits while the engine serves another, and until it
has read them; then what the command does, told the fault source that a read met. -/
def Dev.engineFor (d : Dev) (src : CmdSrc) (runs : List (Nat × Nat)) (go : Option Nat → Dev → Eff) : Eff :=
  let e := if d.engineBusy then d else d.engineStart runs (some src)
  if e.sec.busy && e.sec.subject == some src && e.engineDone then go e.sec.rdBad e.engineFree else (e.ksWait (e.progOf src), [])

/-- DONE, or DELAYED with the number of delayed transactions (R231, R349). -/
def doneOr (late : Nat) : BitVec 16 × BitVec 16 :=
  if late = 0 then (stDone, 0#16) else (stDelayed, BitVec.ofNat 16 (min late 0xFFFF))

end Sys2Proof.Machine
end

