-- ==== Sys2Proof/Machine/CmdLoad.lean ====
section
/-! DEFINITION. LOOP_LOAD (spec 11 R354; 08 R257, R260, R263; 13 R413; 16 R455). -/
namespace Sys2Proof.Machine

/-! ### A staged image (R354, R367) -/

/-- Whether the staged words lie within one Deck SRAM slice. -/
def stagedInSlice (stage len : Nat) : Bool :=
  isDeck stage && decide ((stage - 0x01000000) / 0x100000 = (stage - 0x01000000 + (max (len / 4) 1 - 1)) / 0x100000)

/-- STAGE and LEN of a request checked (R354). -/
def Dev.badStage (d : Dev) (src : CmdSrc) : List (Nat × Bool) :=
  let stage := (d.pay32 src 0).toNat
  let len := (d.pay32 src 4).toNat
  [(0, !stagedInSlice stage len), (4, len == 0 || len % 4 != 0)]

/-- A staged word of the header, 0 beyond LEN. -/
def stagedWord (m : List Host.Cell) (stage len i : Nat) : W32 := if 4 * i < len then (Memory.word m (stage + i)).pay else 0#32

/-- The poisoned header word that Keystone meets, if any (R345). -/
def Dev.badHeaderWord (d : Dev) (stage len : Nat) : Option Nat :=
  ((List.range 3).map (fun i => stage + i)).find? (fun w => decide (4 * (w - stage) < len) && d.poisoned w)

/-! ### Room in code store (R257, R260, R263) -/

/-- Lines of code store that are taken: the images and the copies under way. -/
def Dev.takenLines (d : Dev) : List (Nat × Nat) :=
  (d.ks.images ++ d.ks.kept).map (fun i => (i.addr.toNat / 16, i.addr.toNat / 16 + i.lines)) ++ d.ks.copies.map (fun c => (c.dest / 16, c.dest / 16 + c.lines))

/-- Whether lines [lo, hi) are free. -/
def Dev.linesFree (d : Dev) (lo hi : Nat) : Bool := d.takenLines.all (fun e => decide (hi ≤ e.1) || decide (e.2 ≤ lo))

/-- The first line of a slice. -/
def sliceLine (s : Nat) : Nat := 0x200000 + 0x10000 * s

/-- Free lines of a slice; the reserved region is not free (R260). -/
def Dev.sliceFree (d : Dev) (s : Nat) : Nat :=
  let own := fun e : Nat × Nat => decide (sliceLine s ≤ e.1) && decide (e.1 < sliceLine (s + 1)) && decide ((if s = 0 then 0x204000 else 0) ≤ e.1)
  65536 - (if s = 0 then 16384 else 0) - (d.takenLines.filter own).foldl (fun n e => n + (e.2 - e.1)) 0

/-- The slices that a SLICE field allows: the one named, or those with the most free lines (R354). -/
def Dev.slices (d : Dev) (f : Nat) : List Nat :=
  if f < 8 then [f]
  else
    let best := (List.range 8).foldl (fun n s => max n (d.sliceFree s)) 0
    (List.range 8).filter (fun s => d.sliceFree s == best)

/-- Whether no line of [lo, hi) lies in a bank that holds a bound paced image (R263). -/
def Dev.unpaced (d : Dev) (lo hi : Nat) : Bool :=
  let bank := fun l : Nat => (l - 0x200000) / 0x2000
  ((List.range (bank (hi - 1) - bank lo + 1)).map (fun k => bank lo + k)).all (fun k => !(d.span (k / 8)).pacedBank.getLsbD (k % 8))

/-- The lines at which an image of n lines can begin in a slice (R263). -/
def Dev.places (d : Dev) (n s : Nat) : List Nat :=
  ((List.range 65536).map (fun k => sliceLine s + k)).filter (fun l =>
    decide (l + n ≤ sliceLine (s + 1)) && (s != 0 || decide (0x204000 ≤ l)) && d.linesFree l (l + n) && d.unpaced l (l + n))

/-- The most writes of a line of an image of n lines that begins at a line, and the latest of all writes to its lines. -/
def Dev.lastWrite (d : Dev) (n lo : Nat) : Nat × Nat :=
  d.wear.foldl (fun m e => if lo ≤ e.1 ∧ e.1 < lo + n then (max m.1 e.2.1, max m.2 e.2.2) else m) (0, 0)

/-- Whether one place comes before another: fewer writes, then the older latest write (R482). -/
def wornLess (a b : Nat × Nat) : Bool := decide (a.1 < b.1) || (a.1 == b.1 && decide (a.2 < b.2))

/-- Of the places where an image of n lines fits, those whose lines have the fewest writes and of these the least recent (R482); which of several
such places is taken is a free choice (DESIGN CHOICE, log entry 123). -/
def Dev.inTurn (d : Dev) (n : Nat) (ls : List Nat) : List Nat :=
  match ls with
  | [] => []
  | l :: r =>
    let oldest := r.foldl (fun m x => if wornLess (d.lastWrite n x) m then d.lastWrite n x else m) (d.lastWrite n l)
    ls.filter (fun x => d.lastWrite n x == oldest)

/-! ### LOOP_LOAD -/

/-- The read by which Keystone fetches a staged header (R222, R354). -/
def headerRead (stage len : Nat) : Txn := { newTxn 0 ksReq 1#2 .rd (BitVec.ofNat 32 stage) .discard with count := min 3 (max 1 (len / 4)) }

/-- A copy begins: its command answers ACCEPTED. -/
def Dev.startCopy (d : Dev) (src : CmdSrc) (k : JobKind) (stage dest len : Nat) (ws : List W32) (late : Nat) : Dev :=
  ((d.accept src k ws late).onKs (fun x => { x with copies := x.copies ++ [{ src := src, stage := stage, dest := dest, len := len, next := 0 }] })).copyOn

/-- LOOP_LOAD. -/
def Dev.loopLoadCmd (d : Dev) (m : List Host.Cell) (src : CmdSrc) : Eff :=
  let stage := (d.pay32 src 0).toNat
  let len := (d.pay32 src 4).toNat
  let sl := (d.pay8 src 8).toNat
  match firstBad (d.badStage src ++ [(8, decide (7 < sl) && sl != 255), (9, !d.payZero src 9 16)]) with
  | some o => d.badParam src o
  | none =>
    match d.choose (d.inTurn ((len + 63) / 64) ((d.slices sl).flatMap (fun s => d.places ((len + 63) / 64) s))) with
    | (none, d1) => d1.refuse src stRefCap 1#16
    | (some line, d1) => d1.acceptOr src (fun z => z.ksDone src [headerRead stage len] (fun late x =>
      match x.badHeaderWord stage len with
      | some w => ((x.sramRead w .good ksReq).2).refuse src stFaultActive 545#16
      | none =>
        let addr := BitVec.ofNat 32 (16 * line)
        let base := payloadAt (laneOf (stagedWord m stage len 1) 1)
        let entry := addr + BitVec.ofNat 32 (base / 4) + stagedWord m stage len 2
        (x.startCopy src (.loopLoad addr) stage (16 * line) len [addr, entry] late, [])))

/-- LOOP_LOAD (R354). -/
def execLoopLoad (src : CmdSrc) (s : State) : Host.Outcome State Fault Refusal :=
  s.commit (settleEff s.mem (s.dev.takeCmd src { op := 0x0301, len := exact 16, modes := modesCSRD, changes := true }
    (fun d => d.loopLoadCmd s.mem src)))

end Sys2Proof.Machine
end

