-- ==== Sys2Proof/Machine/CmdBind.lean ====
section
/-! DEFINITION. LOOP_BIND and its checks, which LOOP_MIGRATE shares (spec 11 R355 to R357, R360; 01 R30; 02 R45, R50, R77, R87; 03 R124; 04 R151
to R153; 05 R166, R178; 06 R197, R207; 08 R262, R274; 13 R413; 16 R460). -/
namespace Sys2Proof.Machine

/-! ### What a binding declares (R355, R356) -/

/-- A region entry as it stands in the payload. -/
structure RawRegion where
  kind : Nat
  num : Nat
  perm : Nat
  zero : Nat
  base : W32
  limit : W32

/-- The declarations of a binding as they stand in the payload; `own` is the number of the loop that moves, 0 for a new one. -/
structure BindReq where
  own : BitVec 16
  image : W32
  core : Nat
  flags : Byte
  rate : Nat
  trigger : Nat
  pri : Byte
  margin : Byte
  cgroup : Nat
  period : W32
  deadline : W32
  unitId : W32
  sbase : Nat
  slen : Nat
  cmpt : W32
  nreg : Nat
  zeros : Bool
  regs : List RawRegion

/-- The declarations of a LOOP_BIND request. -/
def Dev.bindReq (d : Dev) (src : CmdSrc) : BindReq :=
  let n := (d.pay8 src 32).toNat
  { own := 0#16, image := d.pay32 src 0, core := (d.pay16 src 4).toNat, flags := d.pay8 src 6, rate := (d.pay8 src 7).toNat,
    trigger := (d.pay8 src 8).toNat, pri := d.pay8 src 9, margin := d.pay8 src 10, cgroup := (d.pay8 src 11).toNat, period := d.pay32 src 12,
    deadline := d.pay32 src 16, unitId := d.pay32 src 20, sbase := (d.pay16 src 24).toNat, slen := (d.pay16 src 26).toNat, cmpt := d.pay32 src 28,
    nreg := n, zeros := d.payZero src 33 36,
    regs := (List.range n).map (fun i =>
      { kind := (d.pay8 src (36 + 12 * i)).toNat, num := (d.pay8 src (37 + 12 * i)).toNat, perm := (d.pay8 src (38 + 12 * i)).toNat,
        zero := (d.pay8 src (39 + 12 * i)).toNat, base := d.pay32 src (40 + 12 * i), limit := d.pay32 src (44 + 12 * i) }) }

/-- Fields of FLAGS. -/
def BindReq.compact (r : BindReq) : Bool := r.flags.getLsbD 0
def BindReq.paced (r : BindReq) : Bool := r.flags.getLsbD 2
def BindReq.cls (r : BindReq) : BitVec 2 := r.flags.extractLsb' 4 2

/-- The core and the bent named; a CORE above 2047 is refused before they matter. -/
def BindReq.coreId (r : BindReq) : Nat := r.core % 2048
def BindReq.bent (r : BindReq) : Nat := bentOf r.coreId

/-- Whether it is a deadline loop (R166). -/
def BindReq.timed (r : BindReq) : Bool := r.deadline != 0#32 || r.paced

/-- The other loops on the core, and in the bent. -/
def Dev.othersOn (d : Dev) (r : BindReq) : List Loop := d.allBinds.filter (fun l => l.core.toNat == r.coreId && l.num != r.own)
def Dev.othersIn (d : Dev) (r : BindReq) : List Loop := d.allBinds.filter (fun l => bentOf l.core.toNat == r.bent && l.num != r.own)

/-! ### Checks of the fields, in offset order -/

/-- Whether an image suits a core: compact images within one 64 Ki-word block with the other vectors of the core's sources (R124), paced
ones in the span's slice (R153). -/
def imageSuits (i : Image) (compact paced : Bool) (b : Nat) (vecs : List W32) : Bool :=
  let lo := i.addr.toNat
  let hi := lo + 16 * i.lines - 1
  (!compact || (lo / 0x10000 == hi / 0x10000 && vecs.all (fun v => v.toNat / 0x10000 == lo / 0x10000)))
    && (!paced || codeSlice lo == spanOf b)

/-- IMAGE (R413, R124, R153). -/
def Dev.badImage (d : Dev) (r : BindReq) : Bool :=
  match d.image r.image with
  | none => true
  | some i => i.type != 2#8 || !imageSuits i r.compact r.paced r.bent (d.slotVectors r.bent (slotOf r.coreId) r.trigger)
      || (r.paced && decide (4 < (lineOf i.entry :: (d.vectorLines r.bent (slotOf r.coreId)).filter (fun n => n != lineOf i.entry)).length))

/-- FLAGS (R30, R45, R222, R355). -/
def Dev.badFlags (d : Dev) (r : BindReq) : Bool :=
  r.flags.getLsbD 7 || r.cls == 3#2 || (r.cls == 0#2) != r.timed
    || (d.othersOn r).any (fun l => l.compact != r.compact || l.t != r.flags.getLsbD 1 || l.paced != r.paced)

/-- TRIGGER (R355, R207). -/
def Dev.badTrigger (d : Dev) (r : BindReq) : Bool :=
  let n := r.trigger
  n != 255 && (decide (191 < n) || (decide (88 ≤ n) && decide (n < 96)) || (decide (180 ≤ n) && decide (n < 184))
    || d.allBinds.any (fun l => bentOf l.core.toNat == r.bent && l.trigger.toNat == n) || (d.source r.bent n).en)

/-- UNITID (R50, R355). -/
def Dev.badUnit (d : Dev) (r : BindReq) : Bool :=
  (r.unitId != 0#32 && !d.ks.images.any (fun i => i.type == 3#8 && i.entry == r.unitId))
    || (d.othersIn r).any (fun l => l.unitId != r.unitId)

/-- SLEN. -/
def BindReq.badSlen (r : BindReq) : Bool := r.slen == 0 || decide (0x10000 < r.sbase + r.slen)

/-- SBASE: no window entry that grants read and write holds the state block (R87, R356), named by its own-bent or its global address. -/
def BindReq.badSbase (r : BindReq) : Bool :=
  let holds := fun (e : RawRegion) (lo : Nat) => e.kind == 0 && e.perm % 4 == 3 && decide (e.base.toNat ≤ lo) && decide (lo + r.slen ≤ e.limit.toNat + 1)
  !r.badSlen && decide (1 ≤ r.nreg) && decide (r.nreg ≤ 32)
    && !r.regs.any (fun e => holds e r.sbase || holds e (0x04000000 + 0x10000 * r.bent + r.sbase))

/-- CMPT (R30, R77). -/
def Dev.badCmpt (d : Dev) (r : BindReq) : Bool :=
  let w := r.cmpt.toNat
  let own := 0x04000000 + 0x10000 * r.bent
  if r.compact then
    w % 0x4000 != 0 || !(decide (w < 0x10000) || (decide (own ≤ w) && decide (w < own + 0x10000)) || isDeck w)
      || (d.othersOn r).any (fun l => l.cmpt != r.cmpt)
  else w != 0

/-- The address ranges that a paced loop's windows may lie in (R153). -/
def pacedRanges : List (Nat × Nat) := [(0, 0xFFFF), (0x00020000, 0x00023FFF), (0x01000000, 0x017FFFFF), (0x04000000, 0x047FFFFF)]

/-- Region entry i (R356, R153, R274). -/
def Dev.badRegion (d : Dev) (r : BindReq) (i : Nat) (e : RawRegion) : List (Nat × Bool) :=
  let o := 36 + 12 * i
  let g := e.base.toNat % 1024
  [(o, decide (1 < e.kind) || (r.paced && e.kind == 1)), (o + 1, decide (15 < e.num)),
   (o + 2, decide ((if e.kind = 1 then 7 else 3) < e.perm) || (e.kind == 1 && decide (4 ≤ e.perm) != d.regionTagged g && d.regionMapped g)),
   (o + 3, e.zero != 0),
   (o + 4, (e.kind == 1 && decide (1024 ≤ e.base.toNat))
      || (r.paced && e.kind == 0 && !pacedRanges.any (fun z => decide (z.1 ≤ e.base.toNat) && decide (e.limit.toNat ≤ z.2)))),
   (o + 8, e.kind == 1 && e.limit != 0#32)]

/-- The payload offset of the first invalid field (R355). -/
def Dev.badBind (d : Dev) (r : BindReq) : Option Nat :=
  firstBad ([(0, d.badImage r), (4, decide (2047 < r.core) || d.mode.bentOut.getLsbD r.bent), (6, d.badFlags r),
    (7, decide (4 < r.rate) || (!r.paced && r.rate != 0)), (8, d.badTrigger r),
    (10, (d.othersIn r).length != 0 && r.margin != (d.bent r.bent).biu.preMargin), (11, decide (15 < r.cgroup) && r.cgroup != 255),
    (12, r.period == 0#32 || decide (0x7FFFFFFF < r.period.toNat)), (16, decide (r.period.toNat < r.deadline.toNat)), (20, d.badUnit r),
    (24, r.badSbase), (26, r.badSlen), (28, d.badCmpt r), (32, r.nreg == 0 || decide (32 < r.nreg)), (33, !r.zeros)]
    ++ ((List.range r.regs.length).zip r.regs).flatMap (fun e => d.badRegion r e.1 e.2))

/-! ### Resources (R343 step 10) -/

/-- A window that the bent holds for another loop with other bounds, permissions or region (R356). -/
def Dev.windowHeld (d : Dev) (r : BindReq) : Option (BitVec 16) :=
  let has := (d.othersIn r).flatMap (fun l => l.regions)
  let clash := fun (e : RawRegion) => has.any (fun x => x.ddr == (e.kind == 1) && x.num.toNat == e.num
    && !(x.perm.toNat == e.perm && x.base == e.base && x.limit == e.limit))
  (r.regs.find? clash).map (fun e => BitVec.ofNat 16 ((if e.kind = 1 then 0x6000 else 0x5000) + e.num))

/-- The comparators that are free for a loop (R207): off, their source not enabled, and no loop's trigger, allocated or named as source 64 + k. -/
def Dev.freeAlarms (d : Dev) (b : Nat) : List Nat :=
  (List.range 24).filter (fun k => ((d.bent b).biu.alarm k).mode == 0#2 && !(d.source b (64 + k)).en
    && !d.allBinds.any (fun l => bentOf l.core.toNat == b && (l.comp == some (BitVec.ofNat 5 k) || l.trigger.toNat == 64 + k)))

/-- The slack entries of a core that are free. -/
def Dev.freeSlack (d : Dev) (c : Nat) : List Nat :=
  (List.range 4).filter (fun e => !((d.bent (bentOf c)).scr.entry (slotOf c) e).valid)

/-- The code store slot of a paced core: the one it holds, or the lowest free one (R262). -/
def Dev.fetchSlot (d : Dev) (c : Nat) : Option Nat :=
  let s : Tab CoreId := (d.span (spanOf (bentOf c))).slots
  match s.find? (fun e => e.2.toNat == c) with
  | some e => some e.1
  | none => (List.range 12).find? (fun j => !s.any (fun e => e.1 == j))

/-- The pace generator's holder, when it runs at another rate (R151). -/
def Dev.otherRate (d : Dev) (r : BindReq) : Option SlotId :=
  match (d.bent r.bent).pace with
  | some g => if r.paced ∧ g.rate.toNat ≠ r.rate ∧ (d.othersIn r).any (fun l => l.paced) = true then some g.holder else none
  | none => none

/-- The first resource that is lacking or held. -/
def Dev.bindShort (d : Dev) (r : BindReq) : Option (BitVec 16 × BitVec 16) :=
  match d.windowHeld r with
  | some det => some (stRefHeld, det)
  | none =>
    if r.timed && (d.freeSlack r.coreId).isEmpty then some (stRefCap, 3#16)
    else if r.trigger == 255 && (d.freeAlarms r.bent).isEmpty then some (stRefCap, 4#16)
    else match d.otherRate r with
      | some h => some (stRefHeld, BitVec.ofNat 16 (0x1000 + h.toNat))
      | none =>
        if r.paced && (d.fetchSlot r.coreId).isNone then some (stRefCap, 2#16)
        else if r.paced && !(d.bent r.bent).scr.pacedMet (BitVec.ofNat 3 r.rate) 100 then some (stRefCap, 7#16)
        else none

/-! ### The binding -/

/-- A region entry as the binding keeps it. -/
def RawRegion.region (e : RawRegion) : Region :=
  { ddr := e.kind == 1, num := BitVec.ofNat 4 e.num, perm := BitVec.ofNat 3 e.perm, base := e.base, limit := e.limit }

/-- The loop that a request declares, with what Keystone allocates: comparator and slack entry are free choices (DESIGN CHOICE, log entry 32). -/
def Dev.makeLoop (d : Dev) (r : BindReq) (num : BitVec 16) (entry : W32) : Loop × Dev :=
  let c := if r.trigger = 255 then d.choose (d.freeAlarms r.bent) else (none, d)
  let e := if r.timed then c.2.choose (c.2.freeSlack r.coreId) else (none, c.2)
  ({ num := num, image := r.image, entry := entry, core := BitVec.ofNat 11 r.coreId, compact := r.compact, t := r.flags.getLsbD 1, paced := r.paced,
     safety := r.flags.getLsbD 3, cls := r.cls, wake := r.flags.getLsbD 6, rate := BitVec.ofNat 3 r.rate,
     trigger := BitVec.ofNat 8 (match c.1 with | some k => 64 + k | none => r.trigger), pri := r.pri,
     cgroup := if r.cgroup = 255 then none else some (BitVec.ofNat 4 r.cgroup), comp := c.1.map (fun k => BitVec.ofNat 5 k),
     slack := e.1.map (fun k => BitVec.ofNat 2 k), pslot := if r.paced then (e.2.fetchSlot r.coreId).map (fun k => BitVec.ofNat 4 k) else none,
     period := r.period, deadline := r.deadline, unitId := r.unitId, sbase := BitVec.ofNat 16 r.sbase, slen := BitVec.ofNat 17 r.slen,
     cmpt := r.cmpt, regions := r.regs.map RawRegion.region }, e.2)

/-- The attributes of the regions that a binding's DDR windows declare (R274, R356). -/
def Dev.bindAttrs (d : Dev) (l : Loop) : Dev :=
  l.regions.foldl (fun x e => if e.ddr then x.setAttr (e.base.toNat % 1024) (e.perm.getLsbD 2) else x) d

/-- What Keystone writes for a binding (R357, R475 step 1), PREMARGIN among it (R197). -/
def Dev.bindLoop (d : Dev) (m : List Host.Cell) (l : Loop) (margin : Byte) : Dev :=
  ((d.bindAttrs l).onBiu (bentOf l.core.toNat) (fun u => { u with preMargin := margin })).applyBind m l

/-- The reply of R357. -/
def Loop.report (l : Loop) : List W32 :=
  let orFF := fun (o : Option Nat) (at_ : Nat) => placeNat (o.getD 0xFF) at_
  [place l.num 0 ||| orFF (l.comp.map (fun k => k.toNat)) 16 ||| orFF (l.slack.map (fun k => k.toNat)) 24,
   orFF (l.pslot.map (fun k => k.toNat)) 0 ||| place l.trigger 8]

/-- A command's image verified again by the security engine where it has not been at a LOOP_BIND since BOOT (R413); a command whose image
fails ends with that status. -/
def Dev.reverify (d : Dev) (m : List Host.Cell) (src : CmdSrc) (addr : W32) (go : Dev → Eff) : Eff :=
  match d.image addr with
  | some i =>
    if i.verified then go d
    else d.engineFor src i.runs (fun bad x => match x.recheckImage m i bad with
      | (.good, y) => go y
      | (v, y) => y.refuse src v.status v.detail)
  | none => go d

/-- The reads by which Keystone fetches the unit table that a bent is to hold (R54, R222, R357). -/
def Dev.tableReads (d : Dev) (b : Nat) (ident : W32) : List Txn :=
  match d.tableFor b ident with
  | none => []
  | some i =>
    let n := (i.len - 3520) / 4
    (List.range ((n + 7) / 8)).map (fun k =>
      { newTxn 0 ksReq 1#2 .rd (BitVec.ofNat 32 (i.addr.toNat + 880 + 8 * k)) .discard with count := min 8 (n - 8 * k) })

/-- Loop numbers that no loop has (R357; DESIGN CHOICE, log entry 32). -/
def Dev.freeNumbers (d : Dev) : List Nat := ((List.range 0xFFFE).map (fun n => n + 1)).filter (fun n => !d.ks.loops.any (fun l => l.num.toNat == n))

/-- LOOP_BIND. -/
def Dev.loopBindCmd (d : Dev) (m : List Host.Cell) (src : CmdSrc) : Eff :=
  let r := d.bindReq src
  match d.badBind r with
  | some o => d.badParam src o
  | none =>
    match d.bindShort r with
    | some e => d.refuse src e.1 e.2
    | none =>
      match d.choose d.freeNumbers with
      | (none, d1) => d1.refuse src stRefCap 8#16
      | (some n, d1) =>
        d1.ksDone src (bentAccess r.bent :: d1.tableReads r.bent r.unitId) (fun late e => e.reverify m src r.image (fun d2' =>
          let tab := d2'.readTable r.bent r.unitId
          let d2 := tab.2
          if tab.1 then d2.refuse src stFaultActive 547#16 else
          let l := d2.makeLoop r (BitVec.ofNat 16 n) (((d2.image r.image).map (fun i => i.entry)).getD 0#32)
          let d3 := (l.2.onKs (fun k => { k with loops := k.loops ++ [l.1] })).bindLoop m l.1 r.margin
          let st := doneOr late
          ((d3.advanceRb m r.image).reply src st.1 st.2 l.1.report, [])))

/-- Whether a LENGTH fits LOOP_BIND: 36 + 12 × NREG (R355). -/
def loopBindLen (len : Nat) (pay : Nat → Nat) : Bool := decide (36 ≤ len) && len == 36 + 12 * pay 32

/-- LOOP_BIND (R355). -/
def execLoopBind (src : CmdSrc) (s : State) : Host.Outcome State Fault Refusal :=
  s.commit (settleEff s.mem (s.dev.takeCmd src { op := 0x0302, len := loopBindLen, modes := modesCSRD, changes := true }
    (fun d => d.loopBindCmd s.mem src)))

end Sys2Proof.Machine
end

