-- ==== Sys2Proof/Machine/Viaduct.lean ====
section
/-! DEFINITION. The Viaduct's rows (spec 12_viaduct_chain.md R377 to R394; 11 R371, R372). -/
namespace Sys2Proof.Machine

/-! ### TXN, RSP and CMD flits (R385, R387, R392) -/

/-- The requester that enters a transaction from port p into the Deck (R221). -/
def viaReq : ViaPort → ReqId
  | .up => 0x803#12
  | .dn => 0x804#12

/-- The transaction of a TXN flit (R380, R387): the first part names the target word; for an EVT its bits [6:0] and [15:8] are the bent
and the source. -/
def txnOfFlit (p : ViaPort) (h : FlitHdr) (ty : TxnType) (req : ReqId) (paced : Bool) (tag : Byte) (parts : List WordPart) (n : BitVec 4)
    (id : Nat) : Txn :=
  let a := match parts with | [] => 0#32 | w :: _ => w.addr
  let writes := match ty with | .wr | .tw => true | .rd | .fill | .qop | .evt => false
  { newTxn id (viaReq p) h.cls ty a (.viaduct p h.src req tag) with
    paced := paced, count := n.toNat + 1, parts := if writes || (match ty with | .qop => true | _ => false) then parts else [],
    ev := (match ty with | .evt => some (bitsAt 7 a 0, bitsAt 8 a 8) | _ => none) }

/-- The TXN flit that passes a transaction on, as it came. -/
def txnPassed (h : FlitHdr) (ty : TxnType) (req : ReqId) (paced : Bool) (tag : Byte) (parts : List WordPart) (n : BitVec 4) : Txn :=
  { newTxn tag.toNat req h.cls ty (match parts with | [] => 0#32 | w :: _ => w.addr) .discard with
    paced := paced, count := n.toNat + 1, parts := parts, dest := some h.dest }

/-- Whether a transaction crosses the Viaduct: a FILL, or one of more than 8 words, never does (R380). -/
def overViaduct (ty : TxnType) (n : BitVec 4) : Bool :=
  decide (n.toNat < 8) && (match ty with
    | .fill => false
    | .rd | .wr | .tw | .qop | .evt => true)

/-- VIA_TXN_RECEIVE (R387). -/
def execViaTxnReceive (p : ViaPort) (h : FlitHdr) (ty : TxnType) (req : ReqId) (paced : Bool) (tag : Byte) (parts : List WordPart)
    (n : BitVec 4) (s : State) : Host.Outcome State Fault Refusal :=
  s.keep (s.dev.viaTake p h 1 (fun d =>
    if overViaduct ty n then d.viaRoute p h [.txn (txnPassed h ty req paced tag parts n)] (fun x => x.issueTxn (txnOfFlit p h ty req paced tag parts n))
    else d.viaFree p h.cls 1))

/-- The response of a remote access: the oldest transaction of that requester and tag that waits for it from that unit (R387). -/
def Dev.remoteAnswer (d : Dev) (src : BitVec 4) (req : ReqId) (tag : Byte) (r : Resp) : Dev :=
  match d.txns.find? (fun t => t.st == .remote && t.dest == some src && t.req == req && t.id % 256 == tag.toNat) with
  | some t => d.answer t.id r
  | none => d

/-- VIA_RSP_RECEIVE (R387). -/
def execViaRspReceive (p : ViaPort) (h : FlitHdr) (req : ReqId) (tag : Byte) (r : Resp) (s : State) : Host.Outcome State Fault Refusal :=
  s.keep (s.dev.viaTake p h 1 (fun d => d.viaRoute p h [.rsp req tag r] (fun x => x.remoteAnswer h.src req tag r)))

/-- A forwarded request in its slot of the forward buffer (R392); while Keystone cannot take commands it is answered BUSY_PORT 0001h (R340,
R479). -/
def Dev.takeForward (d : Dev) (u : BitVec 4) (o : Port) (body : List W32) : Dev :=
  let f : FwdSlot := { unit := u, port := o, req := (List.range body.length).zip body, at_ := d.clk }
  let d1 := d.onKs (fun k => { k with fwd := k.fwd.filter (fun x => !(x.unit == u && x.port == o)) ++ [f] })
  if d1.keystoneUp then d1 else d1.reply (.fwd u o) stBusyPort 1#16 []

/-- VIA_CMD_RECEIVE (R371, R392): the CMD flits of one request. -/
def execViaCmdReceive (p : ViaPort) (h : FlitHdr) (origin : Port) (body : List W32) (s : State) : Host.Outcome State Fault Refusal :=
  let bodies := streamOf origin body
  s.keep (s.dev.viaTake p h bodies.length (fun d =>
    d.viaRoute p h (bodies.map (fun b => .cmd origin b)) (fun x => x.takeForward h.src origin body)))

/-! ### CREPLY and the forwarded command's end (R372) -/

/-- Whether a job is the ACCEPTED command that a port forwarded. -/
def Job.isRemote (j : Job) (p : Port) : Bool :=
  match j.kind, j.src with
  | .remote _, .port q => p == q
  | _, _ => false

/-- A reply to a request that the port has answered itself is discarded, and so is the final result that follows an ACCEPTED one (R372). -/
def PortSt.discardStale (t : PortSt) (u : BitVec 4) (seq : W32) (final : Bool) (st : BitVec 16) : PortSt :=
  let rest := t.stale.erase (u, seq, final)
  { t with stale := if !final && st == stAccepted then rest ++ [(u, seq, true)] else rest }

/-- A reply or a final result from another unit at the port that forwarded the request. An ACCEPTED while another command of the port runs is
answered BUSY_PORT 0002h, and its final result discarded (R347; DESIGN CHOICE, log entry 119). -/
def Dev.takeCreply (d : Dev) (u : BitVec 4) (p : Port) (final : Bool) (st det : BitVec 16) (seq : W32) (ws : List W32) : Dev :=
  if (d.port p).stale.contains (u, seq, final) then d.onPort p (fun t => t.discardStale u seq final st)
  else if final then d.endJobs (fun j => j.isRemote p && j.kind == .remote u && j.seq == seq) st det
  else if (d.port p).fwdTo != some u || d.seqWord (.port p) != seq then d
  else if st = stAccepted then
    if (d.port p).arun then (d.onPort p (fun t => { t with stale := t.stale ++ [(u, seq, true)] })).reply (.port p) stBusyPort 2#16 []
    else d.accept (.port p) (.remote u) ws
  else d.reply (.port p) st det ws

/-- CREPLY_RECEIVE (R372): the CREPLY flits of one reply. -/
def execCreplyReceive (v : ViaPort) (h : FlitHdr) (p : Port) (final : Bool) (st : BitVec 16) (detail : BitVec 16) (seq elapsed : W32)
    (payload : List W32) (s : State) : Host.Outcome State Fault Refusal :=
  let hdr : List W32 := [detail ++ st, seq, BitVec.ofNat 32 (4 * payload.length), elapsed]
  let bodies := streamOf p (hdr ++ payload)
  s.keep (s.dev.viaTake v h bodies.length (fun d =>
    d.viaRoute v h (bodies.map (fun b => .creply p final b)) (fun x => x.takeCreply h.src p final st detail seq payload)))

/-! ### LINK and IDLE flits (R381, R382) -/

/-- VIA_LINK_RECEIVE (R381): a REACH flit gives the port's mask and the neighbour's address. -/
def execViaLinkReceive (p : ViaPort) (h : FlitHdr) (reachKind : Bool) (_head : Bool) (addr : Option (BitVec 4)) (_chainLen : BitVec 5)
    (reach : BitVec 16) (s : State) : Host.Outcome State Fault Refusal :=
  s.keep (s.dev.viaTake p h 1 (fun d =>
    if reachKind then
      (d.onVia p (fun v => { v with reach := reach, nvalid := addr.isSome, nunit := addr.getD 0#4 })).reachChanged d
    else d))

/-- VIA_REACH_PERIODIC (R381). -/
def execViaReachPeriodic (p : ViaPort) (s : State) : Host.Outcome State Fault Refusal := s.keep (s.dev.sendReach p)

/-- VIA_IDLE_RECEIVE (R382): its header alone; its SEQ is ignored. -/
def execViaIdleReceive (p : ViaPort) (h : FlitHdr) (s : State) : Host.Outcome State Fault Refusal :=
  let d := s.dev
  s.keep (if (d.via p).st == .up then d.viaHeader p h else d)

/-! ### Enumeration (R391) -/

/-- The token passed down; a DOWN port that is not UP is waited for. -/
def Dev.passToken (d : Dev) (t : BitVec 5) : Dev :=
  if (d.via .dn).st == .up then (d.onChain (fun c => { c with enumWait := none })).viaSend .dn 1#2 0#4 d.chain.unit (.enum t)
  else d.onChain (fun c => { c with enumWait := some d.clk })

/-- An END flit sent upward. -/
def Dev.sendEnd (d : Dev) (n : BitVec 5) : Dev := d.viaSend .up 1#2 0#4 d.chain.unit (.endf n)

/-- CHAINLEN recorded: the units of the chain can be reached, and the neighbours hold the addresses next to the own one (R391 step 5,
R378). -/
def Dev.setLength (d : Dev) (n : BitVec 5) : Dev :=
  let u := d.chain.unit.toNat
  let len := n.toNat
  let d1 := d.onChain (fun c => { c with
    chainLen := n
    up := { c.up with reach := unitsOf 0 (min u len), topo := false, nvalid := c.up.st == .up && decide (0 < u), nunit := BitVec.ofNat 4 (u - 1) }
    dn := { c.dn with reach := unitsOf (u + 1) len, topo := false, nvalid := c.dn.st == .up && decide (u + 1 < len),
                      nunit := BitVec.ofNat 4 (u + 1) } })
  d1.reachChanged d

/-- The HEAD has the chain's length (R391 steps 5 and 6). -/
def Dev.headLength (d : Dev) (n : BitVec 5) : Dev :=
  let d1 := (d.setLength n).viaSend .dn 1#2 0#4 d.chain.unit (.length n)
  d1.endJobs (fun j => j.kind == .viaEnum) stDone (n.setWidth 16)

/-- A VIA_ENUM ends what mismatched addresses kept off the links (R378). -/
def Chain.freed (c : Chain) : Chain := { c with up := { c.up with topo := false }, dn := { c.dn with topo := false } }

/-- An ENUM flit on UP (R391 steps 2 and 3); a change of the own bit is told by REACH flits (R381). -/
def Dev.takeEnum (d : Dev) (t : BitVec 5) : Dev :=
  let d0 := d.onChain Chain.freed
  if d.chain.head then (d0.raise 672 0 0#16).sendEnd t
  else if 16 ≤ t.toNat then (((d0.onChain (fun c => { c with uvalid := false, unit := 0#4 })).tellReach d).raise 672 0 0#16).sendEnd 16#5
  else ((d0.onChain (fun c => { c with uvalid := true, unit := BitVec.ofNat 4 t.toNat })).tellReach d).passToken (t + 1#5)

/-- VIA_ENUM_RECEIVE (R391): ENUM flits travel down. -/
def execViaEnumReceive (p : ViaPort) (h : FlitHdr) (token : BitVec 5) (s : State) : Host.Outcome State Fault Refusal :=
  s.keep (s.dev.viaTake p h 1 (fun d => if p = .up then d.takeEnum token else d))

/-- VIA_END_RECEIVE (R391): END flits travel up to the HEAD. -/
def execViaEndReceive (p : ViaPort) (h : FlitHdr) (count : BitVec 5) (s : State) : Host.Outcome State Fault Refusal :=
  s.keep (s.dev.viaTake p h 1 (fun d =>
    if p = .up ∨ d.chain.uvalid = false then d else if d.chain.head then d.headLength count else d.sendEnd count))

/-- VIA_LENGTH_RECEIVE (R391): LENGTH flits travel down. -/
def execViaLengthReceive (p : ViaPort) (h : FlitHdr) (len : BitVec 5) (s : State) : Host.Outcome State Fault Refusal :=
  s.keep (s.dev.viaTake p h 1 (fun d =>
    if p = .dn ∨ d.chain.uvalid = false then d else (d.setLength len).viaSend .dn 1#2 0#4 d.chain.unit (.length len)))

/-- VIA_ENUM_TIMEOUT (R391 step 3): the DOWN port has not been UP for 3 ms, so this unit is the last. -/
def execViaEnumTimeout (s : State) : Host.Outcome State Fault Refusal :=
  let d := s.dev
  s.keep (match d.chain.enumWait with
  | some t =>
    if t + 2400000 ≤ d.clk then
      let d1 := d.onChain (fun c => { c with enumWait := none })
      let n : BitVec 5 := d.chain.unit.setWidth 5 + 1#5
      if d.chain.head then d1.headLength n else d1.sendEnd n
    else d
  | none => d)

/-! ### Timebase distribution (R393, R394) -/

/-- Chain time: the local time of R422, which is the timebase and what it missed asleep, plus VIA_TBOFS (R394). -/
def Dev.chainTime (d : Dev) : BitVec 64 := d.tb + d.pwr.slept + d.chain.tbOfs.getD 0#64

/-- A failed exchange (R394). -/
def Dev.syncFail (d : Dev) : Dev :=
  let n := satInc d.chain.fails
  let d1 := d.onChain (fun c => { c with fails := n, good := 0 })
  let d2 := if (d.via .up).lost then d1.runFree .up else d1
  if d.tbSrc == 2#2 && decide (3 ≤ n.toNat) then { d2 with tbLock := false } else d2

/-- LOCK after a residual in 1/32 tick (R394). -/
def lockAfter (lock : Bool) (r : Int) (good : Nat) : Bool :=
  if 512 < r.natAbs then false else if 8 ≤ good then true else lock

/-- A successful exchange (R393, R394); stamps in 1/32 tick. -/
def Dev.syncDone (d : Dev) (t1 t2 t3 t4 : BitVec 64) : Dev :=
  let delay : Int := (((t4 - t1) - (t3 - t2)).toInt).fdiv 2
  let r : Int := (t2 - t1).toInt - delay
  let ticks : Int := r.fdiv 32
  let sets := d.chain.tbOfs.isNone || (d.chain.tbFresh && d.tbSrc != 2#2)
  let left : Int := if sets then r - 32 * ticks else r
  let good := if left.natAbs ≤ 128 then d.chain.good + 1 else 0
  let d1 := d.onChain (fun c => { c with
    tbOfs := if sets then some (c.tbOfs.getD 0#64 + BitVec.ofInt 64 ticks) else c.tbOfs
    tbFresh := false, fails := 0#7, good := good
    delay := BitVec.ofInt 8 (max 0 (min 255 (delay.fdiv 32)))
    resid := BitVec.ofInt 16 (max (-32768) (min 32767 left)) })
  if d.tbSrc == 2#2 then { d1 with tbSlew := if sets then d.tbSlew else ticks, tbLock := lockAfter d.tbLock left good } else d1

/-- A stamp of the own chain time, to 1/32 of a tick, whose part below a tick is a free value (DESIGN CHOICE, log entry 11). -/
def Dev.stampNow (d : Dev) : BitVec 64 × Dev :=
  let a := d.freshNat 32
  (d.chainTime * 32#64 + BitVec.ofNat 64 a.1, a.2)

/-- An exchange with the neighbour above (R393): a SYNC flit with t1, the departure in the own chain time; the answer with its t2 and t3 arrives at
t4, some time later, which is a free value (DESIGN CHOICE, log entry 11); without an answer the exchange fails. -/
def Dev.syncExchange (d : Dev) (answer : Option (BitVec 64 × BitVec 64)) : Dev :=
  let t1 := d.stampNow
  let e := t1.2.viaSend .up 0#2 0#4 d.chain.unit (.sync t1.1 0#64 0#64)
  match answer with
  | some (t2, t3) =>
    let w := e.freshNat 65536
    w.2.syncDone t1.1 t2 t3 (t1.1 + BitVec.ofNat 64 w.1)
  | none => e.syncFail

/-- VIA_SYNC_EXCHANGE (R393): units other than the HEAD; the stamps are the neighbour's, none where no answer comes. An exchange fails while the UP
link is not UP. -/
def execViaSyncExchange (stamps : Option (BitVec 64 × BitVec 64)) (s : State) : Host.Outcome State Fault Refusal :=
  let d := s.dev
  s.keep (if d.chain.head then d else if (d.via .up).st == .up then d.syncExchange stamps else d.syncFail)

/-- VIA_SYNC_RECEIVE (R393): a SYNC from the unit below is stamped at arrival and at departure in the own chain time and returned; the
stamps' parts below a tick, and the departure after the arrival, are free values (DESIGN CHOICE, log entry 11). -/
def execViaSyncReceive (p : ViaPort) (h : FlitHdr) (t1 : BitVec 64) (s : State) : Host.Outcome State Fault Refusal :=
  s.keep (s.dev.viaTake p h 1 (fun d =>
    if p = .up ∨ d.viaServes p = false then d
    else
      let t2 := d.stampNow
      let b := t2.2.freshNat 65536
      b.2.viaSend .dn 0#2 0#4 d.chain.unit (.sync t1 t2.1 (t2.1 + BitVec.ofNat 64 b.1))))

/-! ### Retry (R383) -/

/-- VIA_FLIT_ERROR (R383): a CRC error or a SEQ other than the next expected: discarded, with one NAK for each gap. -/
def execViaFlitError (p : ViaPort) (s : State) : Host.Outcome State Fault Refusal :=
  let d := s.dev
  s.keep (if (d.via p).st == .up then d.onVia p Via.gap else d)

/-- VIA_REPLAY_TIMEOUT (R383): the oldest flit has not been acknowledged for 2 µs. -/
def execViaReplayTimeout (p : ViaPort) (s : State) : Host.Outcome State Fault Refusal :=
  let d := s.dev
  s.keep (match (d.via p).ledger with
  | f :: _ => if (d.via p).st == .up && decide (f.sentAt + 1600 ≤ d.clk) then (d.onVia p (fun v => v.replay d.clk (d.cfSent p))).viaStalled p else d
  | [] => d)

/-! ### The port's state table (R377, R378) -/

/-- Lanes in a mask. -/
def lanesIn (m : BitVec 5) : Nat := ((List.range 5).filter (fun i => m.getLsbD i)).length

/-- The two lowest lanes of a mask. -/
def lowestTwo (m : BitVec 5) : BitVec 5 :=
  (((List.range 5).filter (fun i => m.getLsbD i)).take 2).foldl (fun (v : BitVec 5) i => v ||| (1#5 <<< i)) 0#5

/-- Whether a port may leave DOWN (R373, R377): EN is 1, and the HEAD's UP port is held down whatever its EN (DEDUCED, log entry 120). -/
def Dev.viaMayTrain (d : Dev) (p : ViaPort) : Bool := (d.via p).en && !(p == .up && d.chain.head)

/-- VIA_FAR_END_DETECT (R377): DOWN to TRAIN; in the sleep states the ports stay DOWN (R419). -/
def execViaFarEndDetect (p : ViaPort) (lanes : BitVec 5) (s : State) : Host.Outcome State Fault Refusal :=
  let d := s.dev
  s.keep (if (d.via p).st == .down && decide (d.pwr.pstate.toNat < 2) && d.viaMayTrain p && decide (2 ≤ lanesIn lanes) then
    d.onVia p (fun v => { v with st := .train, retraining := false, trainAt := d.clk })
  else d)

/-- The lane that the spare replaces: the lowest of lanes 0 to 3 that did not train. -/
def sparedLane (m : BitVec 5) : Nat := ((List.range 4).find? (fun i => !m.getLsbD i)).getD 0

/-- TRAIN ended with a mask of good lanes (R377). -/
def Dev.trainEnd (d : Dev) (p : ViaPort) (m : BitVec 5) : Dev :=
  let v := d.via p
  if lanesIn m < 2 then (if v.retraining then d.linkDown p true else d.onVia p (fun x => { x with st := .down }))
  else if 4 ≤ lanesIn m then
    let spare := !(m.getLsbD 0 && m.getLsbD 1 && m.getLsbD 2 && m.getLsbD 3)
    let d1 := (d.onVia p (fun x => { x with st := .check, half := false, spare := spare, lanes := if spare then m else 15#5 })).sendCheck p
    if spare && !v.spare then d1.raise 675 (viaInst p) (BitVec.ofNat 16 (sparedLane m)) else d1
  else
    let spare := (lowestTwo m).getLsbD 4
    let d1 := ((d.onVia p (fun x => { x with st := .check, half := true, lanes := lowestTwo m, spare := spare })).sendCheck p).raise 673 (viaInst p) 0#16
    if spare && !v.spare then d1.raise 675 (viaInst p) (BitVec.ofNat 16 (sparedLane m)) else d1

/-- VIA_TRAIN_END (R377): `lanes` is the mask of lanes that trained; a lane marked bad is not used. -/
def execViaTrainEnd (p : ViaPort) (lanes : BitVec 5) (s : State) : Host.Outcome State Fault Refusal :=
  let d := s.dev
  s.keep (if (d.via p).st == .train then (d.trainEnd p (lanes &&& ~~~(d.via p).bad)).modeCheck else d)

/-- The address that a neighbour on a port must hold (R378). -/
def Dev.neighbour (d : Dev) (p : ViaPort) : Int :=
  match p with
  | .up => (d.chain.unit.toNat : Int) - 1
  | .dn => (d.chain.unit.toNat : Int) + 1

/-- A link enters UP (R377, R378, R381): a retrain replays its ledger; the neighbour's address is recorded and compared. -/
def Dev.enterUp (d : Dev) (p : ViaPort) (addr : Option (BitVec 4)) : Dev :=
  let wrong := d.chain.uvalid && (match addr with | some a => (a.toNat : Int) != d.neighbour p | none => false)
  let d1 := d.onVia p (fun v =>
    let v1 := { v with st := .up, retraining := false, wasUp := true, nvalid := addr.isSome, nunit := addr.getD 0#4, topo := wrong }
    if v.retraining then { v1.replay d.clk (d.cfSent p) with stalled := 0 } else v1)
  let d2 := if p = .up ∧ (d.via p).retraining = false then d1.onChain (fun c => { c with tbFresh := true }) else d1
  let d3 := if wrong then d2.raise 672 (viaInst p) 0#16 else d2
  let d4 := (d3.sendReach p).viaPump
  if p = .dn ∧ d4.chain.enumWait.isSome = true then d4.passToken (d4.chain.unit.setWidth 5 + 1#5) else d4

/-- VIA_CHECK_END (R377): a CRC error, or a second HEAD on the link, leads to DOWN; else the link is UP. -/
def execViaCheckEnd (p : ViaPort) (good : Bool) (head : Bool) (addr : Option (BitVec 4)) (_chainLen : BitVec 5) (s : State) :
    Host.Outcome State Fault Refusal :=
  let d := s.dev
  let two := head && d.chain.head
  s.keep (if (d.via p).st != .check then d
    else if !good || two then (if two then d.raise 672 (viaInst p) 0#16 else d).linkDown p true
    else (d.enterUp p addr).modeCheck)

/-- A sync-header error on a lane (R377, R396): counted; the sixteenth in one second fails the lane. -/
def Dev.laneError (d : Dev) (p : ViaPort) (lane : Nat) : Dev :=
  let recent := d.clk :: (Tab.find [] (d.via p).errAt lane).filter (fun t => decide (d.clk < t + 800000000))
  let d1 := d.onVia p (fun v => { v with
    lerr := Tab.put v.lerr lane (min 63 (Tab.find 0 v.lerr lane + 1)), errAt := Tab.put v.errAt lane (recent.take 16) })
  if 16 ≤ recent.length then d1.viaRetrain p (1#5 <<< lane) else d1

/-- VIA_LANE_ERROR (R377): a sync-header error, or a lane that has lost block lock. -/
def execViaLaneError (p : ViaPort) (lane : BitVec 3) (lostLock : Bool) (s : State) : Host.Outcome State Fault Refusal :=
  let d := s.dev
  s.keep (if 5 ≤ lane.toNat ∨ (d.via p).st ≠ .up then d
    else if lostLock then d.viaRetrain p (1#5 <<< lane.toNat) else d.laneError p lane.toNat)

/-- VIA_RETRAIN (R377): a write of RETRAIN. -/
def execViaRetrain (_req : ReqId) (p : ViaPort) (s : State) : Host.Outcome State Fault Refusal := s.keep (s.dev.viaRetrain p 0#5)

/-- VIA_RX_SILENCE (R377): no flit for 4 µs on a link that is UP. -/
def execViaRxSilence (p : ViaPort) (s : State) : Host.Outcome State Fault Refusal :=
  let d := s.dev
  s.keep (if (d.via p).st == .up then d.linkDown p true else d)

/-- VIA_RETRAIN_TIMEOUT (R377): a retrain has not returned to UP within 1 ms. -/
def execViaRetrainTimeout (p : ViaPort) (s : State) : Host.Outcome State Fault Refusal :=
  let d := s.dev
  s.keep (if (d.via p).retraining && decide ((d.via p).trainAt + 800000 ≤ d.clk) then d.linkDown p true else d)

/-- VIA_CHAIN_SIDEBAND (R376, R390): the chain fault level on a sideband input; the downstream one counts while SBEN is 1. -/
def execViaChainSideband (p : ViaPort) (level : Bool) (s : State) : Host.Outcome State Fault Refusal :=
  let d := s.dev
  s.keep ((d.onVia p (fun v => { v with sbIn := level })).cfRise d p)

end Sys2Proof.Machine
end

