-- ==== Sys2Proof/Machine/CmdCfg.lean ====
section
/-! DEFINITION. Commands that set something: SCR_SET (spec 11 R364), FLT_ACK and FLT_SEVERITY (11 R366; 15 R439, R444), PLB_SELECT (11 R368;
18 R496 to R501), SPARE_SWAP (11 R369; 17 R483, R484, R487), VIA_ENUM (11 R368; 12 R391), and the end of a wait for a forwarded
command (11 R372). -/
namespace Sys2Proof.Machine

/-! ### SCR_SET -/

/-- The fields that SET selects, given to an agent. -/
def Dev.scrFields (d : Dev) (src : CmdSrc) (a : Scribe) : Scribe :=
  let set := fun i : Nat => (d.pay8 src 1).getLsbD i
  let v := fun i : Nat => d.pay8 src (2 + i)
  { a with
    period := if set 0 then v 0 else a.period
    pmargin := if set 1 then v 1 else a.pmargin
    margin := if set 2 then v 2 else a.margin
    policy := if set 3 then (v 3).setWidth 2 else a.policy
    fixed := if set 4 then (v 4).setWidth 7 else a.fixed
    floor := if set 5 then (v 5).setWidth 7 else a.floor }

/-- SCR_SET: the law uses the fields from the next control period on (R168). A bent that is named alone and answers NOT_PRESENT ends the
command (R345). -/
def Dev.scrSetCmd (d : Dev) (src : CmdSrc) : Eff :=
  let b := (d.pay8 src 0).toNat
  let set := fun i : Nat => (d.pay8 src 1).getLsbD i
  let v := fun i : Nat => (d.pay8 src (2 + i)).toNat
  match firstBad [(0, decide (127 < b) && b != 255), (1, d.pay8 src 1 >>> 6 != 0#8), (2, set 0 && v 0 == 0), (5, set 3 && decide (1 < v 3)),
      (6, set 4 && decide (100 < v 4)), (7, set 5 && decide (100 < v 5)), (8, !d.payZero src 8 12)] with
  | some o => d.badParam src o
  | none =>
    let bs := if b = 255 then (List.range 128).filter (fun n => !d.wordAsleep (0x08200000 + 0x1000 * n)) else [b]
    d.ksDone src (bs.map bentAccess) (fun late e =>
      let st := doneOr late
      ((bs.foldl (fun x n => x.onScr n (d.scrFields src)) e).reply src st.1 st.2 [], []))

/-- SCR_SET (R364). -/
def execScrSet (src : CmdSrc) (s : State) : Host.Outcome State Fault Refusal :=
  s.commit (settleEff s.mem (s.dev.takeCmd src { op := 0x0601, len := exact 12, modes := modesCSRD, changes := true } (fun d => d.scrSetCmd src)))

/-! ### FLT_ACK and FLT_SEVERITY -/

/-- FLT_ACK. -/
def Dev.fltAckCmd (d : Dev) (src : CmdSrc) : Eff :=
  let mode := (d.pay8 src 0).toNat
  let ns := (List.range (d.pay16 src 2).toNat).map (fun i => (d.pay16 src (4 + 2 * i)).toNat)
  match firstBad ([(0, decide (1 < mode)), (1, d.pay8 src 1 != 0#8)] ++ ((List.range ns.length).zip ns).map (fun e => (4 + 2 * e.1, decide (767 < e.2)))) with
  | some o => d.badParam src o
  | none => ((if mode = 1 then d.clearAllLatches else d.clearLatches ns).reply src stDone 0#16 [], [])

/-- Whether a LENGTH fits FLT_ACK. -/
def fltAckLen (len : Nat) (pay : Nat → Nat) : Bool := len == 4 + (pay 2 + 256 * pay 3 + 1) / 2 * 4

/-- FLT_ACK (R366, R444). -/
def execFltAck (src : CmdSrc) (s : State) : Host.Outcome State Fault Refusal :=
  s.commit (settleEff s.mem (s.dev.takeCmd src { op := 0x0702, len := fltAckLen, modes := modesAll, changes := true, excepted := true }
    (fun d => d.fltAckCmd src)))

/-- FLT_SEVERITY: a change affects only later raises (R439); a source that is not named keeps severity 0. -/
def Dev.fltSevCmd (d : Dev) (src : CmdSrc) : Eff :=
  let n := (d.pay16 src 0).toNat
  match firstBad [(0, decide (767 < n)), (2, decide (4 < (d.pay8 src 2).toNat)), (3, d.pay8 src 3 != 0#8)] with
  | some o => d.badParam src o
  | none =>
    let d1 := if fltNamed n then d.onFlt (fun f => f.onSrc n (fun x => { x with sev := some ((d.pay8 src 2).setWidth 3) })) else d
    (d1.reply src stDone 0#16 [], [])

/-- FLT_SEVERITY (R366, R439). -/
def execFltSeverity (src : CmdSrc) (s : State) : Host.Outcome State Fault Refusal :=
  s.commit (settleEff s.mem (s.dev.takeCmd src
    { op := 0x0703, len := exact 4, modes := [mCommission, mStandby], changes := true, excepted := true } (fun d => d.fltSevCmd src)))

/-! ### PLB_SELECT -/

/-- Whether a signal number can be selected (R496). -/
def Dev.signalNamed (d : Dev) (n : Nat) : Bool :=
  decide (n < 0xDB4) || (decide (0xDC0 ≤ n) && decide (n < 0xE88)) || (decide (0xF00 ≤ n) && decide (n < 0xF08) && d.sec.dbgScope.getLsbD 3)

/-- A pin with the selection of an ENABLE byte (R497). -/
def PlbPin.select (p : PlbPin) (enable : Nat) (signal : BitVec 12) (now : Nat) : PlbPin :=
  p.choose (enable != 0) (decide (2 ≤ enable)) (BitVec.ofNat 4 (enable - 2)) signal now

/-- PLB_SELECT. -/
def Dev.plbSelectCmd (d : Dev) (src : CmdSrc) : Eff :=
  let mux := (d.pay8 src 0).toNat
  let pin := (d.pay8 src 1).toNat
  let en := (d.pay8 src 2).toNat
  let sig := (d.pay16 src 4).toNat
  match firstBad [(0, decide (1 < mux)), (1, decide (3 < pin)), (2, decide (17 < en)), (3, d.pay8 src 3 != 0#8), (4, !d.signalNamed sig),
      (6, !d.payZero src 6 8)] with
  | some o => d.badParam src o
  | none =>
    if mux = 1 ∧ 2 ≤ pin ∧ en ≠ 0 ∧ d.chain.dn.sbEn = true then d.refuse src stRefHeld 0x4000#16
    else
      let d1 : Dev := { d with plb := Tab.modify {} d.plb (4 * mux + pin) (fun p => p.select en (BitVec.ofNat 12 sig) d.clk) }
      (d1.reply src stDone 0#16 [], [])

/-- PLB_SELECT (R368). -/
def execPlbSelect (src : CmdSrc) (s : State) : Host.Outcome State Fault Refusal :=
  s.commit (settleEff s.mem (s.dev.takeCmd src
    { op := 0x0A01, len := exact 8, modes := [mCommission, mStandby, mRun, mDegraded, mTest], changes := true } (fun d => d.plbSelectCmd src)))

/-! ### SPARE_SWAP -/

/-- Whether a SPARE_SWAP of a bent is under way: its spare core is taken. -/
def Dev.swapping (d : Dev) (b : Nat) : Bool :=
  d.ks.jobs.any (fun j => match j.kind with | .spareSwap x _ _ _ => x.toNat == b | _ => false)

/-- The free slot of a bent retired after its self-test failed (R483). -/
def Dev.retireFree (d : Dev) (b : Nat) : Dev :=
  (d.onBent b (fun x => { x with retired := setBit x.retired x.freeSlot true, spareFree := false })).recordSpares

/-- SPARE_SWAP steps 1 and 2; `selfTest` says whether the free slot passed. -/
def Dev.spareSwapCmd (d : Dev) (src : CmdSrc) (selfTest : Bool) : Eff :=
  let b := (d.pay8 src 0).toNat
  let p := (d.pay8 src 1).toNat
  let x := d.bent b
  let l := if p < 17 ∧ x.retired.getLsbD p = false then x.logicalOf p else none
  match firstBad [(0, decide (127 < b)), (1, l.isNone), (2, !d.payZero src 2 4)] with
  | some o => d.badParam src o
  | none =>
    if !x.spareFree || d.swapping b then d.refuse src stRefCap 6#16
    else d.acceptOr src (fun w => w.ksDone src [bentAccess b] (fun late y =>
      let ls : SlotId := BitVec.ofNat 4 (l.getD 0)
      let bb : BentId := BitVec.ofNat 7 b
      let pp : BitVec 5 := BitVec.ofNat 5 p
      let k : JobKind := .spareSwap bb pp (BitVec.ofNat 5 x.freeSlot) ls
      let j := y.jobFor src k late
      let z := y.accept src k [] late
      if selfTest then (z, []) else (((z.retireFree b).noteSwap 1#3 bb pp ls).endJob j stRefCap 6#16, [])))

/-- SPARE_SWAP (R369, R483). -/
def execSpareSwap (src : CmdSrc) (selfTest : Bool) (s : State) : Host.Outcome State Fault Refusal :=
  s.commit (settleEff s.mem (s.dev.takeCmd src { op := 0x0B01, len := exact 4, modes := modesCSRD, changes := true }
    (fun d => d.spareSwapCmd src selfTest)))

/-- Whether a job is a SPARE_SWAP in a bent. -/
def Job.swapsIn (j : Job) (b : BentId) : Bool := match j.kind with | .spareSwap x _ _ _ => x == b | _ => false

/-- SPARE_SWAP_TIMEOUT (R483 step 4): no idle moment in 100 ms; nothing has changed. -/
def execSpareSwapTimeout (b : BentId) (s : State) : Host.Outcome State Fault Refusal :=
  let d := s.dev
  s.keep (match d.ks.jobs.find? (fun j => j.swapsIn b && decide (j.since + 80000000 ≤ d.clk)) with
  | none => d
  | some j => match j.kind with
    | .spareSwap x p _ l => (d.noteSwap 2#3 x p l).endJob j stBusyPort 3#16
    | _ => d)

/-! ### VIA_ENUM, the wait for a forwarded command -/

/-- VIA_ENUM at the HEAD (R391 step 1). -/
def Dev.viaEnumCmd (d : Dev) (src : CmdSrc) : Eff :=
  if !d.chain.head then d.badParam src 0xFFFE
  else d.acceptOr src (fun x => (((x.onChain Chain.freed).accept src .viaEnum []).passToken 1#5, []))

/-- VIA_ENUM (R368, R391). -/
def execViaEnum (src : CmdSrc) (s : State) : Host.Outcome State Fault Refusal :=
  s.commit (settleEff s.mem (s.dev.takeCmd src { op := 0x0901, len := exact 0, modes := [mCommission, mStandby], changes := true }
    (fun d => d.viaEnumCmd src)))

/-- CMD_FORWARD_TIMEOUT (R372): no reply within 100 ms; a later one is discarded. -/
def execCmdForwardTimeout (p : Port) (s : State) : Host.Outcome State Fault Refusal :=
  let d := s.dev
  let t := d.port p
  s.keep (if t.busy && t.fwdTo.isSome && decide (t.fwdAt + 80000000 ≤ d.clk) then
      (d.onPort p (fun x => { x with stale := x.stale ++ [(t.fwdTo.getD 0#4, d.seqWord (.port p), false)] })).reply (.port p) stUnitAbsent 2#16 []
    else d)

end Sys2Proof.Machine
end

