-- ==== Sys2Proof/Machine/CmdInfo.lean ====
section
/-! DEFINITION. The commands that only report: DEV_INFO, DEV_STATUS, MODE_GET (spec 11 R352, R353), SCR_REPORT (R364), FLT_READ (R366),
VIA_STATUS (R368), SPARE_STATUS (R369). -/
namespace Sys2Proof.Machine

/-! ### DEV_INFO and DEV_STATUS (R352) -/

/-- Free code store lines: those of the array, less the reserved region (R260), the images and the copies under way. -/
def Dev.freeLines (d : Dev) : Nat :=
  524288 - 16384 - (((d.ks.images ++ d.ks.kept).filter (fun i => !isReserved i.addr.toNat)).foldl (fun n i => n + i.lines) 0)
    - ((d.ks.copies.filter (fun c => !isReserved c.dest)).foldl (fun n c => n + c.lines) 0)

/-- The words of DEV_INFO. -/
def Dev.devInfo (d : Dev) : List W32 :=
  let unit := flag d.chain.uvalid 7 ||| (if d.chain.uvalid then place d.chain.unit 0 else 0#32)
  let ready := (List.range 4).foldl (fun w n => w ||| flag (d.ddr n).ready n) 0#32
  let gb := (List.range 4).foldl (fun n k => n + fieldOf (d.ddr k).cfg 8 0) 0 / 2
  [0x2048#32 ||| place d.sec.rev 16 ||| (unit <<< 24),
   d.sec.serial.setWidth 32, d.sec.serial.extractLsb' 32 32,
   d.ks.fwVer,
   flag d.ks.slotB 0 ||| flag d.bifurc 8 ||| flag d.chain.head 9 ||| place d.chain.chainLen 16 ||| (ready <<< 24),
   placeNat (gb % 65536) 0 ||| place d.sec.vendor 16,
   BitVec.ofNat 32 d.freeLines,
   0#32]

/-- DEV_INFO. -/
def execDevInfo (src : CmdSrc) (s : State) : Host.Outcome State Fault Refusal :=
  s.commit (settleEff s.mem (s.dev.takeCmd src { op := 0x0101, len := exact 0, modes := modesAll }
    (fun d => (d.reply src stDone 0#16 d.devInfo, []))))

/-- The hottest valid sensor, in 1/16 °C; with no valid sensor a free value (DESIGN CHOICE, log entry 17). -/
def Dev.hottest (d : Dev) : BitVec 16 × Dev :=
  let ts := (d.temps.filter (fun (e : Nat × Bool × BitVec 16) => e.2.1)).map (fun (e : Nat × Bool × BitVec 16) => e.2.2)
  match ts with
  | [] => let f := d.fresh
          (f.1.setWidth 16, f.2)
  | t :: r => (r.foldl (fun a b => if a.toInt < b.toInt then b else a) t, d)

/-- Loops that run: started, their core not STOPPED. -/
def Dev.runningLoops (d : Dev) : Nat :=
  (d.ks.loops.filter (fun l => d.started l && (d.core l.core.toNat).status != .stopped)).length

/-- The words of DEV_STATUS. -/
def Dev.devStatus (d : Dev) (temp : BitVec 16) : List W32 :=
  let bents := fun (f : Scribe → Bool) => placeNat (min 255 (d.bents.filter (fun e => f e.2.scr)).length)
  [place d.mode.mode 0 ||| place d.pwr.pstate 8 ||| flag d.kRun 16 ||| flag d.sRun 17 ||| flag d.safeNLow 18,
   d.statWord 2, d.statWord 3, d.pwr.pest,
   place d.pwr.ceil 0 ||| place temp 16,
   bents Scribe.held 0 ||| bents Scribe.unable 8 ||| placeNat d.ks.loops.length 16,
   placeNat d.runningLoops 0,
   d.time]

/-- DEV_STATUS. -/
def execDevStatus (src : CmdSrc) (s : State) : Host.Outcome State Fault Refusal :=
  s.commit (settleEff s.mem (s.dev.takeCmd src { op := 0x0102, len := exact 0, modes := modesAll }
    (fun d => let t := d.hottest
              (t.2.reply src stDone 0#16 (t.2.devStatus t.1), []))))

/-! ### MODE_GET (R353) -/

/-- MODE_GET. -/
def execModeGet (src : CmdSrc) (s : State) : Host.Outcome State Fault Refusal :=
  s.commit (settleEff s.mem (s.dev.takeCmd src { op := 0x0202, len := exact 0, modes := modesAll }
    (fun d => (d.reply src stDone 0#16 [place d.mode.mode 0 ||| place d.mode.prev 8 ||| place d.mode.reason 16, d.mode.time], []))))

/-! ### SCR_REPORT (R364) -/

/-- The ten words of SCR_REPORT read by Keystone one after another: their RC fields are cleared (R9). -/
def Dev.scrWords (d : Dev) (b : Nat) : Nat → List W32 × Dev
  | 0 => ([], d)
  | n + 1 =>
    let w := 0x08200000 + 0x1000 * b + 0x800 + (9 - n)
    let r := Dev.scrWords (d.regClear w) b n
    ((d.regRead ksReq w).pay :: r.1, r.2)

/-- SCR_REPORT: each word is a Deck transaction. -/
def Dev.scrReport (d : Dev) (src : CmdSrc) : Eff :=
  let b := (d.pay8 src 0).toNat
  if 128 ≤ b then d.badParam src 0
  else if !d.payZero src 1 4 then d.badParam src 1
  else d.ksDone src ((List.range 10).map (fun i => { ksAccess (0x08200800 + 0x1000 * b + i) with ty := .rd })) (fun late e =>
    let r := e.scrWords b 10
    let st := doneOr late
    (r.2.reply src st.1 st.2 r.1, []))

/-- SCR_REPORT. -/
def execScrReport (src : CmdSrc) (s : State) : Host.Outcome State Fault Refusal :=
  s.commit (settleEff s.mem (s.dev.takeCmd src { op := 0x0602, len := exact 4, modes := modesAll } (fun d => d.scrReport src)))

/-! ### FLT_READ (R366) -/

/-- The byte of a source. -/
def Collector.readByte (f : Collector) (n : Nat) : Byte :=
  let x := f.src n
  ((flag x.latched 7 ||| flag x.esc 6 ||| place (f.sevOf n) 0)).setWidth 8

/-- FLT_READ. -/
def Dev.fltRead (d : Dev) (src : CmdSrc) : Eff :=
  let first := (d.pay16 src 0).toNat
  let n := (d.pay16 src 2).toNat
  match firstBad [(0, decide (768 < first)), (2, decide (768 < first + n))] with
  | some o => d.badParam src o
  | none => (d.reply src stDone 0#16 (d.statWord 2 :: wordsOfBytes ((List.range n).map (fun i => d.flt.readByte (first + i)))), [])

/-- FLT_READ. -/
def execFltRead (src : CmdSrc) (s : State) : Host.Outcome State Fault Refusal :=
  s.commit (settleEff s.mem (s.dev.takeCmd src { op := 0x0701, len := exact 4, modes := modesAll } (fun d => d.fltRead src)))

/-! ### VIA_STATUS (R368) -/

/-- The eight bytes of a Viaduct port. -/
def Via.report (v : Via) : List W32 := [flag (v.st == .up) 0 ||| flag v.spare 1 ||| place v.lanes 8, v.retry]

/-- VIA_STATUS. -/
def execViaStatus (src : CmdSrc) (s : State) : Host.Outcome State Fault Refusal :=
  s.commit (settleEff s.mem (s.dev.takeCmd src { op := 0x0902, len := exact 0, modes := modesAll }
    (fun d => (d.reply src stDone 0#16
      (d.chain.up.report ++ d.chain.dn.report ++ [place d.chain.chainLen 0 ||| place d.chain.unit 8]), []))))

/-! ### SPARE_STATUS (R369) -/

/-- Spare rows left in the banks of an SRAM. -/
def Sram.rowsLeft (x : Sram) (per : Nat) : Nat := (List.range 8).foldl (fun n k => n + (per - (x.bank k).used.toNat)) 0

/-- The words of SPARE_STATUS. -/
def Dev.spareStatus (d : Dev) : List W32 :=
  let cores := ((List.range 128).filter (fun b => (d.bent b).spareFree)).length
  let bentRows := (List.range 128).foldl (fun n b => n + (d.bent b).sram.rowsLeft 4) 0
  let deckRows := (List.range 8).foldl (fun n k => n + (d.span k).sram.rowsLeft 32) 0
  let soft := (List.range 4).foldl (fun n k => n + (d.ddr k).soft.toNat) 0
  [placeNat cores 0 ||| flag d.chain.up.spare 16 ||| flag d.chain.dn.spare 17, BitVec.ofNat 32 bentRows, BitVec.ofNat 32 deckRows,
    BitVec.ofNat 32 soft]
  ++ (List.range 4).map (fun k => place (d.span (2 * k)).cstSpares 0 ||| place (d.span (2 * k + 1)).cstSpares 16)
  ++ (List.range 128).map (fun b => (d.bentRead b 5).pay)

/-- SPARE_STATUS (R369): the word of every bent in service is read over the Deck, that of one out of
service is Keystone's own (DESIGN CHOICE, log entry 111). -/
def Dev.spareStatusCmd (d : Dev) (src : CmdSrc) : Eff :=
  d.ksDone src (((List.range 128).filter (fun b => !d.mode.bentOut.getLsbD b)).map (fun b => { ksAccess (0x08200005 + 0x1000 * b) with ty := .rd })) (fun late e =>
    let st := doneOr late
    (e.reply src st.1 st.2 e.spareStatus, []))

/-- SPARE_STATUS. -/
def execSpareStatus (src : CmdSrc) (s : State) : Host.Outcome State Fault Refusal :=
  s.commit (settleEff s.mem (s.dev.takeCmd src { op := 0x0B02, len := exact 0, modes := modesAll } (fun d => d.spareStatusCmd src)))

end Sys2Proof.Machine
end

