-- ==== Sys2Proof/Machine/CmdLoop.lean ====
section
/-! DEFINITION. LOOP_START, LOOP_STOP, LOOP_UPDATE and LOOP_MIGRATE (spec 11 R358 to R361; 17 R468 to R477). -/
namespace Sys2Proof.Machine

/-! ### LOOP_START (R358) -/

/-- LOOP_START. -/
def Dev.loopStartCmd (d : Dev) (src : CmdSrc) : Eff :=
  let start := d.pay32 src 4
  match d.loop (d.pay16 src 0) with
  | none => d.badParam src 0
  | some l =>
    match firstBad [(2, !d.payZero src 2 4), (4, start != 0#32 && !before d.time start)] with
    | some o => d.badParam src o
    | none =>
      let k := d.core l.core.toNat
      if d.started l && (k.status == .waiting || k.status == .running) then (d.reply src stDone 0#16 [], [])
      else if k.idleMoment then
        d.ksDone src [bentAccess (bentOf l.core.toNat)] (fun late e =>
          let st := doneOr late
          ((e.startLoop l start).reply src st.1 st.2 [], []))
      else d.acceptOr src (fun x => x.ksDone src [bentAccess (bentOf l.core.toNat)] (fun late e =>
        (e.accept src (.loopStart l.num start) [] late, [])))

/-- LOOP_START (R358). -/
def execLoopStart (src : CmdSrc) (s : State) : Host.Outcome State Fault Refusal :=
  s.commit (settleEff s.mem (s.dev.takeCmd src { op := 0x0303, len := exact 8, modes := [mRun, mDegraded], changes := true }
    (fun d => d.loopStartCmd src)))

/-- Whether a job waits to start a loop. -/
def Job.starts (j : Job) (n : BitVec 16) : Bool := match j.kind with | .loopStart k _ => k == n | _ => false

/-- LOOP_START_TIMEOUT (R358): no idle moment within 10 ms, and nothing has changed. -/
def execLoopStartTimeout (loop : BitVec 16) (s : State) : Host.Outcome State Fault Refusal :=
  let d := s.dev
  s.keep (d.endJobs (fun j => j.starts loop && decide (j.start + 8000000 ≤ d.clk)) stBusyPort 3#16)

/-! ### LOOP_STOP (R359) -/

/-- LOOP_STOP. -/
def Dev.loopStopCmd (d : Dev) (src : CmdSrc) : Eff :=
  let f := d.pay8 src 2
  match d.loop (d.pay16 src 0) with
  | none => d.badParam src 0
  | some l =>
    match firstBad [(2, f >>> 2 != 0#8), (3, d.pay8 src 3 != 0#8)] with
    | some o => d.badParam src o
    | none =>
      let ts := [bentAccess (bentOf l.core.toNat)]
      let ended := fun (late : Nat) (x : Dev) =>
        let st := doneOr late
        (if f.getLsbD 1 then x.unbindLoop l else x).reply src st.1 st.2 []
      if f.getLsbD 0 then d.ksDone src ts (fun late e => (ended late ((e.disarmLoop l).stopNow l), []))
      else if d.iterating l then
        d.acceptOr src (fun x => x.ksDone src ts (fun late e => ((e.disarmLoop l).accept src (.loopStop l.num (f.getLsbD 1)) [] late, [])))
      else d.ksDone src ts (fun late e => (ended late ((e.disarmLoop l).loopOff l), []))

/-- LOOP_STOP (R359). -/
def execLoopStop (src : CmdSrc) (s : State) : Host.Outcome State Fault Refusal :=
  s.commit (settleEff s.mem (s.dev.takeCmd src
    { op := 0x0304, len := exact 4, modes := [mStandby, mRun, mDegraded, mSafeHold], changes := true, excepted := true }
    (fun d => d.loopStopCmd src)))

/-- Whether a job waits for the iteration boundary of a loop: a LOOP_STOP of it, or a MODE_SET STANDBY, that of a recovery phase among them
(R359, R399, R405). -/
def Dev.stopWaits (d : Dev) (l : Loop) (j : Job) : Bool :=
  match j.kind with
  | .loopStop n _ => n == l.num
  | .modeSet t => t == mStandby && (d.mode.mode == mRun || d.mode.mode == mDegraded || d.mode.recov)
  | _ => false

/-- LOOP_STOP_TIMEOUT (R359): no boundary within 2 × PERIOD, and the stop acts as NOW. -/
def Dev.stopLate (d : Dev) (n : BitVec 16) : Dev :=
  match d.loop n with
  | none => d
  | some l =>
    if d.iterating l && d.ks.jobs.any (fun j => d.stopWaits l j && decide (j.start + 64 * l.period.toNat ≤ d.clk)) then d.stopNow l else d

/-- LOOP_STOP_TIMEOUT (R359). -/
def execLoopStopTimeout (loop : BitVec 16) (s : State) : Host.Outcome State Fault Refusal :=
  s.commit (settleEff s.mem (s.dev.stopLate loop, []))

/-! ### LOOP_UPDATE (R361, R469, R471, R472) -/

/-- Whether a core has a switch armed (R469). -/
def Dev.switchArmed (d : Dev) (c : Nat) : Bool := (Tab.find {} (d.bent (bentOf c)).sw (slotOf c) : Switch).armed

/-- Whether a new image does not suit a loop (R361, R471, R472). -/
def Dev.badUpdate (d : Dev) (l : Loop) (addr : W32) : Bool :=
  let b := bentOf l.core.toNat
  match d.image addr with
  | none => true
  | some i =>
    let kept := (((d.bent b).biu.src.filter (fun e => e.2.mask.getLsbD (slotOf l.core.toNat) && e.1 != l.trigger.toNat)).map
      (fun e => lineOf e.2.vec)).eraseDups
    i.type != 2#8 || d.imageBound addr || !imageSuits i l.compact l.paced b (d.slotVectors b (slotOf l.core.toNat) l.trigger.toNat)
      || decide (4 < (lineOf i.entry :: kept.filter (fun n => n != lineOf i.entry)).length)

/-- Whether a line of an image lies in a bank that holds a bound paced image (R263). -/
def Dev.imagePaced (d : Dev) (addr : W32) : Bool :=
  match d.image addr with
  | some i => !d.unpaced (i.addr.toNat / 16) (i.addr.toNat / 16 + i.lines)
  | none => false

/-- LOOP_UPDATE; its new image has to lie in banks that hold no bound paced image (R263; DEDUCED, log entry 116). -/
def Dev.loopUpdateCmd (d : Dev) (m : List Host.Cell) (src : CmdSrc) : Eff :=
  let addr := d.pay32 src 4
  match d.loop (d.pay16 src 0) with
  | none => d.badParam src 0
  | some l =>
    match firstBad [(2, !d.payZero src 2 4), (4, d.badUpdate l addr)] with
    | some o => d.badParam src o
    | none =>
      let c := l.core.toNat
      if d.imagePaced addr then d.refuse src stRefCap 1#16
      else if d.switchArmed c then d.refuse src stBusyPort 2#16
      else d.acceptOr src (fun x => x.ksDone src [bentAccess (bentOf c)] (fun late e => e.reverify m src addr (fun y =>
        let entry := ((y.image addr).map (fun i => i.entry)).getD 0#32
        ((y.accept src (.update l.num addr) [] late).armSwitch (bentOf c) (slotOf c) false l.trigger entry, []))))

/-- LOOP_UPDATE (R361). -/
def execLoopUpdate (src : CmdSrc) (s : State) : Host.Outcome State Fault Refusal :=
  s.commit (settleEff s.mem (s.dev.takeCmd src { op := 0x0306, len := exact 8, modes := [mStandby, mRun, mDegraded], changes := true }
    (fun d => d.loopUpdateCmd s.mem src)))

/-! ### LOOP_MIGRATE (R360, R475 to R477) -/

/-- A window of a loop at its target: one in own-bent SRAM moves by the change of SBASE (R360), by its own-bent or its global address. -/
def Region.moved (e : Region) (b b' : Nat) (s s' : Nat) : RawRegion :=
  let lo := e.base.toNat
  let hi := e.limit.toNat
  let view := fun x : Nat => 0x04000000 + 0x10000 * x
  let at_ := fun (from_ dst : Nat) (w : Nat) => BitVec.ofInt 32 ((w : Int) - from_ - s + dst + s')
  let (base, limit) :=
    if e.ddr then (e.base, e.limit)
    else if lo < 0x10000 ∧ hi < 0x10000 then (at_ 0 0 lo, at_ 0 0 hi)
    else if view b ≤ lo ∧ hi < view (b + 1) then (at_ (view b) (view b') lo, at_ (view b) (view b') hi)
    else (e.base, e.limit)
  { kind := if e.ddr then 1 else 0, num := e.num.toNat, perm := e.perm.toNat, zero := 0, base := base, limit := limit }

/-- A moved window that leaves its bent's SRAM. -/
def Region.outside (e : Region) (r : RawRegion) : Bool :=
  !e.ddr && decide (e.base.toNat < 0x10000) && decide (e.limit.toNat < 0x10000) && !(decide (r.base.toNat < 0x10000) && decide (r.limit.toNat < 0x10000))

/-- The declarations of a loop at its target, to be checked as a LOOP_BIND's (R360); PREMARGIN is the one that the loop declared. -/
def Dev.moveReq (d : Dev) (src : CmdSrc) (l : Loop) : BindReq :=
  let core := (d.pay16 src 2).toNat
  let sbase := (d.pay16 src 4).toNat
  let b := bentOf l.core.toNat
  { own := l.num, image := l.image, core := core,
    flags := (flag l.compact 0 ||| flag l.t 1 ||| flag l.paced 2 ||| flag l.safety 3 ||| place l.cls 4 ||| flag l.wake 6).setWidth 8,
    rate := l.rate.toNat, trigger := (d.pay8 src 6).toNat, pri := l.pri, margin := (d.bent b).biu.preMargin, cgroup := (d.pay8 src 7).toNat,
    period := l.period, deadline := l.deadline, unitId := l.unitId, sbase := sbase, slen := l.slen.toNat, cmpt := l.cmpt,
    nreg := l.regions.length, zeros := true,
    regs := l.regions.map (fun e => e.moved b (bentOf (core % 2048)) l.sbase.toNat sbase) }

/-- The region entry that would leave the bent's SRAM, as the offset of its BASE. -/
def Loop.movedOut (l : Loop) (r : BindReq) : Option Nat :=
  (((List.range l.regions.length).zip (l.regions.zip r.regs)).find? (fun e => e.2.1.outside e.2.2)).map (fun e => 40 + 12 * e.1)

/-- LOOP_MIGRATE. -/
def Dev.loopMigrateCmd (d : Dev) (m : List Host.Cell) (src : CmdSrc) : Eff :=
  match d.loop (d.pay16 src 0) with
  | none => d.badParam src 0
  | some l =>
    let r := d.moveReq src l
    let c := l.core.toNat
    match (match d.badBind r with | some o => some o | none => l.movedOut r) with
    | some o => d.badParam src o
    | none =>
      match d.bindShort r with
      | some e => d.refuse src e.1 e.2
      | none =>
        if d.switchArmed c then d.refuse src stBusyPort 2#16
        else d.acceptOr src (fun x => x.ksDone src (bentAccess r.bent :: bentAccess (bentOf c) :: x.tableReads r.bent r.unitId) (fun late e' =>
          let tab := e'.readTable r.bent r.unitId
          let e := tab.2
          if tab.1 then e.refuse src stFaultActive 547#16 else
          let t := e.makeLoop r l.num l.entry
          let y := t.2.accept src (.migrate l.num t.1 (e.started l) none) t.1.report late
          ((y.bindLoop m t.1 r.margin).armSwitch (bentOf c) (slotOf c) true l.trigger 0#32, [])))

/-- LOOP_MIGRATE (R360). -/
def execLoopMigrate (src : CmdSrc) (s : State) : Host.Outcome State Fault Refusal :=
  s.commit (settleEff s.mem (s.dev.takeCmd src { op := 0x0305, len := exact 8, modes := [mStandby, mRun, mDegraded], changes := true }
    (fun d => d.loopMigrateCmd s.mem src)))

end Sys2Proof.Machine
end

