-- ==== Sys2Proof/Machine/CmdMode.lean ====
section
/-! DEFINITION. MODE_SET (spec 11 R353; 13 R399 to R405, R416, R531) and PWR_STATE (11 R365; 14 R423, R428). -/
namespace Sys2Proof.Machine

/-! ### MODE_SET -/

/-- The targets that MODE_SET may name from a mode (R401). -/
def modeTargets (m : BitVec 3) (commDone : Bool) : List (BitVec 3) :=
  if m = mCommission then (if commDone then [mStandby, mSafeHold] else []) ++ [mTest, mBoot]
  else if m = mStandby then [mRun, mCommission, mTest, mSafeHold, mBoot, mOff]
  else if m = mRun ∨ m = mDegraded then [mStandby, mSafeHold]
  else if m = mSafeHold then [mRun, mStandby, mBoot]
  else if m = mTest then [mCommission, mBoot]
  else []

/-- Whether MODE_SET to a target other than the present mode is refused (R401, R402, R405). -/
def Dev.modeRefused (d : Dev) (t : BitVec 3) : Bool :=
  !(modeTargets d.mode.mode d.mode.commDone).contains t
    || (d.mode.mode == mSafeHold && t != mBoot && (d.mode.recov || d.flt.atLeast 3))

/-- A MODE_SET that answers ACCEPTED and ends DONE with the entry of its mode (R353): the change is made between the two. -/
def Dev.acceptAround (d : Dev) (src : CmdSrc) (t : BitVec 3) (change : Dev → Eff) : Eff :=
  let j := d.jobFor src (.modeSet t)
  let d1 := d.accept src (.modeSet t) []
  let e := change (d1.onKs (fun k => { k with jobs := k.jobs.filter (fun x => x != j) }))
  (e.1.finalResult j stDone 0#16, e.2)

/-- A queue deleted (R363): flushed, its source deasserted, its block free. -/
def Dev.deleteQueue (d : Dev) (n : Nat) : Dev :=
  let q := d.queue n
  (if q.biuEn then d.queLevel n q.bent.toNat q.src.toNat false else d).setQueue n {}

/-- TEST entered (R397, R399, R416): every loop stopped and unbound, every core stopped, every queue deleted. -/
def Dev.enterTest (d : Dev) : Dev :=
  let d0 := d.ks.loops.foldl (fun x l => (x.stopNow l).unbindLoop l) d
  let d1 := d0.cores.foldl (fun x e => x.haltCore e.1) d0
  ((d1.queues.map (fun e => e.1)).foldl Dev.deleteQueue d1).setMode mTest 0#3

/-- COMMISSION entered by command (R399, R531): its sequence runs again; from TEST the SRAMs are initialised first (R249, R250). -/
def Dev.enterCommission (d : Dev) : Eff :=
  let d1 := (d.setMode mCommission 0#3).onMode (fun m => { m with commDone := false, bootReason := 0#3 })
  if d.mode.mode == mTest then
    ({ d1 with poison := d1.poison.filter (fun w => isCode w || decide (ddrKeyBase ≤ w)) }, warmClears)
  else (d1, [])

/-- The recovery phase begins (R405 step 1). -/
def Dev.startRecovery (d : Dev) (t : BitVec 3) : Dev := (d.onMode (fun m => { m with recov := true, recovTarget := t })).setCells true

/-- An accepted MODE_SET to a target that R401 allows. -/
def Dev.modeChange (d : Dev) (src : CmdSrc) (t : BitVec 3) : Eff :=
  let m := d.mode.mode
  if t = mBoot then
    let e := d.acceptAround src t (fun x => (x.refuseSleep domKeystone 6, []))
    (e.1.warmReset, warmClears)
  else if t = mOff then ((d.refuseSleep domKeystone 6 |>.accept src (.modeSet t) []).startNego 4#3 none true, [])
  else if t = mTest then d.acceptAround src t (fun x => (x.enterTest, []))
  else if t = mCommission then d.acceptAround src t Dev.enterCommission
  else if t = mSafeHold then d.acceptAround src t (fun x => x.enterSafe 0#3)
  else if m = mSafeHold then ((d.startRecovery t).accept src (.modeSet t) [], [])
  else if m = mCommission then
    if d.mode.pendSafe || d.flt.atLeast 3 then (d.accept src (.modeSet t) []).leaveCommission 0#3
    else d.acceptAround src t (fun x => x.leaveCommission 0#3)
  else if t = mRun then d.acceptAround src t (fun x => (x.setMode (if x.degradeCond then mDegraded else mRun) 0#3, []))
  else (d.accept src (.modeSet t) [], [])

/-- MODE_SET (R353, R401, R402, R405). -/
def Dev.modeSetCmd (d : Dev) (src : CmdSrc) : Eff :=
  let v := (d.pay8 src 0).toNat
  let t := BitVec.ofNat 3 v
  let wrong := d.refuse src stWrongMode (d.mode.mode.setWidth 16)
  if 7 < v then d.badParam src 0
  else if !d.payZero src 1 4 then d.badParam src 1
  else if d.safeNLow && t != mSafeHold && t != mBoot then wrong
  else if t = d.mode.mode then ((if d.mode.recov then d.endRecovery else d).reply src stDone 0#16 [], [])
  else if d.modeRefused t then wrong
  else d.acceptOr src (fun x => x.modeChange src t)

/-- MODE_SET (R353). -/
def execModeSet (src : CmdSrc) (s : State) : Host.Outcome State Fault Refusal :=
  s.commit (settleEff s.mem (s.dev.takeCmd src { op := 0x0201, len := exact 4, modes := modesAll, changes := true, excepted := true }
    (fun d => d.modeSetCmd src)))

/-! ### PWR_STATE -/

/-- PWR_STATE (R365): the ceiling, and a sleep's negotiation. -/
def Dev.pwrState (d : Dev) (src : CmdSrc) : Eff :=
  let st := (d.pay8 src 0).toNat
  let ceil := (d.pay16 src 2).toNat
  match firstBad [(0, !([0, 2, 3, 4, 255].contains st)), (1, !d.payZero src 1 2), (2, ceil != 0 && (decide (ceil < 40) || decide (210 < ceil)))] with
  | some o => d.badParam src o
  | none =>
    let v := if ceil = 0 then none else some (BitVec.ofNat 8 ceil)
    if st = 0 ∨ st = 255 then ((d.onPwr (fun p => { p with ceil := v.getD p.ceil })).reply src stDone 0#16 [], [])
    else (((d.refuseSleep domKeystone 6).startNego (BitVec.ofNat 3 st) (some src) false).onPwr (fun p =>
      { p with nego := p.nego.map (fun n => { n with ceil := v }) }), [])

/-- PWR_STATE (R365). -/
def execPwrState (src : CmdSrc) (s : State) : Host.Outcome State Fault Refusal :=
  s.commit (settleEff s.mem (s.dev.takeCmd src { op := 0x0603, len := exact 4, modes := [mStandby, mRun, mDegraded], changes := true }
    (fun d => d.pwrState src)))

end Sys2Proof.Machine
end

