-- ==== Sys2Proof/Machine/Queues.lean ====
section
/-! DEFINITION. The operations of the queue ports and the flush (spec 09_queues_and_crossings.md R283 to R295). -/
namespace Sys2Proof.Machine

/-- Whether a transaction is a QOP to port k of a queue that is not reserved. -/
def Txn.toPort (k : Nat) (t : Txn) : Bool := match t.port with | some (_, j) => j == k | none => false

/-- A QOP at its queue engine: what a load and a store of the port do with queue n; a load of a disabled queue returns 0 with tag E0h, and a
store to one is ignored (R297). -/
def Dev.serveQue (d : Dev) (onLoad : Nat → Txn → Resp × Eff) (onStore : Nat → Txn → Eff) (t : Txn) : Option (Resp × Eff) :=
  match t.port with
  | none => none
  | some (n, _) =>
    if d.wordAsleep t.addr.toNat then some (.notPresent, (d, []))
    else if t.parts.isEmpty then
      some (if (d.queue n).en then onLoad n t else (.data t.dBit (List.replicate t.count wordNv), (d, [])))
    else some (.ack t.dBit, if (d.queue n).en then onStore n t else (d, []))

/-- A load from a store port (R284). -/
def Dev.loadNothing (d : Dev) (_n : Nat) (t : Txn) : Resp × Eff := (.data t.dBit (List.replicate t.count wordZero), (d, []))

/-- A store to a load port (R284). -/
def Dev.storeNothing (d : Dev) (_n : Nat) (_t : Txn) : Eff := (d, [])

/-- A push operation of the words of a transaction. -/
def Dev.storePush (d : Dev) (o : PushOp) (n : Nat) (t : Txn) : Eff := d.quePush n o t.req (t.parts.map (fun p => p.word))

/-- A pop of the words that a transaction asks for (R287, R291). -/
def Dev.loadPop (d : Dev) (m : List Host.Cell) (f : Finds) (n : Nat) (t : Txn) : Resp × Eff :=
  let r := d.popAll m n f t.req t.count t.count
  (if r.2.1 then .error 0#4 t.addr else .data t.dBit r.1, (r.2.2, []))

/-- A load that reads a value of the queue. -/
def Dev.loadValue (d : Dev) (f : Queue → Word) (n : Nat) (t : Txn) : Resp × Eff :=
  (.data t.dBit (List.replicate t.count (f (d.queue n))), (d, []))

/-- A store that changes a queue's pointers. -/
def Dev.storeLedger (d : Dev) (f : Txn → Queue → Queue) (n : Nat) (t : Txn) : Eff := (d.queLedger n (f t), [])

/-- The count that a store to RELEASE carries. -/
def Txn.dataCount (t : Txn) : Nat := (t.parts.head?.map (fun p => p.word.pay.toNat)).getD 0

/-- PUSH (R284). -/
def execPush (id : Nat) (s : State) : Host.Outcome State Fault Refusal :=
  s.commit (settleEff s.mem (s.dev.grant id (Txn.toPort 0) (s.dev.serveQue s.dev.loadNothing (s.dev.storePush .push))))

/-- PUSHS (R284). -/
def execPushs (id : Nat) (s : State) : Host.Outcome State Fault Refusal :=
  s.commit (settleEff s.mem (s.dev.grant id (Txn.toPort 1) (s.dev.serveQue s.dev.loadNothing (s.dev.storePush .pushs))))

/-- PUSHE (R284). -/
def execPushe (id : Nat) (s : State) : Host.Outcome State Fault Refusal :=
  s.commit (settleEff s.mem (s.dev.grant id (Txn.toPort 2) (s.dev.serveQue s.dev.loadNothing (s.dev.storePush .pushe))))

/-- PUSHSE (R284). -/
def execPushse (id : Nat) (s : State) : Host.Outcome State Fault Refusal :=
  s.commit (settleEff s.mem (s.dev.grant id (Txn.toPort 3) (s.dev.serveQue s.dev.loadNothing (s.dev.storePush .pushse))))

/-- POP (R284, R290, R291). -/
def execPop (id : Nat) (found : Finds) (s : State) : Host.Outcome State Fault Refusal :=
  s.commit (settleEff s.mem (s.dev.grant id (Txn.toPort 4) (s.dev.serveQue (s.dev.loadPop s.mem found) s.dev.storeNothing)))

/-- ITEMLEN (R284). -/
def execItemlen (id : Nat) (s : State) : Host.Outcome State Fault Refusal :=
  s.commit (settleEff s.mem (s.dev.grant id (Txn.toPort 5) (s.dev.serveQue (s.dev.loadValue Queue.itemLen) s.dev.storeNothing)))

/-- SPACE (R284). -/
def execSpace (id : Nat) (s : State) : Host.Outcome State Fault Refusal :=
  s.commit (settleEff s.mem (s.dev.grant id (Txn.toPort 6)
    (s.dev.serveQue (s.dev.loadValue (fun q => { pay := BitVec.ofNat 32 q.free, tag := tagInt })) s.dev.storeNothing)))

/-- STATUS (R284). -/
def execStatus (id : Nat) (s : State) : Host.Outcome State Fault Refusal :=
  s.commit (settleEff s.mem (s.dev.grant id (Txn.toPort 7)
    (s.dev.serveQue (s.dev.loadValue (fun q => rawWord q.stat)) s.dev.storeNothing)))

/-- MARK (R295). -/
def execMark (id : Nat) (s : State) : Host.Outcome State Fault Refusal :=
  s.commit (settleEff s.mem (s.dev.grant id (Txn.toPort 8)
    (s.dev.serveQue s.dev.loadNothing (s.dev.storeLedger (fun _ q => q.setMark)))))

/-- REWIND (R295). -/
def execRewind (id : Nat) (s : State) : Host.Outcome State Fault Refusal :=
  s.commit (settleEff s.mem (s.dev.grant id (Txn.toPort 9)
    (s.dev.serveQue s.dev.loadNothing (s.dev.storeLedger (fun _ q => q.rewind)))))

/-- RELEASE (R295). -/
def execRelease (id : Nat) (s : State) : Host.Outcome State Fault Refusal :=
  s.commit (settleEff s.mem (s.dev.grant id (Txn.toPort 10)
    (s.dev.serveQue s.dev.loadNothing (s.dev.storeLedger (fun t q => q.release t.dataCount)))))

/-- QUE_CTL_FLUSH (R294, R297). -/
def execQueCtlFlush (req : ReqId) (q : BitVec 10) (val : W32) (s : State) : Host.Outcome State Fault Refusal :=
  s.commit (settleEff s.mem (s.dev.queWrite req q.toNat 8 val, []))

/-- QUEUE_FLUSH_DONE (R294): QUE_CTL.FLUSH reads 0. -/
def execQueueFlushDone (q : BitVec 10) (s : State) : Host.Outcome State Fault Refusal :=
  s.keep (if (s.dev.queue q.toNat).flushing then s.dev.onQueue q.toNat (fun x => { x with flushing := false }) else s.dev)

end Sys2Proof.Machine
end

