-- ==== Sys2Proof/Machine/CmdMem.lean ====
section
/-! DEFINITION. MEM_READ and MEM_WRITE (spec 11 R362, R343 to R345; 06 R212; 07 R222, R228 to R231; 08 R270, R274), and the commands on
queues (11 R363; 09 R281 to R297). -/
namespace Sys2Proof.Machine

/-! ### Keystone's transactions one after another -/

/-- Why a run of transactions ended early. -/
inductive KsStop where
  | refused | absent
  | error (src : Nat)
  | wait
deriving DecidableEq, Repr

/-- A run of Keystone's transactions so far. -/
structure KsRun where
  d : Dev
  words : List Word := []
  ops : List MemOp := []
  late : Nat := 0
  count : Nat := 0
  stop : Option KsStop := none

/-- What a pop, or another load or store of a queue port, does for Keystone (R284). -/
def Dev.servePort (d : Dev) (m : List Host.Cell) (k : Nat) (f : Finds) (t : Txn) : Option (Resp × Eff) :=
  match k with
  | 0 => d.serveQue d.loadNothing (d.storePush .push) t
  | 1 => d.serveQue d.loadNothing (d.storePush .pushs) t
  | 2 => d.serveQue d.loadNothing (d.storePush .pushe) t
  | 3 => d.serveQue d.loadNothing (d.storePush .pushse) t
  | 4 => d.serveQue (d.loadPop m f) d.storeNothing t
  | 5 => d.serveQue (d.loadValue Queue.itemLen) d.storeNothing t
  | 6 => d.serveQue (d.loadValue (fun q => { pay := BitVec.ofNat 32 q.free, tag := tagInt })) d.storeNothing t
  | 7 => d.serveQue (d.loadValue (fun q => rawWord q.stat)) d.storeNothing t
  | 8 => d.serveQue d.loadNothing (d.storeLedger (fun _ q => q.setMark)) t
  | 9 => d.serveQue d.loadNothing (d.storeLedger (fun _ q => q.rewind)) t
  | 10 => d.serveQue d.loadNothing (d.storeLedger (fun u q => q.release u.dataCount)) t
  | _ => if t.parts.isEmpty then d.serveRead m f t else d.serveWrite f t

/-- A transaction of Keystone at its target. -/
def Dev.serveKs (d : Dev) (m : List Host.Cell) (f : Finds) (t : Txn) : Option (Resp × Eff) :=
  match t.port with
  | some (_, k) => d.servePort m k f t
  | none => if t.parts.isEmpty then d.serveRead m f t else d.serveWrite f t

/-- The fault source that an error of a transaction raised (R345, R529): DDR_FAIL, DDR_UE, CST_UE or MEM_UE. -/
def Dev.errorSource (d : Dev) (t : Txn) : Nat :=
  match t.ddr with
  | some (r, _) => if (d.ddr (chanOf r)).failed then 580 else 578
  | none => if isCode t.addr.toNat then 547 else 545

/-- One more transaction of a run: nothing after a refused, absent or failed one is performed (R231). -/
def KsRun.next (m : List Host.Cell) (src : CmdSrc) (r : KsRun) (e : Txn × Finds) : KsRun :=
  let t := e.1
  if r.stop.isSome then r
  else if isReserved t.addr.toNat && t.ddr.isNone then { r with words := r.words ++ [wordZero], count := r.count + 1 }
  else match r.d.ksSend src t with
    | .refused d => { r with d := d, stop := some .refused }
    | .absent d => { r with d := d.countNp ksReq, stop := some .absent }
    | .wait d => { r with d := d, stop := some .wait }
    | .through late d =>
      match d.serveKs m e.2 t with
      | none => { r with d := (r.d.ksIssue src t).2, stop := some .wait }
      | some (res, e) =>
        let r1 := { r with d := e.1, ops := r.ops ++ e.2, late := r.late + (if late then 1 else 0) }
        match res with
        | .data _ ws => { r1 with words := r1.words ++ ws, count := r1.count + 1 }
        | .ack _ => { r1 with count := r1.count + 1 }
        | .retry => { r1 with stop := some .refused }
        | .notPresent => { r1 with d := r1.d.countNp ksReq, stop := some .absent }
        | .error _ _ => { r1 with stop := some (.error (r1.d.errorSource t)) }

/-- The transactions of a command from the first that it has not made yet. -/
def Dev.ksRun (d : Dev) (m : List Host.Cell) (src : CmdSrc) (ts : List (Txn × Finds)) : KsRun :=
  let p := d.progOf src
  (ts.drop p.done).foldl (KsRun.next m src) { d := d, words := p.words, late := p.late, count := p.done }

/-- The end of MEM_READ or MEM_WRITE (R230, R231, R345, R349, R362); the words read are its reply. A transaction that has to wait
leaves the rest of the command to a later moment. -/
def KsRun.finish (r : KsRun) (src : CmdSrc) (pay : List Word → List W32) : Eff :=
  match r.stop with
  | none => let st := doneOr r.late
            (r.d.reply src st.1 st.2 (pay r.words), r.ops)
  | some .refused => (r.d.reply src stRefCap (BitVec.ofNat 16 r.count) (pay r.words), r.ops)
  | some .absent => (r.d.reply src stUnitAbsent 3#16 [], r.ops)
  | some (.error n) => (r.d.reply src stFaultActive (BitVec.ofNat 16 n) [], r.ops)
  | some .wait => (r.d.ksWait { src := src, done := r.count, late := r.late, words := r.words }, r.ops)

/-! ### The head of MEM_READ and MEM_WRITE (R362) -/

/-- The ranges of R70 that space 0 reaches. -/
def memRanges : List (Nat × Nat) :=
  [(0x01000000, 0x01800000), (0x02000000, 0x02800000), (0x04000000, 0x04800000), (0x08000000, 0x09000000)]

/-- The fields of the head. -/
structure MemHead where
  ddr : Bool
  tags : Bool
  count : Nat
  addr : Nat
  region : Nat

/-- The head of a request. -/
def Dev.memHead (d : Dev) (src : CmdSrc) : MemHead :=
  { ddr := d.pay8 src 0 == 1#8, tags := (d.pay8 src 1).getLsbD 0, count := (d.pay16 src 2).toNat, addr := (d.pay32 src 4).toNat,
    region := (d.pay16 src 8).toNat }

/-- The first field of the head that is invalid. -/
def Dev.badHead (d : Dev) (src : CmdSrc) (maxPlain maxTags : Nat) : Option Nat :=
  let h := d.memHead src
  let top := if d.regionTagged h.region then 0x06000000 else 0x08000000
  firstBad [(0, decide (1 < (d.pay8 src 0).toNat)), (1, (d.pay8 src 1) >>> 1 != 0#8),
    (2, h.count == 0 || decide ((if h.tags then maxTags else maxPlain) < h.count)),
    (4, !h.ddr && !memRanges.any (fun r => decide (r.1 ≤ h.addr) && decide (h.addr + h.count ≤ r.2))),
    (4, h.ddr && decide (0x08000000 < h.addr + h.count)),
    (8, h.ddr && decide (1024 ≤ h.region)),
    (4, h.ddr && decide (top < h.addr + h.count)),
    (10, !d.payZero src 10 12)]

/-- Keystone's transaction for one word. -/
def ksTxn (h : MemHead) (bulk : Bool) (i : Nat) (data : Option Word) : Txn :=
  let w := h.addr + i
  let ty : TxnType := if h.ddr = false ∧ (quePort w).isSome then .qop else if data.isSome then .wr else .rd
  { newTxn 0 ksReq (if bulk then 2#2 else 1#2) ty (BitVec.ofNat 32 w) .discard with
    parts := match data with
      | some x => [{ addr := BitVec.ofNat 32 w, lanes := 15#4, tagWr := true, word := x }]
      | none => []
    ddr := if h.ddr then some (h.region, w) else none }

/-- What the transaction of word i of n finds. -/
def wordFinds (f : Finds) (n i : Nat) : Finds := [foundIn f i, foundIn f (n + i)]

/-! ### MEM_READ -/

/-- The reply payload: four bytes a word, then with TAGS one byte a word (R362). -/
def memPayload (tags : Bool) (ws : List Word) : List W32 :=
  ws.map (fun x => x.pay) ++ (if tags then wordsOfBytes (ws.map (fun x => x.tag)) else [])

/-- MEM_READ. -/
def Dev.memReadCmd (d : Dev) (m : List Host.Cell) (f : Finds) (src : CmdSrc) : Eff :=
  match d.badHead src 1020 816 with
  | some o => d.badParam src o
  | none =>
    let h := d.memHead src
    let bulk := d.flagsByte src % 2 == 1
    (d.ksRun m src ((List.range h.count).map (fun i => (ksTxn h bulk i none, wordFinds f h.count i)))).finish src (memPayload h.tags)

/-- MEM_READ (R362). -/
def execMemRead (src : CmdSrc) (found : Finds) (s : State) : Host.Outcome State Fault Refusal :=
  s.commit (settleEff s.mem (s.dev.takeCmd src { op := 0x0401, len := exact 12, modes := modesAll, bulk := true }
    (fun d => d.memReadCmd s.mem found src)))

/-! ### MEM_WRITE -/

/-- Registers that only Keystone may write, but for the BIU configuration words and DDR_REGATTR (R362). -/
def ksOnly (w : Nat) : Bool :=
  if 0x08200000 ≤ w ∧ w < 0x08280000 then
    let k := w % 0x1000
    k == 8 || (decide (0x10 ≤ k) && decide (k < 0x50)) || (decide (0x100 ≤ k) && decide (k < 0x200)) || k == 0x240
      || (decide (0x800 ≤ k) && decide (k < 0xA10)) || (decide (0xB00 ≤ k) && decide (k < 0xB23))
  else if 0x08100000 ≤ w ∧ w < 0x08180000 then
    let k := w % 0x10000
    k == 0x303 || (decide (0x310 ≤ k) && decide (k < 0x31C))
      || (decide (0x1000 ≤ k) && decide (k < 0x1800) && [0, 1, 2, 9, 12, 13, 14, 15].contains (k % 16))
  else (decide (0x08003000 ≤ w) && decide (w < 0x08003013)) || (decide (0x08050000 ≤ w) && decide (w < 0x08070000))
    || w == 0x08030008 || w == 0x08030009 || (decide (0x08080000 ≤ w) && decide (w < 0x08080200))

/-- Whether a comparator of a bent is a bound loop's trigger, allocated or named as source 64 + k, or watches its deadline. -/
def Dev.loopUsesAlarm (d : Dev) (b k : Nat) : Bool :=
  decide (k < 32) && d.allBinds.any (fun l => bentOf l.core.toNat == b && (l.comp == some (BitVec.ofNat 5 k) || l.trigger.toNat == 64 + k
    || (((d.bent b).biu.alarm k).mode == 3#2 && ((d.bent b).biu.alarm k).wsrc == l.trigger)))

/-- Whether a source of a bent is a bound loop's trigger or its deadline watch. -/
def Dev.loopUses (d : Dev) (b n : Nat) : Bool :=
  d.allBinds.any (fun l => bentOf l.core.toNat == b && l.trigger.toNat == n) || (decide (64 ≤ n) && d.loopUsesAlarm b (n - 64))

/-- What the words already checked of a write leave of the holders of comparators 24 to 31 (R210). -/
abbrev CgHold := Tab (Option Nat)

/-- The group that holds a comparator of a bent. -/
def Dev.cgHolder (d : Dev) (h : CgHold) (b k : Nat) : Option Nat :=
  let a := (d.bent b).biu.alarm k
  Tab.find (if a.cgHeld then some a.cgOwn.toNat else none) h (32 * b + k)

/-- One word of a write checked as R212 has it: the refusal, or the holders after it. -/
def Dev.biuCheck (d : Dev) (h : CgHold) (w : Nat) (i : Nat) (v : W32) : (BitVec 16 × BitVec 16) ⊕ CgHold :=
  if w < 0x08200300 ∨ 0x08280000 ≤ w ∨ w % 0x1000 < 0x300 ∨ 0x800 ≤ w % 0x1000 then .inr h
  else
    let b := (w - 0x08200000) / 0x1000
    let k := w % 0x1000 - 0x300
    let at_ : (BitVec 16 × BitVec 16) ⊕ CgHold := .inl (stBadParam, BitVec.ofNat 16 (12 + 4 * i))
    let four : (BitVec 16 × BitVec 16) ⊕ CgHold := .inl (stBadParam, 4#16)
    if 0x300 ≤ k ∧ k < 0x320 ∧ k % 2 = 0 then
      let g := (k - 0x300) / 2
      let c := 24 + g / 2
      let ten := bitOf v 31
      let own := d.cgHolder h b c
      if fieldOf v 7 0 = 0 ∨ (ten = true ∧ fieldOf v 23 8 = 0) then at_
      else if ten then
        (match own with
        | some x => if x = g then .inr h else .inl (stRefHeld, BitVec.ofNat 16 (0x2000 + x))
        | none => .inr (Tab.put h (32 * b + c) (some g)))
      else .inr (if own = some g then Tab.put h (32 * b + c) none else h)
    else if (0x100 ≤ k ∧ k < 0x1C0 ∧ d.loopUses b (k - 0x100) = true) ∨ (0x200 ≤ k ∧ k < 0x2C0 ∧ d.loopUses b (k - 0x200) = true)
        ∨ (0x340 ≤ k ∧ k < 0x3A0 ∧ k % 4 ≠ 3 ∧ d.loopUsesAlarm b ((k - 0x340) / 4) = true) then at_
    else if k ≤ 18 ∨ k = 25 ∨ (0x3A0 ≤ k ∧ k < 0x3C0) ∨ (0x300 ≤ k ∧ k < 0x320) ∨ 0x400 ≤ k then four
    else .inr h

/-- Every word of a write checked before any is written (R212); the first failure answers. -/
def Dev.biuChecks (d : Dev) (h : CgHold) : List (Nat × Nat × W32) → Option (BitVec 16 × BitVec 16)
  | [] => none
  | (i, w, v) :: r => match d.biuCheck h w i v with
    | .inl e => some e
    | .inr h' => d.biuChecks h' r

/-- Whether a data word would change the attribute of a region that a window maps (R274). -/
def Dev.attrHeld (d : Dev) (w : Nat) (v : W32) : Bool :=
  decide (0x08090000 ≤ w) && decide (w < 0x08094000) && decide (0x100 ≤ w % 0x1000) && decide (w % 0x1000 < 0x108)
    && (List.range 32).any (fun j =>
      let r := 256 * ((w - 0x08090000) / 0x1000) + 32 * (w % 0x1000 - 0x100) + j
      bitOf v j != d.regionTagged r && d.regionMapped r)

/-- The first refusal of a write to device words, its data given with index and address. -/
def Dev.writeRefused (d : Dev) (ws : List (Nat × Nat × W32)) : Option (BitVec 16 × BitVec 16) :=
  if ws.any (fun e => isCode e.2.1 || ksOnly e.2.1) then some (stBadParam, 4#16)
  else if ws.any (fun e => isRwlWord e.2.1) && d.mode.mode != mCommission && d.mode.mode != mStandby then
    some (stWrongMode, d.mode.mode.setWidth 16)
  else match d.biuChecks [] ws with
    | some e => some e
    | none => (ws.find? (fun e => d.attrHeld e.2.1 e.2.2)).map (fun e => (stBadParam, BitVec.ofNat 16 (12 + 4 * e.1)))

/-- MEM_WRITE. -/
def Dev.memWriteCmd (d : Dev) (m : List Host.Cell) (f : Finds) (src : CmdSrc) : Eff :=
  match d.badHead src 1017 813 with
  | some o => d.badParam src o
  | none =>
    let h := d.memHead src
    let bulk := d.flagsByte src % 2 == 1
    let data := fun i : Nat => d.pay32 src (12 + 4 * i)
    let tag := fun i : Nat => if h.tags then d.pay8 src (12 + 4 * h.count + i) else tagRaw
    match if h.ddr || d.begun src then none else d.writeRefused ((List.range h.count).map (fun i => (i, h.addr + i, data i))) with
    | some e => d.refuse src e.1 e.2
    | none =>
      (d.ksRun m src ((List.range h.count).map (fun i => (ksTxn h bulk i (some { pay := data i, tag := tag i }), wordFinds f h.count i)))).finish
        src (fun _ => [])

/-- Whether a LENGTH fits MEM_WRITE. -/
def memWriteLen (len : Nat) (pay : Nat → Nat) : Bool :=
  let n := pay 2 + 256 * pay 3
  len == 12 + 4 * n + (if pay 1 % 2 = 1 then (n + 3) / 4 * 4 else 0)

/-- MEM_WRITE (R362). -/
def execMemWrite (src : CmdSrc) (found : Finds) (s : State) : Host.Outcome State Fault Refusal :=
  s.commit (settleEff s.mem (s.dev.takeCmd src
    { op := 0x0402, len := memWriteLen, modes := modesAll, changes := true, excepted := true, bulk := true }
    (fun d => d.memWriteCmd s.mem found src)))

/-! ### Queues (R363) -/

/-- Whether a block of the slice of a span is free for a queue (R282). -/
def Dev.blockFree (d : Dev) (span off n : Nat) : Bool :=
  d.queues.all (fun (e : Nat × Queue) => !e.2.en || e.1 / 128 != span || decide (off + n ≤ e.2.offset.toNat)
    || decide (e.2.offset.toNat + e.2.words ≤ off))

/-- The lowest free queue of a span. -/
def Dev.freeQueue (d : Dev) (span : Nat) : Option Nat :=
  ((List.range 128).find? (fun i => !(d.queue (128 * span + i)).en)).map (fun i => 128 * span + i)

/-- QUE_CREATE of queue q (R281, R282). -/
def Dev.createQueue (d : Dev) (src : CmdSrc) (q : Nat) (ledger : Bool) (size : Nat) : Eff :=
  let n := 2 ^ (8 + size)
  match d.choose (((List.range (0x100000 / n)).map (fun i => n * i)).filter (fun o => d.blockFree (q / 128) o n)) with
  | (none, d1) => d1.refuse src stRefCap 5#16
  | (some off, d1) =>
    d1.ksDone src [queAccess q] (fun late e =>
      let st := doneOr late
      ((e.setQueue q { en := true, ledger := ledger, size := BitVec.ofNat 4 size, offset := BitVec.ofNat 20 off }).reply src st.1 st.2
        [placeNat q 0, BitVec.ofNat 32 (0x01000000 + q / 128 * 0x100000 + off)], []))

/-- QUE_CREATE. -/
def Dev.queCreate (d : Dev) (src : CmdSrc) : Eff :=
  let q := (d.pay16 src 0).toNat
  let span := (d.pay8 src 2).toNat
  let any := q == 0xFFFF
  match firstBad [(0, !any && decide (1023 < q)), (2, any && decide (7 < span)), (3, decide (1 < (d.pay8 src 3).toNat)),
      (4, decide (8 < (d.pay8 src 4).toNat)), (5, !d.payZero src 5 8)] with
  | some o => d.badParam src o
  | none =>
    let go := fun n => d.createQueue src n (d.pay8 src 3 == 1#8) (d.pay8 src 4).toNat
    if any then
      (match d.freeQueue span with
      | some n => go n
      | none => d.refuse src stRefCap 10#16)
    else if (d.queue q).en then d.refuse src stRefHeld (BitVec.ofNat 16 (0x3000 + q))
    else go q

/-- QUE_CREATE (R363). -/
def execQueCreate (src : CmdSrc) (s : State) : Host.Outcome State Fault Refusal :=
  s.commit (settleEff s.mem (s.dev.takeCmd src { op := 0x0501, len := exact 8, modes := modesCSRD, changes := true } (fun d => d.queCreate src)))

/-- The configuration that a QUE_CONFIG gives a queue (R363, R297). -/
def Dev.configured (d : Dev) (src : CmdSrc) (q : Queue) : Queue :=
  let f := d.pay8 src 2
  { q with
    biuEn := f.getLsbD 0, msiEn := f.getLsbD 1, port := f.getLsbD 2, ptagEn := f.getLsbD 3, safe := f.getLsbD 4
    ptag := d.pay8 src 3, level := d.pay16 src 4, bent := (d.pay8 src 6).setWidth 7, src := (d.pay8 src 7).setWidth 6
    vec := (d.pay16 src 8).setWidth 11, safeLen := (d.pay8 src 10).setWidth 3, safeTag := d.pay32 src 12
    safeW := (List.range 4).map (fun i => (i, d.pay32 src (16 + 4 * i))) }

/-- The enabled queue other than q that drives a source (R293). -/
def Dev.driver (d : Dev) (q : Nat) (bent : BentId) (src : BitVec 6) : Option Nat :=
  (d.queues.find? (fun (e : Nat × Queue) => e.1 != q && e.2.en && e.2.biuEn && e.2.bent == bent && e.2.src == src)).map (fun e => e.1)

/-- QUE_CONFIG. -/
def Dev.queConfig (d : Dev) (src : CmdSrc) : Eff :=
  let q := (d.pay16 src 0).toNat
  let f := d.pay8 src 2
  let del := f.getLsbD 5
  match firstBad [(0, decide (1023 < q) || !(d.queue q).en), (2, f >>> 6 != 0#8),
      (6, !del && decide (127 < (d.pay8 src 6).toNat)), (7, !del && decide (63 < (d.pay8 src 7).toNat)),
      (8, !del && f.getLsbD 1 && (decide ((d.pay16 src 8).toNat < 16) || decide (2047 < (d.pay16 src 8).toNat))),
      (10, !del && f.getLsbD 4 && (d.pay8 src 10 == 0#8 || decide (4 < (d.pay8 src 10).toNat))),
      (11, !del && d.pay8 src 11 != 0#8)] with
  | some o => d.badParam src o
  | none =>
    if del then
      d.ksDone src [queAccess q] (fun late e =>
        let st := doneOr late
        ((e.deleteQueue q).reply src st.1 st.2 [], []))
    else
      let c := d.configured src (d.queue q)
      match if c.biuEn then d.driver q c.bent c.src else none with
      | some n => d.refuse src stRefHeld (BitVec.ofNat 16 (0x3000 + n))
      | none => d.ksDone src [queAccess q] (fun late e =>
          let st := doneOr late
          ((e.reconfigure q c).reply src st.1 st.2 [], []))

/-- QUE_CONFIG (R363). -/
def execQueConfig (src : CmdSrc) (s : State) : Host.Outcome State Fault Refusal :=
  s.commit (settleEff s.mem (s.dev.takeCmd src { op := 0x0502, len := exact 32, modes := modesCSRD, changes := true } (fun d => d.queConfig src)))

/-- QUE_FLUSH: QUE_CTL.FLUSH reads 0 when it answers DONE. -/
def Dev.queFlushCmd (d : Dev) (src : CmdSrc) : Eff :=
  let q := (d.pay16 src 0).toNat
  match firstBad [(0, decide (1023 < q) || !(d.queue q).en), (2, !d.payZero src 2 4)] with
  | some o => d.badParam src o
  | none => d.ksDone src [queAccess q] (fun late e =>
      let st := doneOr late
      (((e.queFlushed q).onQueue q (fun x => { x with flushing := false })).reply src st.1 st.2 [], []))

/-- QUE_FLUSH (R363, R294). -/
def execQueFlush (src : CmdSrc) (s : State) : Host.Outcome State Fault Refusal :=
  s.commit (settleEff s.mem (s.dev.takeCmd src { op := 0x0503, len := exact 4, modes := [mStandby, mRun, mDegraded, mSafeHold], changes := true }
    (fun d => d.queFlushCmd src)))

end Sys2Proof.Machine
end

