-- ==== Sys2Proof/Machine/CmdSec.lean ====
section
/-! DEFINITION. SEC_ATTEST, SEC_IMAGE and SEC_UNLOCK (spec 11 R367; 16 R450 to R467), the end of a verification, SEC_CTL.RELOCK, the end of a live
restart (17 R479, R480). -/
namespace Sys2Proof.Machine

/-! ### SEC_ATTEST (R462, R463) -/

/-- The bytes of the running firmware's image, as its header's LENGTH has them, within its slot. -/
def Dev.firmwareBytes (d : Dev) (m : List Host.Cell) : List Byte :=
  imageBytes m (slotBase d.ks.slotB) (slotLen m d.ks.slotB)

/-- The images of a type on Keystone's lists, in ascending address order (R462). -/
def Dev.listed (d : Dev) (ty : Byte) : List Image :=
  let l := d.ks.images.filter (fun i => i.type == ty)
  (sortNat (l.map (fun i => i.addr.toNat))).filterMap (fun a => l.find? (fun i => i.addr.toNat == a))

/-- The image digests of some images, concatenated. -/
def digestsOf (m : List Host.Cell) (l : List Image) : List Byte :=
  l.flatMap (fun i => hashBytes (imageDigest (imageBytes m i.addr.toNat i.len)))

/-- Measurement k (R462): measurement 0 is the digest over the image digest of the running firmware (DEDUCED, log entry 122). -/
def Dev.measure (d : Dev) (m : List Host.Cell) (k : Nat) : BitVec 512 :=
  if k = 0 then Config.sha512 (hashBytes (imageDigest (d.firmwareBytes m)))
  else if k = 1 then Config.sha512 (digestsOf m (d.listed 2#8))
  else if k = 2 then Config.sha512 (digestsOf m (d.listed 3#8))
  else Config.sha512 (digestsOf m (d.listed 4#8 ++ d.listed 5#8))

/-- UNIT as DEV_INFO gives it (R352). -/
def Dev.unitInfo (d : Dev) : Byte := if d.chain.uvalid then 0x80#8 ||| d.chain.unit.setWidth 8 else 0#8

/-- The report head (R463). -/
def Dev.reportHead (d : Dev) (sel : Byte) : List Byte :=
  let count := fun ty : Byte => (d.listed ty).length
  [1#8, sel] ++ natBytes (count 2#8) 2 ++ natBytes (count 3#8) 1 ++ natBytes (count 4#8) 1
    ++ [d.sec.dbgScope.setWidth 8, d.unitInfo] ++ bytesOfWord d.time ++ [if d.ks.slotB then 1#8 else 0#8, d.sec.counter 0, 0#8, 0#8]

/-- Bytes 0 to 303 of the report (R367). -/
def Dev.report (d : Dev) (m : List Host.Cell) (nonce : List Byte) (sel : Byte) : List Byte :=
  d.reportHead sel ++ nonce
    ++ (List.range 4).flatMap (fun k => if sel.getLsbD k then hashBytes (d.measure m k) else List.replicate 64 0#8)

/-- A report with its two signatures (R367, R463). -/
def signedReport (bs : List Byte) : List Byte :=
  let h := Config.sha512 bs
  bs ++ (List.range 64).map (Config.edSign h) ++ (List.range 3309).map (Config.mlSign h) ++ [0#8, 0#8, 0#8]

/-- The runs of code words that the measurements of a SELECT read (R462, R466). -/
def Dev.measured (d : Dev) (m : List Host.Cell) (sel : Byte) : List (Nat × Nat) :=
  (if sel.getLsbD 0 then [(slotBase d.ks.slotB, (slotLen m d.ks.slotB + 3) / 4)] else [])
    ++ (d.ks.images.filter (fun i => (i.type == 2#8 && sel.getLsbD 1) || (i.type == 3#8 && sel.getLsbD 2)
      || ((i.type == 4#8 || i.type == 5#8) && sel.getLsbD 3))).flatMap Image.runs

/-- SEC_ATTEST. -/
def Dev.attestCmd (d : Dev) (m : List Host.Cell) (src : CmdSrc) : Eff :=
  let sel := d.pay8 src 32
  match firstBad [(32, sel >>> 4 != 0#8), (33, !d.payZero src 33 36)] with
  | some o => d.badParam src o
  | none => d.engineFor src (d.measured m sel) (fun bad x => match bad with
    | some s => x.refuse src stFaultActive (BitVec.ofNat 16 s)
    | none => ((x.strobe 0xF03).replyBytes src (signedReport (x.report m ((List.range 32).map (x.pay8 src)) sel)), []))

/-- SEC_ATTEST (R367, R462, R463). -/
def execSecAttest (src : CmdSrc) (s : State) : Host.Outcome State Fault Refusal :=
  s.commit (settleEff s.mem (s.dev.takeCmd src { op := 0x0801, len := exact 36, modes := modesAll } (fun d => d.attestCmd s.mem src)))

/-! ### SEC_IMAGE (R367) -/

/-- The first lines at which a unit table, a configuration set or a certificate of n lines can lie in the configuration area (R260; DESIGN CHOICE, log
entry 16). -/
def Dev.areaPlaces (d : Dev) (n : Nat) : List Nat :=
  ((List.range 0x800).map (fun k => 0x203800 + k)).filter (fun l => decide (l + n ≤ 0x204000) && d.linesFree l (l + n))

/-- Where an image of a type and n lines goes: firmware to the inactive slot. -/
def Dev.imagePlaces (d : Dev) (ty : Byte) (n : Nat) : List Nat :=
  if ty = 1#8 then (if n ≤ 0x1800 then [slotBase (!d.ks.slotB) / 16] else []) else d.areaPlaces n

/-- SEC_IMAGE. -/
def Dev.secImageCmd (d : Dev) (src : CmdSrc) : Eff :=
  let stage := (d.pay32 src 0).toNat
  let len := (d.pay32 src 4).toNat
  let ty := d.pay8 src 8
  let fl := d.pay8 src 9
  match firstBad (d.badStage src ++ [(8, !([1#8, 3#8, 4#8, 5#8] : List Byte).contains ty), (9, fl >>> 1 != 0#8), (10, !d.payZero src 10 16)]) with
  | some o => d.badParam src o
  | none =>
    match d.choose (d.inTurn ((len + 63) / 64) (d.imagePlaces ty ((len + 63) / 64))) with
    | (none, d1) => d1.refuse src stRefCap 1#16
    | (some line, d1) => d1.acceptOr src (fun z => z.ksDone src [headerRead stage len] (fun late x =>
      match x.badHeaderWord stage len with
      | some w => ((x.sramRead w .good ksReq).2).refuse src stFaultActive 545#16
      | none =>
        let addr := BitVec.ofNat 32 (16 * line)
        (x.startCopy src (.secImage addr ty (fl.getLsbD 0)) stage (16 * line) len [addr] late, [])))

/-- SEC_IMAGE (R367). -/
def execSecImage (src : CmdSrc) (s : State) : Host.Outcome State Fault Refusal :=
  s.commit (settleEff s.mem (s.dev.takeCmd src { op := 0x0802, len := exact 16, modes := modesCSRD, changes := true }
    (fun d => d.secImageCmd src)))

/-! ### SEC_VERIFY_DONE (R265, R453, R457, R460) -/

/-- The payload of an owner certificate (R457). -/
def certPayload (bs : List Byte) : List Byte := bs.drop 5504

/-- A certificate as enrolled. -/
def certOf (bs : List Byte) (addr : W32) : Cert :=
  let p := certPayload bs
  { ownerId := leWord p 0, addr := addr,
    sets := (List.range (byteAt p 4).toNat).map (fun k => (bytesAt p (16 + 1984 * k) 32, bytesAt p (48 + 1984 * k) 1952)) }

/-- Whether the content of a certificate admits its enrolment in this part (R457). -/
def Dev.certGood (d : Dev) (bs : List Byte) : Bool :=
  let p := certPayload bs
  let n := (byteAt p 4).toNat
  leWord p 0 == leWord bs 8 && (n == 1 || n == 2) && leNat p 5 3 == 0 && (leNat p 8 8 == 0 || leNat p 8 8 == d.sec.serial.toNat)
    && p.length == 16 + 1984 * n

/-- Whether a certificate would change the owner outside COMMISSION (R457). -/
def Dev.newOwner (d : Dev) (bs : List Byte) : Bool :=
  d.mode.mode != mCommission && (d.sec.cert.map (fun c => c.ownerId)) != some (leWord (certPayload bs) 0)

/-- An image taken up on Keystone's list; what it replaces goes: the unit table of its identity, the enrolled certificate. -/
def Dev.listImage (d : Dev) (i : Image) : Dev :=
  let old := fun x : Image => (i.type == 3#8 && x.type == 3#8 && x.entry == i.entry) || (i.type == 5#8 && x.type == 5#8)
  d.onKs (fun k => { k with images := (k.images.filter (fun x => !old x)) ++ [i] })

/-- The copy gone, its lines now those of an image. -/
def Dev.endCopy (d : Dev) (c : Copy) : Dev := d.onKs (fun k => { k with copies := k.copies.filter (fun x => x != c) })

/-- The live restart of Keystone (R479): GRACE, armed switches and accepted commands ended, commands answered BUSY_PORT 0001h. -/
def Dev.liveRestart (d : Dev) : Dev :=
  let d1 := (d.disarmAll stBusyPort 1#16).keystoneDown
  (d1.engineFree.onKs (fun k => { k with kbusy := true, restartSlotB := !k.slotB })).grace

/-- What an authentic image does once it is stored (R354, R367, R455, R457, R460). -/
def Dev.installImage (d : Dev) (m : List Host.Cell) (c : Copy) (j : Job) (bs : List Byte) : Dev :=
  let addr := BitVec.ofNat 32 c.dest
  let img := fun (entry : W32) (v : Bool) =>
    ({ addr := addr, len := c.len, type := imageType bs, entry := entry, verified := v, digest := imageDigest bs } : Image)
  match j.kind with
  | .loopLoad _ => ((d.listImage (img (addr + 880#32 + leWord bs 8) false)).endCopy c).endJob j stDone 0#16
  | .secImage _ ty act =>
    if ty = 1#8 then
      let d1 := (d.endCopy c).endJob j stDone 0#16
      if act then d1.liveRestart else d1
    else if ty = 5#8 then
      if !d.certGood bs then (d.noteCheck (.auth 5#16)).dropCopy c stAuthFail 5#16
      else if d.newOwner bs then d.dropCopy c stWrongMode (d.mode.mode.setWidth 16)
      else
        let d1 := ((d.listImage (img (leWord bs 8) true)).endCopy c).advanceRb m addr
        ({ d1 with sec := { d1.sec with cert := some (certOf bs addr) } } : Dev).endJob j stDone 0#16
    else (((d.listImage (img (leWord bs 8) true)).endCopy c).advanceRb m addr).endJob j stDone 0#16
  | .modeSet _ | .loopStart _ _ | .loopStop _ _ | .migrate _ _ _ _ | .undo _ | .update _ _ | .viaEnum | .remote _ | .spareSwap _ _ _ _ => d

/-- The types that a command lets an image have (R354, R367). -/
def JobKind.types : JobKind → List Byte
  | .secImage _ ty _ => [ty]
  | .loopLoad _ => [2#8]
  | .modeSet _ | .loopStart _ _ | .loopStop _ _ | .migrate _ _ _ _ | .undo _ | .update _ _ | .viaEnum | .remote _ | .spareSwap _ _ _ _ => []

/-- The verification of the copy at the head. -/
def Dev.verifyHead (d : Dev) (m : List Host.Cell) (c : Copy) (j : Job) : Dev :=
  let bs := imageBytes m c.dest c.len
  let v := d.sec.checkStored m c.dest c.len j.kind.types d.sec.rdBad
  let d1 := d.engineFree.strobe 0xF02
  let cert := v == .good && imageType bs == 5#8 && !d.certGood bs
  let d2 := if cert then d1 else d1.noteCheck v
  (match v with
    | .good => d2.installImage m c j bs
    | .auth _ | .rollback _ | .unread _ => d2.dropCopy c v.status v.detail).copyOn

/-- SEC_VERIFY_DONE (R265, R453): the check of a stored image ends, with the moment at which it takes effect. -/
def execSecVerifyDone (s : State) : Host.Outcome State Fault Refusal :=
  let d := s.dev
  s.commit (match d.ks.copies with
    | [] => (d, [])
    | c :: _ =>
      match d.ks.jobs.find? (fun j => j.copies c) with
      | some j =>
        if d.sec.busy && d.sec.subject.isNone && d.engineDone && decide (c.lines ≤ c.next) then settleEff s.mem (d.verifyHead s.mem c j, [])
        else (d, [])
      | none => (d, []))

/-! ### SEC_UNLOCK (R464, R465) -/

/-- A fresh challenge of 32 bytes, which replaces any outstanding one (R464). -/
def Dev.newChallenge (d : Dev) : List Byte × Dev :=
  let r := (List.range 8).foldl (fun (x : List W32 × Dev) _ => let f := x.2.fresh
                                                              (x.1 ++ [f.1], f.2)) ([], d)
  let bs := bytesOfWords r.1
  (bs, ({ r.2 with sec := { r.2.sec with challenge := some (bs, d.clk) } } : Dev).strobe 0xF05)

/-- The key pairs under which a token may be signed (R464): those of the enrolled certificate, else of the unrevoked root slots. -/
def Sec.tokenKeys (c : Sec) : List KeyPair :=
  match c.cert with
  | some t => t.sets
  | none => ((List.range 2).filter (fun k => c.rootPresent.getLsbD k && !c.rootRevoked.getLsbD k)).filterMap (fun k => (c.roots[k]?).map Config.rootKey)

/-- What the check of a token's signatures finds under each key pair. -/
def Sec.tokenVerdicts (c : Sec) (tok : List Byte) : List Verdict :=
  let h := Config.sha512 (tok.take 32 ++ bytesAt tok 32 4 ++ natBytes c.serial.toNat 8)
  c.tokenKeys.map (fun k => signatures k (bytesAt tok 36 64) (bytesAt tok 100 3309) h)

/-- Whether a token's challenge is the outstanding one, issued less than 60 s before (R464). -/
def Dev.challengeMet (d : Dev) (tok : List Byte) : Bool :=
  match d.sec.challenge with
  | some (bs, t) => bs == tok.take 32 && decide (d.clk < t + 48000000000)
  | none => false

/-- A rejected token's detail where the spec states none, a free choice (DESIGN CHOICE, log entry 11). -/
def Dev.someDetail (d : Dev) (l : List Nat) : Verdict × Dev :=
  let c := d.choose l
  (.auth (BitVec.ofNat 16 (c.1.getD 4)), c.2)

/-- The verdict on a token whose fields are legal (R464). -/
def Dev.judgeToken (d : Dev) (tok : List Byte) : Verdict × Dev :=
  if !d.challengeMet tok then d.someDetail [1, 2, 3, 4, 5]
  else
    let vs := d.sec.tokenVerdicts tok
    if vs.any (fun v => v == .good) then (.good, d) else d.someDetail (vs.map (fun v => v.detail.toNat))

/-- What is wrong with a token's fields, as an offset: reserved bits of SCOPE, the zero bytes at its end (R367, R464). -/
def badToken (tok : List Byte) : Option Nat := firstBad [(32, decide (16 ≤ leNat tok 32 4)), (3409, leNat tok 3409 3 != 0)]

/-- The challenge consumed (R464), with the result of the last token (R493). -/
def Dev.spend (d : Dev) (res : BitVec 3) : Dev := { d with sec := { d.sec with challenge := none, tokRes := res } }

/-- A token submitted (R464, R465): accepted, rejected with a status and detail, or with a bad field. -/
def Dev.submitToken (d : Dev) (tok : List Byte) : BitVec 16 × BitVec 16 × Dev :=
  match badToken tok with
  | some o => (stBadParam, BitVec.ofNat 16 o, d.spend 3#3)
  | none =>
    let j := d.judgeToken tok
    let d1 := j.2.noteCheck j.1
    match j.1 with
    | .good =>
      let d2 := d1.spend 1#3
      (stDone, 0#16, ({ d2 with sec := { d2.sec with dbgScope := d2.sec.dbgScope ||| BitVec.ofNat 4 (leNat tok 32 4) } } : Dev).raise 737 0 0#16)
    | .auth _ | .rollback _ | .unread _ => (j.1.status, j.1.detail, d1.spend 2#3)

/-- SEC_UNLOCK. -/
def Dev.unlockCmd (d : Dev) (src : CmdSrc) : Eff :=
  if d.lenWord src = 4 then
    if !d.payZero src 0 4 then d.badParam src 0
    else
      let c := d.newChallenge
      (c.2.replyBytes src c.1, [])
  else
    d.engineFor src [] (fun _ x =>
      let r := x.submitToken ((List.range 3412).map (x.pay8 src))
      (r.2.2.reply src r.1 r.2.1 [], []))

/-- SEC_UNLOCK (R367, R464). -/
def execSecUnlock (src : CmdSrc) (s : State) : Host.Outcome State Fault Refusal :=
  s.commit (settleEff s.mem (s.dev.takeCmd src
    { op := 0x0803, len := fun n _ => n == 4 || n == 3412, modes := [mCommission, mStandby, mTest], changes := true }
    (fun d => d.unlockCmd src)))

/-! ### SEC_RELOCK (R465, R467) -/

/-- SEC_RELOCK: a write of SEC_CTL.RELOCK clears SEC_DBGSCOPE; Keystone alone. -/
def execSecRelock (req : ReqId) (s : State) : Host.Outcome State Fault Refusal :=
  let d := s.dev
  s.keep (if req = ksReq then { d with sec := { d.sec with dbgScope := 0#4 } } else d)

/-! ### KEYSTONE_RESTART_DONE (R479, R480) -/

/-- Keystone runs again from a slot. -/
def Dev.restarted (d : Dev) (m : List Host.Cell) (slotB revert : Bool) (ms : BitVec 16) : Dev :=
  d.onKs (fun k => { k with
    kbusy := false, firmware := true, slotB := slotB, fwVer := firmwareVersion m slotB, live := true, revert := revert, restartMs := ms })

/-- The end of a live restart: the new slot, or the previous one when the new one fails its verification or the new firmware does not
kick within the grace, which raises KS_WDOG (R480, R445); firmware that starts may revoke the other root (R456). -/
def Dev.restartDone (d0 : Dev) (m : List Host.Cell) (revokes kicked : Bool) (ms : BitVec 16) : Dev :=
  let old := d0.ks.slotB
  let new := d0.ks.restartSlotB
  let e := d0.checkSlot m new
  let d := if e.1 = .good then e.2.revokeOther m new revokes else e.2
  if e.1 ≠ .good then d.restarted m old true ms
  else if kicked then (if d.ks.graceEnd.isSome then d.kick else d).restarted m new false ms
  else
    let d1 := if d.ks.graceEnd.isSome then d.raise 722 0 0#16 else d
    (d1.onKs (fun k => { k with kicked := false, stopped := false, graceEnd := none })).restarted m old true ms

/-- Whether a live restart can end so: a missing kick is one that the whole grace has not brought, from firmware that verified. -/
def Dev.mayRestart (d : Dev) (m : List Host.Cell) (kicked : Bool) : Bool :=
  d.ks.kbusy && ((d.checkSlot m d.ks.restartSlotB).1 != .good ||
    (match d.ks.graceEnd with
    | some t => kicked || decide (t ≤ d.clk)
    | none => kicked == !d.ks.stopped))

/-- KEYSTONE_RESTART_DONE (R480, R487). -/
def execKeystoneRestartDone (revokes kicked : Bool) (ms : BitVec 16) (s : State) : Host.Outcome State Fault Refusal :=
  let d := s.dev
  s.keep (if d.mayRestart s.mem kicked then d.restartDone s.mem revokes kicked ms else d)

end Sys2Proof.Machine
end

