-- ==== Sys2Proof/Machine/Control.lean ====
section
/-! DEFINITION. Control transfer (spec 03_instruction_set.md R112 to R114, R122; branch target buffer 04 R135). -/
namespace Sys2Proof.Machine

/-- Whether a word address lies in code store, as a target of tagged mode must (R114). -/
def inCode (pc : W32) : Bool := isCode pc.toNat

/-- A branch target of tagged mode (R112). -/
def taggedTarget (pc : W32) (off : BitVec 20) : W32 := pc + sext20 off

/-- A target of compact mode: within the 64 Ki-word block of the PC (R122). -/
def compactTarget (pc low : W32) : W32 := (pc &&& 0xFFFF0000#32) ||| (low &&& 0x0000FFFF#32)

/-- The BTB after a branch or CALL resolved taken (R135); a paced core does not use it (R149). -/
def Core.btbTaken (k : Core) (target : W32) : Core := if k.psr.paced then k else { k with btb := btbPut k.btb k.pc target }

/-- The BTB after a branch resolved not taken (R135). -/
def Core.btbNot (k : Core) : Core := if k.psr.paced then k else { k with btb := btbDrop k.btb k.pc }

/-- A taken transfer of tagged mode: BOUNDS where the target lies outside code store (R114). -/
def takeTo (k' : Core) (target : W32) (ta : Byte) : ExRes :=
  if inCode target then .goto k' target else .trap (trapBounds 4#4 target ta)

/-- A branch that is taken or not. -/
def branch (k : Core) (taken : Bool) (off : BitVec 20) (ta : Byte) : ExRes :=
  if taken then
    if k.psr.compact then
      let t := compactTarget k.pc (k.pc + sext20 off)
      .goto (k.btbTaken t) t
    else takeTo (k.btbTaken (taggedTarget k.pc off)) (taggedTarget k.pc off) ta
  else .next k.btbNot

/-- BC (R112): ILLEGAL with an undefined condition code, in both modes (R104). -/
def execBc (c : CoreId) (cc : BitVec 5) (off : BitVec 20) (s : State) : Host.Outcome State Fault Refusal :=
  s.keep (s.dev.run c.toNat { rdFlags := cc != 0#5 } (fun k =>
    if condDefined cc then branch k (condHolds cc k.psr.nzvc) off 0#8 else .trap trapIllegal))

/-- BT and BF: a branch on bit 0 of a BOOL (R107, R113). -/
def branchOn (sense : Bool) (ra : Reg) (off : BitVec 20) (k : Core) : ExRes :=
  let a := k.lone ra.toNat
  match k.checked (checkOne (fun n => n == kBool) 3#4 false a.tag) with
  | .error t => .trap t
  | .ok _ => branch k (a.pay.getLsbD 0 == sense) off a.tag

/-- BT (R112, R113). -/
def execBt (c : CoreId) (ra : Reg) (off : BitVec 20) (s : State) : Host.Outcome State Fault Refusal :=
  s.keep (s.dev.run c.toNat { reads := [ra.toNat] } (fun k => taggedOnly k (branchOn true ra off k)))

/-- BF (R112, R113). -/
def execBf (c : CoreId) (ra : Reg) (off : BitVec 20) (s : State) : Host.Outcome State Fault Refusal :=
  s.keep (s.dev.run c.toNat { reads := [ra.toNat] } (fun k => taggedOnly k (branchOn false ra off k)))

/-- The link that CALL and JMP write (R112). -/
def linkWord (pc : W32) : Word := { pay := pc + 1#32, tag := tagCode }

/-- The registers that a link in field rd writes: in compact mode pair 15 for field 15 (R122). -/
def linkRegs (k : Core) (rd : Reg) : List Nat := if k.psr.compact then (if rd = 15#5 then [30, 31] else []) else [rd.toNat]

/-- CALL (R112; compact R122: the c field must be 15). -/
def execCall (c : CoreId) (rd : Reg) (off : BitVec 20) (s : State) : Host.Outcome State Fault Refusal :=
  s.keep (s.dev.run c.toNat { writes := linkRegs (s.dev.core c.toNat) rd } (fun k =>
    if k.psr.compact then
      if rd = 15#5 then branch (k.setPair 15 ((k.pc + 1#32).setWidth 16)) true off 0#8 else .trap trapIllegal
    else branch (k.setReg rd.toNat (linkWord k.pc)) true off 0#8))

/-- The registers that JMP reads: in compact mode a pair. -/
def jmpReads (k : Core) (ra : Reg) : List Nat := if k.psr.compact then [2 * ra.toNat, 2 * ra.toNat + 1] else [ra.toNat]

/-- JMP in tagged mode: the operand must be CODE (R113). -/
def jmpTagged (rd ra : Reg) (k : Core) : ExRes :=
  let a := k.lone ra.toNat
  match k.checked (checkOne (fun n => n == kCode) 2#4 false a.tag) with
  | .error t => .trap t
  | .ok _ => takeTo (k.setReg rd.toNat (linkWord k.pc)) a.pay a.tag

/-- JMP in compact mode: rd 0 or 15, a pair 1 to 15 (R122). -/
def jmpCompact (rd ra : Reg) (k : Core) : ExRes :=
  if !isPair ra then .trap trapIllegal
  else
    let t := compactTarget k.pc ((k.pair ra.toNat).setWidth 32)
    if rd = 0#5 then .goto k t
    else if rd = 15#5 then .goto (k.setPair 15 ((k.pc + 1#32).setWidth 16)) t
    else .trap trapIllegal

/-- JMP (R112, R113, R122); the BTB never predicts it (R135). -/
def execJmp (c : CoreId) (rd ra : Reg) (s : State) : Host.Outcome State Fault Refusal :=
  s.keep (s.dev.run c.toNat { reads := jmpReads (s.dev.core c.toNat) ra, writes := linkRegs (s.dev.core c.toNat) rd } (fun k =>
    byMode k (jmpTagged rd ra k) (jmpCompact rd ra k)))

end Sys2Proof.Machine
end

