-- ==== Sys2Proof/Machine/DdrRows.lean ====
section
/-! DEFINITION. What a DDR5 controller does by itself (spec 08_memories.md R276 to R280, R529; 13 R406; 15 R437). -/
namespace Sys2Proof.Machine

/-- Whether a channel serves reads now. -/
def Ddr.live (x : Ddr) : Bool := x.ready && !x.selfRef && !x.untrained && !x.asleep

/-- The lines of a channel that the present patrol pass has read (R277). -/
def Ddr.patrolDone (x : Ddr) (clk : Nat) : List Nat := if x.pass = x.passAt clk then x.patrolled else []

/-- Whether an access waits at a channel: its cycle is then not idle (R277). -/
def Dev.chanWanted (d : Dev) (ch : Nat) : Bool := d.txns.any (fun t => t.buffered && (match t.ddr with | some (r, _) => chanOf r == ch | none => false))

/-- A scrub read of a line of a channel (R277), once in a pass and in an idle cycle: the line number is channel-local (R270). -/
def Dev.patrol (d : Dev) (ch line : Nat) (loc : BitVec 6) (f : Found) : Dev :=
  let x := d.ddr ch
  let r := 256 * ch + line / 0x800000 % 256
  let o := line % 0x800000 * 16
  let done := x.patrolDone d.clk
  if !x.live || !x.scrubEn || decide (fieldOf x.cfg 8 0 ≤ line / 0x800000) || d.chanWanted ch || done.contains line then d
  else
    let g : Found := match f with | .single _ => .single loc | .good => .good | .uncorrectable => .uncorrectable
    let d1 := d.onDdr ch (fun y => { y with
      pass := y.passAt d.clk, seen := if y.pass = y.passAt d.clk then y.seen else [], patrolled := done ++ [line] })
    d1.ddrBurst r o g ((d.lineMarks r o).any d.poisoned) 0xFFF#12

/-- DDR_PATROL_SCRUB (R277). -/
def execDdrPatrolScrub (ch : ChanId) (line : BitVec 31) (loc : BitVec 7) (found : Found) (s : State) : Host.Outcome State Fault Refusal :=
  s.keep (s.dev.patrol ch.toNat line.toNat (loc.setWidth 6) found)

/-- A row that is due repaired softly and listed for hard repair, or DDR_PPRFULL (R278). -/
def Dev.softPpr (d0 : Dev) (ch row : Nat) (dimm room : Bool) : Dev :=
  let d := d0.onDdr ch (fun x => { x with due := x.due.filter (fun n => n != row), seen := x.seen.filter (fun e => e.1 != row) })
  if !(d0.ddr ch).live || !(d0.ddr ch).due.contains row then d0
  else if room then
    let d1 := d.onDdr ch (fun x => { x with soft := satInc x.soft, pend := satInc x.pend, rows := x.rows ++ [row] })
    if d.ks.firmware && !d.ks.kbusy then d1.recordSpares else d1
  else d.raise 579 ch (if dimm then 1#16 else 0#16)

/-- DDR_SOFT_PPR (R278). -/
def execDdrSoftPpr (ch : ChanId) (row : Nat) (dimm : Bool) (room : Bool) (s : State) : Host.Outcome State Fault Refusal :=
  s.keep (s.dev.softPpr ch.toNat row dimm room)

/-- DDR_TEMP_POLL (R279, R280): in RUN, and in DEGRADED, in which the part runs as in RUN (R406). -/
def execDdrTempPoll (ch : ChanId) (temp : Byte) (s : State) : Host.Outcome State Fault Refusal :=
  let d := s.dev
  s.keep (if (d.mode.mode == mRun || d.mode.mode == mDegraded) && (d.ddr ch.toNat).ready then
      d.onDdr ch.toNat (fun x => { x with temp := temp })
    else d)

/-- PMIC_ALERT (R279): the controller of a channel with DIMMs reads the PMIC's status, in RUN and, as in RUN, in DEGRADED (R406). -/
def execPmicAlert (ch : ChanId) (dimm : Bool) (status : Byte) (s : State) : Host.Outcome State Fault Refusal :=
  let d := s.dev
  s.keep (if (d.mode.mode == mRun || d.mode.mode == mDegraded) && (d.ddr ch.toNat).ready then
      d.onDdr ch.toNat (fun x => { x with pmic := Tab.put x.pmic (if dimm then 1 else 0) status })
    else d)

/-- DDR_FAIL (R529): READY falls in service. -/
def execDdrFail (ch : ChanId) (s : State) : Host.Outcome State Fault Refusal :=
  let d := s.dev
  s.keep (if (d.ddr ch.toNat).ready then
      ((d.onDdr ch.toNat (fun x => { x with ready := false, failed := true })).raise 580 ch.toNat 0#16).modeCheck
    else d)

end Sys2Proof.Machine
end

