-- ==== Sys2Proof/Machine/Fetch.lean ====
section
/-! DEFINITION. Lines that reach the cores from code store, and late paced steps (spec 04_self_timed_pipeline.md R133, R137, R152, R154,
R157, R530; 08 R257 to R259; 05 R179). -/
namespace Sys2Proof.Machine

/-- A line put into a bent line cache of 256 sets of 4 ways (R133); which line leaves a full set is a free choice (DESIGN CHOICE, log entry 32). -/
def Dev.cacheLine (d : Dev) (b : Nat) (e : Nat × BitVec 16) : Dev :=
  let rest := (d.bent b).lineCache.filter (fun x => x.1 != e.1)
  let set := rest.filter (fun x => x.1 % 256 == e.1 % 256)
  if set.length < 4 then d.onBent b (fun x => { x with lineCache := e :: rest })
  else
    let v := d.choose (set.map (·.1))
    v.2.onBent b (fun x => { x with lineCache := e :: rest.filter (fun y => some y.1 != v.1) })

/-- Whether an unpaced core waits for line n. -/
def Core.awaits (k : Core) (n : Nat) : Bool := k.status == .running && !k.psr.paced && lineOf k.pc == n

/-- The cores of a bent whose next instruction lies in a line that has arrived take it to F2 (R126, R530). -/
def Dev.lineCame (d : Dev) (b line : Nat) : Dev :=
  (List.range 16).foldl (fun x i => if (x.core (coreOf b i)).awaits line then x.enterF2 (coreOf b i) line else x) d

/-- The unpaced cores of a bent that have requested a line for a vector line register take it (R133, R472). -/
def Dev.vectorsCame (d : Dev) (b line : Nat) (v : BitVec 16) : Dev :=
  (List.range 16).foldl (fun x i => x.onCore (coreOf b i) (fun k => if k.psr.paced then k else k.gotVector line v)) d

/-- A line that no slice serves reaches no vector line register (R236; DESIGN CHOICE, log entry 139). -/
def Dev.lostVectors (d : Dev) (b line : Nat) : Dev :=
  (List.range 16).foldl (fun x i => x.onCore (coreOf b i) (fun k =>
    if k.psr.paced then k else { k with vecReq := k.vecReq.filter (fun e => e.1 != line) })) d

/-- A requested line granted at the code store slice and delivered into the bent line cache (R133, R217, R530), or turned away (R229); a line under a
write waits (R264); a slice that has been asked to power down answers NOT_PRESENT, and the request is lost (R236; DESIGN CHOICE, log entry 139). -/
def Dev.lineFill (d : Dev) (b line : Nat) (f : Finds) : Dev :=
  let d1 := d.takeFills b
  match d1.fillOf b line with
  | none => d1
  | some t =>
    if !t.waits then d1
    else if t.overfull then d1.turnAway t
    else if !d1.mayGrant t then d1
    else if d1.wordAsleep (16 * line) then (((d1.granted t).leave t).countNp t.req).lostVectors b line
    else if d1.lineHeld line then d1
    else
      let e := (((d1.granted t).countLate t).leave t).fetchLine line f
      (((e.2.cacheLine b (line, e.1)).lineCame b line)).vectorsCame b line e.1

/-- LINE_FILL (R133, R259). -/
def execLineFill (b : BentId) (line : Nat) (found : Finds) (s : State) : Host.Outcome State Fault Refusal :=
  s.keep (s.dev.lineFill b.toNat line found)

/-- Clock ticks until a paced line is there: 96 ns (R152). -/
def pacedTicks : Nat := 77

/-- A paced core without the request of a line. -/
def Core.unasked (k : Core) (n : Nat) : Core :=
  { k with vecReq := k.vecReq.filter (fun e => e.1 != n), reqLine := match k.reqLine with
    | some (m, a) => if m = n then none else some (m, a)
    | none => none }

/-- A line delivered to a paced core: into a vector line register, as its next line, or both (R154, R472). -/
def Core.gotPaced (k : Core) (n : Nat) (v : BitVec 16) : Core :=
  let k1 := k.gotVector n v
  match k1.reqLine with
  | some (m, _) => if m = n then { k1 with nextLine := some (n, v), reqLine := none } else k1
  | none => k1

/-- The FILL of a paced core that is delivered now: of a line requested 96 ns ago or more, whose turn has come (R152). -/
def Dev.pacedDue (d : Dev) (c : Nat) : Option (Nat × Txn) :=
  ((d.core c).pacedWants.filter (fun e => decide (e.2 + pacedTicks ≤ d.clk))).findSome? (fun e =>
    match d.pacedOf c e.1 with
    | some t => if d.mayGrant t then some (e.1, t) else none
    | none => none)

/-- A line delivered to a paced core exactly 96 ns after its request, by a FILL granted at its slice (R152, R154, R217); a slice that has been asked
to power down answers NOT_PRESENT (R236). -/
def Dev.pacedDelivery (d : Dev) (c : Nat) (f : Finds) : Dev :=
  if !(d.core c).psr.paced then d
  else
    let d1 := d.takePaced c
    match d1.pacedDue c with
    | none => d1
    | some (n, t) =>
      let d2 := (d1.granted t).leave t
      if d1.wordAsleep (16 * n) then (d2.countNp t.req).onCore c (fun x => x.unasked n)
      else
        let e := d2.fetchLine n f
        e.2.onCore c (fun x => x.gotPaced n e.1)

/-- PACED_FETCH_DELIVERY (R152). -/
def execPacedFetchDelivery (c : CoreId) (found : Finds) (s : State) : Host.Outcome State Fault Refusal :=
  s.keep (s.dev.pacedDelivery c.toNat found)

/-- A late step or access of a paced core (R157, R179): PACE_UNDERRUN, the slot's count, a fast raise of four codes, no lowering for the
next 100 control periods. -/
def Dev.paceUnderrun (d : Dev) (c : Nat) : Dev :=
  let b := bentOf c
  let i := slotOf c
  if (d.core c).psr.paced && (d.core c).status == .running && !d.bentStill b then
    let d1 := d.onScr b (fun a => { a with underrun := Tab.modify 0#16 a.underrun i satInc, noLower := 100 })
    (d1.fastRaise b 4).raise (384 + b) b (BitVec.ofNat 16 i)
  else d

/-- PACE_UNDERRUN (R157, R179). -/
def execPaceUnderrun (c : CoreId) (s : State) : Host.Outcome State Fault Refusal := s.keep (s.dev.paceUnderrun c.toNat)

end Sys2Proof.Machine
end

