-- ==== Sys2Proof/Machine/Jtag.lean ====
section
/-! DEFINITION. The test access port (spec 18_plumb_debug.md R488 to R495): each row loads its instruction and makes one scan of its data
register, Capture-DR to Update-DR. -/
namespace Sys2Proof.Machine

/-! ### The instruction register (R488, R490) -/

/-- The test access port changed by f. -/
def Dev.onTap (d : Dev) (f : Jtag → Jtag) : Dev := { d with jtag := f d.jtag }

/-- The Capture-IR value (R488). -/
def Dev.captureIr (d : Dev) : Byte :=
  1#8 ||| (if d.sec.dbgScope != 0#4 then 4#8 else 0#8) ||| (if d.mode.mode == mTest then 8#8 else 0#8) ||| (if d.resetLow then 16#8 else 0#8)
    ||| (if d.sec.challenge.isSome then 32#8 else 0#8)

/-- The instruction of a code in the instruction register (R490): every code that is not listed acts as BYPASS. -/
def tapInstrOf (code : Byte) : TapInstr :=
  match code.toNat with
  | 0x00 => .extest
  | 0x01 => .sample
  | 0x02 => .idcode
  | 0x03 => .clamp
  | 0x04 => .highz
  | 0x05 => .extestPulse
  | 0x06 => .extestTrain
  | 0x20 => .unlockCh
  | 0x21 => .unlockTok
  | 0x22 => .dbgStat
  | 0x30 => .dbgInsp
  | 0x31 => .dbgKs
  | 0x32 => .fwRecov
  | _ => .bypass

/-- Whether an instruction is allowed (R490): boundary scan that drives the balls in TEST and with RESET_N low, debug within its scope. -/
def Dev.tapAllows (d : Dev) : TapInstr → Bool
  | .extest | .clamp | .highz | .extestPulse | .extestTrain => d.mode.mode == mTest || d.resetLow
  | .dbgInsp => d.sec.dbgScope.getLsbD 0
  | .dbgKs => d.sec.dbgScope.getLsbD 1
  | .fwRecov => d.sec.dbgScope.getLsbD 2 && (d.mode.mode == mBoot || d.mode.mode == mTest)
  | .sample | .idcode | .unlockCh | .unlockTok | .dbgStat | .bypass => true

/-- The instruction that is in force with a code: BYPASS for one that is not allowed (R490). -/
def Dev.tapInForce (d : Dev) (code : Byte) : TapInstr := if d.tapAllows (tapInstrOf code) then tapInstrOf code else .bypass

/-- Whether an instruction drives the balls, or floats them (R490, R491). -/
def TapInstr.drives : TapInstr → Bool
  | .extest | .clamp | .extestPulse | .extestTrain => true
  | _ => false

/-- An instruction in force with what it captures; the balls return to their functions unless it drives or floats them (R491). -/
def Dev.loadTap (d : Dev) (i : TapInstr) (captured : List Byte) : Dev :=
  let ir := d.captureIr
  d.onTap (fun j => { j with instr := i, irCapture := ir, capture := captured, driving := i.drives, hiz := i == .highz })

/-- A code loaded: an instruction that is in force does what it does, and any other code acts as BYPASS (R490), one bit, captured 0. -/
def Dev.tap (d : Dev) (code : Byte) (run : Dev → Dev) : Dev :=
  if d.tapInForce code = .bypass then d.loadTap .bypass [0#8] else run d

/-! ### The boundary register (R491) -/

/-- The balls of the boundary register, one cell each: 28 CMOS sideband balls with I3C in the order of R506, the 4 of the DIMM sideband, the
676 of the DDR5 channels, the 64 of the PCI Express lanes and the 40 of the Viaduct lanes (R503, R506). REFCLK, the crystal, the test port's own and
the supply balls are not in it. The order of the cells is the BSDL's, which is not in the spec (DEDUCED, log entry 76). -/
def boundaryCells : Nat := 28 + 4 + 676 + 64 + 40

/-- The level at a ball that PLUMB B drives while it holds it (R500). -/
def Dev.plumbBall (d : Dev) (j : Nat) : Option Bool :=
  let p : PlbPin := Tab.find {} d.plb j
  if p.en then some p.shown else none

/-- The level at a ball of the boundary register, where the part's state holds it (R506): RESET_N, the straps as sampled, SAFE_N, the fault pins, the
ALIVE pins, THERMTRIP_N, the enables, the PLUMB pins, the sideband of the Viaduct ports. -/
def Dev.ballLevel (d : Dev) (n : Nat) : Option Bool :=
  match n with
  | 0 => some (!d.resetLow)
  | 5 => some d.bifurc
  | 6 => some d.headPin
  | 7 => some (!d.safeNLow)
  | 9 => some (!d.flt.atLeast 1)
  | 10 => some (!d.flt.atLeast 3)
  | 11 => some d.flt.aliveK
  | 12 => some d.flt.aliveS
  | 13 => some (!d.pwr.thermTrip)
  | 14 => some d.pwr.enRet
  | 15 => some d.pwr.enCore
  | 18 | 19 | 20 | 21 | 22 | 23 => some (Tab.find {} d.plb (n - 18) : PlbPin).shown
  | 24 => if d.chain.dn.sbEn then some (!d.chain.dn.sbOut) else d.plumbBall 6
  | 25 => if d.chain.dn.sbEn then some (!d.chain.dn.sbIn) else d.plumbBall 7
  | 26 => some (!d.chain.up.sbIn)
  | 27 => some (!d.chain.up.sbOut)
  | _ => none

/-- The cells captured from the first n balls on; the level of a ball that no state of the part shows is an open value. -/
def Dev.captureBalls (d : Dev) : Nat → List Bool × Dev
  | 0 => ([], d)
  | n + 1 =>
    let r := d.captureBalls n
    match d.ballLevel n with
    | some v => (r.1 ++ [v], r.2)
    | none => let f := r.2.fresh
              (r.1 ++ [f.1.getLsbD 0], f.2)

/-- Eight cells to the byte, the first in bit 0; the first argument bounds the bytes. -/
def packBits : Nat → List Bool → List Byte
  | 0, _ => []
  | n + 1, l => (List.range 8).foldl (fun (v : Byte) i => if l.getD i false then v ||| (1#8 <<< i) else v) 0#8 :: packBits n (l.drop 8)

/-- A scan of the boundary register: the levels of its balls are captured, the cells shifted in are kept (R490, R491). -/
def Dev.scanBoundary (d : Dev) (i : TapInstr) (cells : List Bool) : Dev :=
  let c := d.captureBalls boundaryCells
  (c.2.loadTap i (packBits ((boundaryCells + 7) / 8) c.1)).onTap (fun j => { j with
    boundary := (List.range boundaryCells).map (fun k => (k, cells.getD k false)) })

/-- What the boundary register makes of a ball (R490, R491): none where its function drives it; some none where it floats. -/
def Dev.ballForced (d : Dev) (n : Nat) : Option (Option Bool) :=
  if d.jtag.hiz then some none else if d.jtag.driving then some (some (Tab.find false d.jtag.boundary n)) else none

/-- JTAG_TEST_LOGIC_RESET (R488): IDCODE is selected. -/
def execJtagTestLogicReset (s : State) : Host.Outcome State Fault Refusal :=
  s.keep (s.dev.onTap (fun j => { j with instr := .idcode, driving := false, hiz := false }))

/-- EXTEST (R490). -/
def execExtest (cells : List Bool) (s : State) : Host.Outcome State Fault Refusal := s.keep (s.dev.tap 0x00#8 (fun d => d.scanBoundary .extest cells))

/-- SAMPLE/PRELOAD (R490): no ball is driven. -/
def execSamplePreload (cells : List Bool) (s : State) : Host.Outcome State Fault Refusal :=
  s.keep (s.dev.tap 0x01#8 (fun d => d.scanBoundary .sample cells))

/-- The IDCODE register (R489). -/
def Dev.idcodeWord (d : Dev) : W32 := place (d.sec.rev.setWidth 4) 28 ||| (0x2048#32 <<< 12) ||| place d.sec.jedec 1 ||| 1#32

/-- IDCODE (R489, R490). -/
def execIdcode (s : State) : Host.Outcome State Fault Refusal := s.keep (s.dev.tap 0x02#8 (fun d => d.loadTap .idcode (bytesOfWord d.idcodeWord)))

/-- CLAMP (R490): the balls hold the boundary values. -/
def execClamp (s : State) : Host.Outcome State Fault Refusal := s.keep (s.dev.tap 0x03#8 (fun d => d.loadTap .clamp [0#8]))

/-- HIGHZ (R490): the balls float. -/
def execHighz (s : State) : Host.Outcome State Fault Refusal := s.keep (s.dev.tap 0x04#8 (fun d => d.loadTap .highz [0#8]))

/-- EXTEST_PULSE (R490, R491). -/
def execExtestPulse (cells : List Bool) (s : State) : Host.Outcome State Fault Refusal :=
  s.keep (s.dev.tap 0x05#8 (fun d => d.scanBoundary .extestPulse cells))

/-- EXTEST_TRAIN (R490, R491). -/
def execExtestTrain (cells : List Bool) (s : State) : Host.Outcome State Fault Refusal :=
  s.keep (s.dev.tap 0x06#8 (fun d => d.scanBoundary .extestTrain cells))

/-- BYPASS (R490). -/
def execBypass (s : State) : Host.Outcome State Fault Refusal := s.keep (s.dev.tap 0xFF#8 id)

/-! ### Debug unlock over JTAG (R492, R493) -/

/-- UNLOCK_CH (R492): a fresh challenge at Capture-DR. -/
def execUnlockCh (s : State) : Host.Outcome State Fault Refusal :=
  s.keep (s.dev.tap 0x20#8 (fun d =>
    let c := (d.loadTap .unlockCh []).newChallenge
    c.2.onTap (fun j => { j with capture := c.1 })))

/-- UNLOCK_TOK (R492, R493): the token of 3,412 bytes submitted at Update-DR; discarded while the security engine is busy. -/
def execUnlockTok (token : List Byte) (s : State) : Host.Outcome State Fault Refusal :=
  s.keep (s.dev.tap 0x21#8 (fun d0 =>
    let d := d0.loadTap .unlockTok []
    if d.engineBusy then d else (d.submitToken ((List.range 3412).map (byteAt token))).2.2))

/-- DBG_STAT's word (R493). -/
def Dev.dbgStat (d : Dev) : W32 := flag d.engineBusy 31 ||| place d.sec.tokRes 28 ||| place d.sec.dbgScope 0

/-- DBG_STAT (R493). -/
def execDbgStat (s : State) : Host.Outcome State Fault Refusal := s.keep (s.dev.tap 0x22#8 (fun d => d.loadTap .dbgStat (bytesOfWord d.dbgStat)))

/-! ### DBG_INSP, DBG_KS (R494) -/

/-- The 66 bits that a debug instruction captures: the result of the last access. -/
def Jtag.result (j : Jtag) : List Byte := bytesOfWord j.inspData ++ bytesOfWord j.inspAddr ++ [if j.inspErr then 1#8 else 0#8]

/-- An access to a bent's remote view, sent over the Deck as requester 800h in class C1 (R494, R28); its response brings the result. A
refused access has no data of its own. -/
def Dev.inspAccess (d : Dev) (write : Bool) (addr data : W32) : Dev :=
  let w := addr.toNat
  if w < 0x08200000 ∨ 0x08280000 ≤ w ∨ (write = true ∧ d.mode.mode ≠ mTest) then d.tapResult addr true d.jtag.inspData
  else d.issueTxn (fun id => { newTxn id ksReq 1#2 (if write then .wr else .rd) addr .debug with
    parts := if write then [{ addr := addr, lanes := 0xF#4, tagWr := true, word := rawWord data }] else [] })

/-- DBG_INSP (R490, R494). -/
def execDbgInsp (write : Bool) (addr data : W32) (s : State) : Host.Outcome State Fault Refusal :=
  s.commit (settleEff s.mem (s.dev.tap 0x30#8 (fun d => (d.loadTap .dbgInsp d.jtag.result).inspAccess write addr data), []))

/-- An access to Keystone's SRAM and internal registers (R494): the spec gives them no layout, so a word that DBG_KS has not written reads as
an open value, and which write halts Keystone or lets it run is open (DESIGN CHOICE, log entry 34). -/
def Dev.ksAccess (d : Dev) (write : Bool) (addr data : W32) : Dev :=
  if write then (d.onKs (fun k => { k with sram := Tab.put k.sram addr.toNat data, halted := (Config.ksHalt addr data).getD k.halted })).tapResult addr false
    d.jtag.inspData
  else match d.ks.sram.find? (fun e => e.1 == addr.toNat) with
    | some e => d.tapResult addr false e.2
    | none => let f := d.fresh
              f.2.tapResult addr false f.1

/-- DBG_KS (R490, R494). -/
def execDbgKs (write : Bool) (addr data : W32) (s : State) : Host.Outcome State Fault Refusal :=
  s.keep (s.dev.tap 0x31#8 (fun d => (d.loadTap .dbgKs d.jtag.result).ksAccess write addr data))

/-! ### FW_RECOV (R495) -/

/-- Update-DR of FW_RECOV: a line of a firmware slot written or erased through the write sequencer, while that is idle (R264, R267). -/
def Dev.recoverLine (d : Dev) (op : BitVec 2) (addr : W32) (words : List W32) : Dev :=
  if op = 0#2 ∨ op = 3#2 then d
  else if addr.toNat < 0x02000000 ∨ 0x02030000 ≤ addr.toNat then { d with sec := { d.sec with tokRes := 3#3 } }
  else if d.ws.phase != .idle then d
  else d.wsStart addr (op == 2#2) ((List.range 16).map (fun i => words.getD i 0#32))

/-- FW_RECOV (R490, R495). -/
def execFwRecov (op : BitVec 2) (addr : W32) (words : List W32) (s : State) : Host.Outcome State Fault Refusal :=
  s.keep (s.dev.tap 0x32#8 (fun d => (d.loadTap .fwRecov []).recoverLine op addr words))

end Sys2Proof.Machine
end

