-- ==== Sys2Proof/Machine/Logic.lean ====
section
/-! DEFINITION. Compare, logical and shift instructions (spec 03_instruction_set.md R103 to R107, R121). -/
namespace Sys2Proof.Machine

/-- A compare of two words: it writes the flags only (R103). -/
def cmpPair (x : Bent) (a b : Word) (k : Core) : ExRes :=
  match k.checked (checkPair x .compare .cmp false a.tag b.tag) with
  | .error t => .trap t
  | .ok _ => .next (k.setFlags (cmpFlags a b))

/-- What a compare needs. -/
def needCmp (ra rb : Reg) : Need := { reads := [ra.toNat, rb.toNat], wrFlags := wNZVC }

/-- CMP (R103; compact R121). -/
def execCmp (c : CoreId) (ra rb : Reg) (s : State) : Host.Outcome State Fault Refusal :=
  s.keep (s.dev.run c.toNat (needCmp ra rb) (fun k =>
    byMode k (cmpPair (s.dev.bentFor c) (k.source .compare ra.toNat rb.toNat) (k.source .compare rb.toNat ra.toNat) k)
      (.next (k.setFlags (sub8 (k.byte ra.toNat) (k.byte rb.toNat) false).2))))

/-- CMPI (R103; compact R121). -/
def execCmpi (c : CoreId) (ra : Reg) (imm : BitVec 15) (s : State) : Host.Outcome State Fault Refusal :=
  s.keep (s.dev.run c.toNat { reads := [ra.toNat], wrFlags := wNZVC } (fun k =>
    byMode k (cmpPair (s.dev.bentFor c) (k.lone ra.toNat) { pay := sext15 imm, tag := immTag .compare (k.lone ra.toNat).tag } k)
      (match byteImm imm with
        | none => .trap trapIllegal
        | some i => .next (k.setFlags (sub8 (k.byte ra.toNat) i false).2))))

/-- The compare and write of CSET (R105). -/
def csetPair (x : Bent) (cc : BitVec 5) (rd : Reg) (a b : Word) (k : Core) : ExRes :=
  let eqNe := cc == 1#5 || cc == 2#5
  match k.checked (checkPair x .compare .cmp (!eqNe) a.tag b.tag) with
  | .error t => .trap t
  | .ok _ =>
    .next (k.setReg rd.toNat { pay := if condHolds cc (cmpFlags a b) then 1#32 else 0#32,
                               tag := if k.psr.t then tagBool else tagRaw })

/-- CSET (R105): ILLEGAL where fn[9:5] is not zero or the code is not one that CSET allows (R92). -/
def execCset (c : CoreId) (rd ra rb : Reg) (fn : BitVec 10) (s : State) : Host.Outcome State Fault Refusal :=
  s.keep (s.dev.run c.toNat (need2 rd ra rb 0#4) (fun k => taggedOnly k (
    if fn.toNat < 32 ∧ csetAllowed (fn.setWidth 5) = true then
      csetPair (s.dev.bentFor c) (fn.setWidth 5) rd (k.source .compare ra.toNat rb.toNat) (k.source .compare rb.toNat ra.toNat) k
    else .trap trapIllegal)))

/-- What a logical instruction writes of the flags: in compact mode V too (R97, R121). -/
def wLogic (k : Core) : BitVec 4 := if k.psr.compact then 14#4 else wNZ

/-- What a shift writes of the flags: in compact mode V and C too (R97, R121). -/
def wShift (k : Core) : BitVec 4 := if k.psr.compact then wNZVC else wNZ

/-- AND (R106; compact R121). -/
def execAnd (c : CoreId) (rd ra rb : Reg) (s : State) : Host.Outcome State Fault Refusal :=
  s.keep (s.dev.run c.toNat (need2 rd ra rb (wLogic (s.dev.core c.toNat))) (fun k =>
    byMode k (logicRegs (s.dev.bentFor c) (· &&& ·) rd ra rb k) (alu8 (fun a b cf => logic8 (a &&& b) cf) rd ra rb k)))

/-- OR (R106; compact R121). -/
def execOr (c : CoreId) (rd ra rb : Reg) (s : State) : Host.Outcome State Fault Refusal :=
  s.keep (s.dev.run c.toNat (need2 rd ra rb (wLogic (s.dev.core c.toNat))) (fun k =>
    byMode k (logicRegs (s.dev.bentFor c) (· ||| ·) rd ra rb k) (alu8 (fun a b cf => logic8 (a ||| b) cf) rd ra rb k)))

/-- XOR (R106; compact R121). -/
def execXor (c : CoreId) (rd ra rb : Reg) (s : State) : Host.Outcome State Fault Refusal :=
  s.keep (s.dev.run c.toNat (need2 rd ra rb (wLogic (s.dev.core c.toNat))) (fun k =>
    byMode k (logicRegs (s.dev.bentFor c) (· ^^^ ·) rd ra rb k) (alu8 (fun a b cf => logic8 (a ^^^ b) cf) rd ra rb k)))

/-- The kinds that NOT accepts (R106). -/
def notKinds (k : Nat) : Bool := k == kRaw || k == kBool || k == kInt

/-- NOT of a tagged word: for BOOL, bit 0 inverted and the others zero (R106, R107). -/
def notWord (rd ra : Reg) (k : Core) : ExRes :=
  let a := k.lone ra.toNat
  match k.checked (checkOne notKinds 0#4 false a.tag) with
  | .error t => .trap t
  | .ok tr => .next (k.putNZ rd tr (if kindOf a.tag == kBool then (~~~ a.pay) &&& 1#32 else ~~~ a.pay))

/-- NOT (R106; compact R121). -/
def execNot (c : CoreId) (rd ra : Reg) (s : State) : Host.Outcome State Fault Refusal :=
  s.keep (s.dev.run c.toNat (need1 rd ra (wLogic (s.dev.core c.toNat))) (fun k =>
    byMode k (notWord rd ra k) (.next (k.put8 rd (logic8 (~~~ (k.byte ra.toNat)) k.psr.c)))))

/-- ANDI (R106; compact R121). -/
def execAndi (c : CoreId) (rd ra : Reg) (imm : BitVec 15) (s : State) : Host.Outcome State Fault Refusal :=
  s.keep (s.dev.run c.toNat (need1 rd ra (wLogic (s.dev.core c.toNat))) (fun k =>
    byMode k (logicImm (s.dev.bentFor c) (· &&& ·) rd ra imm k) (alu8i (fun a b cf => logic8 (a &&& b) cf) rd ra imm k)))

/-- ORI (R106; compact R121). -/
def execOri (c : CoreId) (rd ra : Reg) (imm : BitVec 15) (s : State) : Host.Outcome State Fault Refusal :=
  s.keep (s.dev.run c.toNat (need1 rd ra (wLogic (s.dev.core c.toNat))) (fun k =>
    byMode k (logicImm (s.dev.bentFor c) (· ||| ·) rd ra imm k) (alu8i (fun a b cf => logic8 (a ||| b) cf) rd ra imm k)))

/-- XORI (R106; compact R121). -/
def execXori (c : CoreId) (rd ra : Reg) (imm : BitVec 15) (s : State) : Host.Outcome State Fault Refusal :=
  s.keep (s.dev.run c.toNat (need1 rd ra (wLogic (s.dev.core c.toNat))) (fun k =>
    byMode k (logicImm (s.dev.bentFor c) (· ^^^ ·) rd ra imm k) (alu8i (fun a b cf => logic8 (a ^^^ b) cf) rd ra imm k)))

/-- SHL (R106; compact R121). -/
def execShl (c : CoreId) (rd ra rb : Reg) (s : State) : Host.Outcome State Fault Refusal :=
  s.keep (s.dev.run c.toNat (need2 rd ra rb (wShift (s.dev.core c.toNat))) (fun k =>
    byMode k (shiftRegs (fun a n => a <<< n) rd ra rb k) (shift8 shl8 rd ra rb k)))

/-- SHR (R106; compact R121). -/
def execShr (c : CoreId) (rd ra rb : Reg) (s : State) : Host.Outcome State Fault Refusal :=
  s.keep (s.dev.run c.toNat (need2 rd ra rb (wShift (s.dev.core c.toNat))) (fun k =>
    byMode k (shiftRegs (fun a n => a >>> n) rd ra rb k) (shift8 shr8 rd ra rb k)))

/-- SAR (R106, R107; compact R121). -/
def execSar (c : CoreId) (rd ra rb : Reg) (s : State) : Host.Outcome State Fault Refusal :=
  s.keep (s.dev.run c.toNat (need2 rd ra rb (wShift (s.dev.core c.toNat))) (fun k =>
    byMode k (shiftRegs (fun a n => a.sshiftRight n) rd ra rb k) (shift8 sar8 rd ra rb k)))

/-- SHLI (R106; compact R121). -/
def execShli (c : CoreId) (rd ra : Reg) (imm : BitVec 15) (s : State) : Host.Outcome State Fault Refusal :=
  s.keep (s.dev.run c.toNat (need1 rd ra (wShift (s.dev.core c.toNat))) (fun k =>
    byMode k (shiftImm (fun a n => a <<< n) rd ra imm k) (shift8i shl8 rd ra imm k)))

/-- SHRI (R106; compact R121). -/
def execShri (c : CoreId) (rd ra : Reg) (imm : BitVec 15) (s : State) : Host.Outcome State Fault Refusal :=
  s.keep (s.dev.run c.toNat (need1 rd ra (wShift (s.dev.core c.toNat))) (fun k =>
    byMode k (shiftImm (fun a n => a >>> n) rd ra imm k) (shift8i shr8 rd ra imm k)))

/-- SARI (R106, R107; compact R121). -/
def execSari (c : CoreId) (rd ra : Reg) (imm : BitVec 15) (s : State) : Host.Outcome State Fault Refusal :=
  s.keep (s.dev.run c.toNat (need1 rd ra (wShift (s.dev.core c.toNat))) (fun k =>
    byMode k (shiftImm (fun a n => a.sshiftRight n) rd ra imm k) (shift8i sar8 rd ra imm k)))

end Sys2Proof.Machine
end

