-- ==== Sys2Proof/Machine/Moves.lean ====
section
/-! DEFINITION. Moves and tags, and the instructions of compact mode alone (spec 03_instruction_set.md R108, R109, R121). -/
namespace Sys2Proof.Machine

/-- MOV: payload and tag, without a check (R108); a byte in compact mode (R121). -/
def execMov (c : CoreId) (rd ra : Reg) (s : State) : Host.Outcome State Fault Refusal :=
  s.keep (s.dev.run c.toNat (need1 rd ra 0#4) (fun k =>
    byMode k (.next (k.setReg rd.toNat (k.lone ra.toNat))) (.next (k.setByte rd.toNat (k.byte ra.toNat)))))

/-- MOVU: the field times 2^12 with tag RAW (R108). -/
def execMovu (c : CoreId) (rd : Reg) (imm : BitVec 20) (s : State) : Host.Outcome State Fault Refusal :=
  s.keep (s.dev.run c.toNat { writes := [rd.toNat] } (fun k =>
    taggedOnly k (.next (k.setReg rd.toNat { pay := imm.setWidth 32 <<< 12, tag := tagRaw }))))

/-- TGET: the tag byte with tag INT unit 0 (R108). -/
def execTget (c : CoreId) (rd ra : Reg) (s : State) : Host.Outcome State Fault Refusal :=
  s.keep (s.dev.run c.toNat (need1 rd ra 0#4) (fun k =>
    taggedOnly k (.next (k.setReg rd.toNat { pay := (k.lone ra.toNat).tag.setWidth 32, tag := tagInt }))))

/-- TSET: the payload with the tag given (R108). -/
def execTset (c : CoreId) (rd ra : Reg) (t : Byte) (s : State) : Host.Outcome State Fault Refusal :=
  s.keep (s.dev.run c.toNat (need1 rd ra 0#4) (fun k =>
    taggedOnly k (.next (k.setReg rd.toNat { pay := (k.lone ra.toNat).pay, tag := t }))))

/-- The bits of a tag that a mask code compares (R109). -/
def tagMask (m : BitVec 2) : Byte :=
  match m.toNat with
  | 0 => 0xFF#8
  | 1 => 0xE0#8
  | _ => 0x1F#8

/-- Whether two tags match under a mask code (R109). -/
def tagMatch (m : BitVec 2) (a t : Byte) : Bool := a &&& tagMask m == t &&& tagMask m

/-- A core with Z alone written (R109). -/
def Core.setZ (k : Core) (z : Bool) : Core := { k with psr := { k.psr with z := z } }

/-- The compare of TCHK and TTST; `traps` says whether a mismatch traps while T is 1 (R109). Mask code 11b is not listed, so it
is ILLEGAL (R92). -/
def tagTest (traps : Bool) (ra : Reg) (t : Byte) (m : BitVec 2) (k : Core) : ExRes :=
  let a := (k.lone ra.toNat).tag
  if m = 3#2 then .trap trapIllegal
  else if tagMatch m a t then .next (k.setZ true)
  else if traps && k.psr.t then
    if m != 2#2 && kindOf a != kindOf t then .trap (tagTrap cType 0#4 1#2 a t) else .trap (tagTrap cUnit 0#4 1#2 a t)
  else .next (k.setZ false)

/-- TCHK (R109). -/
def execTchk (c : CoreId) (ra : Reg) (t : Byte) (m : BitVec 2) (s : State) : Host.Outcome State Fault Refusal :=
  s.keep (s.dev.run c.toNat { reads := [ra.toNat], wrFlags := wZ } (fun k => taggedOnly k (tagTest true ra t m k)))

/-- TTST (R109). -/
def execTtst (c : CoreId) (ra : Reg) (t : Byte) (m : BitVec 2) (s : State) : Host.Outcome State Fault Refusal :=
  s.keep (s.dev.run c.toNat { reads := [ra.toNat], wrFlags := wZ } (fun k => taggedOnly k (tagTest false ra t m k)))

/-! ### Compact mode alone (R121) -/

/-- ADC (R121). -/
def execAdc (c : CoreId) (rd ra rb : Reg) (s : State) : Host.Outcome State Fault Refusal :=
  s.keep (s.dev.run c.toNat { need2 rd ra rb wNZVC with rdFlags := true } (fun k => compactOnly k (alu8 add8 rd ra rb k)))

/-- SBC (R121). -/
def execSbc (c : CoreId) (rd ra rb : Reg) (s : State) : Host.Outcome State Fault Refusal :=
  s.keep (s.dev.run c.toNat { need2 rd ra rb wNZVC with rdFlags := true } (fun k => compactOnly k (alu8 sub8 rd ra rb k)))

/-- RLC: left by one, the old C into bit 0, C the old bit 7 (R121). -/
def execRlc (c : CoreId) (rd ra : Reg) (s : State) : Host.Outcome State Fault Refusal :=
  s.keep (s.dev.run c.toNat { need1 rd ra wNZVC with rdFlags := true } (fun k => compactOnly k
    (let a := k.byte ra.toNat
     .next (k.put8 rd (logic8 ((a <<< 1) ||| (if k.psr.c then 1#8 else 0#8)) a.msb)))))

/-- RRC: right by one, the old C into bit 7, C the old bit 0 (R121). -/
def execRrc (c : CoreId) (rd ra : Reg) (s : State) : Host.Outcome State Fault Refusal :=
  s.keep (s.dev.run c.toNat { need1 rd ra wNZVC with rdFlags := true } (fun k => compactOnly k
    (let a := k.byte ra.toNat
     .next (k.put8 rd (logic8 ((a >>> 1) ||| (if k.psr.c then 0x80#8 else 0#8)) (a.getLsbD 0))))))

/-- The two byte registers of a pair field (R73). -/
def pairRegs (p : Reg) : List Nat := [2 * p.toNat, 2 * p.toNat + 1]

/-- ADD16 (R121): ILLEGAL where a pair field lies outside 1 to 15 (R92). -/
def execAdd16 (c : CoreId) (pd pa pb : Reg) (s : State) : Host.Outcome State Fault Refusal :=
  s.keep (s.dev.run c.toNat { reads := pairRegs pa ++ pairRegs pb, writes := pairRegs pd, wrFlags := wNZVC } (fun k =>
    compactOnly k (if isPair pd && isPair pa && isPair pb then .next (k.put16 pd (add16 (k.pair pa.toNat) (k.pair pb.toNat)))
      else .trap trapIllegal)))

/-- ADDI16 (R120, R121). -/
def execAddi16 (c : CoreId) (pd pa : Reg) (imm : BitVec 15) (s : State) : Host.Outcome State Fault Refusal :=
  s.keep (s.dev.run c.toNat { reads := pairRegs pa, writes := pairRegs pd, wrFlags := wNZVC } (fun k =>
    compactOnly k (if isPair pd && isPair pa then .next (k.put16 pd (add16 (k.pair pa.toNat) (imm.signExtend 16)))
      else .trap trapIllegal)))

end Sys2Proof.Machine
end

