-- ==== Sys2Proof/Machine/Rails.lean ====
section
/-! DEFINITION. Rails and the thermal trip (spec 19_pins_and_electrical.md R511 to R516): instances 0 to 16 of the rail table; 15 and 16 are
the always group, 9 and 13 the retention group. -/
namespace Sys2Proof.Machine

/-- Whether a rail is expected on (R512, R515). -/
def Power.expected (p : Power) (rail : Nat) : Bool :=
  if rail = 15 ∨ rail = 16 then true else if rail = 9 ∨ rail = 13 then p.enRet else p.enCore

/-- Whether some rails are good. -/
def Power.good (p : Power) (rails : List Nat) : Bool := rails.all (fun r => p.railsUp.getLsbD r)

/-- The enables after a rail has come up (R512, R513): EN_RET once the always rails are good, EN_CORE once the retention rails are; low in P4
until a wake, EN_CORE low in P3 until a wake, both low after a thermal trip. -/
def Power.enables (p : Power) : Power :=
  let ret := p.enRet || ((p.inReset || p.waking) && !p.thermTrip && p.good [15, 16])
  { p with enRet := ret, enCore := p.enCore || ((p.inReset || p.waking) && !p.thermTrip && ret && p.good [9, 13]) }

/-- RAIL_GOOD (R513). -/
def execRailGood (rail : BitVec 5) (s : State) : Host.Outcome State Fault Refusal :=
  let d := s.dev
  s.keep (if rail.toNat < 17 then
    d.onPwr (fun p => ({ p with
      railsUp := setBit p.railsUp rail.toNat true
      railsBad := if p.inReset then p.railsBad else setBit p.railsBad rail.toNat false } : Power).enables)
  else d)

/-- A rail outside its range (R513, R515): raised, once as long as it stays there (R438), where it is expected on and the collector runs; in reset it
is noted until the release; one that is not expected on is down. -/
def Dev.railFault (d : Dev) (rail : Nat) : Dev :=
  let down := d.pwr.inReset || !d.pwr.expected rail
  let d1 := if down then d.onPwr (fun p => { p with railsUp := setBit p.railsUp rail false }) else d
  if !d.pwr.expected rail then d1
  else
    let d2 := d1.onPwr (fun p => { p with railsBad := setBit p.railsBad rail true })
    if d.pwr.inReset || decide (3 ≤ d.pwr.pstate.toNat) || d.pwr.railsBad.getLsbD rail then d2 else d2.raise 744 rail 0#16

/-- RAIL_FAULT (R515): outside its recommended range for 2 µs. -/
def execRailFault (rail : BitVec 5) (s : State) : Host.Outcome State Fault Refusal :=
  s.keep (if rail.toNat < 17 then s.dev.railFault rail.toNat else s.dev)

/-- BROWN_OUT (R515): a cold reset with the always-on domain. -/
def execBrownOut (s : State) : Host.Outcome State Fault Refusal :=
  s.commit (s.dev.cutLine.1.tearRecord.coldReset .por, coldClears ++ s.dev.cutLine.2)

/-- A thermal trip (R516): the part holds itself in cold reset until RESET_N. -/
def Dev.thermalTrip (d : Dev) : Dev :=
  ((d.coldReset .pin).onMode (fun m => { m with rstCause := 0#4 })).onPwr (fun p => { p with thermTrip := true })

/-- THERMTRIP (R516): any sensor. -/
def execThermtrip (_ : BitVec 5) (s : State) : Host.Outcome State Fault Refusal :=
  s.commit (s.dev.cutLine.1.tearRecord.thermalTrip, coldClears ++ s.dev.cutLine.2)

end Sys2Proof.Machine
end

