-- ==== Sys2Proof/Machine/RegRows.lean ====
section
/-! DEFINITION. Accesses to registers that have no row of their own (spec 00_scope.md R7, R9 to R11; 10_host_ports.md R313, R321, R322). -/
namespace Sys2Proof.Machine

/-! ### Through BAR0 (R313, R321, R322) -/

/-- Whether a port takes a BAR0 access: an endpoint whose link is up, in P0 and P1, and in P2 a read of the status page and an access to the semaphore
words (R433); the words that R321 holds, and reads, once the writes before them are accepted. The status page waits for nothing (R314). -/
def Dev.bar0Takes (d : Dev) (p : Port) (off : Nat) (write : Bool) : Bool :=
  d.isPcie p && d.portLive p && (d.portServes p || (!write && decide (off < 0x1000)) || (decide (0x1000 ≤ off) && decide (off < 0x1020)))
    && (!write || !heldOffset off || (d.portServes p && d.portDrained p && d.portRoom p)) && (write || decide (off < 0x1000) || d.portDrained p)

/-- Whether an access is one aligned word (R313). -/
def aWord (off bytes : Nat) : Bool := off % 4 == 0 && bytes == 4

/-- A BAR0 write of an aligned word, or one that is dropped: of another size or place (R313), or from another requester while B0HOST is 1
(R322). -/
def Dev.bar0Store (d : Dev) (p : Port) (rid : BitVec 16) (off bytes : Nat) (v : W32) : Dev :=
  d.fromHost p rid (fun x => if aWord off bytes then x.bar0Write p off v else x.unsupported p)

/-- A BAR0 read of an aligned word, which clears its RC fields; any other is answered Unsupported Request (R313). -/
def Dev.bar0Load (d : Dev) (p : Port) (off bytes : Nat) : Dev :=
  if !aWord off bytes then d.unsupportedRead p
  else
    let v := d.bar0Read p off
    (d.bar0Clear p off).onPort p (fun t => t.complete [rawWord v] false)

/-! ### The rows -/

/-- A device register written whole by a requester (R9, R11); a target that sleeps does not take it (R236). -/
def Dev.devStore (d : Dev) (req : ReqId) (w : Nat) (v : W32) : Dev :=
  if !isDevReg w then d else if d.wordAsleep w then (if isCoreReq req then d else d.countNp req) else d.regWrite req w v

/-- A device register read by a requester: its RC fields are cleared (R9, R10). -/
def Dev.devLoad (d : Dev) (req : ReqId) (w : Nat) : Dev :=
  if !isDevReg w then d else if d.wordAsleep w then (if isCoreReq req then d else d.countNp req) else d.regClear w

/-- A register write at a location. -/
def Dev.storeAt (d : Dev) (v : W32) : RegLoc → Dev
  | .dev req addr => d.devStore req addr.toNat v
  | .bar0 p rid off n =>
    if d.bar0Takes p off.toNat true then (d.portTouched p).bar0Store p rid off.toNat n.toNat v
    else if d.isPcie p then d.wakeRequest p else d

/-- A register read at a location. -/
def Dev.loadAt (d : Dev) : RegLoc → Dev
  | .dev req addr => d.devLoad req addr.toNat
  | .bar0 p _ off n => if d.bar0Takes p off.toNat false then (d.portTouched p).bar0Load p off.toNat n.toNat else if d.isPcie p then d.wakeRequest p else d

/-- REGISTER_WRITE (R9, R11). -/
def execRegisterWrite (loc : RegLoc) (val : W32) (s : State) : Host.Outcome State Fault Refusal :=
  s.commit (settleEff s.mem (s.dev.storeAt val loc, []))

/-- READ_CLEAR (R9, R10): the clear comes before any event of a later step. -/
def execReadClear (loc : RegLoc) (s : State) : Host.Outcome State Fault Refusal := s.keep (s.dev.loadAt loc)

end Sys2Proof.Machine
end

