-- ==== Sys2Proof/Machine/SramErr.lean ====
section
/-! DEFINITION. Scrubbing and row repair of on-chip SRAM, and the spare record (spec 08_memories.md R251 to R256, R261). -/
namespace Sys2Proof.Machine

/-- Whether a request waits at a bank of an SRAM (R251). -/
def Dev.bankWanted (d : Dev) (m : SramRef) (k : Nat) : Bool :=
  d.txns.any (fun t => t.waits && t.ddr.isNone && t.ev.isNone && t.words.any (fun w =>
    match sramOf w with
    | some (n, off) => n == m && bankOf m off == k
    | none => false))

/-- The scrub pass at a clock reading (R251; passes of SCRUB hours from clock 0 on, DESIGN CHOICE, log entry 114). -/
def Sram.passAt (x : Sram) (clk : Nat) : Nat := clk / (x.scrub.toNat * 2880000000000)

/-- The words that a bank's scrubber has read in the pass under way. -/
def Dev.scrubbedIn (d : Dev) (m : SramRef) (k : Nat) : List Nat :=
  let b := (d.sram m).bank k
  if b.pass = (d.sram m).passAt d.clk then b.scrubbed else []

/-- A scrub read of word off, in a bank cycle for which no request waits and once in a pass (R251): corrected errors count as for a read; an
uncorrectable word is recorded with KIND 1 and REQ FFFh. -/
def Dev.scrub (d : Dev) (m : SramRef) (off : Nat) (f : Found) : Dev :=
  let w := sramAddr m off
  let k := bankOf m off
  let done := d.scrubbedIn m k
  if !(d.sram m).scren || d.wordAsleep w || d.bankWanted m k || done.contains off then d
  else
    let d1 := d.onSram m (fun x => x.onBank k (fun b => { b with pass := x.passAt d.clk, scrubbed := done ++ [off] }))
    match d1.foundAt w f with
    | .good => d1
    | .single bit => d1.sramCorrected m off bit.toNat
    | .uncorrectable => d1.sramBad m off 1#4 0xFFF#12

/-- SCRUB_READ (R251). -/
def execScrubRead (m : SramRef) (off : BitVec 20) (found : Found) (s : State) : Host.Outcome State Fault Refusal :=
  s.keep (s.dev.scrub m off.toNat found)

/-- The switch that ends a row repair (R253): the bank decrements SPARES, and its log no longer names errors of the old row. -/
def Bank.switchRow (b : Bank) : Bank :=
  match b.repairing with
  | [] => b
  | r :: rest =>
    { b with repairing := rest, used := b.used + 1#8, repaired := b.repaired ++ [r], log := b.log.filter (fun e => e.1 != r) }

/-- ROW_REPAIR_SWITCH (R253). -/
def execRowRepairSwitch (m : SramRef) (bank : BitVec 3) (s : State) : Host.Outcome State Fault Refusal :=
  s.keep (s.dev.onSram m (fun x => x.onBank bank.toNat Bank.switchRow))

/-- SPARE_RECORD_WRITE (R254, R261): Keystone writes the record; not while it restarts. -/
def execSpareRecordWrite (s : State) : Host.Outcome State Fault Refusal :=
  let d := s.dev
  s.keep (if d.ks.firmware && !d.ks.kbusy then d.recordSpares else d)

end Sys2Proof.Machine
end

