-- ==== Sys2Proof/Machine/Encoding.lean ====
section
/-! DEFINITION. The encodings of the core instructions (spec 03_instruction_set.md R91, R92, R99 to R125): which instruction a 32-bit
word is in a data mode, and which words are undefined there. The commands of the table give their words no bits (log entry 1), so
only UNDEFINED_OPCODE asks. -/
namespace Sys2Proof.Machine

/-! ### Fields (R91) -/

/-- The opcode, bits [31:25]. -/
def wOp (w : W32) : Nat := fieldOf w 31 25
/-- Field rd of formats A, I, M and S, and field c of format B. -/
def wRd (w : W32) : Reg := bitsAt 5 w 20
/-- Field ra. -/
def wRa (w : W32) : Reg := bitsAt 5 w 15
/-- Field rb. -/
def wRb (w : W32) : Reg := bitsAt 5 w 10
/-- Field fn of format A, field sys of format S. -/
def wFn (w : W32) : BitVec 10 := bitsAt 10 w 0
/-- Field imm15 of format I, field off15 of format M. -/
def wImm (w : W32) : BitVec 15 := bitsAt 15 w 0
/-- Field off20 of format B. -/
def wOff (w : W32) : BitVec 20 := bitsAt 20 w 0

/-- An instruction that a word spells where a condition on its fields holds; else the word is undefined (R92). -/
def whenOk (ok : Bool) (i : Instr) : Option Instr := if ok then some i else none

/-! ### Encodings that both data modes share (R115, R121) -/

/-- The system encodings 60h to 67h, with bits [14:10] zero and the fields that the entry does not name zero (R115). -/
def systemInstr (c : CoreId) (w : W32) : Option Instr :=
  let z := wRb w == 0#5
  let d0 := wRd w == 0#5
  let a0 := wRa w == 0#5
  let f0 := wFn w == 0#10
  match wOp w with
  | 0x60 => whenOk (z && d0 && a0 && f0) (.wait c)
  | 0x61 => whenOk (z && d0 && a0 && f0) (.reti c)
  | 0x62 => whenOk (z && d0 && decide ((wFn w).toNat < 16)) (.signal c (wRa w) ((wFn w).setWidth 4))
  | 0x63 => whenOk (z && d0 && a0 && f0) (.fence c)
  | 0x64 => whenOk (z && a0 && f0) (.mfpsr c (wRd w))
  | 0x65 => whenOk (z && d0 && f0) (.mtpsr c (wRa w))
  | 0x66 => whenOk (z && d0 && a0 && f0) (.di c)
  | 0x67 => whenOk (z && d0 && a0 && f0) (.ei c)
  | _ => none

/-- A format A instruction of fn 000h. -/
def formA (w : W32) (f : Reg → Reg → Reg → Instr) : Option Instr := whenOk (wFn w == 0#10) (f (wRd w) (wRa w) (wRb w))
/-- A format A instruction of fn 000h with rb zero. -/
def formA1 (w : W32) (f : Reg → Reg → Instr) : Option Instr := whenOk (wFn w == 0#10 && wRb w == 0#5) (f (wRd w) (wRa w))
/-- A format I or M instruction whose immediate lies below a bound. -/
def formI (w : W32) (bound : Nat) (f : Reg → Reg → BitVec 15 → Instr) : Option Instr :=
  whenOk (decide ((wImm w).toNat < bound)) (f (wRd w) (wRa w) (wImm w))

/-! ### Tagged mode (R99 to R118) -/

/-- The instruction that a word is in tagged mode. -/
def taggedInstr (c : CoreId) (w : W32) : Option Instr :=
  match wOp w with
  | 0x01 => match (wFn w).toNat with
    | 0 => some (.add c (wRd w) (wRa w) (wRb w))
    | 2 => some (.addf c (wRd w) (wRa w) (wRb w))
    | 3 => some (.addfs c (wRd w) (wRa w) (wRb w))
    | _ => none
  | 0x02 => match (wFn w).toNat with
    | 0 => some (.sub c (wRd w) (wRa w) (wRb w))
    | 2 => some (.subf c (wRd w) (wRa w) (wRb w))
    | 3 => some (.subfs c (wRd w) (wRa w) (wRb w))
    | _ => none
  | 0x03 => formA w (.mul c)
  | 0x04 => match (wFn w).toNat with
    | 0 => some (.mulf c (wRd w) (wRa w) (wRb w))
    | 1 => some (.mulfs c (wRd w) (wRa w) (wRb w))
    | _ => none
  | 0x05 => match (wFn w).toNat with
    | 0 => some (.macf c (wRd w) (wRa w) (wRb w))
    | 1 => some (.macfs c (wRd w) (wRa w) (wRb w))
    | _ => none
  | 0x06 => formA w (.div c)
  | 0x07 => formA w (.divf c)
  | 0x08 => whenOk (wFn w == 0#10 && wRd w == 0#5) (.cmp c (wRa w) (wRb w))
  | 0x09 => whenOk (decide ((wFn w).toNat < 32) && csetAllowed ((wFn w).setWidth 5)) (.cset c (wRd w) (wRa w) (wRb w) (wFn w))
  | 0x0A => formA w (.and c)
  | 0x0B => formA w (.or c)
  | 0x0C => formA w (.xor c)
  | 0x0D => formA1 w (.not c)
  | 0x0E => formA w (.shl c)
  | 0x0F => formA w (.shr c)
  | 0x10 => formA w (.sar c)
  | 0x11 => formA1 w (.mov c)
  | 0x18 => formA1 w (.jmp c)
  | 0x20 => formI w 32768 (.addi c)
  | 0x21 => formI w 32768 (.subi c)
  | 0x22 => formI w 32768 (.muli c)
  | 0x23 => whenOk (wRd w == 0#5) (.cmpi c (wRa w) (wImm w))
  | 0x24 => formI w 32768 (.andi c)
  | 0x25 => formI w 32768 (.ori c)
  | 0x26 => formI w 32768 (.xori c)
  | 0x27 => formI w 32 (.shli c)
  | 0x28 => formI w 32 (.shri c)
  | 0x29 => formI w 32 (.sari c)
  | 0x30 => formI w 32768 (fun rd ra off => .ldw c rd ra off [])
  | 0x31 => formI w 32768 (.stw c)
  | 0x32 => formI w 32768 (.stag c)
  | 0x40 => whenOk (condDefined (wRd w)) (.bc c (wRd w) (wOff w))
  | 0x41 => some (.bt c (wRd w) (wOff w))
  | 0x42 => some (.bf c (wRd w) (wOff w))
  | 0x43 => some (.call c (wRd w) (wOff w))
  | 0x44 => some (.movu c (wRd w) (wOff w))
  | 0x68 => formA1 w (.tget c)
  | 0x69 => whenOk (wRb w == 0#5 && decide ((wFn w).toNat < 256)) (.tset c (wRd w) (wRa w) ((wFn w).setWidth 8))
  | 0x6A => whenOk (wRb w == 0#5 && wRd w == 0#5 && decide ((wFn w).toNat < 768))
      (.tchk c (wRa w) ((wFn w).setWidth 8) ((wFn w).extractLsb' 8 2))
  | 0x6B => whenOk (wRb w == 0#5 && wRd w == 0#5 && decide ((wFn w).toNat < 768))
      (.ttst c (wRa w) ((wFn w).setWidth 8) ((wFn w).extractLsb' 8 2))
  | _ => systemInstr c w

/-! ### Compact mode (R120 to R125) -/

/-- A base field of a compact memory instruction: 0 to 15 (R120). -/
def baseOk (w : W32) : Bool := decide ((wRa w).toNat < 16)

/-- The instruction that a word is in compact mode. -/
def compactInstr (c : CoreId) (w : W32) : Option Instr :=
  match wOp w with
  | 0x01 => formA w (.add c)
  | 0x02 => formA w (.sub c)
  | 0x03 => whenOk (wFn w == 0#10 && isPair (wRd w)) (.mul c (wRd w) (wRa w) (wRb w))
  | 0x08 => whenOk (wFn w == 0#10 && wRd w == 0#5) (.cmp c (wRa w) (wRb w))
  | 0x0A => formA w (.and c)
  | 0x0B => formA w (.or c)
  | 0x0C => formA w (.xor c)
  | 0x0D => formA1 w (.not c)
  | 0x0E => formA w (.shl c)
  | 0x0F => formA w (.shr c)
  | 0x10 => formA w (.sar c)
  | 0x11 => formA1 w (.mov c)
  | 0x12 => formA w (.adc c)
  | 0x13 => formA w (.sbc c)
  | 0x14 => whenOk (wFn w == 0#10 && isPair (wRd w) && isPair (wRa w) && isPair (wRb w)) (.add16 c (wRd w) (wRa w) (wRb w))
  | 0x15 => formA1 w (.rlc c)
  | 0x16 => formA1 w (.rrc c)
  | 0x18 => whenOk (wFn w == 0#10 && wRb w == 0#5 && isPair (wRa w) && (wRd w == 0#5 || wRd w == 15#5)) (.jmp c (wRd w) (wRa w))
  | 0x20 => formI w 256 (.addi c)
  | 0x21 => formI w 256 (.subi c)
  | 0x23 => whenOk (wRd w == 0#5 && decide ((wImm w).toNat < 256)) (.cmpi c (wRa w) (wImm w))
  | 0x24 => formI w 256 (.andi c)
  | 0x25 => formI w 256 (.ori c)
  | 0x26 => formI w 256 (.xori c)
  | 0x27 => formI w 8 (.shli c)
  | 0x28 => formI w 8 (.shri c)
  | 0x29 => formI w 8 (.sari c)
  | 0x2A => whenOk (isPair (wRd w) && isPair (wRa w)) (.addi16 c (wRd w) (wRa w) (wImm w))
  | 0x30 => whenOk (baseOk w) (.ldw c (wRd w) (wRa w) (wImm w) [])
  | 0x31 => whenOk (baseOk w) (.stw c (wRd w) (wRa w) (wImm w))
  | 0x33 => whenOk (isPair (wRd w) && baseOk w) (.ld16 c (wRd w) (wRa w) (wImm w) [])
  | 0x34 => whenOk (isPair (wRd w) && baseOk w) (.st16 c (wRd w) (wRa w) (wImm w))
  | 0x40 => whenOk (condDefined (wRd w)) (.bc c (wRd w) (wOff w))
  | 0x43 => whenOk (wRd w == 15#5) (.call c (wRd w) (wOff w))
  | _ => systemInstr c w

/-- The instruction of core c that a word is in a data mode, none where the mode leaves the word undefined (R92, R125). -/
def coreInstr (c : CoreId) (compact : Bool) (w : W32) : Option Instr := if compact then compactInstr c w else taggedInstr c w

end Sys2Proof.Machine
end

