-- ==== Sys2Proof/Machine/System.lean ====
section
/-! DEFINITION. The system instructions (spec 03_instruction_set.md R92, R115 to R119; 02 R85, R86; 06 R200, R203; 17 R468). -/
namespace Sys2Proof.Machine

/-- The effects that follow a change of a device: jobs whose moment has come are ended. -/
def Dev.settled (d : Dev) (m : List Host.Cell) : Eff := d.settle m

/-! ### WAIT and RETI (R85, R86, R116, R200, R203) -/

/-- A core after the end of its entry (R85 step 3, R116): the top frame popped, or idle with the PSR that R44 gives an idle core. The PC
of an idle core is that of the next word (DESIGN CHOICE, log entry 98). -/
def Core.endOfEntry (k : Core) (clk : Nat) : Core :=
  match k.frames with
  | [] => { k with status := .waiting, psr := k.psr.idle, serving := none, waitSince := clk, pc := k.pc + 1#32 }
  | _ :: _ => k.popFrame

/-- The BIU's part of WAIT or RETI on slot i of bent b, which carries the source its core was serving (R203): a match completes that
source, after the iteration boundary of a WAIT for its own loop's trigger (R86, R167) and before its switch point (R468); anything
else is STACK_ORDER. -/
def Dev.endService (d : Dev) (b i : Nat) (serving : Option SrcId) (wait : Bool) : Dev :=
  match (d.bent b).biu.stack i, serving with
  | e :: rest, some n =>
    if e.src = n then
      let own := wait && (d.loopOf (coreOf b i) n.toNat).isSome
      let d1 := d.onBiu b (fun u => u.setStack i rest)
      let start := (d1.bent b).scr.iterationStart n.toNat e.stamp
      let d2 := if own then (d1.slackBoundary b n.toNat start).markIter (coreOf b i) n.toNat false else d1
      let d3 := d2.complete b n.toNat
      if own then d3.switchPoint b n.toNat
      else if (d.loopOf (coreOf b i) n.toNat).isSome then d3.onScr b (fun a => a.onSource n.toNat (fun x => { x with opened := some start }))
      else d3
    else d.stackOrder b i
  | _, _ => d.stackOrder b i

/-- WAIT (`wait`) or RETI of core c: it takes effect once every older instruction has completed and every older store has been
accepted (R85, R116). -/
def Dev.doReturn (d : Dev) (c : Nat) (wait : Bool) : Dev :=
  d.runDev c {} (fun k =>
    if !k.drained then .hold
    else if k.atEnd then .trap (trapBounds 4#4 0x02800000#32 0#8) d
    else
      let d1 := d.endService (bentOf c) (slotOf c) k.serving wait
      let k' := (d1.core c).endOfEntry d.clk
      .goto ((d1.setCore c k').recheckSlot (bentOf c) (slotOf c)) k'.pc)

/-- WAIT (R85, R86). -/
def execWait (c : CoreId) (s : State) : Host.Outcome State Fault Refusal :=
  s.commit ((s.dev.doReturn c.toNat true).settle s.mem)

/-- RETI (R116). -/
def execReti (c : CoreId) (s : State) : Host.Outcome State Fault Refusal :=
  s.commit ((s.dev.doReturn c.toNat false).settle s.mem)

/-! ### SIGNAL (R117) -/

/-- Where a SIGNAL with operand a and number n goes: the bent, the source, and the chain unit when it leaves the part. -/
def Dev.signalTo (d : Dev) (a : W32) (n : BitVec 4) : BentId × SrcId × Option (BitVec 4) :=
  let b := bitsAt 7 a 0
  if !bitOf a 12 then (b, 96#8 + n.setWidth 8, none)
  else
    let u := bitsAt 4 a 8
    (b, 128#8 + n.setWidth 8, if d.chain.uvalid && u == d.chain.unit then none else some u)

/-- The EVT transaction of a SIGNAL (R217, R222). -/
def Dev.signalTxn (d : Dev) (c : CoreId) (a : W32) (n : BitVec 4) (id : Nat) : Txn :=
  let k := d.core c.toNat
  let t := d.signalTo a n
  { newTxn id (c.setWidth 12) k.cls .evt 0#32 (.signal c) with paced := k.psr.paced, ev := some (t.1, t.2.1), dest := t.2.2 }

/-- SIGNAL (R117): sent once every older store has been accepted; while PSR.T is 1 its operand must be RAW, or INT of unit 0. -/
def execSignal (c : CoreId) (ra : Reg) (n : BitVec 4) (s : State) : Host.Outcome State Fault Refusal :=
  let d := s.dev
  s.keep (d.runDev c.toNat { reads := [ra.toNat] } (fun k =>
    let a := if k.psr.compact then rawWord ((k.byte ra.toNat).setWidth 32) else k.lone ra.toNat
    match k.checked (checkOne (fun x => x == kRaw || x == kInt) 0#4 true a.tag) with
    | .error t => .trap t d
    | .ok _ =>
      if !k.stores.isEmpty then .hold
      else .next (d.issueTxn (d.signalTxn c a.pay n))))

/-! ### FENCE, PSR (R115, R118, R119) -/

/-- FENCE (R118). -/
def execFence (c : CoreId) (s : State) : Host.Outcome State Fault Refusal :=
  s.keep (s.dev.run c.toNat {} (fun k =>
    if k.loads.all (fun e => e.dead) && k.stores.isEmpty then .next k else .hold))

/-- MFPSR (R115; compact R121). -/
def execMfpsr (c : CoreId) (rd : Reg) (s : State) : Host.Outcome State Fault Refusal :=
  s.keep (s.dev.run c.toNat { writes := [rd.toNat], rdFlags := true } (fun k =>
    .next (if k.psr.compact then k.setByte rd.toNat (k.psr.word.setWidth 8) else k.setReg rd.toNat (rawWord k.psr.word))))

/-- A core with PSR.I and the flags from bits [4:0] of an operand; every other field of the PSR stays (R44, R115). -/
def Core.putPsr (k : Core) (v : W32) : Core :=
  { k with psr := { k.psr with i := bitOf v 4, n := bitOf v 3, z := bitOf v 2, v := bitOf v 1, c := bitOf v 0 } }

/-- A device after an instruction that may have changed PSR.I: an offer to a slot no longer able returns (R198). -/
def Dev.recheckCore (d : Dev) (c : Nat) : Dev := d.recheckSlot (bentOf c) (slotOf c)

/-- MTPSR (R115, R119). -/
def execMtpsr (c : CoreId) (ra : Reg) (s : State) : Host.Outcome State Fault Refusal :=
  s.keep ((s.dev.run c.toNat { reads := [ra.toNat], wrFlags := 15#4 } (fun k =>
    .next (k.putPsr (if k.psr.compact then (k.byte ra.toNat).setWidth 32 else (k.lone ra.toNat).pay)))).recheckCore c.toNat)

/-- A core with PSR.I set to v. -/
def Core.putI (k : Core) (v : Bool) : Core := { k with psr := { k.psr with i := v } }

/-- DI (R115, R119). -/
def execDi (c : CoreId) (s : State) : Host.Outcome State Fault Refusal :=
  s.keep ((s.dev.run c.toNat {} (fun k => .next (k.putI false))).recheckCore c.toNat)

/-- EI (R115, R119). -/
def execEi (c : CoreId) (s : State) : Host.Outcome State Fault Refusal :=
  s.keep (s.dev.run c.toNat {} (fun k => .next (k.putI true)))

/-! ### Undefined encodings (R92, R125) -/

/-- An undefined encoding (R92): ILLEGAL, a precise trap. A word that the core's mode defines is another command's, and does nothing
here (DESIGN CHOICE, log entry 2). -/
def execUndefinedOpcode (c : CoreId) (word : W32) (s : State) : Host.Outcome State Fault Refusal :=
  s.keep (s.dev.run c.toNat {} (fun k =>
    if (coreInstr c k.psr.compact word).isSome then .hold else .trap trapIllegal))

end Sys2Proof.Machine
end

