-- ==== Sys2Proof/Machine/Dispatch.lean ====
section
/-! DEFINITION. The dispatch of commands to their meanings: one arm per row of spec/opcode_table.json, in the table's order. -/
namespace Sys2Proof.Machine

/-- The effect of a command on everything but the queue of waiting commands. -/
def exec (i : Instr) (s : State) : Host.Outcome State Fault Refusal :=
  match i with
  | .add c rd ra rb => Sys2Proof.Machine.execAdd c rd ra rb s
  | .addf c rd ra rb => Sys2Proof.Machine.execAddf c rd ra rb s
  | .addfs c rd ra rb => Sys2Proof.Machine.execAddfs c rd ra rb s
  | .sub c rd ra rb => Sys2Proof.Machine.execSub c rd ra rb s
  | .subf c rd ra rb => Sys2Proof.Machine.execSubf c rd ra rb s
  | .subfs c rd ra rb => Sys2Proof.Machine.execSubfs c rd ra rb s
  | .addi c rd ra imm => Sys2Proof.Machine.execAddi c rd ra imm s
  | .subi c rd ra imm => Sys2Proof.Machine.execSubi c rd ra imm s
  | .mul c rd ra rb => Sys2Proof.Machine.execMul c rd ra rb s
  | .muli c rd ra imm => Sys2Proof.Machine.execMuli c rd ra imm s
  | .mulf c rd ra rb => Sys2Proof.Machine.execMulf c rd ra rb s
  | .mulfs c rd ra rb => Sys2Proof.Machine.execMulfs c rd ra rb s
  | .macf c rd ra rb => Sys2Proof.Machine.execMacf c rd ra rb s
  | .macfs c rd ra rb => Sys2Proof.Machine.execMacfs c rd ra rb s
  | .div c rd ra rb => Sys2Proof.Machine.execDiv c rd ra rb s
  | .divf c rd ra rb => Sys2Proof.Machine.execDivf c rd ra rb s
  | .divComplete c => Sys2Proof.Machine.execDivComplete c s
  | .cmp c ra rb => Sys2Proof.Machine.execCmp c ra rb s
  | .cmpi c ra imm => Sys2Proof.Machine.execCmpi c ra imm s
  | .cset c rd ra rb fn => Sys2Proof.Machine.execCset c rd ra rb fn s
  | .and c rd ra rb => Sys2Proof.Machine.execAnd c rd ra rb s
  | .or c rd ra rb => Sys2Proof.Machine.execOr c rd ra rb s
  | .xor c rd ra rb => Sys2Proof.Machine.execXor c rd ra rb s
  | .not c rd ra => Sys2Proof.Machine.execNot c rd ra s
  | .andi c rd ra imm => Sys2Proof.Machine.execAndi c rd ra imm s
  | .ori c rd ra imm => Sys2Proof.Machine.execOri c rd ra imm s
  | .xori c rd ra imm => Sys2Proof.Machine.execXori c rd ra imm s
  | .shl c rd ra rb => Sys2Proof.Machine.execShl c rd ra rb s
  | .shr c rd ra rb => Sys2Proof.Machine.execShr c rd ra rb s
  | .sar c rd ra rb => Sys2Proof.Machine.execSar c rd ra rb s
  | .shli c rd ra imm => Sys2Proof.Machine.execShli c rd ra imm s
  | .shri c rd ra imm => Sys2Proof.Machine.execShri c rd ra imm s
  | .sari c rd ra imm => Sys2Proof.Machine.execSari c rd ra imm s
  | .mov c rd ra => Sys2Proof.Machine.execMov c rd ra s
  | .movu c rd imm => Sys2Proof.Machine.execMovu c rd imm s
  | .tget c rd ra => Sys2Proof.Machine.execTget c rd ra s
  | .tset c rd ra t => Sys2Proof.Machine.execTset c rd ra t s
  | .tchk c ra t m => Sys2Proof.Machine.execTchk c ra t m s
  | .ttst c ra t m => Sys2Proof.Machine.execTtst c ra t m s
  | .ldw c rd ra off found => Sys2Proof.Machine.execLdw c rd ra off found s
  | .stw c rs ra off => Sys2Proof.Machine.execStw c rs ra off s
  | .stag c rs ra off => Sys2Proof.Machine.execStag c rs ra off s
  | .ld16 c pd pa off found => Sys2Proof.Machine.execLd16 c pd pa off found s
  | .st16 c ps pa off => Sys2Proof.Machine.execSt16 c ps pa off s
  | .adc c rd ra rb => Sys2Proof.Machine.execAdc c rd ra rb s
  | .sbc c rd ra rb => Sys2Proof.Machine.execSbc c rd ra rb s
  | .rlc c rd ra => Sys2Proof.Machine.execRlc c rd ra s
  | .rrc c rd ra => Sys2Proof.Machine.execRrc c rd ra s
  | .add16 c pd pa pb => Sys2Proof.Machine.execAdd16 c pd pa pb s
  | .addi16 c pd pa imm => Sys2Proof.Machine.execAddi16 c pd pa imm s
  | .bc c cc off => Sys2Proof.Machine.execBc c cc off s
  | .bt c ra off => Sys2Proof.Machine.execBt c ra off s
  | .bf c ra off => Sys2Proof.Machine.execBf c ra off s
  | .call c rd off => Sys2Proof.Machine.execCall c rd off s
  | .jmp c rd ra => Sys2Proof.Machine.execJmp c rd ra s
  | .wait c => Sys2Proof.Machine.execWait c s
  | .reti c => Sys2Proof.Machine.execReti c s
  | .signal c ra n => Sys2Proof.Machine.execSignal c ra n s
  | .fence c => Sys2Proof.Machine.execFence c s
  | .mfpsr c rd => Sys2Proof.Machine.execMfpsr c rd s
  | .mtpsr c ra => Sys2Proof.Machine.execMtpsr c ra s
  | .di c => Sys2Proof.Machine.execDi c s
  | .ei c => Sys2Proof.Machine.execEi c s
  | .undefinedOpcode c word => Sys2Proof.Machine.execUndefinedOpcode c word s
  | .storeBufferSend c found => Sys2Proof.Machine.execStoreBufferSend c found s
  | .deckDataReturn id => Sys2Proof.Machine.execDeckDataReturn id s
  | .deckAckReturn id => Sys2Proof.Machine.execDeckAckReturn id s
  | .deckRetryReturn id => Sys2Proof.Machine.execDeckRetryReturn id s
  | .retryResend id => Sys2Proof.Machine.execRetryResend id s
  | .deckNotPresentReturn id => Sys2Proof.Machine.execDeckNotPresentReturn id s
  | .deckErrorReturn id => Sys2Proof.Machine.execDeckErrorReturn id s
  | .deckRd id found => Sys2Proof.Machine.execDeckRd id found s
  | .deckWr id found => Sys2Proof.Machine.execDeckWr id found s
  | .deckTw id found => Sys2Proof.Machine.execDeckTw id found s
  | .deckEvt id => Sys2Proof.Machine.execDeckEvt id s
  | .deckStarve id => Sys2Proof.Machine.execDeckStarve id s
  | .lineFill b line found => Sys2Proof.Machine.execLineFill b line found s
  | .pacedFetchDelivery c found => Sys2Proof.Machine.execPacedFetchDelivery c found s
  | .paceUnderrun c => Sys2Proof.Machine.execPaceUnderrun c s
  | .biuOffer b => Sys2Proof.Machine.execBiuOffer b s
  | .interruptEntry c ph => Sys2Proof.Machine.execInterruptEntry c ph s
  | .takeover c => Sys2Proof.Machine.execTakeover c s
  | .alarmMatch b k => Sys2Proof.Machine.execAlarmMatch b k s
  | .timebasePulse k => Sys2Proof.Machine.execTimebasePulse k s
  | .coreUngateDone b slot => Sys2Proof.Machine.execCoreUngateDone b slot s
  | .biuSwset req b val => Sys2Proof.Machine.execBiuSwset req b val s
  | .biuAlmcmpWrite req b k val => Sys2Proof.Machine.execBiuAlmcmpWrite req b k val s
  | .deadlineMiss b slot entry => Sys2Proof.Machine.execDeadlineMiss b slot entry s
  | .nearMiss b pslot stage => Sys2Proof.Machine.execNearMiss b pslot stage s
  | .timingLate b pslot stage => Sys2Proof.Machine.execTimingLate b pslot stage s
  | .scribeControlPeriod b actual count => Sys2Proof.Machine.execScribeControlPeriod b actual count s
  | .budgetEvaluation fixed pest => Sys2Proof.Machine.execBudgetEvaluation fixed pest s
  | .regFault b code => Sys2Proof.Machine.execRegFault b code s
  | .sensorSample readings => Sys2Proof.Machine.execSensorSample readings s
  | .push id => Sys2Proof.Machine.execPush id s
  | .pushs id => Sys2Proof.Machine.execPushs id s
  | .pushe id => Sys2Proof.Machine.execPushe id s
  | .pushse id => Sys2Proof.Machine.execPushse id s
  | .pop id found => Sys2Proof.Machine.execPop id found s
  | .itemlen id => Sys2Proof.Machine.execItemlen id s
  | .space id => Sys2Proof.Machine.execSpace id s
  | .status id => Sys2Proof.Machine.execStatus id s
  | .mark id => Sys2Proof.Machine.execMark id s
  | .rewind id => Sys2Proof.Machine.execRewind id s
  | .release id => Sys2Proof.Machine.execRelease id s
  | .queCtlFlush req q val => Sys2Proof.Machine.execQueCtlFlush req q val s
  | .queueFlushDone q => Sys2Proof.Machine.execQueueFlushDone q s
  | .xingUnstable d => Sys2Proof.Machine.execXingUnstable d s
  | .scrubRead m off found => Sys2Proof.Machine.execScrubRead m off found s
  | .rowRepairSwitch m bank => Sys2Proof.Machine.execRowRepairSwitch m bank s
  | .spareRecordWrite => Sys2Proof.Machine.execSpareRecordWrite s
  | .cstWrite req => Sys2Proof.Machine.execCstWrite req s
  | .cstErase req => Sys2Proof.Machine.execCstErase req s
  | .cstBankWriteDone matched => Sys2Proof.Machine.execCstBankWriteDone matched s
  | .cstInvalidateDone => Sys2Proof.Machine.execCstInvalidateDone s
  | .ddrTaginitDone ch => Sys2Proof.Machine.execDdrTaginitDone ch s
  | .ddrPatrolScrub ch line loc found => Sys2Proof.Machine.execDdrPatrolScrub ch line loc found s
  | .ddrSoftPpr ch row dimm room => Sys2Proof.Machine.execDdrSoftPpr ch row dimm room s
  | .ddrTempPoll ch temp => Sys2Proof.Machine.execDdrTempPoll ch temp s
  | .pmicAlert ch dimm status => Sys2Proof.Machine.execPmicAlert ch dimm status s
  | .ddrFail ch => Sys2Proof.Machine.execDdrFail ch s
  | .pciHdb p rid b val => Sys2Proof.Machine.execPciHdb p rid b val s
  | .bar2PayloadWrite p off data => Sys2Proof.Machine.execBar2PayloadWrite p off data s
  | .bar2PayloadRead p off words => Sys2Proof.Machine.execBar2PayloadRead p off words s
  | .bar2TagWrite p off tags => Sys2Proof.Machine.execBar2TagWrite p off tags s
  | .bar2TagRead p off count => Sys2Proof.Machine.execBar2TagRead p off count s
  | .bar4Write p off data => Sys2Proof.Machine.execBar4Write p off data s
  | .bar4Read p off count => Sys2Proof.Machine.execBar4Read p off count s
  | .pciConfigWrite p rid reg val => Sys2Proof.Machine.execPciConfigWrite p rid reg val s
  | .perst p => Sys2Proof.Machine.execPerst p s
  | .flr p => Sys2Proof.Machine.execFlr p s
  | .dlDown p => Sys2Proof.Machine.execDlDown p s
  | .ptmDialogue p host => Sys2Proof.Machine.execPtmDialogue p host s
  | .msixPendingSend p vec => Sys2Proof.Machine.execMsixPendingSend p vec s
  | .i3cDynamicAddress addr => Sys2Proof.Machine.execI3cDynamicAddress addr s
  | .i3cPrivateWrite data => Sys2Proof.Machine.execI3cPrivateWrite data s
  | .i3cPrivateRead n => Sys2Proof.Machine.execI3cPrivateRead n s
  | .semAcq p rid val => Sys2Proof.Machine.execSemAcq p rid val s
  | .semHb p rid val => Sys2Proof.Machine.execSemHb p rid val s
  | .semRel p rid val => Sys2Proof.Machine.execSemRel p rid val s
  | .semLeaseExpiry => Sys2Proof.Machine.execSemLeaseExpiry s
  | .cmdDb p rid val => Sys2Proof.Machine.execCmdDb p rid val s
  | .cmdForwardTimeout p => Sys2Proof.Machine.execCmdForwardTimeout p s
  | .creplyReceive v h p final st detail seq elapsed payload => Sys2Proof.Machine.execCreplyReceive v h p final st detail seq elapsed payload s
  | .devInfo src => Sys2Proof.Machine.execDevInfo src s
  | .devStatus src => Sys2Proof.Machine.execDevStatus src s
  | .modeSet src => Sys2Proof.Machine.execModeSet src s
  | .modeGet src => Sys2Proof.Machine.execModeGet src s
  | .loopLoad src => Sys2Proof.Machine.execLoopLoad src s
  | .loopBind src => Sys2Proof.Machine.execLoopBind src s
  | .loopStart src => Sys2Proof.Machine.execLoopStart src s
  | .loopStartTimeout loop => Sys2Proof.Machine.execLoopStartTimeout loop s
  | .loopStop src => Sys2Proof.Machine.execLoopStop src s
  | .loopStopTimeout loop => Sys2Proof.Machine.execLoopStopTimeout loop s
  | .loopMigrate src => Sys2Proof.Machine.execLoopMigrate src s
  | .loopUpdate src => Sys2Proof.Machine.execLoopUpdate src s
  | .memRead src found => Sys2Proof.Machine.execMemRead src found s
  | .memWrite src found => Sys2Proof.Machine.execMemWrite src found s
  | .queCreate src => Sys2Proof.Machine.execQueCreate src s
  | .queConfig src => Sys2Proof.Machine.execQueConfig src s
  | .queFlush src => Sys2Proof.Machine.execQueFlush src s
  | .scrSet src => Sys2Proof.Machine.execScrSet src s
  | .scrReport src => Sys2Proof.Machine.execScrReport src s
  | .pwrState src => Sys2Proof.Machine.execPwrState src s
  | .fltRead src => Sys2Proof.Machine.execFltRead src s
  | .fltAck src => Sys2Proof.Machine.execFltAck src s
  | .fltSeverity src => Sys2Proof.Machine.execFltSeverity src s
  | .secAttest src => Sys2Proof.Machine.execSecAttest src s
  | .secImage src => Sys2Proof.Machine.execSecImage src s
  | .secUnlock src => Sys2Proof.Machine.execSecUnlock src s
  | .viaEnum src => Sys2Proof.Machine.execViaEnum src s
  | .viaStatus src => Sys2Proof.Machine.execViaStatus src s
  | .plbSelect src => Sys2Proof.Machine.execPlbSelect src s
  | .spareSwap src selfTest => Sys2Proof.Machine.execSpareSwap src selfTest s
  | .spareSwapTimeout b => Sys2Proof.Machine.execSpareSwapTimeout b s
  | .spareStatus src => Sys2Proof.Machine.execSpareStatus src s
  | .livSwctlArm req b slot kind src vec => Sys2Proof.Machine.execLivSwctlArm req b slot kind src vec s
  | .livSwctlDisarm req b slot => Sys2Proof.Machine.execLivSwctlDisarm req b slot s
  | .switchTimeout b slot => Sys2Proof.Machine.execSwitchTimeout b slot s
  | .livLatch req b src => Sys2Proof.Machine.execLivLatch req b src s
  | .coreReset req c => Sys2Proof.Machine.execCoreReset req c s
  | .bentReset req b => Sys2Proof.Machine.execBentReset req b s
  | .coldReset cause => Sys2Proof.Machine.execColdReset cause s
  | .bootComplete r => Sys2Proof.Machine.execBootComplete r s
  | .commissionComplete r => Sys2Proof.Machine.execCommissionComplete r s
  | .safeNAccept => Sys2Proof.Machine.execSafeNAccept s
  | .recoveryPhaseEnd fail => Sys2Proof.Machine.execRecoveryPhaseEnd fail s
  | .p1Entry => Sys2Proof.Machine.execP1Entry s
  | .p1Exit cause => Sys2Proof.Machine.execP1Exit cause s
  | .coreGate c => Sys2Proof.Machine.execCoreGate c s
  | .sleepDomainAnswer refuse => Sys2Proof.Machine.execSleepDomainAnswer refuse s
  | .drainTimeout => Sys2Proof.Machine.execDrainTimeout s
  | .wakeN => Sys2Proof.Machine.execWakeN s
  | .aonAlarm => Sys2Proof.Machine.execAonAlarm s
  | .portWakeRequest p => Sys2Proof.Machine.execPortWakeRequest p s
  | .wakeComplete => Sys2Proof.Machine.execWakeComplete s
  | .railFault rail => Sys2Proof.Machine.execRailFault rail s
  | .brownOut => Sys2Proof.Machine.execBrownOut s
  | .thermtrip sensor => Sys2Proof.Machine.execThermtrip sensor s
  | .faultRaise => Sys2Proof.Machine.execFaultRaise s
  | .fltClrAll req => Sys2Proof.Machine.execFltClrAll req s
  | .fltClrSource req n => Sys2Proof.Machine.execFltClrSource req n s
  | .fltKick req => Sys2Proof.Machine.execFltKick req s
  | .fltKickGrace req => Sys2Proof.Machine.execFltKickGrace req s
  | .ksWdog => Sys2Proof.Machine.execKsWdog s
  | .ksLockstep => Sys2Proof.Machine.execKsLockstep s
  | .fltSelf => Sys2Proof.Machine.execFltSelf s
  | .secRelock req => Sys2Proof.Machine.execSecRelock req s
  | .secVerifyDone => Sys2Proof.Machine.execSecVerifyDone s
  | .keystoneRestartDone revokes kicked ms => Sys2Proof.Machine.execKeystoneRestartDone revokes kicked ms s
  | .viaTxnReceive p h ty req paced tag parts n => Sys2Proof.Machine.execViaTxnReceive p h ty req paced tag parts n s
  | .viaRspReceive p h req tag r => Sys2Proof.Machine.execViaRspReceive p h req tag r s
  | .viaCmdReceive p h origin body => Sys2Proof.Machine.execViaCmdReceive p h origin body s
  | .viaLinkReceive p h reachKind head addr chainLen reach => Sys2Proof.Machine.execViaLinkReceive p h reachKind head addr chainLen reach s
  | .viaReachPeriodic p => Sys2Proof.Machine.execViaReachPeriodic p s
  | .viaEnumReceive p h token => Sys2Proof.Machine.execViaEnumReceive p h token s
  | .viaEndReceive p h count => Sys2Proof.Machine.execViaEndReceive p h count s
  | .viaLengthReceive p h len => Sys2Proof.Machine.execViaLengthReceive p h len s
  | .viaEnumTimeout => Sys2Proof.Machine.execViaEnumTimeout s
  | .viaSyncExchange stamps => Sys2Proof.Machine.execViaSyncExchange stamps s
  | .viaSyncReceive p h t1 => Sys2Proof.Machine.execViaSyncReceive p h t1 s
  | .viaFlitError p => Sys2Proof.Machine.execViaFlitError p s
  | .viaReplayTimeout p => Sys2Proof.Machine.execViaReplayTimeout p s
  | .viaFarEndDetect p lanes => Sys2Proof.Machine.execViaFarEndDetect p lanes s
  | .viaTrainEnd p lanes => Sys2Proof.Machine.execViaTrainEnd p lanes s
  | .viaCheckEnd p good head addr chainLen => Sys2Proof.Machine.execViaCheckEnd p good head addr chainLen s
  | .viaLaneError p lane lostLock => Sys2Proof.Machine.execViaLaneError p lane lostLock s
  | .viaRetrain req p => Sys2Proof.Machine.execViaRetrain req p s
  | .viaRxSilence p => Sys2Proof.Machine.execViaRxSilence p s
  | .viaRetrainTimeout p => Sys2Proof.Machine.execViaRetrainTimeout p s
  | .viaChainSideband p level => Sys2Proof.Machine.execViaChainSideband p level s
  | .registerWrite loc val => Sys2Proof.Machine.execRegisterWrite loc val s
  | .readClear loc => Sys2Proof.Machine.execReadClear loc s
  | .jtagTestLogicReset => Sys2Proof.Machine.execJtagTestLogicReset s
  | .extest cells => Sys2Proof.Machine.execExtest cells s
  | .samplePreload cells => Sys2Proof.Machine.execSamplePreload cells s
  | .idcode => Sys2Proof.Machine.execIdcode s
  | .clamp => Sys2Proof.Machine.execClamp s
  | .highz => Sys2Proof.Machine.execHighz s
  | .extestPulse cells => Sys2Proof.Machine.execExtestPulse cells s
  | .extestTrain cells => Sys2Proof.Machine.execExtestTrain cells s
  | .unlockCh => Sys2Proof.Machine.execUnlockCh s
  | .unlockTok token => Sys2Proof.Machine.execUnlockTok token s
  | .dbgStat => Sys2Proof.Machine.execDbgStat s
  | .dbgInsp write addr data => Sys2Proof.Machine.execDbgInsp write addr data s
  | .dbgKs write addr data => Sys2Proof.Machine.execDbgKs write addr data s
  | .fwRecov op addr words => Sys2Proof.Machine.execFwRecov op addr words s
  | .bypass => Sys2Proof.Machine.execBypass s
  | .resetRelease bifurc head => Sys2Proof.Machine.execResetRelease bifurc head s
  | .safeNRelease => Sys2Proof.Machine.execSafeNRelease s
  | .dlUp p speed width => Sys2Proof.Machine.execDlUp p speed width s
  | .aliveToggle => Sys2Proof.Machine.execAliveToggle s
  | .viaIdleReceive p h => Sys2Proof.Machine.execViaIdleReceive p h s
  | .railGood rail => Sys2Proof.Machine.execRailGood rail s
  | .regulatorSlewDone b => Sys2Proof.Machine.execRegulatorSlewDone b s

end Sys2Proof.Machine
end

