-- ==== Sys2Proof/Machine/Tick.lean ====
section
/-! DEFINITION. What one tick of 1.25 ns does while no command waits (DESIGN CHOICE, log entry 3). -/
namespace Sys2Proof.Machine

/-- The correction that this tick applies: at most one tick in any 1,024 (R78), and none that would pass a multiple of 10 µs unseen. -/
def Dev.slewNow (d : Dev) : Int :=
  if d.clk % 1024 != 0 || d.tbSlew = 0 then 0
  else if d.tbSlew < 0 then -1
  else if (d.tb.toNat + 1) % 8000 = 0 then 0 else 1

/-- The timebase after one tick (R78). -/
def Dev.advanceTb (d : Dev) : Dev :=
  if d.tbCounts then
    let c := d.slewNow
    { d with tb := d.tb + BitVec.ofInt 64 (1 + c), tbSlew := d.tbSlew - c }
  else d

/-- The events that the domains not on hold have acknowledged by now (R301, R303), and the levels that a bent's cells, which found no agreeing
pair, accept now (R300; one tick: DESIGN CHOICE, log entry 109). A budget request stays until the evaluation that takes it (R180). -/
def Dev.ackLines (d : Dev) : Dev :=
  let d1 := { d with xings := d.xings.map (fun e => (e.1, if e.2.hold || e.1 == domPower then e.2 else { e.2 with lines := [] })) }
  (d.xings.filter (fun e => e.2.frozen && !e.2.hold)).foldl (fun x e => x.takeLevels e.1) d1

/-- Every fill agent takes up what its bents have requested. -/
def Dev.agentsTake (d : Dev) : Dev :=
  let d1 := (d.bents.filter (fun e => !e.2.fills.isEmpty)).foldl (fun x e => x.takeFills e.1) d
  (d1.cores.filter (fun e => !e.2.pacedWants.isEmpty)).foldl (fun x e => x.takePaced e.1) d1

/-- A lease whose last 100 MHz tick ends with this one runs out; an acquisition that it refused in that tick is granted after all (R331,
R332). -/
def Dev.semTick (d : Dev) : Dev :=
  match d.sem.holder with
  | some p => if d.sem.expiry / 8 < (d.clk + 1) / 8 then d.semForce p 1#2 else d
  | none => d

/-- The last tick at which P1 was out of the question (R424). -/
def Dev.noteBusy (d : Dev) : Dev := if d.quietForP1 then d else d.onPwr (fun p => { p with busyAt := d.clk })

/-- What a tick does at the Viaduct ports: what waits is sent, then IDLE. -/
def Dev.viaTick (d : Dev) : Dev := (d.viaPump.viaIdle .up).viaIdle .dn

/-- One tick: the semaphore's lease, the clocks, the crossings, the fill agents, the reset in progress, the fault notices that no bent has taken yet
(R448), the Viaduct ports, a wake in progress, then whatever waited for a moment that has come. -/
def Dev.tick (d : Dev) : Dev := ({ d.semTick.advanceTb with clk := d.clk + 1 } : Dev).ackLines.agentsTake.i3cFlow.resetTry.notices.viaTick.noteBusy.modeCheck

/-- One tick. -/
def execTick (s : State) : Host.Outcome State Fault Refusal := s.commit (settleEff s.mem s.dev.tick.wakeOn)

end Sys2Proof.Machine
end

