-- ==== Sys2Proof/Safety.lean ====
section
/-! DEFINITION. What counts as a completed command, in the terms the statements use: when an instruction issues, what a completed
instruction may change, when a host command is taken. -/
namespace Sys2Proof.Machine

/-! ### Core instructions -/

/-- An instruction of core c with these needs issues now and is not the last word of code store: the core runs, nothing it needs is
outstanding (R131, R132, R149), a tracker entry is free (R132), no entry waits for its divide (R142), and its word stands, not poisoned, in
a line that the core can issue from (R134, R154, R246). -/
def Dev.issues (d : Dev) (c : CoreId) (n : Need) : Bool :=
  (d.core c.toNat).canIssue n && !d.stalls c.toNat && !(d.core c.toNat).atEnd
    && (match d.lineFor c.toNat (lineOf (d.core c.toNat).pc) with
        | some v => !v.getLsbD ((d.core c.toNat).pc.toNat % 16)
        | none => false)

/-- A core without its fetch structures, which decide when an instruction issues and never what it does. -/
def Core.arch (k : Core) : Core := { k with lineBuf := [], curLine := none, nextLine := none, reqLine := none }

/-- A bent without its line cache and the fills it has requested. -/
def Bent.arch (x : Bent) : Bent := { x with lineCache := [], fills := [] }

/-- Everything outside the cores and the bents but the PLUMB pins, which follow the signals that they show (R497). -/
def Dev.shared (d : Dev) : Dev := { d with cores := [], bents := [], plb := [] }

/-- From s to t, core c became k' and nothing else changed: no other core, no bent, no unit of the part, no memory cell, no waiting
command. Lines fetched ahead (R133, R134, R530) and the PLUMB pins (R496) are left out of the comparison. -/
def CoreOnly (s : State) (c : CoreId) (k' : Core) (t : State) : Prop :=
  t.pending = s.pending ∧ t.mem = s.mem ∧ (t.dev.core c.toNat).arch = k'.arch
    ∧ (∀ n, n ≠ c.toNat → t.dev.core n = s.dev.core n) ∧ (∀ b, (t.dev.bent b).arch = (s.dev.bent b).arch)
    ∧ t.dev.shared = s.dev.shared

/-- Core c completed an instruction: it is k' with the PC moved to pc', one more instruction issued, and a divide in EX told of it (R131);
nothing else changed. -/
def Completed (s : State) (c : CoreId) (n : Need) (k' : Core) (pc' : W32) (t : State) : Prop :=
  CoreOnly s c (k'.advance n pc') t

/-- From s to t core c became k', lines fetched ahead apart, and no other core, no memory cell and no waiting command changed. -/
def CoreMoved (s : State) (c : CoreId) (k' : Core) (t : State) : Prop :=
  t.pending = s.pending ∧ t.mem = s.mem ∧ (t.dev.core c.toNat).arch = k'.arch ∧ ∀ n, n ≠ c.toNat → t.dev.core n = s.dev.core n

/-- Core c completed an instruction with an access that the arbiter of a bank of its own bent granted (R33, R247): what waits there may have
been passed (R224, R225, R228), and nothing else changed. -/
def CompletedNear (s : State) (c : CoreId) (n : Need) (k' : Core) (pc' : W32) (t : State) : Prop :=
  let apart := fun (d : Dev) => { d.shared with near := [], txns := [], spans := [] }
  let unpassed := fun (u : Txn) => { u with passed := 0, passedBy := [], delayed := false }
  CoreMoved s c (k'.advance n pc') t ∧ (∀ b, (t.dev.bent b).arch = (s.dev.bent b).arch) ∧ apart t.dev = apart s.dev
    ∧ t.dev.txns.map unpassed = s.dev.txns.map unpassed
    ∧ ∀ n, ({ t.dev.span n with targets := [] } : Span) = { s.dev.span n with targets := [] }

/-- From s to t core c took a trap of its instruction at pc (R64): stopped, its record valid, its registers and flags as they were, its bent's
core-trap source raised; no memory cell and no waiting command changed, and no other core, but for the vector line registers of one whose
armed switch was due at the return of a source that the stopped core was offered (R468). -/
def Trapped (s : State) (c : CoreId) (pc : W32) (r : TrapRec) (t : State) : Prop :=
  let k := s.dev.core c.toNat
  let k' := t.dev.core c.toNat
  t.pending = s.pending ∧ t.mem = s.mem ∧ k'.status = .stopped ∧ k'.trap = { r with valid := true, pc := pc } ∧ k'.pc = pc
    ∧ k'.regs = k.regs ∧ k'.psr = k.psr
    ∧ (∀ n, n ≠ c.toNat → ({ t.dev.core n with vecLines := [] } : Core) = { s.dev.core n with vecLines := [] })
    ∧ ∃ x ∈ t.dev.flt.raises, x.src = bentOf c.toNat ∧ x.inst = bentOf c.toNat

/-- Whether the offer standing to running core c, if any, stands with PSR.I at i (R198, R199). -/
def Dev.offerStands (d : Dev) (c : CoreId) (i : Bool) : Bool :=
  match d.offeredTo (bentOf c.toNat) (slotOf c.toNat) with
  | none => true
  | some n => i && d.isCandidate (bentOf c.toNat) n (slotOf c.toNat) && d.mayPreempt (bentOf c.toNat) n (d.core c.toNat).psr.curPri.toNat

/-- Core c completed an instruction and the source offered to it went back to PENDING (R198); nothing else changed. -/
def CompletedOfferBack (s : State) (c : CoreId) (n : Need) (k' : Core) (pc' : W32) (t : State) : Prop :=
  ∃ u m, Completed s c n k' pc' u ∧ s.dev.offeredTo (bentOf c.toNat) (slotOf c.toNat) = some m
    ∧ t = { u with dev := u.dev.onSource (bentOf c.toNat) m (fun x => { x with st := .pending }) }

/-- A command takes s to the state in which the device is d, with the PLUMB pins that have followed their signals there (R497), and nothing else
changed. -/
def Yields (s : State) (i : Instr) (d : Dev) : Prop := exec i s = .next { s with dev := d.seen s.dev }

/-! ### The Deck -/

/-- A target grants transaction t, numbered id, now: it is the one with its number, waits, is not turned away for the target's fill (R229), and no
other has precedence (R224, R225, R233). Keystone's own are granted within its commands. -/
def Dev.grants (d : Dev) (id : Nat) (t : Txn) : Bool :=
  d.txn id == some t && t.waits && !t.overfull && !t.byKeystone && d.mayGrant t

/-- The Deck takes a transaction straight to its target: none waits at an arbiter on its way or for a tracker entry (R235), no target's
buffer is full (R227), and the abutment is up (R236). -/
def Dev.freeWay (d : Dev) : Prop :=
  (∀ t ∈ d.txns, t.onWay = false ∧ t.st ≠ .queued) ∧ (∀ g, d.fillAt g < 64) ∧ d.abutmentDown = false

/-- No transaction is under way on the Deck and no access waits for a bank of its own bent, the abutment is up (R236), and no target's threshold
is 0 (a threshold reads 8 to 56, R239). -/
def Dev.deckIdle (d : Dev) : Prop := d.txns = [] ∧ d.near = [] ∧ d.abutmentDown = false ∧ ∀ g, 0 < d.highAt g

/-- A device without what transactions leave behind: their numbers, the counts of cells and centre requesters, the spans, the PLUMB pins. -/
def Dev.offDeck (d : Dev) : Dev := { d with nextId := 0, chans := [], creqs := [], spans := [], near := [], plb := [] }

/-- e is d after transactions of Keystone came and went on an idle Deck: only their numbers and the counts of cells, requesters and targets
differ, and P1 ended with them (R425). -/
def Dev.afterDeck (d e : Dev) : Prop :=
  e.offDeck = d.leaveP1.offDeck ∧ ∀ n, ({ e.span n with targets := [] } : Span) = { d.span n with targets := [] }

/-- A transaction of a port word k of queue n, which is enabled and whose span is awake (R283). -/
def Dev.atPort (d : Dev) (t : Txn) (n k : Nat) : Bool :=
  t.ty == .qop && t.addr.toNat == quePortAddr n k && decide (n < 1024) && decide (k < 11) && (d.queue n).en
    && !(d.span (n / 128)).asleep

/-- The code that a bent's request becomes when n is asked for (R175, R187). -/
def Scribe.asked (a : Scribe) (n : Nat) : Nat := if a.unable then 100 else max a.floor.toNat (min 100 n)

/-- A queue gives no notice of its items, neither to a bent nor to a host (R292). -/
def Queue.silent (q : Queue) : Prop := q.biuEn = false ∧ q.msiEn = false

/-- Nothing waits in Keystone for a moment inside the part. -/
def Dev.calm (d : Dev) : Prop := d.ks.jobs = []

/-- From s to t the cores, the bents, the timebase, the modes, the power state, the fault collector and the security engine stand as they were,
and so does every waiting command. -/
def SameUnits (s t : State) : Prop :=
  t.pending = s.pending ∧ t.dev.cores = s.dev.cores ∧ t.dev.bents = s.dev.bents ∧ t.dev.tb = s.dev.tb ∧ t.dev.mode = s.dev.mode
    ∧ t.dev.pwr = s.dev.pwr ∧ t.dev.flt = s.dev.flt ∧ t.dev.sec = s.dev.sec

/-! ### Command packets -/

/-- From s to t no memory cell, no waiting command and no core changed. -/
def Keeps (s t : State) : Prop := t.mem = s.mem ∧ t.pending = s.pending ∧ t.dev.cores = s.dev.cores

/-- Whether a source of commands holds the semaphore for its commands: a port by holding it, a unit of the chain by its being free here
(R330, R371). -/
def Dev.owns (d : Dev) : CmdSrc → Prop
  | .port p => d.sem.holder = some p
  | .fwd _ _ => d.sem.holder = none

/-- A request of a source that Keystone takes now (R339, R342): it waits, it is its turn, no command is being served or under way, and no
sleep is being negotiated, and no debugger has halted Keystone (R494). -/
def Dev.takes (d : Dev) (src : CmdSrc) : Prop :=
  d.ks.jobs = [] ∧ d.pwr.nego = none ∧ d.keystoneUp = true ∧ d.pwr.pstate.toNat < 2 ∧ d.waiting src = true ∧ d.itsTurn src = true
    ∧ (∀ t ∈ d.txns, t.byKeystone = false) ∧ d.ks.halted = false ∧ d.ks.prog = none

/-- A request of a source whose command, of an opcode, Keystone has begun, and goes on with now: it has waited for the Deck or for the security
engine (R235, R466). -/
def Dev.resumes (d : Dev) (src : CmdSrc) (op : Nat) : Prop :=
  d.ks.jobs = [] ∧ d.pwr.nego = none ∧ d.keystoneUp = true ∧ d.pwr.pstate.toNat < 2 ∧ d.waiting src = true
    ∧ (∀ t ∈ d.txns, t.byKeystone = false) ∧ d.ks.halted = false ∧ d.begun src = true ∧ d.opcode src = op

/-- The security engine is free: it serves nothing, no counter is being advanced, and none of its reads is under way (R461, R466). -/
def Dev.engineIdle (d : Dev) : Prop := d.engineBusy = false ∧ ∀ t ∈ d.txns, t.origin ≠ .engine

/-- The security engine has read what it was to read for a command of a source, and met no bad word. -/
def Dev.engineReady (d : Dev) (src : CmdSrc) : Prop :=
  d.sec.busy = true ∧ d.sec.subject = some src ∧ d.engineDone = true ∧ d.sec.rdBad = none

/-- A command of a source has been served: the next turn begins behind its place (R342). -/
def Dev.taken (d : Dev) (src : CmdSrc) : Dev := d.onKs (fun k => { k with served := placeOfSrc src, prog := none })

/-- Command i of a source has its Deck accesses granted and then does f, which answers it. -/
def Serves (s : State) (i : Instr) (src : CmdSrc) (f : Dev → Dev) : Prop :=
  ∃ e, s.dev.afterDeck e ∧ exec i s = .next { s with dev := ((f e).taken src).seen s.dev }

/-- A request of a source that Keystone takes and that passes the checks which R343 has before those of the command itself: the header, the unit, the
opcode, the length, the flags, the mode, the semaphore, the reaction of a STOP latch. -/
def Dev.admits (d : Dev) (src : CmdSrc) (c : CmdSpec) : Prop :=
  d.takes src ∧ d.reqWord src 3 = 0#32 ∧ d.lenWord src % 4 = 0 ∧ d.lenWord src ≤ 4080 ∧ d.isOwn src = true ∧ d.opcode src = c.op
    ∧ c.len (d.lenWord src) (fun i => (d.pay8 src i).toNat) = true ∧ d.flagsByte src < 4 ∧ (d.flagsByte src % 2 = 1 → c.bulk = true)
    ∧ d.mode.mode ∈ c.modes ∧ (c.changes = true → d.owns src) ∧ (c.changes = true → c.excepted = false → d.flt.atLeast 4 = false)

/-- In t the command that s has at a source is answered: at a port, with its reply buffer filled and BUSY cleared; for a forwarded request, with
its slot free. -/
def Replied (s t : State) (src : CmdSrc) (st det : BitVec 16) (ws : List W32) : Prop :=
  match src with
  | .port p =>
    let x := t.dev.port p
    x.busy = false ∧ x.done = true ∧ Tab.find 0#32 x.repBuf 0 = (det ++ st : BitVec 32) ∧ Tab.find 0#32 x.repBuf 1 = s.dev.seqWord src
      ∧ Tab.find 0#32 x.repBuf 2 = BitVec.ofNat 32 (4 * ws.length) ∧ ∀ i, i < ws.length → Tab.find 0#32 x.repBuf (4 + i) = ws.getD i 0#32
  | .fwd u p => ∀ f ∈ t.dev.ks.fwd, ¬ (f.unit = u ∧ f.port = p)

/-- B0HOST lets a write of requester rid to a control page through: it is 0, or the requester is the one of PCI_HOSTRID; the I3C target has no
requester IDs (R322). -/
def Dev.hostMay (d : Dev) (p : Port) (rid : BitVec 16) : Bool :=
  !(d.isPcie p && (d.port p).b0host && rid != (d.port p).hostRid.getD 0#16)

/-- In t the only ACCEPTED command has ended, at port p, with a status and a detail. -/
def Ended (t : State) (p : Port) (st det : BitVec 16) : Prop :=
  t.dev.ks.jobs = [] ∧ (t.dev.port p).arun = false ∧ (t.dev.port p).adone = true ∧ (t.dev.port p).ares = (st ++ det : BitVec 32)

/-! ### The Viaduct -/

/-- A flit comes in sequence at a port that is UP (R383). -/
def Dev.inOrder (d : Dev) (p : ViaPort) (h : FlitHdr) : Prop := (d.via p).st = .up ∧ h.seq = (d.via p).nextRx

/-- A flit with a body is on its way over a port: it waits in front of it, or is in the transmit ledger (R383, R384). -/
def Via.carries (v : Via) (body : FlitBody) : Prop := ∃ f ∈ v.queued ++ v.ledger, f.body = body

/-- A raise of a source by an instance is on its way to the collector. -/
def Dev.raising (d : Dev) (src inst : Nat) : Prop := ∃ r ∈ d.flt.raises, r.src = src ∧ r.inst = inst

/-! ### Forms of the core instructions, as the tables of 03_instruction_set.md list them -/

/-- A register-register instruction of tagged mode: its command, its class (R56), its kind pairs (R99, R106) and its computation. -/
abbrev PairForm := (CoreId → Reg → Reg → Reg → Instr) × Cls × Pairs × (W32 → W32 → Res)

/-- The register-register arithmetic of tagged mode, the divide and the multiply-accumulate apart (R99). -/
def pairForms : List PairForm :=
  [(.add, .additive, .add, addRes), (.addf, .additive, .fixed, addRes), (.addfs, .additive, .fixed, addSatRes),
   (.sub, .additive, .sub, subRes), (.subf, .additive, .fixed, subRes), (.subfs, .additive, .fixed, subSatRes),
   (.mul, .multiply, .mul, mulRes), (.mulf, .multiply, .fixed, mulfRes), (.mulfs, .multiply, .fixed, mulfsRes)]

/-- The arithmetic of tagged mode with an immediate (R99). -/
def immForms : List ((CoreId → Reg → Reg → BitVec 15 → Instr) × Cls × Pairs × (W32 → W32 → Res)) :=
  [(.addi, .additive, .add, addRes), (.subi, .additive, .add, subRes), (.muli, .multiply, .mul, mulRes)]

/-- The bitwise instructions of tagged mode on two registers, and with an immediate (R106). -/
def logicForms : List ((CoreId → Reg → Reg → Reg → Instr) × (W32 → W32 → W32)) :=
  [(.and, (· &&& ·)), (.or, (· ||| ·)), (.xor, (· ^^^ ·))]
def logicImmForms : List ((CoreId → Reg → Reg → BitVec 15 → Instr) × (W32 → W32 → W32)) :=
  [(.andi, (· &&& ·)), (.ori, (· ||| ·)), (.xori, (· ^^^ ·))]

/-- The shifts of tagged mode by a register, and by an immediate (R106). -/
def shiftForms : List ((CoreId → Reg → Reg → Reg → Instr) × (W32 → Nat → W32)) :=
  [(.shl, (· <<< ·)), (.shr, (· >>> ·)), (.sar, fun a n => a.sshiftRight n)]
def shiftImmForms : List ((CoreId → Reg → Reg → BitVec 15 → Instr) × (W32 → Nat → W32)) :=
  [(.shli, (· <<< ·)), (.shri, (· >>> ·)), (.sari, fun a n => a.sshiftRight n)]

/-- The byte instructions of compact mode on two registers: the flags written, whether C is read, the computation (R121). -/
def byteForms : List ((CoreId → Reg → Reg → Reg → Instr) × BitVec 4 × Bool × (Byte → Byte → Bool → Res8)) :=
  [(.add, wNZVC, false, fun a b _ => add8 a b false), (.adc, wNZVC, true, add8),
   (.sub, wNZVC, false, fun a b _ => sub8 a b false), (.sbc, wNZVC, true, sub8),
   (.and, 14#4, false, fun a b c => logic8 (a &&& b) c), (.or, 14#4, false, fun a b c => logic8 (a ||| b) c),
   (.xor, 14#4, false, fun a b c => logic8 (a ^^^ b) c),
   (.shl, wNZVC, false, fun a b c => shl8 a (b.toNat % 8) c), (.shr, wNZVC, false, fun a b c => shr8 a (b.toNat % 8) c),
   (.sar, wNZVC, false, fun a b c => sar8 a (b.toNat % 8) c)]

/-- The byte instructions of compact mode with a byte immediate (R120, R121). -/
def byteImmForms : List ((CoreId → Reg → Reg → BitVec 15 → Instr) × BitVec 4 × (Byte → Byte → Bool → Res8)) :=
  [(.addi, wNZVC, fun a b _ => add8 a b false), (.subi, wNZVC, fun a b _ => sub8 a b false),
   (.andi, 14#4, fun a b c => logic8 (a &&& b) c), (.ori, 14#4, fun a b c => logic8 (a ||| b) c),
   (.xori, 14#4, fun a b c => logic8 (a ^^^ b) c)]

/-- The shifts of compact mode by an immediate below 8 (R120, R121). -/
def byteShiftForms : List ((CoreId → Reg → Reg → BitVec 15 → Instr) × (Byte → Nat → Bool → Res8)) :=
  [(.shli, shl8), (.shri, shr8), (.sari, sar8)]

/-- The instructions of tagged mode whose operands' tags are checked, each with its needs and what its check says of them: arithmetic (R99,
R102), the compares (R103, R105), the bitwise instructions and the shifts (R106). -/
def Dev.tagChecks (d : Dev) (c : CoreId) (rd ra rb : Reg) (imm : BitVec 15) (fn : BitVec 10) : List (Instr × Need × Except TrapRec Byte) :=
  let k := d.core c.toNat
  let x := d.bentFor c
  let a := fun cls : Cls => (k.source cls ra.toNat rb.toNat).tag
  let b := fun cls : Cls => (k.source cls rb.toNat ra.toNat).tag
  let u := (k.lone ra.toNat).tag
  let mac := checkMac x (k.sourceMac ra.toNat rb.toNat rd.toNat).tag (k.sourceMac rb.toNat ra.toNat rd.toNat).tag
    (k.sourceMac rd.toNat ra.toNat rb.toNat).tag
  let codes : List Nat := [1, 2, 3, 4, 5, 6, 11, 12]
  pairForms.map (fun e => (e.1 c rd ra rb, need2 rd ra rb wNZVC, checkPair x e.2.1 e.2.2.1 false (a e.2.1) (b e.2.1)))
    ++ immForms.map (fun e => (e.1 c rd ra imm, need1 rd ra wNZVC, checkPair x e.2.1 e.2.2.1 false u (immTag e.2.1 u)))
    ++ [(.macf c rd ra rb, needMac rd ra rb, mac), (.macfs c rd ra rb, needMac rd ra rb, mac),
        (.div c rd ra rb, needDiv rd ra rb, checkPair x .divide .div false (a .divide) (b .divide)),
        (.divf c rd ra rb, needDiv rd ra rb, checkPair x .divide .fixed false (a .divide) (b .divide)),
        (.cmp c ra rb, needCmp ra rb, checkPair x .compare .cmp false (a .compare) (b .compare)),
        (.cmpi c ra imm, { reads := [ra.toNat], wrFlags := wNZVC }, checkPair x .compare .cmp false u (immTag .compare u)),
        (.not c rd ra, need1 rd ra wNZ, checkOne notKinds 0#4 false u)]
    ++ (if fn.toNat ∈ codes then [(.cset c rd ra rb fn, need2 rd ra rb 0#4,
          checkPair x .compare .cmp (decide (2 < fn.toNat)) (a .compare) (b .compare))] else [])
    ++ logicForms.map (fun e => (e.1 c rd ra rb, need2 rd ra rb wNZ, checkPair x .logical .logic false (a .logical) (b .logical)))
    ++ logicImmForms.map (fun e => (e.1 c rd ra imm, need1 rd ra wNZ, checkPair x .logical .logic false u (immTag .logical u)))
    ++ shiftForms.map (fun e => (e.1 c rd ra rb, need2 rd ra rb wNZ, checkShift (a .shift) (b .shift)))
    ++ (if imm.toNat < 32 then shiftImmForms.map (fun e => (e.1 c rd ra imm, need1 rd ra wNZ, checkShift u tagInt)) else [])

end Sys2Proof.Machine
end

