-- ==== Sys2Proof/Certificates/Slice0/Obligations.lean ====
section
/-! DEFINITION. The statements for the provers. A core instruction's statement gives the whole next state: Completed says what the core
becomes and that nothing else changes (its frame); Yields gives the device. -/

open Sys2Proof Sys2Proof.Machine

/-! ### The queue of commands, time, memory -/

/-- A step executes the command at the front of the queue on the state with the queue's rest. -/
def Obligations.StepTakesFront : Prop :=
  ∀ (c : Instr) (rest : List Instr) (s : State), step { s with pending := c :: rest } = exec c { s with pending := rest }

/-- Every command answers a next state, and no command touches the queue: what waits is taken by steps alone. -/
def Obligations.CommandsLeaveTheQueue : Prop :=
  ∀ (i : Instr) (s : State), ∃ t, exec i s = .next t ∧ t.pending = s.pending

/-- Memory keeps its canonical form over every step, whatever the state (tier 3). -/
def Obligations.StepKeepsMemoryCanonical : Prop :=
  ∀ s t : State, Memory.wf s.mem = true → step s = .next t → Memory.wf t.mem = true

/-- The machine right after reset: memory canonical with nothing listed and no command waiting; mode BOOT (R397, R417), every core GATED
(R28), timebase 0 (R78), no loop bound, no fault latched, the Viaduct ports DOWN (R377), the semaphore free (R331). The port's and
buffers' values that the spec leaves open are no part of it. -/
def Obligations.ResetState : Prop :=
  Memory.wf State.reset.mem = true ∧ State.reset.pending = [] ∧ State.reset.dev.mode.mode = mBoot
    ∧ (∀ c, (State.reset.dev.core c).status = .gated) ∧ State.reset.dev.tb = 0#64 ∧ State.reset.dev.ks.loops = []
    ∧ State.reset.dev.flt.valid = false ∧ State.reset.dev.chain.up.st = .down ∧ State.reset.dev.chain.dn.st = .down
    ∧ State.reset.dev.sem.holder = none

/-- On an empty queue a step is one tick of 1.25 ns (the model's choice, DESIGN CHOICE, log entry 3), and the timebase, while it counts (out
of reset, in P0 and P1, and in a wake from its step 2, R434) and has no correction left, moves by one (R78). -/
def Obligations.EmptyQueueTicks : Prop :=
  ∀ s : State, s.pending = [] → ∃ t, step s = .next t ∧ t.dev.clk = s.dev.clk + 1 ∧ t.pending = []
    ∧ (s.dev.tbSlew = 0 →
      t.dev.tb = if s.dev.pwr.inReset = false ∧ (s.dev.pwr.pstate.toNat < 2 ∨ 2 ≤ s.dev.pwr.wakeStep) then s.dev.tb + 1#64 else s.dev.tb)

/-- A write of a word changes the lanes that its mask names and, where it says so, the tag; every other byte of every memory reads as before
(R217, R244). -/
def Obligations.WordWriteFrame : Prop :=
  ∀ (m : List Host.Cell) (w : Nat) (lanes : BitVec 4) (tagWr : Bool) (x : Word), Memory.wf m = true →
    (∀ i, i < 4 → Memory.get ((MemOp.word w lanes tagWr x).apply m) (8 * w + i)
      = if lanes.getLsbD i then laneOf x.pay i else Memory.get m (8 * w + i))
    ∧ Memory.get ((MemOp.word w lanes tagWr x).apply m) (8 * w + 4) = (if tagWr then x.tag else Memory.get m (8 * w + 4))
    ∧ ∀ k, k < 8 * w ∨ 8 * w + 5 ≤ k → Memory.get ((MemOp.word w lanes tagWr x).apply m) k = Memory.get m k

/-! ### Core arithmetic (03_instruction_set.md) -/

/-- ADD, ADDF, ADDFS, SUB, SUBF, SUBFS, MUL, MULF and MULFS in tagged mode whose tag check passes (with T 0 none is made): the result and
its tag go to rd, all four flags are written, the PC advances; g0 as destination discards the result and still writes the flags. ADDI, SUBI
and MULI in tagged mode: the immediate is sign-extended and takes its tag from the register operand (R59, R93). MACF and MACFS in tagged
mode: the destination is a source too, its tag is the result's, and the sum of d and the product shifted right by 16 is wrapped or saturated
(R102). -/
def Obligations.TaggedArithmeticCompletes : Prop :=
  (∀ e ∈ pairForms, ∀ (c : CoreId) (rd ra rb : Reg) (s : State) (tr : Byte),
     let k := s.dev.core c.toNat
     let a := k.source e.2.1 ra.toNat rb.toNat
     let b := k.source e.2.1 rb.toNat ra.toNat
     s.dev.issues c (need2 rd ra rb wNZVC) = true → k.psr.compact = false →
     k.checked (checkPair (s.dev.bentFor c) e.2.1 e.2.2.1 false a.tag b.tag) = .ok tr →
     ∃ t, exec (e.1 c rd ra rb) s = .next t
       ∧ Completed s c (need2 rd ra rb wNZVC) (k.putRes rd tr (e.2.2.2 a.pay b.pay)) (k.pc + 1#32) t)
  ∧ (∀ e ∈ immForms, ∀ (c : CoreId) (rd ra : Reg) (imm : BitVec 15) (s : State) (tr : Byte),
       let k := s.dev.core c.toNat
       let a := k.lone ra.toNat
       s.dev.issues c (need1 rd ra wNZVC) = true → k.psr.compact = false →
       k.checked (checkPair (s.dev.bentFor c) e.2.1 e.2.2.1 false a.tag (immTag e.2.1 a.tag)) = .ok tr →
       ∃ t, exec (e.1 c rd ra imm) s = .next t
         ∧ Completed s c (need1 rd ra wNZVC) (k.putRes rd tr (e.2.2.2 a.pay (imm.signExtend 32))) (k.pc + 1#32) t)
  ∧ (∀ e ∈ ([(.macf, wrap32), (.macfs, sat32)] : List ((CoreId → Reg → Reg → Reg → Instr) × (Int → W32))),
     ∀ (c : CoreId) (rd ra rb : Reg) (s : State) (tr : Byte),
       let k := s.dev.core c.toNat
       let a := k.sourceMac ra.toNat rb.toNat rd.toNat
       let b := k.sourceMac rb.toNat ra.toNat rd.toNat
       let d := k.sourceMac rd.toNat ra.toNat rb.toNat
       let exact := d.pay.toInt + (a.pay.toInt * b.pay.toInt) / 65536
       s.dev.issues c (needMac rd ra rb) = true → k.psr.compact = false →
       k.checked (checkMac (s.dev.bentFor c) a.tag b.tag d.tag) = .ok tr →
       ∃ t, exec (e.1 c rd ra rb) s = .next t
         ∧ Completed s c (needMac rd ra rb) (k.putRes rd tr (e.2 exact, exactFlags (e.2 exact) exact)) (k.pc + 1#32) t)

/-- What the arithmetic computes (R97 to R100): sums and differences modulo 2^32 with overflow by the signs and carry or borrow out of bit 31;
the saturating forms at the ends of the range; MUL bits [31:0] and MULF bits [47:16] of the signed 64-bit product; MULFS the same shifted
product where it fits. -/
def Obligations.ArithmeticResults : Prop :=
  ∀ a b : W32,
    (addRes a b).1 = a + b ∧ (addRes a b).2.n = (a + b).msb ∧ (addRes a b).2.z = (a + b == 0#32)
    ∧ (addRes a b).2.v = (a.msb == b.msb && (a + b).msb != a.msb) ∧ (addRes a b).2.c = BitVec.carry 32 a b false
    ∧ (subRes a b).1 = a - b ∧ (subRes a b).2.v = (a.msb != b.msb && (a - b).msb != a.msb) ∧ (subRes a b).2.c = a.ult b
    ∧ (addSatRes a b).1 = (if (addRes a b).2.v then (if a.msb then 0x80000000#32 else 0x7FFFFFFF#32) else a + b)
    ∧ (subSatRes a b).1 = (if (subRes a b).2.v then (if a.msb then 0x80000000#32 else 0x7FFFFFFF#32) else a - b)
    ∧ (addSatRes a b).2.v = (addRes a b).2.v ∧ (addSatRes a b).2.c = (addRes a b).2.c
    ∧ (mulRes a b).1 = a * b ∧ (mulRes a b).2.c = false
    ∧ (mulfRes a b).1 = (a.signExtend 64 * b.signExtend 64).extractLsb' 16 32
    ∧ ((mulfRes a b).2.v = false → (mulfsRes a b).1 = (mulfRes a b).1)

/-- DIV and DIVF make every check of their operands, whatever the divisor; a divide that breaks one traps. One that passes them all enters
EX with its result: a divisor payload of 0 gives payload 0 and V, with tag E0h while T is 1 and RAW while it is 0 (R101); else the quotient,
truncated toward zero and saturated (R99, R100). No register and no flag is written yet (R141). DIV_COMPLETE of a divide in EX: its register
is written with the result, N, Z, V and C with those of its flags that no younger instruction has written, and the divider is free; nothing
else of the part changes (R97, R131, R141). -/
def Obligations.DividesComplete : Prop :=
  (∀ e ∈ ([(.div, Pairs.div, 1), (.divf, Pairs.fixed, 65536)] : List ((CoreId → Reg → Reg → Reg → Instr) × Pairs × Int)),
   ∀ (c : CoreId) (rd ra rb : Reg) (s : State),
     let k := s.dev.core c.toNat
     let a := k.source .divide ra.toNat rb.toNat
     let b := k.source .divide rb.toNat ra.toNat
     let exact := (a.pay.toInt * e.2.2).tdiv b.pay.toInt
     let zero := b.pay = 0#32
     let check := k.checked (checkPair (s.dev.bentFor c) .divide e.2.1 false a.tag b.tag)
     s.dev.issues c (needDiv rd ra rb) = true → k.psr.compact = false →
     (∀ r, check = .error r → k.drained = true → Yields s (e.1 c rd ra rb) (s.dev.takeTrap c.toNat k.pc r))
     ∧ (∀ tr, check = .ok tr →
       ∃ t v, exec (e.1 c rd ra rb) s = .next t
         ∧ Completed s c (needDiv rd ra rb) { k with div := some v } (k.pc + 1#32) t
         ∧ v.rd = rd ∧ v.pc = k.pc ∧ v.flagsLive = 15#4 ∧ v.younger = false
         ∧ (zero → v.res = { pay := 0#32, tag := if k.psr.t then 0xE0#8 else 0x00#8 } ∧ v.v = true)
         ∧ (¬ zero → v.res = { pay := sat32 exact, tag := tr } ∧ v.v = !fits32 exact)))
  ∧ (∀ (c : CoreId) (s : State) (v : DivEntry), (s.dev.core c.toNat).div = some v →
       ∃ t, exec (.divComplete c) s = .next t ∧
         let k := s.dev.core c.toNat
         let w := v.flagsLive
         let psr := { k.psr with
           n := if w.getLsbD 3 then v.res.pay.msb else k.psr.n, z := if w.getLsbD 2 then v.res.pay == 0#32 else k.psr.z
           v := if w.getLsbD 1 then v.v else k.psr.v, c := if w.getLsbD 0 then false else k.psr.c }
         CoreOnly s c (({ k with div := none, psr := psr } : Core).setReg v.rd.toNat v.res) t)

/-! ### Compare, logic, shifts, moves -/

/-- CMP, CMPI and CSET in tagged mode: the compares write the flags and no register; CSET writes 1 or 0 with tag A0h (RAW while T is 0) and no
flag (R103, R105). -/
def Obligations.ComparesComplete : Prop :=
  (∀ (c : CoreId) (ra rb : Reg) (s : State) (tr : Byte),
    let k := s.dev.core c.toNat
    let a := k.source .compare ra.toNat rb.toNat
    let b := k.source .compare rb.toNat ra.toNat
    s.dev.issues c (needCmp ra rb) = true → k.psr.compact = false →
    k.checked (checkPair (s.dev.bentFor c) .compare .cmp false a.tag b.tag) = .ok tr →
    ∃ t, exec (.cmp c ra rb) s = .next t ∧ Completed s c (needCmp ra rb) (k.setFlags (cmpFlags a b)) (k.pc + 1#32) t)
  ∧ (∀ (c : CoreId) (ra : Reg) (imm : BitVec 15) (s : State) (tr : Byte),
    let k := s.dev.core c.toNat
    let a := k.lone ra.toNat
    let b : Word := { pay := imm.signExtend 32, tag := immTag .compare a.tag }
    let n : Need := { reads := [ra.toNat], wrFlags := wNZVC }
    s.dev.issues c n = true → k.psr.compact = false →
    k.checked (checkPair (s.dev.bentFor c) .compare .cmp false a.tag b.tag) = .ok tr →
    ∃ t, exec (.cmpi c ra imm) s = .next t ∧ Completed s c n (k.setFlags (cmpFlags a b)) (k.pc + 1#32) t)
  ∧ (∀ (c : CoreId) (rd ra rb : Reg) (fn : BitVec 10) (s : State) (tr : Byte),
    let k := s.dev.core c.toNat
    let a := k.source .compare ra.toNat rb.toNat
    let b := k.source .compare rb.toNat ra.toNat
    s.dev.issues c (need2 rd ra rb 0#4) = true → k.psr.compact = false →
    fn.toNat ∈ [1, 2, 3, 4, 5, 6, 11, 12] →
    k.checked (checkPair (s.dev.bentFor c) .compare .cmp (decide (2 < fn.toNat)) a.tag b.tag) = .ok tr →
    ∃ t, exec (.cset c rd ra rb fn) s = .next t
      ∧ Completed s c (need2 rd ra rb 0#4)
        (k.setReg rd.toNat { pay := if condHolds (fn.setWidth 5) (cmpFlags a b) then 1#32 else 0#32,
                             tag := if k.psr.t then 0xA0#8 else 0x00#8 }) (k.pc + 1#32) t)

/-- AND, OR, XOR, ANDI, ORI, XORI and NOT in tagged mode: N and Z are written, V and C stay; on BOOL operands bit 0 alone is kept (R97,
R106, R107). SHL, SHR, SAR by the low five bits of a register and SHLI, SHRI, SARI by an immediate below 32, in tagged mode: N and Z are
written, V and C stay (R93, R97, R106). -/
def Obligations.LogicAndShiftsComplete : Prop :=
  ((∀ e ∈ logicForms, ∀ (c : CoreId) (rd ra rb : Reg) (s : State) (tr : Byte),
     let k := s.dev.core c.toNat
     let a := k.source .logical ra.toNat rb.toNat
     let b := k.source .logical rb.toNat ra.toNat
     let r := e.2 a.pay b.pay
     s.dev.issues c (need2 rd ra rb wNZ) = true → k.psr.compact = false →
     k.checked (checkPair (s.dev.bentFor c) .logical .logic false a.tag b.tag) = .ok tr →
     ∃ t, exec (e.1 c rd ra rb) s = .next t
       ∧ Completed s c (need2 rd ra rb wNZ)
         (k.putNZ rd tr (if kindOf a.tag = 5 ∧ kindOf b.tag = 5 then r &&& 1#32 else r)) (k.pc + 1#32) t)
   ∧ (∀ e ∈ logicImmForms, ∀ (c : CoreId) (rd ra : Reg) (imm : BitVec 15) (s : State) (tr : Byte),
     let k := s.dev.core c.toNat
     let a := k.lone ra.toNat
     let r := e.2 a.pay (imm.setWidth 32)
     s.dev.issues c (need1 rd ra wNZ) = true → k.psr.compact = false →
     k.checked (checkPair (s.dev.bentFor c) .logical .logic false a.tag (immTag .logical a.tag)) = .ok tr →
     ∃ t, exec (e.1 c rd ra imm) s = .next t
       ∧ Completed s c (need1 rd ra wNZ)
         (k.putNZ rd tr (if kindOf a.tag = 5 then r &&& 1#32 else r)) (k.pc + 1#32) t)
   ∧ (∀ (c : CoreId) (rd ra : Reg) (s : State) (tr : Byte),
     let k := s.dev.core c.toNat
     let a := k.lone ra.toNat
     s.dev.issues c (need1 rd ra wNZ) = true → k.psr.compact = false →
     k.checked (checkOne notKinds 0#4 false a.tag) = .ok tr →
     ∃ t, exec (.not c rd ra) s = .next t
       ∧ Completed s c (need1 rd ra wNZ)
         (k.putNZ rd tr (if kindOf a.tag = 5 then (~~~ a.pay) &&& 1#32 else ~~~ a.pay)) (k.pc + 1#32) t))
  ∧ ((∀ e ∈ shiftForms, ∀ (c : CoreId) (rd ra rb : Reg) (s : State) (tr : Byte),
       let k := s.dev.core c.toNat
       let a := k.source .shift ra.toNat rb.toNat
       let b := k.source .shift rb.toNat ra.toNat
       s.dev.issues c (need2 rd ra rb wNZ) = true → k.psr.compact = false →
       k.checked (checkShift a.tag b.tag) = .ok tr →
       ∃ t, exec (e.1 c rd ra rb) s = .next t
         ∧ Completed s c (need2 rd ra rb wNZ) (k.putNZ rd tr (e.2 a.pay (b.pay.setWidth 5).toNat)) (k.pc + 1#32) t)
     ∧ (∀ e ∈ shiftImmForms, ∀ (c : CoreId) (rd ra : Reg) (imm : BitVec 15) (s : State) (tr : Byte),
       let k := s.dev.core c.toNat
       let a := k.lone ra.toNat
       s.dev.issues c (need1 rd ra wNZ) = true → k.psr.compact = false → imm.toNat < 32 →
       k.checked (checkShift a.tag tagInt) = .ok tr →
       ∃ t, exec (e.1 c rd ra imm) s = .next t
         ∧ Completed s c (need1 rd ra wNZ) (k.putNZ rd tr (e.2 a.pay imm.toNat)) (k.pc + 1#32) t))

/-- MOV in both modes, MOVU, TGET and TSET: payload and tag by R108, no check, no flag. -/
def Obligations.MovesComplete : Prop :=
  ∀ (c : CoreId) (rd ra : Reg) (imm : BitVec 20) (v : Byte) (s : State),
    let k := s.dev.core c.toNat
    let n := need1 rd ra 0#4
    let a := k.lone ra.toNat
    (s.dev.issues c n = true → k.psr.compact = false →
      (∃ t, exec (.mov c rd ra) s = .next t ∧ Completed s c n (k.setReg rd.toNat a) (k.pc + 1#32) t)
      ∧ (∃ t, exec (.tget c rd ra) s = .next t
        ∧ Completed s c n (k.setReg rd.toNat { pay := a.tag.setWidth 32, tag := 0x20#8 }) (k.pc + 1#32) t)
      ∧ (∃ t, exec (.tset c rd ra v) s = .next t ∧ Completed s c n (k.setReg rd.toNat { pay := a.pay, tag := v }) (k.pc + 1#32) t))
    ∧ (s.dev.issues c n = true → k.psr.compact = true →
      ∃ t, exec (.mov c rd ra) s = .next t ∧ Completed s c n (k.setByte rd.toNat (k.byte ra.toNat)) (k.pc + 1#32) t)
    ∧ (s.dev.issues c { writes := [rd.toNat] } = true → k.psr.compact = false →
      ∃ t, exec (.movu c rd imm) s = .next t
        ∧ Completed s c { writes := [rd.toNat] } (k.setReg rd.toNat { pay := imm ++ 0#12, tag := 0x00#8 }) (k.pc + 1#32) t)

/-- TCHK and TTST (R109): with mask 00b, 01b or 10b, Z tells whether the compared bits of the tag match; N, V and C stay. TTST never traps on a
mismatch; TCHK traps while T is 1, with TYPE_FAULT when compared kind bits differ and UNIT_FAULT otherwise. Mask 11b is undefined: ILLEGAL. -/
def Obligations.TagTests : Prop :=
  ∀ (c : CoreId) (ra : Reg) (v : Byte) (m : BitVec 2) (s : State),
    let k := s.dev.core c.toNat
    let a := (k.lone ra.toNat).tag
    let n : Need := { reads := [ra.toNat], wrFlags := wZ }
    let kinds := a.extractLsb' 5 3 == v.extractLsb' 5 3
    let units := a.extractLsb' 0 5 == v.extractLsb' 0 5
    let same := if m = 0#2 then kinds && units else if m = 1#2 then kinds else units
    let undefinedMask := s.dev.takeTrap c.toNat k.pc { cause := 5#4, tagRes := 0xFF#8 }
    s.dev.issues c n = true → k.psr.compact = false →
    (m = 3#2 → k.drained = true → Yields s (.ttst c ra v m) undefinedMask ∧ Yields s (.tchk c ra v m) undefinedMask) ∧ (m ≠ 3#2 →
    (∃ t, exec (.ttst c ra v m) s = .next t ∧ Completed s c n { k with psr := { k.psr with z := same } } (k.pc + 1#32) t)
    ∧ (same = true ∨ k.psr.t = false →
      ∃ t, exec (.tchk c ra v m) s = .next t ∧ Completed s c n { k with psr := { k.psr with z := same } } (k.pc + 1#32) t)
    ∧ (same = false → k.psr.t = true → k.drained = true →
      Yields s (.tchk c ra v m) (s.dev.takeTrap c.toNat k.pc
        { cause := if m ≠ 2#2 ∧ kinds = false then 2#4 else 3#4, detail := 0#4, opnd := 1#2, tagA := a, tagB := v, tagRes := 0xFF#8 })))

/-! ### Compact mode -/

/-- The byte instructions of compact mode: ADD, ADC, SUB, SBC, AND, OR, XOR, SHL, SHR, SAR on two byte registers, and the immediate forms of
ADD, SUB, AND, OR, XOR (immediate below 256) and of the shifts (below 8), with NOT, RLC, RRC, CMP and CMPI (R120, R121). ADD16, ADDI16 and
MUL of compact mode: 16 bits into a pair, the flags by R121. -/
def Obligations.CompactArithmeticCompletes : Prop :=
  ((∀ e ∈ byteForms, ∀ (c : CoreId) (rd ra rb : Reg) (s : State),
     let k := s.dev.core c.toNat
     let n : Need := { need2 rd ra rb e.2.1 with rdFlags := e.2.2.1 }
     s.dev.issues c n = true → k.psr.compact = true →
     ∃ t, exec (e.1 c rd ra rb) s = .next t
       ∧ Completed s c n (k.put8 rd (e.2.2.2 (k.byte ra.toNat) (k.byte rb.toNat) k.psr.c)) (k.pc + 1#32) t)
   ∧ (∀ e ∈ byteImmForms, ∀ (c : CoreId) (rd ra : Reg) (imm : BitVec 15) (s : State),
     let k := s.dev.core c.toNat
     let n := need1 rd ra e.2.1
     s.dev.issues c n = true → k.psr.compact = true → imm.toNat < 256 →
     ∃ t, exec (e.1 c rd ra imm) s = .next t
       ∧ Completed s c n (k.put8 rd (e.2.2 (k.byte ra.toNat) (imm.setWidth 8) k.psr.c)) (k.pc + 1#32) t)
   ∧ (∀ e ∈ byteShiftForms, ∀ (c : CoreId) (rd ra : Reg) (imm : BitVec 15) (s : State),
     let k := s.dev.core c.toNat
     let n := need1 rd ra wNZVC
     s.dev.issues c n = true → k.psr.compact = true → imm.toNat < 8 →
     ∃ t, exec (e.1 c rd ra imm) s = .next t
       ∧ Completed s c n (k.put8 rd (e.2 (k.byte ra.toNat) imm.toNat k.psr.c)) (k.pc + 1#32) t)
   ∧ (∀ (c : CoreId) (rd ra : Reg) (s : State),
     let k := s.dev.core c.toNat
     let a := k.byte ra.toNat
     let n : Need := { need1 rd ra wNZVC with rdFlags := true }
     s.dev.issues c n = true → k.psr.compact = true →
     (∃ t, exec (.rlc c rd ra) s = .next t
       ∧ Completed s c n (k.put8 rd (logic8 ((a.extractLsb' 0 7 ++ BitVec.ofBool k.psr.c).setWidth 8) a.msb)) (k.pc + 1#32) t)
     ∧ (∃ t, exec (.rrc c rd ra) s = .next t
       ∧ Completed s c n (k.put8 rd (logic8 ((BitVec.ofBool k.psr.c ++ a.extractLsb' 1 7).setWidth 8) (a.getLsbD 0))) (k.pc + 1#32) t))
   ∧ (∀ (c : CoreId) (rd ra : Reg) (s : State),
     let k := s.dev.core c.toNat
     s.dev.issues c (need1 rd ra 14#4) = true → k.psr.compact = true →
     ∃ t, exec (.not c rd ra) s = .next t
       ∧ Completed s c (need1 rd ra 14#4) (k.put8 rd (logic8 (~~~ k.byte ra.toNat) k.psr.c)) (k.pc + 1#32) t)
   ∧ (∀ (c : CoreId) (ra rb : Reg) (s : State),
     let k := s.dev.core c.toNat
     s.dev.issues c (needCmp ra rb) = true → k.psr.compact = true →
     ∃ t, exec (.cmp c ra rb) s = .next t
       ∧ Completed s c (needCmp ra rb) (k.setFlags (sub8 (k.byte ra.toNat) (k.byte rb.toNat) false).2) (k.pc + 1#32) t)
   ∧ (∀ (c : CoreId) (ra : Reg) (imm : BitVec 15) (s : State),
     let k := s.dev.core c.toNat
     let n : Need := { reads := [ra.toNat], wrFlags := wNZVC }
     s.dev.issues c n = true → k.psr.compact = true → imm.toNat < 256 →
     ∃ t, exec (.cmpi c ra imm) s = .next t
       ∧ Completed s c n (k.setFlags (sub8 (k.byte ra.toNat) (imm.setWidth 8) false).2) (k.pc + 1#32) t))
  ∧ (∀ (c : CoreId) (pd pa pb : Reg) (imm : BitVec 15) (s : State),
       let k := s.dev.core c.toNat
       let sum := fun (a b : BitVec 16) => (a + b,
         ({ n := (a + b).msb, z := a + b == 0#16, v := a.msb == b.msb && (a + b).msb != a.msb, c := BitVec.carry 16 a b false } : Nzvc))
       let na : Need := { reads := pairRegs pa ++ pairRegs pb, writes := pairRegs pd, wrFlags := wNZVC }
       let ni : Need := { reads := pairRegs pa, writes := pairRegs pd, wrFlags := wNZVC }
       let nm : Need := { reads := [pa.toNat, pb.toNat], writes := [2 * pd.toNat, 2 * pd.toNat + 1], wrFlags := wNZVC }
       k.psr.compact = true → isPair pd = true →
       (isPair pa = true → isPair pb = true → s.dev.issues c na = true →
         ∃ t, exec (.add16 c pd pa pb) s = .next t
           ∧ Completed s c na (k.put16 pd (sum (k.pair pa.toNat) (k.pair pb.toNat))) (k.pc + 1#32) t)
       ∧ (isPair pa = true → s.dev.issues c ni = true →
         ∃ t, exec (.addi16 c pd pa imm) s = .next t
           ∧ Completed s c ni (k.put16 pd (sum (k.pair pa.toNat) (imm.signExtend 16))) (k.pc + 1#32) t)
       ∧ (s.dev.issues c nm = true →
         ∃ t, exec (.mul c pd pa pb) s = .next t
           ∧ Completed s c nm (k.put16 pd (mul8 (k.byte pa.toNat) (k.byte pb.toNat))) (k.pc + 1#32) t))

/-! ### Traps and waiting -/

/-- A failed check traps, precisely: once every older instruction has completed, an instruction of tagged mode whose operands' tags its
check refuses takes the trap with the check's record (R60, R62, R96): arithmetic, the immediate forms, MACF and MACFS, the divides, the
compares, the bitwise instructions and the shifts. An undefined encoding of the core's data mode takes the ILLEGAL trap (R92, R125), and
waits while an older instruction has not completed; a word that the mode defines is no undefined encoding, and changes nothing (the model's
reading, DESIGN CHOICE, log entry 2). A trap stops the core with its record, leaves its registers and flags, and raises its bent's core-trap
source; no memory cell and no waiting command changes, and no other core's registers (R64, R65). -/
def Obligations.FailedChecksTrap : Prop :=
  (∀ (c : CoreId) (rd ra rb : Reg) (imm : BitVec 15) (fn : BitVec 10) (s : State), ∀ e ∈ s.dev.tagChecks c rd ra rb imm fn, ∀ r : TrapRec,
     let k := s.dev.core c.toNat
     s.dev.issues c e.2.1 = true → k.psr.compact = false → k.drained = true → k.checked e.2.2 = .error r →
     ∃ t, exec e.1 s = .next t ∧ Trapped s c k.pc r t)
  ∧ (∀ (c : CoreId) (word : W32) (s : State),
       let k := s.dev.core c.toNat
       s.dev.issues c {} = true →
       (coreInstr c k.psr.compact word = none → k.drained = true →
         ∃ t, exec (.undefinedOpcode c word) s = .next t ∧ Trapped s c k.pc { cause := 5#4, tagRes := 0xFF#8 } t)
       ∧ (coreInstr c k.psr.compact word = none → k.drained = false → exec (.undefinedOpcode c word) s = .next s)
       ∧ (coreInstr c k.psr.compact word ≠ none → exec (.undefinedOpcode c word) s = .next s))

/-- An instruction that cannot issue yet (a register it needs waits for an outstanding load, the divide in EX holds it, an entry is in
progress, the core does not run) waits: the command leaves the whole state as it is (the model's reading, DESIGN CHOICE, log entry 2). Said of
the instructions of tagged mode that check tags, of LDW, STW and STAG, of the byte instructions of compact mode on two registers, and of
BC, FENCE, EI and MFPSR. -/
def Obligations.HeldInstructionsWait : Prop :=
  ∀ (c : CoreId) (rd ra rb : Reg) (imm : BitVec 15) (fn : BitVec 10) (cc : BitVec 5) (far : BitVec 20) (f : Finds) (s : State),
    let k := s.dev.core c.toNat
    let held := fun (i : Instr) (n : Need) => k.canIssue n = false → exec i s = .next s
    (k.psr.compact = false → ∀ e ∈ s.dev.tagChecks c rd ra rb imm fn, held e.1 e.2.1)
    ∧ (k.psr.compact = true → ∀ e ∈ byteForms, held (e.1 c rd ra rb) { need2 rd ra rb e.2.1 with rdFlags := e.2.2.1 })
    ∧ held (.ldw c rd ra imm f) { reads := baseReads k.psr.compact ra, writes := [rd.toNat] }
    ∧ held (.stw c rd ra imm) { reads := rd.toNat :: baseReads k.psr.compact ra }
    ∧ held (.stag c rd ra imm) { reads := [rd.toNat, ra.toNat] }
    ∧ held (.bc c cc far) { rdFlags := cc != 0#5 } ∧ held (.fence c) {} ∧ held (.ei c) {}
    ∧ held (.mfpsr c rd) { writes := [rd.toNat], rdFlags := true }

/-! ### Control transfer (R112 to R114, R122) -/

/-- BC in both modes, BT and BF in tagged mode (R112, R113, R122): a branch not taken goes on to the next word; one taken goes to its own
address plus off20, in compact mode within the 64 Ki-word block of the PC; a target of tagged mode outside code store traps BOUNDS on the
branch (R114). No register and no flag changes; a core that is not paced notes the outcome in its branch target buffer (R135, R149). CALL
and JMP (R112, R113, R122): the link PC + 1 with tag C0h (in compact mode its low 16 bits into pair 15), then the target. JMP's operand is
CODE of unit 0 while T is 1; in compact mode a pair. -/
def Obligations.ControlTransfersComplete : Prop :=
  (∀ (c : CoreId) (ra : Reg) (cc : BitVec 5) (off : BitVec 20) (s : State),
     let k := s.dev.core c.toNat
     let a := k.lone ra.toNat
     let far := k.pc + off.signExtend 32
     let target := if k.psr.compact then k.pc.extractLsb' 16 16 ++ far.extractLsb' 0 16 else far
     let lands := k.psr.compact = true ∨ (0x02000000 ≤ target.toNat ∧ target.toNat < 0x02800000)
     let forms : List (Instr × Need × Bool × Bool × Byte) :=
       [(.bc c cc off, { rdFlags := cc != 0#5 }, condDefined cc, condHolds cc k.psr.nzvc, 0#8),
        (.bt c ra off, { reads := [ra.toNat] }, !k.psr.compact && (!k.psr.t || a.tag == 0xA0#8), a.pay.getLsbD 0, a.tag),
        (.bf c ra off, { reads := [ra.toNat] }, !k.psr.compact && (!k.psr.t || a.tag == 0xA0#8), !a.pay.getLsbD 0, a.tag)]
     ∀ f ∈ forms, s.dev.issues c f.2.1 = true → f.2.2.1 = true →
       (f.2.2.2.1 = false → ∃ t, exec f.1 s = .next t ∧ Completed s c f.2.1 k.btbNot (k.pc + 1#32) t)
       ∧ (f.2.2.2.1 = true → lands → ∃ t, exec f.1 s = .next t ∧ Completed s c f.2.1 (k.btbTaken target) target t)
       ∧ (f.2.2.2.1 = true → ¬ lands → k.drained = true →
         Yields s f.1 (s.dev.takeTrap c.toNat k.pc { cause := 4#4, detail := 4#4, addr := target, tagA := f.2.2.2.2, tagRes := 0xFF#8 })))
  ∧ (∀ (c : CoreId) (rd ra : Reg) (off : BitVec 20) (s : State),
       let k := s.dev.core c.toNat
       let a := k.lone ra.toNat
       let far := k.pc + off.signExtend 32
       let near := k.pc.extractLsb' 16 16 ++ far.extractLsb' 0 16
       let link := k.setReg rd.toNat { pay := k.pc + 1#32, tag := 0xC0#8 }
       let link16 := k.setPair 15 ((k.pc + 1#32).extractLsb' 0 16)
       let there := k.pc.extractLsb' 16 16 ++ k.pair ra.toNat
       let n : Need := { writes := linkRegs k rd }
       let m : Need := { reads := jmpReads k ra, writes := linkRegs k rd }
       (k.psr.compact = false → s.dev.issues c n = true → 0x02000000 ≤ far.toNat → far.toNat < 0x02800000 →
         ∃ t, exec (.call c rd off) s = .next t ∧ Completed s c n (link.btbTaken far) far t)
       ∧ (k.psr.compact = true → s.dev.issues c n = true → rd = 15#5 →
         ∃ t, exec (.call c rd off) s = .next t ∧ Completed s c n (link16.btbTaken near) near t)
       ∧ (k.psr.compact = false → s.dev.issues c m = true → k.psr.t = false ∨ a.tag = 0xC0#8 →
         0x02000000 ≤ a.pay.toNat → a.pay.toNat < 0x02800000 →
         ∃ t, exec (.jmp c rd ra) s = .next t ∧ Completed s c m link a.pay t)
       ∧ (k.psr.compact = true → s.dev.issues c m = true → isPair ra = true → rd = 0#5 ∨ rd = 15#5 →
         ∃ t, exec (.jmp c rd ra) s = .next t ∧ Completed s c m (if rd = 0#5 then k else link16) there t))

/-! ### Loads and stores (R66 to R69, R110, R111, R121, R132, R138) -/

/-- A load of a word of the own bent's SRAM with no buffered store to it, whose address checks pass and which its bank's arbiter grants (R33,
R110, R121, R247): LDW takes payload and tag in tagged mode and one byte in compact mode, LD16 two bytes of one word, little-endian (R75).
Until the arbiter grants it, it waits there. A word with a single-bit error gives the
corrected data (R243); one that is uncorrectable, poisoned among them, stops the core with MEM_ERROR and writes no register (R244, R245). A
load of a word of Deck SRAM with no buffered store to it, the way being free, leaves as an RD transaction of the core's class, and its
instruction is done before the data comes: the tracker holds the load, its destination stays unwritten (R132, R217, R528). -/
def Obligations.LoadsComplete : Prop :=
  (∀ (c : CoreId) (rd ra : Reg) (off : BitVec 15) (f : Finds) (s : State),
     let k := s.dev.core c.toNat
     let base := k.lone ra.toNat
     let addr := base.pay + off.signExtend 32
     let near := fun (w : Nat) => 0x04000000 + 0x10000 * (c.toNat / 16) + w
     let ready := fun (w : Nat) (l : BitVec 4) (tag : Bool) =>
       isOwnSram w = true ∧ s.dev.forward c.toNat (near w) l tag = .memory ∧ k.loads.length < 8
     let granted := fun (w : Nat) => (s.dev.nearClaim c.toNat k.issued k.cls .rd [near w]).1
     let gives := fun (i : Instr) (n : Need) (k' : Core) (w : Nat) (a : W32) =>
       (granted w = true → near w ∉ s.dev.poison → foundIn f 0 = .good →
         ∃ t, exec i s = .next t ∧ CompletedNear s c n k' (k.pc + 1#32) t)
       ∧ (∀ bit, granted w = true → near w ∉ s.dev.poison → foundIn f 0 = .single bit →
         ∃ t, exec i s = .next t ∧ CoreMoved s c (k'.advance n (k.pc + 1#32)) t)
       ∧ (granted w = false → ∃ t, exec i s = .next t ∧ Keeps s t)
       ∧ (granted w = true → near w ∈ s.dev.poison ∨ foundIn f 0 = .uncorrectable → k.drained = true →
         ∃ t, exec i s = .next t ∧ Trapped s c k.pc { cause := 6#4, detail := 0#4, addr := a, tagRes := 0xFF#8 } t ∧ near w ∈ t.dev.poison)
     let pb := if ra.toNat = 0 then 0#16 else k.pair ra.toNat
     let at_ := pb + off.signExtend 16
     let word := (k.cmptBase + (at_.setWidth 32 >>> 2)).toNat
     let lane := at_.toNat % 4
     let x := (Memory.word s.mem (near word)).pay
     let n : Need := { reads := baseReads k.psr.compact ra, writes := [rd.toNat] }
     let m : Need := { reads := baseReads k.psr.compact ra, writes := [2 * rd.toNat, 2 * rd.toNat + 1] }
     (k.psr.compact = false → s.dev.issues c n = true → k.addrFault (s.dev.bentFor c) base addr false = none → ready addr.toNat 0xF#4 true →
       gives (.ldw c rd ra off f) n (k.setReg rd.toNat (Memory.word s.mem (near addr.toNat))) addr.toNat addr)
     ∧ (k.psr.compact = true → s.dev.issues c n = true → ra.toNat < 16 → ready word (1#4 <<< lane) false →
       gives (.ldw c rd ra off f) n (k.setByte rd.toNat (laneOf x lane)) word (at_.setWidth 32))
     ∧ (k.psr.compact = true → s.dev.issues c m = true → ra.toNat < 16 → isPair rd = true → lane < 3 → ready word (3#4 <<< lane) false →
       gives (.ld16 c rd ra off f) m (k.setPair rd.toNat (laneOf x (lane + 1) ++ laneOf x lane)) word (at_.setWidth 32)))
  ∧ (∀ (c : CoreId) (rd ra : Reg) (off : BitVec 15) (f : Finds) (s : State),
       let k := s.dev.core c.toNat
       let base := k.lone ra.toNat
       let addr := base.pay + off.signExtend 32
       let n : Need := { reads := [ra.toNat], writes := [rd.toNat] }
       k.psr.compact = false → s.dev.issues c n = true → k.addrFault (s.dev.bentFor c) base addr false = none →
       isDeck addr.toNat = true → s.dev.forward c.toNat addr.toNat 0xF#4 true = .memory → k.loads.length < 8 → s.dev.freeWay →
       ∃ t, exec (.ldw c rd ra off f) s = .next t ∧ t.mem = s.mem ∧ t.pending = s.pending
         ∧ (t.dev.core c.toNat).regs = k.regs ∧ (t.dev.core c.toNat).psr = k.psr ∧ (t.dev.core c.toNat).pc = k.pc + 1#32
         ∧ (t.dev.core c.toNat).loads
           = k.loads ++ [{ seq := k.issued, txn := s.dev.nextId, dest := .word rd, pc := k.pc, addr := addr, dead := false }]
         ∧ (∀ i, i ≠ c.toNat → t.dev.core i = s.dev.core i)
         ∧ ∃ x, t.dev.txns = s.dev.txns ++ [x] ∧ x.id = s.dev.nextId ∧ x.ty = .rd ∧ x.addr = addr ∧ x.cls = k.cls ∧ x.origin = .load c
           ∧ x.req = c.setWidth 12 ∧ x.st = .sent)

/-- A store whose address checks pass and for which the store buffer has room enters it, and the instruction is done: STW with payload and tag,
STAG with the tag alone, in compact mode one byte (STW) or two bytes of one word (ST16) whose word becomes RAW (R76, R110, R111, R132). No
memory cell changes yet, no register, no flag. -/
def Obligations.StoresEnterTheBuffer : Prop :=
  ∀ (c : CoreId) (rs ra : Reg) (off : BitVec 15) (s : State),
    let k := s.dev.core c.toNat
    let base := k.lone ra.toNat
    let addr := base.pay + off.signExtend 32
    let room := k.storeCount < 8 ∧ k.inFlight < 24 ∧ k.stores.all (fun e => decide (e.cls.toNat ≤ k.cls.toNat)) = true
    let put := fun (p : WordPart) (tagOnly : Bool) (a : W32) =>
      ({ k with stores := k.stores ++ [{ seq := k.issued, parts := [p], tagOnly := tagOnly, cls := k.cls, txn := none, pc := k.pc, addr := a }] }
        : Core)
    let pb := if ra.toNat = 0 then 0#16 else k.pair ra.toNat
    let at_ := pb + off.signExtend 16
    let word := k.cmptBase + (at_.setWidth 32 >>> 2)
    let lane := at_.toNat % 4
    let n : Need := { reads := rs.toNat :: baseReads k.psr.compact ra }
    let m : Need := { reads := [rs.toNat, ra.toNat] }
    let p : Need := { reads := [2 * rs.toNat, 2 * rs.toNat + 1] ++ baseReads k.psr.compact ra }
    room →
    (k.psr.compact = false → s.dev.issues c n = true → k.addrFault (s.dev.bentFor c) base addr true = none →
      isOwnSram addr.toNat = true ∨ isDeck addr.toNat = true →
      ∃ t, exec (.stw c rs ra off) s = .next t
        ∧ Completed s c n (put { addr := addr, lanes := 0xF#4, tagWr := true, word := k.lone rs.toNat } false addr) (k.pc + 1#32) t)
    ∧ (k.psr.compact = false → s.dev.issues c m = true → k.addrFault (s.dev.bentFor c) base addr true = none →
      isOwnSram addr.toNat = true ∨ isDeck addr.toNat = true →
      ∃ t, exec (.stag c rs ra off) s = .next t
        ∧ Completed s c m (put { addr := addr, lanes := 0#4, tagWr := true,
                                 word := { pay := 0#32, tag := (k.lone rs.toNat).pay.setWidth 8 } } true addr) (k.pc + 1#32) t)
    ∧ (k.psr.compact = true → s.dev.issues c n = true → ra.toNat < 16 → isOwnSram word.toNat = true ∨ isDeck word.toNat = true →
      ∃ t, exec (.stw c rs ra off) s = .next t
        ∧ Completed s c n (put { addr := word, lanes := 1#4 <<< lane, tagWr := true,
                                 word := { pay := (k.byte rs.toNat).setWidth 32 <<< (8 * lane), tag := 0x00#8 } } false (at_.setWidth 32))
          (k.pc + 1#32) t)
    ∧ (k.psr.compact = true → s.dev.issues c p = true → ra.toNat < 16 → isPair rs = true → lane < 3 →
      isOwnSram word.toNat = true ∨ isDeck word.toNat = true →
      ∃ t, exec (.st16 c rs ra off) s = .next t
        ∧ Completed s c p (put { addr := word, lanes := 3#4 <<< lane, tagWr := true,
                                 word := { pay := (k.pair rs.toNat).setWidth 32 <<< (8 * lane), tag := 0x00#8 } } false (at_.setWidth 32))
          (k.pc + 1#32) t)

/-- The address checks of tagged mode while T is 1 (R67, R69): a base that is not a PTR traps TYPE_FAULT with detail 1; outside the core-private
range a window that the core may not use, that does not hold the address or that lacks the permission traps BOUNDS with detail 1, 0 or 2, and
past them an unmapped address traps with detail 4 and a store to code store with detail 5. -/
def Obligations.WindowChecks : Prop :=
  ∀ (k : Core) (x : Bent) (base : Word) (addr : W32) (store : Bool), k.psr.t = true →
    let w := (base.tag.extractLsb' 0 4).toNat
    let lo := (Tab.find 0#32 x.winBase w).toNat
    let hi := (Tab.find 0#32 x.winLim w).toNat
    let grants := x.winPerm.getLsbD (2 * w + if store then 1 else 0)
    let inPrivate := 0x00010000 ≤ addr.toNat ∧ addr.toNat < 0x00011000
    let bounds := fun det : BitVec 4 =>
      ∃ r, k.addrFault x base addr store = some r ∧ r.cause = 4#4 ∧ r.detail = det ∧ r.addr = addr ∧ r.tagA = base.tag
    (base.tag.extractLsb' 5 3 ≠ 3#3 → base.tag.extractLsb' 5 3 ≠ 7#3 →
      ∃ r, k.addrFault x base addr store = some r ∧ r.cause = 2#4 ∧ r.detail = 1#4)
    ∧ (base.tag.extractLsb' 5 3 = 3#3 → base.tag.getLsbD 4 = false → inPrivate → k.addrFault x base addr store = none)
    ∧ (base.tag.extractLsb' 5 3 = 3#3 → base.tag.getLsbD 4 = false → ¬ inPrivate →
      (k.winMask.getLsbD w = false → bounds 1#4)
      ∧ (k.winMask.getLsbD w = true → ¬ (lo ≤ addr.toNat ∧ addr.toNat ≤ hi) → bounds 0#4)
      ∧ (k.winMask.getLsbD w = true → lo ≤ addr.toNat ∧ addr.toNat ≤ hi → grants = false → bounds 2#4)
      ∧ (k.winMask.getLsbD w = true → lo ≤ addr.toNat ∧ addr.toNat ≤ hi → grants = true →
        (inCoreMap addr.toNat = false → bounds 4#4) ∧ (isCode addr.toNat = true → store = true → bounds 5#4)
        ∧ (isOwnSram addr.toNat = true ∨ isDeck addr.toNat = true → k.addrFault x base addr store = none)))

/-! ### System instructions -/

/-- WAIT and RETI with no frame on a core whose priority stack's top is the source it serves (R85, R116, R203): the core is WAITING with PSR.I 1,
CURPRI FFh and the PC past the instruction; with a frame, the frame is restored, PC and PSR with it. Memory stays where no command waits for
the moment. -/
def Obligations.ReturnsFromService : Prop :=
  ∀ e ∈ ([.wait, .reti] : List (CoreId → Instr)), ∀ (c : CoreId) (s : State),
    let k := s.dev.core c.toNat
    let b := bentOf c.toNat
    s.dev.issues c {} = true → k.drained = true → s.dev.ks.jobs = [] → s.dev.ks.loops = [] → (s.dev.bent b).sw = [] →
    (∃ x rest, (s.dev.bent b).biu.stack (slotOf c.toNat) = x :: rest ∧ k.serving = some x.src ∧ x.src.toNat < 192) →
    (k.frames = [] → ∃ t, exec (e c) s = .next t ∧ t.mem = s.mem ∧ t.pending = s.pending
      ∧ (t.dev.core c.toNat).status = .waiting ∧ (t.dev.core c.toNat).psr.i = true ∧ (t.dev.core c.toNat).psr.curPri = 0xFF#8
      ∧ (t.dev.core c.toNat).pc = k.pc + 1#32 ∧ (t.dev.core c.toNat).regs = k.regs)
    ∧ (∀ f rest, k.frames = f :: rest → ∃ t, exec (e c) s = .next t ∧ t.mem = s.mem ∧ t.pending = s.pending
      ∧ (t.dev.core c.toNat).pc = f.pc ∧ (t.dev.core c.toNat).psr = f.psr ∧ (t.dev.core c.toNat).wake = f.wake
      ∧ (t.dev.core c.toNat).frames = rest ∧ (t.dev.core c.toNat).reg 28 = f.g28 ∧ (t.dev.core c.toNat).reg 29 = f.g29
      ∧ (t.dev.core c.toNat).reg 30 = f.g30 ∧ (t.dev.core c.toNat).reg 31 = f.g31
      ∧ ∀ r, r < 28 → (t.dev.core c.toNat).reg r = k.reg r)

/-- FENCE, MFPSR, MTPSR, DI and EI, in both data modes (R115, R118, R119, R121): FENCE completes when every older load has completed and
every older store has been accepted, and until then it waits; MFPSR reads the PSR, with tag RAW in tagged mode and its low byte in compact
mode; MTPSR writes I and the flags; DI and EI write I alone. Where MTPSR or DI leaves the slot unable to take the source offered to it, that
source goes back to PENDING (R198; said where no armed switch names it). SIGNAL (R117, R123), whose operand is RAW or INT of unit 0 while T
is 1, waits until the store buffer is empty and then leaves as an EVT transaction, the way being free: with a[12] 0 (always in compact mode)
to source 96 + n of bent a[6:0]; with a[12] 1 to source 128 + n of bent a[6:0] of chain unit a[11:8], inside the part where that unit is the
own one, else over the Viaduct where it is reached, and NOT_PRESENT where it is not. Another operand traps (R60). -/
def Obligations.SystemAndSignalsComplete : Prop :=
  (∀ (c : CoreId) (rd : Reg) (s : State),
     let k := s.dev.core c.toNat
     let nr : Need := { writes := [rd.toNat], rdFlags := true }
     let nw : Need := { reads := [rd.toNat], wrFlags := 15#4 }
     let v := if k.psr.compact then (k.byte rd.toNat).setWidth 32 else (k.lone rd.toNat).pay
     let done := fun (i : Instr) (n : Need) (k' : Core) => ∃ t, exec i s = .next t ∧ Completed s c n k' (k.pc + 1#32) t
     let back := fun (i : Instr) (n : Need) (k' : Core) => ∃ t, exec i s = .next t ∧ CompletedOfferBack s c n k' (k.pc + 1#32) t
     let unnamed := ∀ i, i < 16 → ∀ m, s.dev.offeredTo (bentOf c.toNat) (slotOf c.toNat) = some m →
       let w : Switch := Tab.find {} (s.dev.bent (bentOf c.toNat)).sw i
       w.armed = false ∨ w.src.toNat ≠ m
     let ki := fun i : Bool => { k with psr := { k.psr with i := i } }
     let kw : Core := { k with psr := { k.psr with i := v.getLsbD 4, n := v.getLsbD 3, z := v.getLsbD 2, v := v.getLsbD 1, c := v.getLsbD 0 } }
     (s.dev.issues c {} = true →
       (k.loads.all (fun e => e.dead) = true → k.stores = [] → done (.fence c) {} k)
       ∧ (k.loads.all (fun e => e.dead) = false ∨ k.stores ≠ [] → exec (.fence c) s = .next s)
       ∧ done (.ei c) {} (ki true)
       ∧ (s.dev.offerStands c false = true → done (.di c) {} (ki false))
       ∧ (s.dev.offerStands c false = false → unnamed → back (.di c) {} (ki false)))
     ∧ (s.dev.issues c nr = true →
       done (.mfpsr c rd) nr (if k.psr.compact then k.setByte rd.toNat (k.psr.word.setWidth 8)
         else k.setReg rd.toNat { pay := k.psr.word, tag := 0x00#8 }))
     ∧ (s.dev.issues c nw = true →
       (s.dev.offerStands c (v.getLsbD 4) = true → done (.mtpsr c rd) nw kw)
       ∧ (s.dev.offerStands c (v.getLsbD 4) = false → unnamed → back (.mtpsr c rd) nw kw)))
  ∧ (∀ (c : CoreId) (ra : Reg) (v : BitVec 4) (s : State),
       let k := s.dev.core c.toNat
       let a := if k.psr.compact then (k.byte ra.toNat).setWidth 32 else (k.lone ra.toNat).pay
       let tag := (k.lone ra.toNat).tag
       let unit := a.extractLsb' 8 4
       let far := a.getLsbD 12 = true ∧ ¬ (s.dev.chain.uvalid = true ∧ unit = s.dev.chain.unit)
       s.dev.issues c { reads := [ra.toNat] } = true →
       (k.psr.compact = true ∨ k.psr.t = false ∨ tag.extractLsb' 5 3 = 0#3 ∨ tag = 0x20#8 →
         (k.stores ≠ [] → exec (.signal c ra v) s = .next s)
         ∧ (k.stores = [] → s.dev.freeWay →
           ∃ t, exec (.signal c ra v) s = .next t ∧ t.mem = s.mem ∧ t.pending = s.pending
             ∧ (t.dev.core c.toNat).arch = (k.advance { reads := [ra.toNat] } (k.pc + 1#32)).arch
             ∧ (∀ i, i ≠ c.toNat → t.dev.core i = s.dev.core i)
             ∧ ∃ x, t.dev.txns = s.dev.txns ++ [x] ∧ x.id = s.dev.nextId ∧ x.ty = .evt ∧ x.req = c.setWidth 12 ∧ x.cls = k.cls
               ∧ x.ev = some (a.extractLsb' 0 7, (if a.getLsbD 12 then 128#8 else 96#8) + v.setWidth 8)
               ∧ (far → x.dest = some unit ∧ x.st = if s.dev.chain.uvalid && s.dev.reaches unit then .remote else .answered .notPresent)
               ∧ (¬ far → x.dest = none ∧ x.st = .sent)))
       ∧ (∀ r, k.psr.compact = false → k.checked (checkOne (fun n => n == 0 || n == 1) 0#4 true tag) = .error r → k.drained = true →
         ∃ t, exec (.signal c ra v) s = .next t ∧ Trapped s c k.pc r t))

/-! ### Fetch and pace (04_self_timed_pipeline.md) -/

/-- LINE_FILL of a line of code store outside the reserved region (R133, R217, R259, R530): once the slice, awake, grants the bent's FILL transaction,
the line is in the bent's line cache with the poison marks of its words, known ones and those that this read finds, and the transaction is gone; cores
change in their line buffers and vector lines alone. PACED_FETCH_DELIVERY brings a paced core the line it asked for, with the same marks, once 96 ns
have passed and its FILL is granted (R152, R154, R217). PACE_UNDERRUN of a running paced core counts in its slot, forbids the bent a lowering for 100
control periods and is raised (R157, R179). No core's registers change. -/
def Obligations.LinesAreDelivered : Prop :=
  ∀ (s : State) (b : BentId) (line : Nat) (c : CoreId) (f : Finds),
    let marked := fun (n : Nat) (m : BitVec 16) => ∀ i, i < 16 → m.getLsbD i = (s.dev.poisoned (16 * n + i) || foundIn f i == .uncorrectable)
    let b' := bentOf c.toNat
    let i := slotOf c.toNat
    (∀ x, (s.dev.bent b.toNat).fills = [] → s.dev.fillOf b.toNat line = some x → x.req = fillReq b.toNat → x.overfull = false →
      s.dev.mayGrant x = true → s.dev.freeWay → s.dev.wordAsleep (16 * line) = false → s.dev.lineHeld line = false → isReserved (16 * line) = false →
        isCode (16 * line) = true →
      ∃ t m, exec (.lineFill b line f) s = .next t ∧ t.mem = s.mem ∧ t.pending = s.pending ∧ marked line m
        ∧ (∀ i, ({ t.dev.core i with lineBuf := [], vecLines := [], vecReq := [] } : Core)
            = { s.dev.core i with lineBuf := [], vecLines := [], vecReq := [] })
        ∧ lineIn (t.dev.bent b.toNat).lineCache line = some m ∧ ∀ y ∈ t.dev.txns, y.id ≠ x.id)
    ∧ (∀ n at_ x, (s.dev.core c.toNat).reqLine = some (n, at_) → (s.dev.core c.toNat).vecReq = [] → (s.dev.core c.toNat).psr.paced = true →
      at_ + 77 ≤ s.dev.clk → s.dev.pacedOf c.toNat n = some x → (∀ y ∈ s.dev.txns, ∀ m, y.origin = .paced c m → m = n) →
      s.dev.mayGrant x = true → s.dev.freeWay → s.dev.wordAsleep (16 * n) = false → isReserved (16 * n) = false →
      isCode (16 * n) = true →
      ∃ t m, exec (.pacedFetchDelivery c f) s = .next t ∧ t.mem = s.mem ∧ t.pending = s.pending ∧ t.dev.bents = s.dev.bents ∧ marked n m
        ∧ t.dev.core c.toNat = { s.dev.core c.toNat with nextLine := some (n, m), reqLine := none }
        ∧ ∀ i, i ≠ c.toNat → t.dev.core i = s.dev.core i)
    ∧ ((s.dev.core c.toNat).psr.paced = true → (s.dev.core c.toNat).status = .running → s.dev.bentStill b' = false →
      ∃ t, exec (.paceUnderrun c) s = .next t ∧ t.mem = s.mem ∧ t.pending = s.pending ∧ t.dev.cores = s.dev.cores
        ∧ Tab.find 0#16 (t.dev.bent b').scr.underrun i = satInc (Tab.find 0#16 (s.dev.bent b').scr.underrun i)
        ∧ (t.dev.bent b').scr.noLower = 100 ∧ t.dev.raising (384 + b') b')

/-! ### The Deck (07_deck_and_traffic.md) -/

/-- At a target that grants it, is awake and has nothing on its way, an RD of a good Deck SRAM word is answered with that word; a WR and a TW of one
word part, neither of the write sequencer nor of a debug access, change the lanes and the tag that the part names and are acknowledged, where the word
is not poisoned and its stored bits are good; an EVT sets the latch of its bent's source and is acknowledged (R217, R218). The requester learns of it
when the response arrives; no core changes, and no other byte of memory (see WordWriteFrame). An RD, WR, TW or EVT of class C2 that met its target at
or above the threshold is answered RETRY, and counted there (R229). -/
def Obligations.TargetsAnswer : Prop :=
  (∀ (s : State) (id : Nat) (t : Txn) (f : Finds), s.dev.calm → s.dev.grants id t = true → s.dev.freeWay → t.ddr = none → t.count = 1 →
     (t.ty = .rd → t.parts = [] → isDeck t.addr.toNat = true → s.dev.wordAsleep t.addr.toNat = false → t.addr.toNat ∉ s.dev.poison →
       foundIn f 0 = .good →
       ∃ u, exec (.deckRd id f) s = .next u ∧ u.mem = s.mem ∧ SameUnits s u
         ∧ (u.dev.txn id).map (·.st) = some (.answered (.data t.dBit [Memory.word s.mem t.addr.toNat])))
     ∧ (∀ p, t.parts = [p] → t.noWrite = false → isDeck p.addr.toNat = true → s.dev.wordAsleep p.addr.toNat = false → p.addr.toNat ∉ s.dev.poison →
       foundIn f 0 = .good →
       (t.ty = .wr → ∃ u, exec (.deckWr id f) s = .next u ∧ u.mem = (MemOp.word p.addr.toNat p.lanes p.tagWr p.word).apply s.mem ∧ SameUnits s u
         ∧ (u.dev.txn id).map (·.st) = some (.answered (.ack t.dBit)))
       ∧ (t.ty = .tw → ∃ u, exec (.deckTw id f) s = .next u ∧ u.mem = (MemOp.word p.addr.toNat p.lanes p.tagWr p.word).apply s.mem ∧ SameUnits s u
         ∧ (u.dev.txn id).map (·.st) = some (.answered (.ack t.dBit))))
     ∧ (∀ b n, t.ty = .evt → t.ev = some (b, n) → t.evKind = .event → isLatchedSrc n.toNat = true →
       s.dev.wordAsleep (0x08200000 + 0x1000 * b.toNat) = false → (s.dev.xing b.toNat).hold = false → Tab.find 0 (s.dev.xing b.toNat).lines n.toNat = 0 →
       ∃ u, exec (.deckEvt id) s = .next u ∧ u.mem = s.mem ∧ u.pending = s.pending ∧ u.dev.cores = s.dev.cores
         ∧ (u.dev.source b.toNat n.toNat).level = true ∧ (u.dev.txn id).map (·.st) = some (.answered (.ack t.dBit))))
  ∧ (∀ (s : State) (id : Nat) (t : Txn) (f : Finds),
     ∀ e ∈ ([(.rd, .deckRd id f), (.wr, .deckWr id f), (.tw, .deckTw id f), (.evt, .deckEvt id)] : List (TxnType × Instr)),
       s.dev.calm → s.dev.txn id = some t → s.dev.freeWay → t.byKeystone = false → t.ty = e.1 → t.waits = true → t.overfull = true → t.cls = 2#2 →
       ∃ u, exec e.2 s = .next u ∧ u.mem = s.mem ∧ SameUnits s u ∧ (u.dev.txn id).map (·.st) = some (.answered .retry)
         ∧ ∀ g, t.target = some g → g.1 ≠ 8 →
           (Tab.find {} (u.dev.span g.1).targets g.2 : Target).refs = satInc (Tab.find {} (s.dev.span g.1).targets g.2 : Target).refs)

/-- A response at a core takes its transaction off, the way being free: DATA for LDW writes the register that the load names and no other,
with the whole word; ACK takes the store out of the buffer; NOT_PRESENT gives the load payload 0 with tag E0h (R237). RETRY of a C2
transaction makes its requester wait 160 ns doubled at each refusal, at most 5.12 µs, and RETRY_RESEND sends the transaction again after it
(R132, R218, R230); one raised meanwhile is sent again at once (R223). ERROR for a load of a running core stops it with MEM_ERROR: the trap
record names the load's own instruction and address and the detail of the response (R245). -/
def Obligations.ResponsesReachTheCore : Prop :=
  (∀ (s : State) (id : Nat) (t : Txn) (c : CoreId), s.dev.calm → s.dev.txn id = some t → s.dev.freeWay →
     let k := s.dev.core c.toNat
     let gone := fun u : State => u.mem = s.mem ∧ u.pending = s.pending ∧ u.dev.txn id = none ∧ ∀ i, i ≠ c.toNat → u.dev.core i = s.dev.core i
     (∀ e w d rd, t.origin = .load c → t.st = .answered (.data d [w]) → t.req = c.setWidth 12 → k.loads = [e] → e.txn = t.id → e.dead = false →
       e.dest = .word rd →
       ∃ u, exec (.deckDataReturn id) s = .next u ∧ gone u ∧ (u.dev.core c.toNat).loads = []
         ∧ (u.dev.core c.toNat).regs = (k.setReg rd.toNat w).regs ∧ (u.dev.core c.toNat).psr = k.psr ∧ (u.dev.core c.toNat).pc = k.pc)
     ∧ (∀ d, t.origin = .store c → t.st = .answered (.ack d) → t.req = c.setWidth 12 →
       ∃ u, exec (.deckAckReturn id) s = .next u ∧ gone u
         ∧ (u.dev.core c.toNat).stores = k.stores.filter (fun e => e.txn != some t.id) ∧ (u.dev.core c.toNat).regs = k.regs)
     ∧ (∀ e rd, t.origin = .load c → t.st = .answered .notPresent → t.req = c.setWidth 12 → k.loads = [e] → e.txn = t.id → e.dead = false →
       e.dest = .word rd →
       ∃ u, exec (.deckNotPresentReturn id) s = .next u ∧ gone u
         ∧ (u.dev.core c.toNat).regs = (k.setReg rd.toNat { pay := 0#32, tag := 0xE0#8 }).regs
         ∧ (u.dev.core c.toNat).deckNp = satInc k.deckNp)
     ∧ (∀ g, t.st = .answered .retry → s.dev.deadTxn t = false → t.cls ≠ 2#2 → t.target = some g →
       ∃ u, exec (.deckRetryReturn id) s = .next u ∧ u.mem = s.mem ∧ u.pending = s.pending
         ∧ ∃ x ∈ u.dev.txns, x.id = id ∧ x.st = .sent ∧ x.addr = t.addr ∧ x.parts = t.parts ∧ x.refusals = t.refusals + 1)
     ∧ (t.st = .answered .retry → s.dev.deadTxn t = false → t.cls = 2#2 →
       ∃ u, exec (.deckRetryReturn id) s = .next u ∧ u.mem = s.mem ∧ u.pending = s.pending
         ∧ (u.dev.txn id).map (·.st) = some (.backoff (s.dev.clk + min 4096 (128 * 2 ^ t.refusals)))
         ∧ (u.dev.txn id).map (·.refusals) = some (t.refusals + 1))
     ∧ (∀ w g, t.st = .backoff w → w ≤ s.dev.clk → t.target = some g → t.id = id →
       ∃ u, exec (.retryResend id) s = .next u ∧ u.mem = s.mem ∧ SameUnits s u
         ∧ ∃ x ∈ u.dev.txns, x.id = id ∧ x.st = .sent ∧ x.addr = t.addr ∧ x.parts = t.parts))
  ∧ (∀ (s : State) (id : Nat) (t : Txn) (c : CoreId) (e : LoadEntry) (det : BitVec 4) (a : W32),
       let k := s.dev.core c.toNat
       s.dev.calm → s.dev.txn id = some t → s.dev.freeWay → t.origin = .load c → t.parts = [] → t.st = .answered (.error det a) → k.loads = [e] → e.txn = t.id →
       e.dead = false → k.status = .running → k.entry = none →
       ∃ u, exec (.deckErrorReturn id) s = .next u ∧ u.mem = s.mem ∧ u.pending = s.pending ∧ (u.dev.core c.toNat).status = .stopped
         ∧ (u.dev.core c.toNat).trap = { valid := true, cause := 6#4, detail := det, pc := e.pc, addr := e.addr, tagRes := 0xFF#8 }
         ∧ (u.dev.core c.toNat).regs = k.regs)

/-- STORE_BUFFER_SEND of a store of one word: the oldest store of a core leaves its buffer. One to the own bent's SRAM, by either address, is written
once its bank's arbiter grants it (R247), where the word is not poisoned and its stored bits are good (R33, R138); a part of a word that is
uncorrectable is refused, and stops a running core with MEM_ERROR (R244, R245); until the arbiter grants it, it waits. One to Deck SRAM, the way being
free, becomes a transaction of the store's class and stays in the buffer until it is acknowledged. DECK_STARVE records and raises a C1 or C2 request
that has waited at a target in a span longer than the limit, once (R226). -/
def Obligations.StoresAreSent : Prop :=
  (∀ (s : State) (c : CoreId) (e : StoreEntry) (rest : List StoreEntry) (p : WordPart) (f : Finds),
    let k := s.dev.core c.toNat
    s.dev.calm → k.stores = e :: rest → e.txn = none → e.parts = [p] →
    (∀ w, s.dev.placeOf c.toNat p.addr.toNat = .own w → isBentSram w = true →
      let granted := (s.dev.nearClaim c.toNat e.seq e.cls .wr [w]).1
      let unpassed := fun (u : Txn) => { u with passed := 0, passedBy := [], delayed := false }
      (granted = false → ∃ t, exec (.storeBufferSend c f) s = .next t ∧ Keeps s t)
      ∧ (granted = true → w ∉ s.dev.poison → foundIn f 0 = .good →
        ∃ t, exec (.storeBufferSend c f) s = .next t ∧ t.mem = (MemOp.word w p.lanes p.tagWr p.word).apply s.mem ∧ t.pending = s.pending
          ∧ t.dev.core c.toNat = { k with stores := rest } ∧ t.dev.txns.map unpassed = s.dev.txns.map unpassed)
      ∧ (granted = true → w ∈ s.dev.poison ∨ foundIn f 0 = .uncorrectable → wholePart p = false → k.status = .running → k.entry = none →
        ∃ t, exec (.storeBufferSend c f) s = .next t ∧ t.mem = s.mem ∧ t.pending = s.pending ∧ (t.dev.core c.toNat).status = .stopped
          ∧ (t.dev.core c.toNat).trap = { valid := true, cause := 6#4, detail := 1#4, pc := e.pc, addr := e.addr, tagRes := 0xFF#8 }
          ∧ (t.dev.core c.toNat).regs = k.regs))
    ∧ (isDeck p.addr.toNat = true → s.dev.freeWay →
      ∃ t x, exec (.storeBufferSend c f) s = .next t ∧ t.mem = s.mem ∧ t.pending = s.pending
        ∧ (t.dev.core c.toNat).stores = { e with txn := some s.dev.nextId } :: rest ∧ (t.dev.core c.toNat).regs = k.regs
        ∧ t.dev.txns = s.dev.txns ++ [x] ∧ x.id = s.dev.nextId ∧ x.cls = e.cls ∧ x.parts = [p] ∧ x.st = .sent
        ∧ x.ty = (if e.tagOnly then .tw else .wr)))
  ∧ (∀ (s : State) (id : Nat) (t : Txn) (g : Nat × Nat),
    s.dev.txn id = some t → t.target = some g → t.waits = true → t.cls ≠ 0#2 → g.1 < 8 →
    (t.starved = false → t.since + 800 * (s.dev.span g.1).starve.toNat < s.dev.clk →
      ∃ u, exec (.deckStarve id) s = .next u ∧ u.mem = s.mem ∧ u.pending = s.pending ∧ u.dev.cores = s.dev.cores
        ∧ (u.dev.span g.1).starveReq = t.req ∧ (u.dev.span g.1).starveCnt = satInc (s.dev.span g.1).starveCnt
        ∧ (u.dev.txn id).map (·.starved) = some true ∧ u.dev.raising 608 g.1)
    ∧ (t.starved = true → exec (.deckStarve id) s = .next s))

/-! ### Queues (09_queues_and_crossings.md) -/

/-- PUSH, PUSHS, PUSHE and PUSHSE of one word, granted at an enabled queue that gives no notice and has a free word, where SAFE_HOLD does not
keep the requester out (R404): the word is stored whole at the write offset, a host's with the queue's push tag (R285). PUSHS opens an item,
completing the requester's own open one first; PUSH goes on with the requester's own open item; PUSHE completes it; PUSHSE opens and
completes one. The push is acknowledged; no core changes (R284, R286). -/
def Obligations.PushesStoreWords : Prop :=
  ∀ e ∈ ([(.push, 0, false, false), (.pushs, 1, true, false), (.pushe, 2, false, true), (.pushse, 3, true, true)] :
    List ((Nat → Instr) × Nat × Bool × Bool)),
  ∀ (s : State) (id n : Nat) (t : Txn) (p : WordPart),
    let q := s.dev.queue n
    let before := if e.2.2.1 && q.opened then q.ends ++ [q.wr] else q.ends
    s.dev.calm → s.dev.grants id t = true → s.dev.freeWay → s.dev.atPort t n e.2.1 = true → t.parts = [p] →
    s.dev.safeBlocks n t.req = false → q.free ≠ 0 → q.silent →
    (if e.2.2.1 then q.opened = false ∨ q.owner = t.req else q.opened = true ∧ q.owner = t.req ∧ q.droppers.contains t.req = false) →
    ∃ u, exec (e.1 id) s = .next u ∧ u.pending = s.pending ∧ u.dev.cores = s.dev.cores
      ∧ u.mem = (MemOp.whole (q.addr n q.wr) (q.pushed t.req p.word)).apply s.mem
      ∧ (u.dev.queue n).wr = q.wr + 1 ∧ (u.dev.queue n).rd = q.rd
      ∧ (u.dev.queue n).opened = !e.2.2.2 ∧ (e.2.2.2 = false → (u.dev.queue n).owner = t.req)
      ∧ (u.dev.queue n).ends = (if e.2.2.2 then before ++ [q.wr + 1] else before)
      ∧ (u.dev.txn id).map (·.st) = some (.answered (.ack t.dBit))

/-- POP of one word, granted at an enabled queue that gives no notice: the oldest unread word of a complete item, where it is not poisoned
and its stored and side bits are good, which a stream queue frees and a ledger queue keeps until RELEASE; a poisoned word is removed all the
same, and answered ERROR (R291); on a queue with none, payload 0 with tag E0h (R284, R290, R295). ITEMLEN, SPACE and STATUS read the next
item's unread words, the free words and QUE_STAT. MARK, REWIND and RELEASE at a ledger queue: MARK keeps the read offset, REWIND goes back
to the mark, RELEASE of 0, or of more items than lie before the mark, frees the words up to the mark, and of n items their words; at a
stream queue they do nothing. Ones written to FLUSH of an enabled queue's QUE_CTL, by any requester, empty it, and FLUSH reads 1 until
QUEUE_FLUSH_DONE (R294, R295, R297). -/
def Obligations.QueueReadsAndLedgers : Prop :=
  (∀ (s : State) (id n : Nat) (t : Txn) (f : Finds),
     let q := s.dev.queue n
     let a := q.addr n q.rd
     let keeps := fun u : State => u.mem = s.mem ∧ u.pending = s.pending ∧ u.dev.cores = s.dev.cores
     let answers := fun (u : State) (w : Word) => keeps u ∧ (u.dev.txn id).map (·.st) = some (.answered (.data t.dBit [w]))
     let taken := fun u : State => (u.dev.queue n).rd = q.rd + 1 ∧ (u.dev.queue n).wr = q.wr
       ∧ (u.dev.queue n).rl = (if q.ledger then q.rl else q.rd + 1)
     s.dev.calm → s.dev.grants id t = true → s.dev.freeWay → t.parts = [] → t.count = 1 → q.silent →
     (s.dev.atPort t n 4 = true → q.closedEnd ≤ q.rd →
       ∃ u, exec (.pop id f) s = .next u ∧ answers u { pay := 0#32, tag := 0xE0#8 } ∧ u.dev.queue n = q)
     ∧ (s.dev.atPort t n 4 = true → q.rd < q.closedEnd → a ∉ s.dev.poison → sideId a ∉ s.dev.poison →
       foundIn f 0 = .good → foundIn f 1 = .good → ∃ u, exec (.pop id f) s = .next u ∧ answers u (Memory.word s.mem a) ∧ taken u)
     ∧ (s.dev.atPort t n 4 = true → q.rd < q.closedEnd → a ∈ s.dev.poison →
       ∃ u, exec (.pop id f) s = .next u ∧ keeps u ∧ (u.dev.txn id).map (·.st) = some (.answered (.error 0#4 t.addr)) ∧ taken u)
     ∧ (s.dev.atPort t n 5 = true → ∃ u, exec (.itemlen id) s = .next u ∧ answers u q.itemLen ∧ u.dev.queue n = q)
     ∧ (s.dev.atPort t n 6 = true → ∃ u, exec (.space id) s = .next u
       ∧ answers u { pay := BitVec.ofNat 32 (2 ^ (8 + q.size.toNat) - (q.wr - q.rl)), tag := 0x20#8 } ∧ u.dev.queue n = q)
     ∧ (s.dev.atPort t n 7 = true → ∃ u, exec (.status id) s = .next u ∧ answers u { pay := q.stat, tag := 0x00#8 } ∧ u.dev.queue n = q))
  ∧ (∀ (s : State) (id n : Nat) (t : Txn) (p : WordPart),
       let q := s.dev.queue n
       let acked := fun (u : State) => u.mem = s.mem ∧ u.pending = s.pending ∧ u.dev.cores = s.dev.cores
         ∧ (u.dev.txn id).map (·.st) = some (.answered (.ack t.dBit))
       let cnt := p.word.pay.toNat
       let marked := q.ends.filter (fun e => decide (e ≤ q.mkOff))
       (s.dev.calm → s.dev.grants id t = true → s.dev.freeWay → t.parts = [p] → q.silent →
         (s.dev.atPort t n 8 = true → ∃ u, exec (.mark id) s = .next u ∧ acked u
           ∧ u.dev.queue n = if q.ledger then { q with mkOff := q.rd } else q)
         ∧ (s.dev.atPort t n 9 = true → ∃ u, exec (.rewind id) s = .next u ∧ acked u
           ∧ u.dev.queue n = if q.ledger then { q with rd := q.mkOff } else q)
         ∧ (s.dev.atPort t n 10 = true → ∃ u, exec (.release id) s = .next u ∧ acked u ∧ (u.dev.queue n).rd = q.rd
           ∧ (u.dev.queue n).rl = if q.ledger then (if cnt = 0 ∨ marked.length < cnt then q.mkOff else marked.getD (cnt - 1) q.mkOff) else q.rl))
       ∧ (∀ x : BitVec 10, (s.dev.queue x.toNat).flushing = true →
         Yields s (.queueFlushDone x) (s.dev.onQueue x.toNat (fun y => { y with flushing := false })))
       ∧ (∀ (x : BitVec 10) (req : ReqId) (v : W32), let y := s.dev.queue x.toNat
         s.dev.calm → v.getLsbD 0 = true → y.en = true → y.silent →
         ∃ u, exec (.queCtlFlush req x v) s = .next u ∧ u.mem = s.mem ∧ u.pending = s.pending ∧ u.dev.cores = s.dev.cores
           ∧ (u.dev.queue x.toNat).rd = y.wr ∧ (u.dev.queue x.toNat).rl = y.wr ∧ (u.dev.queue x.toNat).ends = []
           ∧ (u.dev.queue x.toNat).opened = false ∧ (u.dev.queue x.toNat).flushing = true))

/-! ### Bent interrupt unit (06_bent_interrupt_unit.md) -/

/-- BIU_OFFER: the one pending source of an awake bent, enabled, is offered to the slot that the choice of R199 picks for it, where that slot holds no
offer. INTERRUPT_ENTRY of a core, awake, that may accept the source offered to it and for whose vector no line is being loaded (R145, R201, R202,
R472): the core runs at the source's vector with the source's priority and no register changes; a running core's frame is pushed first (R82). Unless
an older load to g28 to g31 is outstanding on a running core, the source is CLAIMED and its entry lies on the slot's priority stack; with one, the
entry stays in progress and the source ENTERING. TAKEOVER (R146, R198): a source that may pre-empt the one being entered takes the entry: the core
goes to its vector with its priority, its frames unchanged, and the displaced source is PENDING again. In BIU_OFFER and TAKEOVER nothing waits in
Keystone and the bent has no switch to apply. -/
def Obligations.SourcesReachTheCores : Prop :=
  ((∀ (s : State) (b : BentId) (n i : Nat), s.dev.calm → (s.dev.bent b.toNat).asleep = false → (s.dev.bent b.toNat).sw = [] →
     n < 256 → n ∈ (s.dev.bent b.toNat).biu.src.map (·.1) → (s.dev.source b.toNat n).st = .pending → (s.dev.source b.toNat n).en = true →
     (∀ m, m ≠ n → (s.dev.source b.toNat m).st ≠ .pending) →
     s.dev.chooseSlot b.toNat n = some i → s.dev.offeredTo b.toNat i = none →
     ∃ t, exec (.biuOffer b) s = .next t ∧ t.mem = s.mem ∧ t.pending = s.pending ∧ t.dev.cores = s.dev.cores
       ∧ t.dev.source b.toNat n = { s.dev.source b.toNat n with st := .offered (BitVec.ofNat 4 i) })
   ∧ (∀ (s : State) (c : CoreId) (n : Nat),
     let k := s.dev.core c.toNat
     let b := bentOf c.toNat
     let x := s.dev.source b n
     let waits := k.status = .running ∧ ∃ r, r ∈ [28, 29, 30, 31] ∧ k.killDiv.loadPending r = true
     n < 192 → s.dev.offeredTo b (slotOf c.toNat) = some n → s.dev.mayAccept c.toNat = true → s.dev.coreStill c.toNat = false →
     (∀ e ∈ k.vecReq, e.1 ≠ lineOf x.vec) →
     ∃ t, exec (.interruptEntry c .whole) s = .next t ∧ t.mem = s.mem ∧ t.pending = s.pending
       ∧ (t.dev.core c.toNat).status = .running ∧ (t.dev.core c.toNat).pc = x.vec ∧ (t.dev.core c.toNat).psr.curPri = x.pri
       ∧ (t.dev.core c.toNat).serving = some (BitVec.ofNat 8 n) ∧ (t.dev.core c.toNat).wake = s.dev.timeAt b
       ∧ (t.dev.core c.toNat).regs = k.regs
       ∧ (t.dev.core c.toNat).frames = (if k.status = .running then k.killDiv.frame :: k.frames else k.frames)
       ∧ (¬ waits → (t.dev.core c.toNat).entry = none ∧ (t.dev.source b n).st = .claimed (BitVec.ofNat 4 (slotOf c.toNat))
         ∧ ∃ e, (t.dev.bent b).biu.stack (slotOf c.toNat) = e :: (s.dev.bent b).biu.stack (slotOf c.toNat)
           ∧ e.src = BitVec.ofNat 8 n ∧ e.pri = x.pri ∧ e.stamp = x.stamp)
       ∧ (waits → (t.dev.core c.toNat).entry.map (·.src) = some (BitVec.ofNat 8 n)
         ∧ (t.dev.source b n).st = .entering (BitVec.ofNat 4 (slotOf c.toNat)))))
  ∧ (∀ (s : State) (c : CoreId) (e : EntryRec) (n : Nat),
       let k := s.dev.core c.toNat
       let b := bentOf c.toNat
       s.dev.calm → (s.dev.bent b).sw = [] → k.entry = some e → s.dev.offeredTo b (slotOf c.toNat) = some n → n < 192 → n ≠ e.src.toNat →
       k.psr.i = true → (s.dev.source b n).pri.toNat + (s.dev.bent b).biu.preMargin.toNat < (s.dev.source b e.src.toNat).pri.toNat →
       ∃ t, exec (.takeover c) s = .next t ∧ t.mem = s.mem ∧ t.pending = s.pending
         ∧ (t.dev.core c.toNat).pc = (s.dev.source b n).vec ∧ (t.dev.core c.toNat).psr.curPri = (s.dev.source b n).pri
         ∧ (t.dev.core c.toNat).entry.map (·.src) = some (BitVec.ofNat 8 n) ∧ (t.dev.core c.toNat).frames = k.frames
         ∧ (t.dev.source b e.src.toNat).st = .pending)

/-- ALARM_MATCH of a comparator below 24 in ONCE whose CMP lies at or before TIME sets the latch of its source and disarms it (R208); TIMEBASE_PULSE
at a multiple of its period, while the timebase counts, sets source 176 + k of every bent whose clock runs and whose line is free (R192, R302, R305);
BIU_SWSET sets the latches that its ones name and BIU_ALMCMP writes a comparator and arms it in ONCE and PERIODIC (R208, R213); CORE_UNGATE_DONE makes
the wanted slot WAITING (R206). -/
def Obligations.LatchesAndAlarms : Prop :=
  (∀ (s : State) (b : BentId) (k : BitVec 5), k.toNat < 24 → ((s.dev.bent b.toNat).biu.alarm k.toNat).mode = 1#2 →
    ((s.dev.bent b.toNat).biu.alarm k.toNat).armed = true → before (s.dev.timeAt b.toNat) ((s.dev.bent b.toNat).biu.alarm k.toNat).cmp = false →
    ∃ t, exec (.alarmMatch b k) s = .next t ∧ t.mem = s.mem ∧ t.pending = s.pending ∧ t.dev.cores = s.dev.cores
      ∧ (t.dev.source b.toNat (64 + k.toNat)).level = true ∧ ((t.dev.bent b.toNat).biu.alarm k.toNat).armed = false)
  ∧ (∀ (s : State) (k : BitVec 2), s.dev.tbCounts = true → s.dev.tb.toNat % pulseTicks k = 0 →
    ∃ t, exec (.timebasePulse k) s = .next t ∧ t.mem = s.mem ∧ t.pending = s.pending ∧ t.dev.cores = s.dev.cores
      ∧ ∀ b, b < 128 → Tab.find 0 (s.dev.xing b).lines (176 + k.toNat) = 0 → (s.dev.xing b).hold = false → (t.dev.source b (176 + k.toNat)).level = true)
  ∧ (∀ (s : State) (req : ReqId) (b : BentId) (v : W32),
    ∃ t, exec (.biuSwset req b v) s = .next t ∧ t.mem = s.mem ∧ t.pending = s.pending ∧ t.dev.cores = s.dev.cores
      ∧ ∀ j, j < 8 → v.getLsbD j = true → (t.dev.source b.toNat (184 + j)).level = true)
  ∧ (∀ (s : State) (req : ReqId) (b : BentId) (k : BitVec 5) (v : W32), k.toNat < 24 →
    Yields s (.biuAlmcmpWrite req b k v) (s.dev.onBiu b.toNat (fun u => u.onAlarm k.toNat (fun a =>
      { a with cmp := v, armed := decide (a.mode = 1#2 ∨ a.mode = 2#2) }))))
  ∧ (∀ (s : State) (b : BentId) (slot : SlotId) (n : Nat), n ∈ (s.dev.bent b.toNat).biu.src.map (·.1) →
    s.dev.wantsSlot b.toNat slot.toNat n = true →
    ∃ t, exec (.coreUngateDone b slot) s = .next t ∧ t.mem = s.mem ∧ t.pending = s.pending ∧ t.dev.bents = s.dev.bents
      ∧ (t.dev.core (coreOf b.toNat slot.toNat)).status = .waiting
      ∧ ∀ i, i ≠ coreOf b.toNat slot.toNat → t.dev.core i = s.dev.core i)

/-! ### Scribe (05_speed_voltage_scribe.md) -/

/-- Of an awake bent in service: DEADLINE_MISS of an iteration past its deadline, which no RETI has left open, counts in its slack entry, once, is
raised by the bent's source and, for a safety loop, by SAFETY_MISS, and asks for ten codes more where the Scribe moves the bent's code (R169, R170).
NEAR_MISS of a physical slot counts (R171), and asks for one code more unless the bent is at code 100 or its last request still waits; else the
stage's matched delay is lengthened by one, unless it is at 15; else the bent, if at code 100, is unable (R187). TIMING_LATE counts, lengthens the
stage's delay by two codes, at most 15, and is raised (R172). A control period takes the monitored code over and, outside a slew, K as the ratio of
the process monitor's count to the graded count (R163); in a slew K stays. A budget evaluation outside the sleep states takes the estimates over and
grants a bent that the Scribe moves, and whose VALUE cell takes the grant, never more than its request or its floor, and a tier-0 bent its request
(R182); a bent granted less than it requests is held (R183). At the end of its slew the granted code is the bent's actual one (log entry 101). A
monitored code more than 3 from the grant outside a slew makes the bent unable and is raised, once while it stands (R186, R438). A sample puts 32
readings (R165; in P0 with no sleep being negotiated). The code that a raise adds to is the model's reading (log entry 107). -/
def Obligations.TimingEventsAndMeasurements : Prop :=
  (∀ (s : State) (b : BentId), s.dev.bentStill b.toNat = false →
     let a := (s.dev.bent b.toNat).scr
     (∀ (slot : SlotId) (entry : BitVec 2), let e := a.entry slot.toNat entry.toNat
       s.dev.isMiss b.toNat e = true → e.opened = none →
       ∃ t, exec (.deadlineMiss b slot entry) s = .next t ∧ t.mem = s.mem ∧ t.pending = s.pending ∧ t.dev.cores = s.dev.cores
         ∧ (t.dev.bent b.toNat).scr.entry slot.toNat entry.toNat = { e with miss := satInc e.miss, missed := true }
         ∧ t.dev.raising (128 + b.toNat) b.toNat ∧ (e.safety = true → t.dev.raising 752 b.toNat)
         ∧ (t.dev.bent b.toNat).scr.request.toNat
           = if s.dev.scrLive b.toNat = true then a.asked (a.presentCode + 10) else a.request.toNat)
     ∧ (∀ (p : BitVec 5) (st : Stage), p.toNat < 17 →
       let raises := s.dev.scrLive b.toNat = true ∧ a.presentCode < 100 ∧ a.request.toNat ≤ a.grant.toNat
       (∃ t, exec (.nearMiss b p st) s = .next t ∧ t.mem = s.mem ∧ t.pending = s.pending ∧ t.dev.cores = s.dev.cores
         ∧ (t.dev.bent b.toNat).scr.near = satInc a.near ∧ (t.dev.bent b.toNat).scr.late = a.late
         ∧ (raises → (t.dev.bent b.toNat).scr.request.toNat = a.asked (a.presentCode + 1) ∧ (t.dev.bent b.toNat).scr.delay st = a.delay st)
         ∧ (¬ raises → ((t.dev.bent b.toNat).scr.delay st).toNat = min 15 ((a.delay st).toNat + 1))
         ∧ (¬ raises → a.delay st = 15#4 → 100 ≤ a.actual.toNat → (t.dev.bent b.toNat).scr.unable = true))
       ∧ (∃ t, exec (.timingLate b p st) s = .next t ∧ t.mem = s.mem ∧ t.pending = s.pending ∧ t.dev.cores = s.dev.cores
         ∧ (t.dev.bent b.toNat).scr.late = satInc a.late ∧ (t.dev.bent b.toNat).scr.near = a.near
         ∧ ((t.dev.bent b.toNat).scr.delay st).toNat = min 15 ((a.delay st).toNat + 2) ∧ t.dev.raising 512 b.toNat))
     ∧ (∀ (act : BitVec 7) (n : BitVec 16), act.toNat ≤ 100 →
       ∃ t, exec (.scribeControlPeriod b act n) s = .next t ∧ t.mem = s.mem ∧ t.pending = s.pending ∧ t.dev.cores = s.dev.cores
         ∧ (t.dev.bent b.toNat).scr.actual = act
         ∧ (a.slew = true → (t.dev.bent b.toNat).scr.k = a.k)
         ∧ (a.slew = false → 0 < a.oscAt act.toNat →
           (t.dev.bent b.toNat).scr.k.toNat = min 0xFFFF (n.toNat * 327680 / a.oscAt act.toNat)))
     ∧ (∀ code : BitVec 7, a.slew = false → a.grant.toNat + 3 < code.toNat ∨ code.toNat + 3 < a.grant.toNat →
       ∃ t, exec (.regFault b code) s = .next t ∧ t.mem = s.mem ∧ t.pending = s.pending ∧ t.dev.cores = s.dev.cores
         ∧ (t.dev.bent b.toNat).scr.actual = code ∧ (t.dev.bent b.toNat).scr.unable = true
         ∧ (a.strayed = false → t.dev.raising 514 b.toNat)))
  ∧ (∀ (s : State) (fixed : Nat) (pest : List (BentId × BitVec 16)), s.dev.pwr.pstate.toNat < 2 →
     ∃ t, exec (.budgetEvaluation fixed pest) s = .next t ∧ t.mem = s.mem ∧ t.pending = s.pending ∧ t.dev.cores = s.dev.cores
       ∧ t.dev.pwr.pest = BitVec.ofNat 32 (fixed + (List.range 128).foldl (fun n b => n + (t.dev.bent b).scr.pest.toNat) 0)
       ∧ ∀ b, b < 128 →
         let a := (s.dev.bent b).scr
         let a' := (t.dev.bent b).scr
         a'.pest = pest.foldl (fun v e => if e.1.toNat = b then e.2 else v) a.pest ∧ a'.request = a.request
         ∧ (s.dev.scrLive b = true → (s.dev.xing b).hold = false → (s.dev.xing b).frozen = false →
           a'.grant.toNat ≤ max a.floor.toNat a.request.toNat ∧ a'.held = decide (a'.grant.toNat < a.request.toNat)
           ∧ (s.dev.tierOf b = 0 → a'.grant = a.request)))
  ∧ (∀ (s : State) (b : BentId), (s.dev.bent b.toNat).scr.slew = true →
     Yields s (.regulatorSlewDone b) (s.dev.onScr b.toNat (fun a => { a with slew := false, actual := a.grant, strayed := false })))
  ∧ (∀ (s : State) (r : List (Bool × BitVec 16)), r.length = 32 → s.dev.pwr.pstate = 0#3 → s.dev.pwr.nego = none →
     ∃ t, exec (.sensorSample r) s = .next t ∧ t.mem = s.mem ∧ t.pending = s.pending ∧ t.dev.cores = s.dev.cores
       ∧ t.dev.temps = (List.range 32).zip r)

/-! ### SRAM, code store, DDR5 (08_memories.md) -/

/-- SCRUB_READ of a bent's awake SRAM, of a word that is not known as poisoned and not yet read in the pass, in a bank that no request waits for
(R251): a corrected error counts in its bank; an uncorrectable one counts, is recorded with KIND 1 and poisons its word (R243, R244, R253, R256).
ROW_REPAIR_SWITCH ends the repair of the bank's first row under repair (R253). SPARE_RECORD_WRITE, while Keystone's firmware runs, writes what the
part holds as the record in force, with the next sequence number (R261). None of these changes a memory cell. The write sequencer (R257, R263, R264,
R267): Keystone's CST_WRITE and CST_ERASE take up a line of code store, in a bank that holds no bound paced image, while the sequencer is idle, and
send its words to the bank's slice as C1 transactions of requester 806h (R221, R222; two WRs: the model's choice, log entry 138); the acknowledgement
of the last of them has the bank write the line; a bank write that reads back as written puts the line's words into code store with no other byte
touched; the invalidation of a line that is part of no copy and was not remapped makes the sequencer idle with RESULT 0 and the line in no cache. -/
def Obligations.SramErrorsAndCodeStore : Prop :=
  (∀ (s : State) (b : BentId) (off : BitVec 20) (bit : BitVec 6) (bank : BitVec 3),
     let x := (s.dev.bent b.toNat).sram
     let w := 0x04000000 + b.toNat * 0x10000 + off.toNat % 0x10000
     let k := off.toNat / 0x2000 % 8
     let y := x.bank bank.toNat
     (x.scren = true → s.dev.wordAsleep w = false → w ∉ s.dev.poison → s.dev.bankWanted (.bent b) k = false →
       off.toNat ∉ s.dev.scrubbedIn (.bent b) k →
       (∃ t, exec (.scrubRead (.bent b) off (.single bit)) s = .next t ∧ t.mem = s.mem ∧ t.pending = s.pending ∧ t.dev.cores = s.dev.cores
         ∧ t.dev.poison = s.dev.poison ∧ ((t.dev.bent b.toNat).sram.bank k).ce = satInc (x.bank k).ce)
       ∧ (∃ t, exec (.scrubRead (.bent b) off .uncorrectable) s = .next t ∧ t.mem = s.mem ∧ t.pending = s.pending ∧ t.dev.cores = s.dev.cores
         ∧ t.dev.poison = s.dev.poison ++ [w] ∧ ((t.dev.bent b.toNat).sram.bank k).ue = satInc (x.bank k).ue
         ∧ (t.dev.bent b.toNat).sram.errAddr = BitVec.ofNat 32 w ∧ (t.dev.bent b.toNat).sram.kind = 1#4 ∧ (t.dev.bent b.toNat).sram.req = 0xFFF#12))
     ∧ (∀ r rest, y.repairing = r :: rest →
       ∃ t, exec (.rowRepairSwitch (.bent b) bank) s = .next t ∧ t.mem = s.mem ∧ t.pending = s.pending ∧ t.dev.cores = s.dev.cores
         ∧ ((t.dev.bent b.toNat).sram.bank bank.toNat).used = y.used + 1#8
         ∧ ((t.dev.bent b.toNat).sram.bank bank.toNat).repaired = y.repaired ++ [r])
     ∧ (s.dev.ks.firmware = true → s.dev.ks.kbusy = false →
       ∃ t, exec .spareRecordWrite s = .next t ∧ t.mem = s.mem ∧ t.pending = s.pending ∧ t.dev.cores = s.dev.cores
         ∧ t.dev.spareRec = { s.dev.recordNow with good := true, seq := s.dev.spareRec.seq + 1 }))
  ∧ (∀ (s : State),
       let a := s.dev.ws.addr.toNat
       let idle := s.dev.ws.phase = .idle ∧ isCode a = true ∧ a % 16 = 0 ∧ (s.dev.span (codeSlice a)).pacedBank.getLsbD (codeBank a) = false
       let takes := fun (i : Instr) (ws : List W32) => ∃ t, exec i s = .next t ∧ Keeps s t ∧ t.dev.ws.phase = .sending
         ∧ t.dev.ws.line = a / 16 ∧ t.dev.ws.words = ws
         ∧ (∀ x ∈ t.dev.txns, x.ty = .wr ∧ x.req = 0x806#12 ∧ x.cls = 1#2 ∧ x.st = .sent)
         ∧ (t.dev.txns.flatMap (fun x => x.parts)).map (fun p => (p.addr.toNat, p.lanes, p.word.pay))
           = (List.range 16).map (fun i => (a + i, 0xF#4, ws.getD i 0#32))
       (idle → s.dev.deckIdle → takes (.cstWrite ksReq) ((List.range 16).map (fun i => Tab.find 0#32 s.dev.ws.buf i)))
       ∧ (idle → s.dev.deckIdle → takes (.cstErase ksReq) (List.replicate 16 0xFFFFFFFF#32))
       ∧ (∀ id x d, s.dev.txn id = some x → x.origin = .sequencer → x.st = .answered (.ack d) → s.dev.freeWay → s.dev.calm →
         (∀ y ∈ s.dev.txns, y.origin = .sequencer → y.id = id) → s.dev.ws.phase = .sending →
         ∃ t, exec (.deckAckReturn id) s = .next t ∧ t.mem = s.mem ∧ t.pending = s.pending ∧ t.dev.ws.phase = .writing
           ∧ t.dev.ws.line = s.dev.ws.line ∧ t.dev.ws.words = s.dev.ws.words)
       ∧ (s.dev.ws.phase = .writing → s.dev.ws.words.length = 16 → isCode (16 * s.dev.ws.line) = true → Memory.wf s.mem = true →
         ∃ t, exec (.cstBankWriteDone true) s = .next t ∧ SameUnits s t ∧ t.dev.ws.phase = .invalidating
           ∧ (∀ i, i < 16 → (Memory.code t.mem (16 * s.dev.ws.line + i)).pay = s.dev.ws.words.getD i 0#32)
           ∧ (∀ key, key < 128 * s.dev.ws.line ∨ 128 * s.dev.ws.line + 128 ≤ key → Memory.get t.mem key = Memory.get s.mem key))
       ∧ (s.dev.ws.phase = .invalidating → s.dev.ks.copies = [] → s.dev.ws.remap = false →
         ∃ t, exec .cstInvalidateDone s = .next t ∧ t.mem = s.mem ∧ t.pending = s.pending ∧ t.dev.ws.phase = .idle ∧ t.dev.ws.result = 0#3
           ∧ (∀ b, lineIn (t.dev.bent b).lineCache s.dev.ws.line = none)
           ∧ ∀ c, lineIn (t.dev.core c).lineBuf s.dev.ws.line = none ∧ (t.dev.core c).regs = (s.dev.core c).regs))

/-- DDR5 by itself (R274, R276 to R280, R529). DDR_TAGINIT_DONE ends the wait for its first region's carve-out, whose bytes are then those of the
fill. A patrol scrub, enabled, of a line below the capacity of a good channel for which no access waits and which the pass has not read: a corrected
burst in a line with no poisoned word counts; an uncorrectable one counts, is recorded with its address and raised. A soft repair of a row that is due
counts and lists it where there is room, and is DDR_PPRFULL where there is none. In RUN and DEGRADED the temperature of a ready channel is read, and a
PMIC's status on its alert; a channel that fails in service is no longer READY and stands raised. -/
def Obligations.DdrEvents : Prop :=
  ∀ (s : State) (ch : ChanId),
    let x := s.dev.ddr ch.toNat
    (∀ r rest, x.tagInit = r :: rest → ∃ t, exec (.ddrTaginitDone ch) s = .next t ∧ t.mem = s.mem.filter (fun e =>
        decide (e.1 < ddrKey (256 * ch.toNat + r) 0x18000000) || decide (ddrKey (256 * ch.toNat + r) 0x1E000000 ≤ e.1))
      ∧ SameUnits s t ∧ (t.dev.ddr ch.toNat).tagInit = rest ∧ (t.dev.ddr ch.toNat).tagFill = setBit x.tagFill r true)
    ∧ (∀ (line : BitVec 31) (loc : BitVec 7), let r := 256 * ch.toNat + line.toNat / 0x800000 % 256
      x.live = true → x.scrubEn = true → line.toNat / 0x800000 < fieldOf x.cfg 8 0 → s.dev.chanWanted ch.toNat = false →
      line.toNat ∉ x.patrolDone s.dev.clk →
      (∀ bit : BitVec 6, (s.dev.lineMarks r (line.toNat % 0x800000 * 16)).any s.dev.poisoned = false →
        ∃ t, exec (.ddrPatrolScrub ch line loc (.single bit)) s = .next t ∧ t.mem = s.mem ∧ t.pending = s.pending ∧ t.dev.cores = s.dev.cores
          ∧ (t.dev.ddr ch.toNat).ce = satInc x.ce ∧ t.dev.poison = s.dev.poison)
      ∧ (∃ t, exec (.ddrPatrolScrub ch line loc .uncorrectable) s = .next t ∧ t.mem = s.mem ∧ t.pending = s.pending
          ∧ t.dev.cores = s.dev.cores ∧ (t.dev.ddr ch.toNat).ue = satInc x.ue
          ∧ (t.dev.ddr ch.toNat).errAddr = BitVec.ofNat 37 (64 * (line.toNat / 0x800000 % 256 * 0x800000 + line.toNat % 0x800000))
          ∧ t.dev.raising 578 ch.toNat))
    ∧ (∀ (row : Nat) (dimm : Bool), x.live = true → row ∈ x.due →
      (∃ t, exec (.ddrSoftPpr ch row dimm true) s = .next t ∧ t.mem = s.mem ∧ t.pending = s.pending ∧ t.dev.cores = s.dev.cores
        ∧ (t.dev.ddr ch.toNat).soft = satInc x.soft ∧ (t.dev.ddr ch.toNat).pend = satInc x.pend ∧ (t.dev.ddr ch.toNat).rows = x.rows ++ [row])
      ∧ (∃ t, exec (.ddrSoftPpr ch row dimm false) s = .next t ∧ t.mem = s.mem ∧ t.pending = s.pending ∧ t.dev.cores = s.dev.cores
        ∧ (t.dev.ddr ch.toNat).rows = x.rows ∧ t.dev.raising 579 ch.toNat))
    ∧ (∀ v : Byte, s.dev.mode.mode = mRun ∨ s.dev.mode.mode = mDegraded → x.ready = true →
      Yields s (.ddrTempPoll ch v) (s.dev.onDdr ch.toNat (fun y => { y with temp := v })))
    ∧ (∀ (dimm : Bool) (v : Byte), s.dev.mode.mode = mRun ∨ s.dev.mode.mode = mDegraded → x.ready = true →
      Yields s (.pmicAlert ch dimm v) (s.dev.onDdr ch.toNat (fun y => { y with pmic := Tab.put y.pmic (if dimm then 1 else 0) v })))
    ∧ (x.ready = true → ∃ t, exec (.ddrFail ch) s = .next t ∧ t.mem = s.mem ∧ t.pending = s.pending ∧ t.dev.cores = s.dev.cores
      ∧ (t.dev.ddr ch.toNat).ready = false ∧ (t.dev.ddr ch.toNat).failed = true ∧ t.dev.raising 580 ch.toNat)

/-! ### Command packets (11_command_packets.md) -/

/-- The checks of R343 in their order, shown on QUE_CREATE, which every one of them concerns: a bad header, a UNIT above 0Fh, an opcode that
is unknown, a wrong length, a reserved flag, a mode that does not allow it, the semaphore not held, an uncleared STOP latch. Each answers
its own status, and the command has no other effect but that the next turn begins behind its port (R342, R345). A reply at a port (R338, R339):
status, detail, SEQ, LENGTH and ELAPSED, then the payload words where the status admits one; BUSY is cleared and DONE set; vector 0 is not
sent with NOVEC, and else is sent on a PCI Express port that can send it and on which it is not pending. The reply changes no core, no bent
and nothing in Keystone. -/
def Obligations.RequestsAreCheckedAndAnswered : Prop :=
  (∀ (s : State) (p : Port),
     let d := s.dev
     let src : CmdSrc := .port p
     let answers := fun (st det : BitVec 16) => Yields s (.queCreate src) ((d.reply src st det []).taken src)
     let header := d.reqWord src 3 = 0#32 ∧ d.lenWord src % 4 = 0 ∧ d.lenWord src ≤ 4080
     d.takes src →
     (d.opcode src = 0x0501 ∨ d.opcode src ∉ opcodes) →
     (¬ header → answers 0x0201#16 1#16)
     ∧ (header → 16 ≤ d.unitByte src → d.unitByte src ≠ 0xFF → answers 0x0202#16 0xFFFF#16)
     ∧ (header → d.unitByte src = 0xFF → d.opcode src ∉ opcodes → answers 0x0200#16 0#16)
     ∧ (header → d.unitByte src = 0xFF → d.opcode src = 0x0501 →
       (d.lenWord src ≠ 8 → answers 0x0201#16 2#16)
       ∧ (d.lenWord src = 8 → (4 ≤ d.flagsByte src ∨ d.flagsByte src % 2 = 1) → answers 0x0202#16 0xFFFD#16)
       ∧ (d.lenWord src = 8 → d.flagsByte src < 4 → d.flagsByte src % 2 = 0 →
         (d.mode.mode ∉ [mCommission, mStandby, mRun, mDegraded] → answers 0x0203#16 (d.mode.mode.setWidth 16))
         ∧ (d.mode.mode ∈ [mCommission, mStandby, mRun, mDegraded] →
           (d.sem.holder = none → answers 0x0103#16 0x00FF#16)
           ∧ (d.sem.holder = some (otherPort p) → answers 0x0103#16 (if p = .a then 1#16 else 0#16))
           ∧ (d.sem.holder = some p → d.flt.atLeast 4 = true → answers 0x0400#16 (BitVec.ofNat 16 d.flt.source))))))
  ∧ (∀ (d : Dev) (p : Port) (st det : BitVec 16) (ws : List W32),
       let body := if st = stDone ∨ st = stDelayed ∨ st = stAccepted ∨ st = stRefCap then ws else []
       let r := d.reply (.port p) st det ws
       let x := r.port p
       x.busy = false ∧ x.done = true ∧ Tab.find 0#32 x.repBuf 0 = (det ++ st : BitVec 32) ∧ Tab.find 0#32 x.repBuf 1 = d.seqWord (.port p)
         ∧ Tab.find 0#32 x.repBuf 2 = BitVec.ofNat 32 (4 * body.length) ∧ Tab.find 0#32 x.repBuf 3 = elapsedUs (d.port p).dbAt d.clk
         ∧ (∀ i, i < body.length → Tab.find 0#32 x.repBuf (4 + i) = body.getD i 0#32)
         ∧ (d.noVec (.port p) = true → x.msixSent = (d.port p).msixSent ∧ x.pba = (d.port p).pba)
         ∧ (d.noVec (.port p) = false → d.isPcie p = true → (d.port p).pba.getLsbD 0 = false → (d.port p).canSend 0 = true → x.lastMsix = some 0#11)
         ∧ r.cores = d.cores ∧ r.bents = d.bents ∧ r.ks = d.ks)

/-- The commands that only report answer DONE with what they name (R352, R353, R364, R366 to R369) and change nothing else, but that the next turn
begins behind their place (R342): DEV_INFO, DEV_STATUS (whose temperature is a free value while no sensor is valid), MODE_GET, FLT_READ, VIA_STATUS.
SEC_ATTEST answers with the signed report once the security engine is free and has read what its SELECT names; until then the engine reads for it, and
the command waits (R462, R466). SPARE_STATUS, with every bent in service awake, and SCR_REPORT of an awake bent in service read over an idle Deck:
they answer their 136 and 10 words, and SCR_REPORT clears the fields of its words that a read clears (R9). -/
def Obligations.CommandsReport : Prop :=
  ∀ (s : State) (src : CmdSrc),
    let d := s.dev
    let answers := fun (i : Instr) (ws : List W32) => Yields s i ((d.reply src stDone 0#16 ws).taken src)
    (d.admits src { op := 0x0101, len := exact 0, modes := modesAll } → answers (.devInfo src) d.devInfo ∧ d.devInfo.length = 8)
    ∧ (d.admits src { op := 0x0102, len := exact 0, modes := modesAll } →
      Yields s (.devStatus src) ((d.hottest.2.reply src stDone 0#16 (d.hottest.2.devStatus d.hottest.1)).taken src)
        ∧ ((∃ e ∈ d.temps, e.2.1 = true) → d.hottest.2 = d))
    ∧ (d.admits src { op := 0x0202, len := exact 0, modes := modesAll } →
      answers (.modeGet src) [place d.mode.mode 0 ||| place d.mode.prev 8 ||| place d.mode.reason 16, d.mode.time])
    ∧ (d.admits src { op := 0x0701, len := exact 4, modes := modesAll } →
      (d.pay16 src 0).toNat + (d.pay16 src 2).toNat ≤ 768 →
      answers (.fltRead src) (d.statWord 2 :: wordsOfBytes ((List.range (d.pay16 src 2).toNat).map (fun i => d.flt.readByte ((d.pay16 src 0).toNat + i)))))
    ∧ (d.admits src { op := 0x0902, len := exact 0, modes := modesAll } →
      answers (.viaStatus src) (d.chain.up.report ++ d.chain.dn.report ++ [place d.chain.chainLen 0 ||| place d.chain.unit 8]))
    ∧ ((d.pay8 src 32).toNat < 16 → d.payZero src 33 36 = true →
      let x := d.engineFree
      let runs := d.measured s.mem (d.pay8 src 32)
      let spec : CmdSpec := { op := 0x0801, len := exact 36, modes := modesAll }
      let reports := Yields s (.secAttest src) (((x.strobe 0xF03).reply src stDone 0#16
        (wordsOfBytes (signedReport (x.report s.mem ((List.range 32).map (x.pay8 src)) (x.pay8 src 32))))).taken src)
      (d.admits src spec → d.engineIdle → runs = [] → reports)
      ∧ (d.admits src spec ∨ d.resumes src 0x0801 → d.engineReady src → reports)
      ∧ (d.admits src spec → d.engineIdle → runs ≠ [] →
        ∃ t, exec (.secAttest src) s = .next t ∧ Keeps s t ∧ t.dev.waiting src = true ∧ t.dev.sec.busy = true ∧ t.dev.sec.subject = some src))
    ∧ (d.admits src { op := 0x0B02, len := exact 0, modes := modesAll } → d.deckIdle →
      (∀ b, b < 128 → d.mode.bentOut.getLsbD b = false → d.wordAsleep (0x08200005 + 0x1000 * b) = false) →
      (∃ b, b < 128 ∧ d.mode.bentOut.getLsbD b = false) →
      Serves s (.spareStatus src) src (fun e => e.reply src stDone 0#16 e.spareStatus) ∧ d.spareStatus.length = 136)
    ∧ (d.admits src { op := 0x0602, len := exact 4, modes := modesAll } → (d.pay8 src 0).toNat < 128 → d.payZero src 1 4 = true → d.deckIdle →
      d.wordAsleep (0x08200800 + 0x1000 * (d.pay8 src 0).toNat) = false →
      Serves s (.scrReport src) src (fun e => let r := e.scrWords (d.pay8 src 0).toNat 10
                                              r.2.reply src stDone 0#16 r.1)
        ∧ (d.scrWords (d.pay8 src 0).toNat 10).1.length = 10
        ∧ (d.scrWords (d.pay8 src 0).toNat 10).1.head? = some (d.regRead ksReq (0x08200800 + 0x1000 * (d.pay8 src 0).toNat)).pay)

/-- LOOP_LOAD and SEC_IMAGE over an idle Deck (R222, R354, R367): a staged image whose words can be read and for which there is room, with no
ACCEPTED command of the source, no copy under way and the write sequencer idle, answers ACCEPTED, and Keystone reads the words of its copy's
first line in class C1. LOOP_BIND over an idle Deck, for an awake bent in service, of
declarations that pass every check and lack no resource (R355 to R357), with an image verified since BOOT and a unit table that can be read:
one more loop is bound, stopped, with a number that no other has; its trigger has its vector, priority and slot and is disabled; the reply
names the loop. -/
def Obligations.ImagesAndBindings : Prop :=
  (∀ (s : State) (src : CmdSrc),
     let d := s.dev
     let stage := (d.pay32 src 0).toNat
     let len := (d.pay32 src 4).toNat
     let n := (len + 63) / 64
     let sl := (d.pay8 src 8).toNat
     let ty := d.pay8 src 8
     stagedInSlice stage len = true → len ≠ 0 → len % 4 = 0 → d.running src = false → d.ks.copies = [] →
     (∀ i, 4 * i < len → stage + i ∉ d.poison) → d.deckIdle → d.wordAsleep stage = false → d.ws.phase = .idle →
     let begins := fun (t : State) (line : Nat) => ∃ ids, ids ≠ [] ∧ (∀ n ∈ ids, ∃ x ∈ t.dev.txns, x.id = n ∧ x.ty = .rd ∧ x.cls = 1#2 ∧ x.req = ksReq)
       ∧ t.dev.ks.copies = [{ src := src, stage := stage, dest := 16 * line, len := len, next := 0, asked := ids }]
     (d.admits src { op := 0x0301, len := exact 16, modes := modesCSRD, changes := true } → (sl < 8 ∨ sl = 255) → d.payZero src 9 16 = true →
       (∃ q ∈ d.slices sl, d.places n q ≠ []) →
       ∃ t line q, exec (.loopLoad src) s = .next t ∧ Keeps s t ∧ q ∈ d.slices sl ∧ line ∈ d.places n q
         ∧ (t.dev.ks.jobs.map (·.kind)) = [.loopLoad (BitVec.ofNat 32 (16 * line))] ∧ begins t line
         ∧ Replied s t src stAccepted 0#16 [BitVec.ofNat 32 (16 * line),
             BitVec.ofNat 32 (16 * line) + BitVec.ofNat 32 (payloadAt (laneOf (stagedWord s.mem stage len 1) 1) / 4) + stagedWord s.mem stage len 2])
     ∧ (d.admits src { op := 0x0802, len := exact 16, modes := modesCSRD, changes := true } → ty ∈ [1#8, 3#8, 4#8, 5#8] → (d.pay8 src 9).toNat < 2 →
       d.payZero src 10 16 = true → d.imagePlaces ty n ≠ [] → (d.span 0).pacedBank = 0#8 →
       ∃ t line, exec (.secImage src) s = .next t ∧ Keeps s t ∧ line ∈ d.imagePlaces ty n
         ∧ (t.dev.ks.jobs.map (·.kind)) = [.secImage (BitVec.ofNat 32 (16 * line)) ty ((d.pay8 src 9).getLsbD 0)] ∧ begins t line
         ∧ Replied s t src stAccepted 0#16 [BitVec.ofNat 32 (16 * line)]))
  ∧ (∀ (s : State) (src : CmdSrc) (i : Image),
       let d := s.dev
       let r := d.bindReq src
       d.admits src { op := 0x0302, len := loopBindLen, modes := modesCSRD, changes := true } → d.badBind r = none → d.bindShort r = none →
       d.freeNumbers ≠ [] → d.deckIdle → d.wordAsleep (0x08200000 + 0x1000 * r.bent) = false → (d.readTable r.bent r.unitId).1 = false →
       (∀ x ∈ d.tableReads r.bent r.unitId, d.wordAsleep x.addr.toNat = false) → d.image r.image = some i → i.verified = true →
       ∃ t l, exec (.loopBind src) s = .next t ∧ t.mem = s.mem ∧ t.pending = s.pending ∧ t.dev.ks.loops = d.ks.loops ++ [l]
         ∧ l.num.toNat ∈ d.freeNumbers ∧ l.image = r.image ∧ l.entry = i.entry ∧ l.core.toNat = r.coreId ∧ l.period = r.period ∧ l.deadline = r.deadline
         ∧ (r.trigger ≠ 255 → l.trigger.toNat = r.trigger) ∧ l.heldStop = false
         ∧ (t.dev.source r.bent l.trigger.toNat).vec = i.entry ∧ (t.dev.source r.bent l.trigger.toNat).pri = r.pri
         ∧ (t.dev.source r.bent l.trigger.toNat).mask = 1#16 <<< slotOf r.coreId ∧ (t.dev.source r.bent l.trigger.toNat).en = false
         ∧ Replied s t src stDone 0#16 l.report)

/-- Over an idle Deck, for bents that are awake and in service: LOOP_START of a stopped loop whose core has an idle moment enables its trigger and
makes its core ready (R358); LOOP_STOP disables it, at once with NOW or between iterations, and with UNBIND releases the loop (R359).
LOOP_UPDATE and LOOP_MIGRATE of a loop whose trigger's state is no switch point arm the switch of its slot with its trigger: an update with
the new entry, a migration without a vector; both answer ACCEPTED (R360, R361, R468, R473, R475). An update at a switch point is done at once:
the trigger has the new entry and the loop the new image (R468, R474). No memory cell changes. -/
def Obligations.LoopsRunAndSwitch : Prop :=
  (∀ (s : State) (src : CmdSrc) (l : Loop),
     let d := s.dev
     let c := l.core.toNat
     let f := d.pay8 src 2
     d.loop (d.pay16 src 0) = some l → d.deckIdle → d.wordAsleep (0x08200000 + 0x1000 * bentOf c) = false →
     (d.admits src { op := 0x0303, len := exact 8, modes := [mRun, mDegraded], changes := true } → d.payZero src 2 4 = true →
       (d.pay32 src 4 = 0#32 ∨ before d.time (d.pay32 src 4) = true) → d.started l = false → (d.core c).idleMoment = true →
       ∃ t, exec (.loopStart src) s = .next t ∧ t.mem = s.mem ∧ t.pending = s.pending ∧ t.dev.started l = true ∧ (t.dev.core c).status = .waiting
         ∧ (t.dev.core c).frames = [] ∧ (t.dev.core c).regs = [] ∧ Replied s t src stDone 0#16 [])
     ∧ (d.admits src { op := 0x0304, len := exact 4, modes := [mStandby, mRun, mDegraded, mSafeHold], changes := true, excepted := true } →
       f.toNat < 4 → d.pay8 src 3 = 0#8 →
       (f.getLsbD 0 = true →
         ∃ t, exec (.loopStop src) s = .next t ∧ t.mem = s.mem ∧ t.pending = s.pending ∧ t.dev.started l = false
           ∧ ((t.dev.core c).status = .stopped ∨ (t.dev.core c).status = .gated) ∧ Replied s t src stDone 0#16 []
           ∧ t.dev.ks.loops = (if f.getLsbD 1 then d.ks.loops.filter (fun x => x.num != l.num) else d.ks.loops))
       ∧ (f.getLsbD 0 = false → d.iterating l = false →
         ∃ t, exec (.loopStop src) s = .next t ∧ t.mem = s.mem ∧ t.pending = s.pending ∧ t.dev.started l = false ∧ Replied s t src stDone 0#16 []
           ∧ t.dev.ks.loops = (if f.getLsbD 1 then d.ks.loops.filter (fun x => x.num != l.num) else d.ks.loops))))
  ∧ (∀ (s : State) (src : CmdSrc) (l : Loop),
       let d := s.dev
       let c := l.core.toNat
       let b := bentOf c
       let addr := d.pay32 src 4
       let point := (d.source b l.trigger.toNat).st.switchNow
       let back := (d.source b l.trigger.toNat).st.mayReturn
       let w := fun t : State => (Tab.find {} (t.dev.bent b).sw (slotOf c) : Switch)
       d.loop (d.pay16 src 0) = some l → l.trigger.toNat < 192 → d.switchArmed c = false → d.running src = false → d.deckIdle →
       d.wordAsleep (0x08200000 + 0x1000 * b) = false →
       (∀ i, d.admits src { op := 0x0306, len := exact 8, modes := [mStandby, mRun, mDegraded], changes := true } → d.payZero src 2 4 = true →
         d.badUpdate l addr = false → d.imagePaced addr = false → d.image addr = some i → i.verified = true →
         (point = false →
           ∃ t, exec (.loopUpdate src) s = .next t ∧ t.mem = s.mem ∧ t.pending = s.pending ∧ Replied s t src stAccepted 0#16 []
             ∧ w t = { armed := true, since := d.clk, back := back, kind := false, src := l.trigger, vec := i.entry }
             ∧ t.dev.ks.jobs.map (·.kind) = [.update l.num addr])
         ∧ (point = true →
           ∃ t, exec (.loopUpdate src) s = .next t ∧ t.mem = s.mem ∧ t.pending = s.pending ∧ Replied s t src stAccepted 0#16 []
             ∧ (w t).armed = false ∧ t.dev.ks.jobs = [] ∧ (t.dev.source b l.trigger.toNat).vec = i.entry
             ∧ ∀ x ∈ t.dev.ks.loops, x.num = l.num → x.image = addr ∧ x.entry = i.entry))
       ∧ (d.admits src { op := 0x0305, len := exact 8, modes := [mStandby, mRun, mDegraded], changes := true } →
         d.badBind (d.moveReq src l) = none → l.movedOut (d.moveReq src l) = none → d.bindShort (d.moveReq src l) = none →
         d.wordAsleep (0x08200000 + 0x1000 * (d.moveReq src l).bent) = false → (d.readTable (d.moveReq src l).bent l.unitId).1 = false →
         (∀ x ∈ d.tableReads (d.moveReq src l).bent l.unitId, d.wordAsleep x.addr.toNat = false) → point = false →
         ∃ t g, exec (.loopMigrate src) s = .next t ∧ t.mem = s.mem ∧ t.pending = s.pending ∧ Replied s t src stAccepted 0#16 g.report
           ∧ w t = { armed := true, since := d.clk, back := back, kind := true, src := l.trigger, vec := 0#32 }
           ∧ t.dev.ks.jobs.map (·.kind) = [.migrate l.num g (d.started l) none] ∧ g.core.toNat = (d.moveReq src l).coreId ∧ g.num = l.num))

/-- Waits that end without their moment (R358, R359, R470, R483): LOOP_START after 10 ms and SPARE_SWAP after 100 ms end BUSY_PORT 0003h with no core,
bent or memory cell changed; LOOP_STOP after twice the period stops its core as NOW does; a switch that has waited too long is disarmed.
LIV_SWCTL arms a switch whose source's state is no switch point, and disarms one; LIV_LATCH sets the latch of a latched source, but for 88 to
95, which are never asserted (R207). All three act for Keystone alone (R468, R470, R476, R486). In the clauses on switches nothing waits in
Keystone. -/
def Obligations.WaitsEnd : Prop :=
  (∀ (s : State) (p : Port) (j : Job) (n : BitVec 16) (st : W32),
    s.dev.ks.jobs = [j] → j.src = .port p → j.kind = .loopStart n st → j.start + 8000000 ≤ s.dev.clk →
    ∃ t, exec (.loopStartTimeout n) s = .next t ∧ Keeps s t ∧ t.dev.bents = s.dev.bents ∧ Ended t p stBusyPort 3#16)
  ∧ (∀ (s : State) (p : Port) (j : Job) (l : Loop),
    s.dev.ks.jobs = [j] → j.src = .port p → j.kind = .loopStop l.num false → s.dev.loop l.num = some l → s.dev.iterating l = true →
    j.start + 64 * l.period.toNat ≤ s.dev.clk →
    ∃ t, exec (.loopStopTimeout l.num) s = .next t ∧ t.mem = s.mem ∧ t.pending = s.pending ∧ t.dev.started l = false
      ∧ ((t.dev.core l.core.toNat).status = .stopped ∨ (t.dev.core l.core.toNat).status = .gated))
  ∧ (∀ (s : State) (p : Port) (j : Job) (b : BentId) (ps fr : BitVec 5) (ls : SlotId),
    s.dev.ks.jobs = [j] → j.src = .port p → j.kind = .spareSwap b ps fr ls → j.since + 80000000 ≤ s.dev.clk →
    ∃ t, exec (.spareSwapTimeout b) s = .next t ∧ Keeps s t ∧ t.dev.bents = s.dev.bents ∧ Ended t p stBusyPort 3#16 ∧ t.dev.ks.swapResult = 2#3)
  ∧ (∀ (s : State) (b : BentId) (slot : SlotId),
    let w := fun t : State => (Tab.find {} (t.dev.bent b.toNat).sw slot.toNat : Switch)
    s.dev.calm →
    (s.dev.switchLate b.toNat slot.toNat = true → ∃ t, exec (.switchTimeout b slot) s = .next t ∧ Keeps s t ∧ (w t).armed = false)
    ∧ (∃ t, exec (.livSwctlDisarm ksReq b slot) s = .next t ∧ Keeps s t ∧ (w t).armed = false)
    ∧ (∀ kind src vec, src.toNat < 192 → (s.dev.source b.toNat src.toNat).st.switchNow = false →
      ∃ t, exec (.livSwctlArm ksReq b slot kind src vec) s = .next t ∧ Keeps s t
        ∧ w t = { armed := true, since := s.dev.clk, back := (s.dev.source b.toNat src.toNat).st.mayReturn, kind := kind, src := src, vec := vec })
    ∧ (∀ src : SrcId, isLatchedSrc src.toNat = true →
      (src.toNat < 88 ∨ 96 ≤ src.toNat → ∃ t, exec (.livLatch ksReq b src) s = .next t ∧ Keeps s t ∧ (t.dev.source b.toNat src.toNat).level = true)
      ∧ (88 ≤ src.toNat → src.toNat < 96 → Yields s (.livLatch ksReq b src) s.dev))
    ∧ (∀ (req : ReqId) kind src vec, req ≠ ksReq →
      Yields s (.livSwctlArm req b slot kind src vec) s.dev ∧ Yields s (.livSwctlDisarm req b slot) s.dev ∧ Yields s (.livLatch req b src) s.dev))

/-- MEM_READ and MEM_WRITE over an idle Deck of one word of Deck SRAM or of the bents' SRAM that is awake and not known as poisoned (R362): the read
answers DONE with the payload, and with TAGS the tag, also where it corrects an error (R243); an uncorrectable word ends it FAULT_ACTIVE
naming MEM_UE (R345). The write stores payload and tag, RAW without TAGS, whatever the word held, changes no other byte (see
WordWriteFrame) and answers DONE. -/
def Obligations.MemoryCommandsComplete : Prop :=
  ∀ (s : State) (src : CmdSrc) (f : Finds),
    let d := s.dev
    let w := (d.pay32 src 4).toNat
    let tags := (d.pay8 src 1).getLsbD 0
    d.pay8 src 0 = 0#8 → (d.pay8 src 1).toNat < 2 → d.pay16 src 2 = 1#16 → (isDeck w = true ∨ isBentSram w = true) → d.payZero src 10 12 = true →
    d.deckIdle → d.wordAsleep w = false → w ∉ d.poison →
    (d.admits src { op := 0x0401, len := exact 12, modes := modesAll, bulk := true } →
      (foundIn f 0 ≠ .uncorrectable →
        ∃ t, exec (.memRead src f) s = .next t ∧ Keeps s t ∧ (foundIn f 0 = .good → t.dev.bents = d.bents)
          ∧ Replied s t src stDone 0#16 ((Memory.word s.mem w).pay :: (if tags then [(Memory.word s.mem w).tag.setWidth 32] else [])))
      ∧ (foundIn f 0 = .uncorrectable → ∃ t, exec (.memRead src f) s = .next t ∧ Keeps s t ∧ Replied s t src stFaultActive 545#16 []))
    ∧ (d.admits src { op := 0x0402, len := memWriteLen, modes := modesAll, changes := true, excepted := true, bulk := true } →
      ∃ t, exec (.memWrite src f) s = .next t ∧ t.pending = s.pending ∧ t.dev.cores = d.cores ∧ t.dev.bents = d.bents
        ∧ t.mem = (MemOp.whole w { pay := d.pay32 src 12, tag := if tags then d.pay8 src 16 else 0#8 }).apply s.mem
        ∧ Replied s t src stDone 0#16 [])

/-- Over an idle Deck, for queues of an awake span: QUE_CREATE gives a queue that is not enabled a free block of its slice; QUE_CONFIG writes its
configuration, where no other enabled queue drives its source, or deletes it with DELETE; QUE_FLUSH empties it (R363, R281, R282, R293, R294).
Each answers DONE. -/
def Obligations.QueueCommandsComplete : Prop :=
  ∀ (s : State) (src : CmdSrc) (n : Nat),
    let d := s.dev
    let q := (d.pay16 src 0).toNat
    let size := (d.pay8 src 4).toNat
    let f := d.pay8 src 2
    d.deckIdle → (∀ k, (d.span k).asleep = false) →
    (d.admits src { op := 0x0501, len := exact 8, modes := modesCSRD, changes := true } →
      ((q = 0xFFFF ∧ (d.pay8 src 2).toNat < 8 ∧ d.freeQueue (d.pay8 src 2).toNat = some n) ∨ (q = n ∧ n < 1024 ∧ (d.queue n).en = false)) →
      (d.pay8 src 3).toNat < 2 → size ≤ 8 → d.payZero src 5 8 = true →
      (∃ i, i < 0x100000 / 2 ^ (8 + size) ∧ d.blockFree (n / 128) (2 ^ (8 + size) * i) (2 ^ (8 + size)) = true) →
      ∃ t off, exec (.queCreate src) s = .next t ∧ Keeps s t ∧ d.blockFree (n / 128) off (2 ^ (8 + size)) = true ∧ off % 2 ^ (8 + size) = 0
        ∧ off < 0x100000
        ∧ t.dev.queue n = { en := true, ledger := d.pay8 src 3 == 1#8, size := BitVec.ofNat 4 size, offset := BitVec.ofNat 20 off }
        ∧ Replied s t src stDone 0#16 [placeNat n 0, BitVec.ofNat 32 (0x01000000 + n / 128 * 0x100000 + off)])
    ∧ (d.admits src { op := 0x0502, len := exact 32, modes := modesCSRD, changes := true } → q < 1024 → (d.queue q).en = true → f.toNat < 64 →
      (f.getLsbD 5 = true → ∃ t, exec (.queConfig src) s = .next t ∧ Keeps s t ∧ t.dev.queue q = {} ∧ Replied s t src stDone 0#16 [])
      ∧ (f.getLsbD 5 = false → (d.pay8 src 6).toNat < 128 → (d.pay8 src 7).toNat < 64 →
        (f.getLsbD 1 = true → 16 ≤ (d.pay16 src 8).toNat ∧ (d.pay16 src 8).toNat ≤ 2047) →
        (f.getLsbD 4 = true → 1 ≤ (d.pay8 src 10).toNat ∧ (d.pay8 src 10).toNat ≤ 4) → d.pay8 src 11 = 0#8 →
        (f.getLsbD 0 = true → d.driver q ((d.pay8 src 6).setWidth 7) ((d.pay8 src 7).setWidth 6) = none) →
        ∃ t, exec (.queConfig src) s = .next t ∧ Keeps s t ∧ t.dev.queue q = d.configured src (d.queue q) ∧ Replied s t src stDone 0#16 []))
    ∧ (d.admits src { op := 0x0503, len := exact 4, modes := [mStandby, mRun, mDegraded, mSafeHold], changes := true } → q < 1024 →
      (d.queue q).en = true → d.payZero src 2 4 = true →
      ∃ t, exec (.queFlush src) s = .next t ∧ Keeps s t ∧ (t.dev.queue q).rd = (d.queue q).wr ∧ (t.dev.queue q).rl = (d.queue q).wr
        ∧ (t.dev.queue q).count = 0 ∧ (t.dev.queue q).opened = false ∧ (t.dev.queue q).flushing = false ∧ Replied s t src stDone 0#16 [])

/-- SCR_SET over an idle Deck writes the selected fields of one awake bent's agent, or of every awake bent's with BENT FFh (R364); FLT_ACK clears the
latches it names, or every one, and FLT_SEVERITY sets the severity of a source, of no effect on one that is not named (R366, R439, R444);
PLB_SELECT of a signal that may be selected sets a pin's selection, where the pin is not the sideband's (R368); PWR_STATE sets the ceiling, or begins
the negotiation of a sleep, which brings the ceiling with it (R365, R428). -/
def Obligations.SettingsAreWritten : Prop :=
  ∀ (s : State) (src : CmdSrc),
    let d := s.dev
    let b := (d.pay8 src 0).toNat
    let n := (d.pay16 src 0).toNat
    (d.admits src { op := 0x0601, len := exact 12, modes := modesCSRD, changes := true } → d.deckIdle →
      (b < 128 ∧ d.wordAsleep (0x08200000 + 0x1000 * b) = false) ∨ b = 255 →
      (d.pay8 src 1).toNat < 64 → ((d.pay8 src 1).getLsbD 0 = true → d.pay8 src 2 ≠ 0#8) →
      ((d.pay8 src 1).getLsbD 3 = true → (d.pay8 src 5).toNat < 2) → ((d.pay8 src 1).getLsbD 4 = true → (d.pay8 src 6).toNat ≤ 100) →
      ((d.pay8 src 1).getLsbD 5 = true → (d.pay8 src 7).toNat ≤ 100) → d.payZero src 8 12 = true →
      ∃ t, exec (.scrSet src) s = .next t ∧ Keeps s t ∧ Replied s t src stDone 0#16 []
        ∧ ∀ k, let named := (k = b ∧ b < 128) ∨ (b = 255 ∧ k < 128 ∧ d.wordAsleep (0x08200000 + 0x1000 * k) = false)
          (named → (t.dev.bent k).scr = d.scrFields src (d.bent k).scr) ∧ (¬ named → t.dev.bent k = d.bent k))
    ∧ (d.admits src { op := 0x0702, len := fltAckLen, modes := modesAll, changes := true, excepted := true } → d.pay8 src 1 = 0#8 →
      (∀ i, i < (d.pay16 src 2).toNat → (d.pay16 src (4 + 2 * i)).toNat ≤ 767) →
      (d.pay8 src 0 = 1#8 → ∃ t, exec (.fltAck src) s = .next t ∧ Keeps s t ∧ (∀ k, (t.dev.flt.src k).latched = false)
        ∧ Replied s t src stDone 0#16 [])
      ∧ (d.pay8 src 0 = 0#8 → ∃ t, exec (.fltAck src) s = .next t ∧ Keeps s t ∧ Replied s t src stDone 0#16 []
        ∧ ∀ k, (t.dev.flt.src k).latched = ((d.flt.src k).latched
          && !((List.range (d.pay16 src 2).toNat).any (fun i => (d.pay16 src (4 + 2 * i)).toNat == k)))))
    ∧ (d.admits src { op := 0x0703, len := exact 4, modes := [mCommission, mStandby], changes := true, excepted := true } → n < 768 →
      (d.pay8 src 2).toNat ≤ 4 → d.pay8 src 3 = 0#8 →
      ∃ t, exec (.fltSeverity src) s = .next t ∧ Keeps s t ∧ t.dev.flt.sevOf n = (if fltNamed n then (d.pay8 src 2).setWidth 3 else 0#3)
        ∧ (t.dev.flt.src n).latched = (d.flt.src n).latched ∧ (∀ k, k ≠ n → t.dev.flt.src k = d.flt.src k) ∧ Replied s t src stDone 0#16 [])
    ∧ (d.admits src { op := 0x0A01, len := exact 8, modes := [mCommission, mStandby, mRun, mDegraded, mTest], changes := true } → b < 2 →
      (d.pay8 src 1).toNat < 4 → (d.pay8 src 2).toNat ≤ 17 → d.pay8 src 3 = 0#8 → d.signalNamed (d.pay16 src 4).toNat = true →
      d.payZero src 6 8 = true → (b = 1 → 2 ≤ (d.pay8 src 1).toNat → d.pay8 src 2 ≠ 0#8 → d.chain.dn.sbEn = false) →
      let k := 4 * b + (d.pay8 src 1).toNat
      ∃ t, exec (.plbSelect src) s = .next t ∧ Keeps s t ∧ t.dev.bents = d.bents ∧ Replied s t src stDone 0#16 []
        ∧ (Tab.find {} t.dev.plb k : PlbPin) = PlbPin.select (Tab.find {} d.plb k) (d.pay8 src 2).toNat (BitVec.ofNat 12 (d.pay16 src 4).toNat) d.clk)
    ∧ (d.admits src { op := 0x0603, len := exact 4, modes := [mStandby, mRun, mDegraded], changes := true } → d.pay8 src 1 = 0#8 →
      (d.pay16 src 2 = 0#16 ∨ (40 ≤ (d.pay16 src 2).toNat ∧ (d.pay16 src 2).toNat ≤ 210)) →
      let ceil := if d.pay16 src 2 = 0#16 then none else some ((d.pay16 src 2).setWidth 8)
      ((b = 0 ∨ b = 255) → ∃ t, exec (.pwrState src) s = .next t ∧ Keeps s t ∧ t.dev.pwr = { d.pwr with ceil := ceil.getD d.pwr.ceil }
          ∧ Replied s t src stDone 0#16 [])
      ∧ ((b = 2 ∨ b = 3 ∨ b = 4) → ∃ t, exec (.pwrState src) s = .next t ∧ Keeps s t
        ∧ t.dev.pwr = { d.pwr with nego := some { target := BitVec.ofNat 3 b, asked := 0, stopped := [0], src := some src, isMode := false, ceil := ceil } }
        ∧ (t.dev.bent 0).asleep = true))

/-- MODE_SET (R353, R399 to R401, R531): STANDBY to RUN, or to DEGRADED where a condition of R406 holds; RUN or DEGRADED to STANDBY once no
loop is started; the present mode is DONE without effect; a target that R401 does not list is WRONG_MODE. The change records PREV, REASON 0
and TIME (R398). SAFE_N accepted in STANDBY, RUN or DEGRADED leads to SAFE_HOLD with REASON 2 and stops every core without a safety loop; in
BOOT, COMMISSION and TEST it is remembered (R399, R402, R403). Its release clears SAFE_PIN alone. The recovery phase for STANDBY ends there
with REASON 4 (R405). -/
def Obligations.ModesAndSafeHold : Prop :=
  (∀ (s : State) (p : Port) (v : BitVec 3),
     let d := s.dev
     let src : CmdSrc := .port p
     d.admits src { op := 0x0201, len := exact 4, modes := modesAll, changes := true, excepted := true } → d.pay8 src 0 = v.setWidth 8 →
     d.payZero src 1 4 = true → d.safeNLow = false → d.mode.recov = false →
     (v = d.mode.mode → Yields s (.modeSet src) ((d.reply src stDone 0#16 []).taken src))
     ∧ (v ≠ d.mode.mode → v ∉ modeTargets d.mode.mode d.mode.commDone →
       Yields s (.modeSet src) ((d.reply src stWrongMode (d.mode.mode.setWidth 16) []).taken src))
     ∧ (d.mode.mode = mStandby → v = mRun → d.running src = false →
       ∃ t, exec (.modeSet src) s = .next t ∧ Keeps s t ∧ t.dev.mode.mode = (if d.degradeCond then mDegraded else mRun) ∧ t.dev.mode.prev = mStandby
         ∧ t.dev.mode.reason = 0#3 ∧ t.dev.mode.time = d.time ∧ Replied s t src stAccepted 0#16 [] ∧ Ended t p stDone 0#16)
     ∧ ((d.mode.mode = mRun ∨ d.mode.mode = mDegraded) → v = mStandby → d.running src = false → d.ks.loops = [] →
       ∃ t, exec (.modeSet src) s = .next t ∧ Keeps s t ∧ t.dev.mode.mode = mStandby ∧ t.dev.mode.prev = d.mode.mode
         ∧ t.dev.mode.reason = 0#3 ∧ t.dev.mode.time = d.time ∧ Replied s t src stAccepted 0#16 [] ∧ Ended t p stDone 0#16))
  ∧ (∀ (s : State),
       let d := s.dev
       (d.mode.safePin = false → d.pwr.inReset = false → d.pwr.pstate.toNat < 2 → d.pwr.nego = none → d.calm →
         (d.mode.mode ∈ [mStandby, mRun, mDegraded] →
           ∃ t, exec .safeNAccept s = .next t ∧ t.pending = s.pending ∧ t.dev.mode.mode = mSafeHold ∧ t.dev.mode.prev = d.mode.mode
             ∧ t.dev.mode.reason = 2#3 ∧ t.dev.mode.safePin = true ∧ t.dev.safeNLow = true
             ∧ ∀ c, d.holdsSafety c = false → (t.dev.core c).status = .stopped ∨ (t.dev.core c).status = .gated)
         ∧ (d.mode.mode ∈ [mBoot, mCommission, mTest] →
           ∃ t, exec .safeNAccept s = .next t ∧ Keeps s t ∧ t.dev.mode.mode = d.mode.mode ∧ t.dev.mode.pendSafe = true ∧ t.dev.mode.pendWhy = 2#3))
       ∧ Yields s .safeNRelease { d with mode := { d.mode with safePin := false }, safeNLow := false }
       ∧ (∀ p j, d.mode.mode = mSafeHold → d.mode.recov = true → d.mode.recovTarget = mStandby → d.ks.loops = [] → d.ks.jobs = [j] → j.src = .port p →
         j.kind = .modeSet mStandby → j.late = 0 →
         ∃ t, exec (.recoveryPhaseEnd none) s = .next t ∧ Keeps s t ∧ t.dev.mode.mode = mStandby ∧ t.dev.mode.reason = 4#3 ∧ t.dev.mode.recov = false
           ∧ Ended t p stDone 0#16))

/-- SPARE_SWAP of a slot whose core has an idle moment gives its logical slot to the free physical slot and retires the old one; after a failed
self-test it retires the free slot, and ends REFUSED_CAPACITY 0006h (R483, R484, R487), the Deck being idle for the access by which Keystone tests the
slot. VIA_ENUM at the HEAD answers ACCEPTED and passes the token 1 down, or waits for its DOWN port (R391). -/
def Obligations.SparesAndEnumeration : Prop :=
  ∀ (s : State) (p : Port) (b : BentId) (ps : BitVec 5) (l : SlotId),
    let d := s.dev
    let src : CmdSrc := .port p
    let x := d.bent b.toNat
    let y := fun t : State => t.dev.bent b.toNat
    (d.admits src { op := 0x0B01, len := exact 4, modes := modesCSRD, changes := true } → d.pay8 src 0 = b.setWidth 8 → d.pay8 src 1 = ps.setWidth 8 →
      d.payZero src 2 4 = true → ps.toNat < 17 → x.retired.getLsbD ps.toNat = false → x.logicalOf ps.toNat = some l.toNat → x.spareFree = true →
      d.running src = false → d.deckIdle → d.wordAsleep (0x08200000 + 0x1000 * b.toNat) = false →
      ((d.core (coreOf b.toNat l.toNat)).idleMoment = true → d.offeredTo b.toNat l.toNat = none →
        ∃ t, exec (.spareSwap src true) s = .next t ∧ t.mem = s.mem ∧ t.pending = s.pending ∧ (y t).physOf l.toNat = BitVec.ofNat 5 x.freeSlot
          ∧ (y t).retired = setBit x.retired ps.toNat true ∧ (y t).spareFree = false ∧ (y t).seq = x.seq + 1#8
          ∧ t.dev.ks.swapResult = 0#3 ∧ Ended t p stDone 0#16 ∧ ∀ i, i ≠ coreOf b.toNat l.toNat → t.dev.core i = d.core i)
      ∧ (∃ t, exec (.spareSwap src false) s = .next t ∧ Keeps s t ∧ (y t).retired = setBit x.retired x.freeSlot true ∧ (y t).spareFree = false
          ∧ (y t).phys = x.phys ∧ t.dev.ks.swapResult = 1#3 ∧ Ended t p stRefCap 6#16))
    ∧ (d.admits src { op := 0x0901, len := exact 0, modes := [mCommission, mStandby], changes := true } → d.chain.head = true → d.running src = false →
      ∃ t, exec (.viaEnum src) s = .next t ∧ Keeps s t ∧ Replied s t src stAccepted 0#16 [] ∧ t.dev.ks.jobs.map (·.kind) = [.viaEnum]
        ∧ (if (d.via .dn).st = .up then (t.dev.via .dn).carries (.enum 1#5) else t.dev.chain.enumWait = some d.clk))

/-- The security engine (R453, R464, R465, R467, R480): a loop image that passes the checks joins Keystone's list and its command ends DONE; one that
does not ends with the status of what the check found and is not listed. SEC_UNLOCK with LENGTH 4 issues a challenge of 32 bytes; a token for it that
is legal, in time and rightly signed opens its scope, and an illegal one is refused with the offset of the bad field; both use the challenge up. A
token waits while the engine serves something else (R466). SEC_RELOCK closes every scope, for Keystone alone. A live restart ends in the new slot when
the image there passes the checks and kicks within the grace, and in the slot that ran, with REVERT, when it does not pass. -/
def Obligations.SecurityCommands : Prop :=
  (∀ (s : State) (p : Port) (j : Job) (c : Copy) (addr : W32),
    let d := s.dev
    let bs := imageBytes s.mem c.dest c.len
    let v := d.sec.checkStored s.mem c.dest c.len [2#8] d.sec.rdBad
    d.ks.jobs = [j] → d.ks.copies = [c] → j.src = .port p → c.src = .port p → j.kind = .loopLoad addr → j.late = 0 → d.sec.busy = true →
    d.sec.subject = none → d.engineDone = true → c.lines ≤ c.next →
    (v = .good → ∃ t, exec .secVerifyDone s = .next t ∧ Keeps s t ∧ Ended t p stDone 0#16 ∧ t.dev.ks.copies = [] ∧ t.dev.sec.busy = false
      ∧ ∃ i ∈ t.dev.ks.images, i.addr = BitVec.ofNat 32 c.dest ∧ i.len = c.len ∧ i.type = 2#8 ∧ i.digest = imageDigest bs)
    ∧ (v ≠ .good → ∃ t, exec .secVerifyDone s = .next t ∧ Keeps s t ∧ Ended t p v.status v.detail ∧ t.dev.ks.copies = [] ∧ t.dev.sec.busy = false
      ∧ t.dev.ks.images = d.ks.images ∧ t.dev.sec.fails = (match v with
        | .unread _ => d.sec.fails
        | .good | .auth _ | .rollback _ => satInc d.sec.fails)))
  ∧ (∀ (s : State) (src : CmdSrc),
    let d := s.dev
    let tok := (List.range 3412).map (d.pay8 src)
    d.admits src { op := 0x0803, len := fun n _ => n == 4 || n == 3412, modes := [mCommission, mStandby, mTest], changes := true } →
    let waits := fun t : State => t.pending = s.pending ∧ t.mem = s.mem ∧ t.dev.waiting src = true ∧ t.dev.begun src = true
      ∧ t.dev.sec.challenge = d.sec.challenge ∧ t.dev.sec.dbgScope = d.sec.dbgScope
    (d.lenWord src = 4 → d.payZero src 0 4 = true →
      ∃ t bs, exec (.secUnlock src) s = .next t ∧ Keeps s t ∧ t.dev.sec.challenge = some (bs, d.clk) ∧ bs.length = 32
        ∧ Replied s t src stDone 0#16 (wordsOfBytes bs))
    ∧ (d.lenWord src = 3412 → d.engineBusy = true → d.sec.subject ≠ some src → ∃ t, exec (.secUnlock src) s = .next t ∧ waits t)
    ∧ (d.lenWord src = 3412 → d.engineIdle →
      (badToken tok = none → d.challengeMet tok = true → (∃ v ∈ d.sec.tokenVerdicts tok, v = .good) →
        ∃ t, exec (.secUnlock src) s = .next t ∧ Keeps s t ∧ t.dev.sec.dbgScope = d.sec.dbgScope ||| BitVec.ofNat 4 (leNat tok 32 4)
          ∧ t.dev.sec.challenge = none ∧ t.dev.raising 737 0 ∧ Replied s t src stDone 0#16 [])
      ∧ (∀ o, badToken tok = some o →
        ∃ t, exec (.secUnlock src) s = .next t ∧ Keeps s t ∧ t.dev.sec.dbgScope = d.sec.dbgScope ∧ t.dev.sec.challenge = none
          ∧ Replied s t src stBadParam (BitVec.ofNat 16 o) [])))
  ∧ (∀ (s : State) (req : ReqId),
    Yields s (.secRelock req) (if req = ksReq then { s.dev with sec := { s.dev.sec with dbgScope := 0#4 } } else s.dev))
  ∧ (∀ (s : State) (revokes kicked : Bool) (ms : BitVec 16), s.dev.ks.kbusy = true →
    let v := (s.dev.checkSlot s.mem s.dev.ks.restartSlotB).1
    let ends := fun (t : State) (slotB revert : Bool) => exec (.keystoneRestartDone revokes kicked ms) s = .next t ∧ Keeps s t
      ∧ t.dev.ks.kbusy = false ∧ t.dev.ks.slotB = slotB ∧ t.dev.ks.revert = revert ∧ t.dev.ks.restartMs = ms ∧ t.dev.ks.firmware = true
    (∀ w, v = .good → kicked = true → s.dev.ks.graceEnd = some w → ∃ t, ends t s.dev.ks.restartSlotB false)
    ∧ (∀ w, v = .good → kicked = false → s.dev.ks.graceEnd = some w → w ≤ s.dev.clk →
      ∃ t, ends t s.dev.ks.slotB true ∧ t.dev.raising 722 0)
    ∧ (v ≠ .good → ∃ t, ends t s.dev.ks.slotB true))

/-- A write of CMD_DB at a port that serves requests, the writes before it accepted (R321): with SUBMIT 0 it has no effect on the commands; with
SUBMIT 1 it makes a free port busy, or is answered BUSY_PORT 0001h at once while Keystone takes no commands, and at a busy port counts a drop (R339,
R340, R341). One that B0HOST drops is counted and raised, and the port stays as busy as it was (R322). A forwarded command without an answer after 100
ms ends UNIT_ABSENT 0002h, and a reply to it that comes after all is discarded; a CREPLY to the own unit, first answer of its command and not
ACCEPTED, in sequence at a port that serves, is its reply, with the SEQUENCE that the request carried (R372). -/
def Obligations.PortsTakeRequests : Prop :=
  ∀ (s : State) (p : Port),
    let d := s.dev
    let x := d.port p
    (∀ (rid : BitVec 16) (v : W32), d.portServes p = true → d.portDrained p = true →
      (d.hostMay p rid = true →
        (bitOf v 0 = false → Yields s (.cmdDb p rid v) (d.portTouched p))
        ∧ (bitOf v 0 = true → x.busy = false → d.keystoneUp = true →
          ∃ t, exec (.cmdDb p rid v) s = .next t ∧ Keeps s t ∧ (t.dev.port p).busy = true ∧ (t.dev.port p).done = false
            ∧ (t.dev.port p).dbAt = d.clk ∧ (t.dev.port p).reqBuf = x.reqBuf)
        ∧ (bitOf v 0 = true → x.busy = false → d.keystoneUp = false →
          ∃ t, exec (.cmdDb p rid v) s = .next t ∧ Keeps s t ∧ Replied s t (.port p) stBusyPort 1#16 [])
        ∧ (bitOf v 0 = true → x.busy = true →
          ∃ t, exec (.cmdDb p rid v) s = .next t ∧ Keeps s t ∧ (t.dev.port p).busy = true ∧ (t.dev.port p).drops = satInc x.drops))
      ∧ (d.hostMay p rid = false →
        ∃ t, exec (.cmdDb p rid v) s = .next t ∧ Keeps s t ∧ (t.dev.port p).busy = x.busy ∧ (t.dev.port p).reqBuf = x.reqBuf
          ∧ (t.dev.port p).errDrop = satInc x.errDrop ∧ t.dev.raising 704 (Port.num p)))
    ∧ (∀ u, x.busy = true → x.fwdTo = some u → x.fwdAt + 80000000 ≤ d.clk →
      ∃ t, exec (.cmdForwardTimeout p) s = .next t ∧ Keeps s t ∧ Replied s t (.port p) stUnitAbsent 2#16 []
        ∧ (t.dev.port p).stale = x.stale ++ [(u, d.seqWord (.port p), false)])
    ∧ (∀ (v : ViaPort) (h : FlitHdr) (st det : BitVec 16) (el : W32) (pay : List W32), d.inOrder v h → d.viaServes v = true →
      h.dest = d.chain.unit → x.fwdTo = some h.src →
      (x.stale.contains (h.src, d.seqWord (.port p), false) = false → st ≠ stAccepted → hasPayload st = true ∨ pay = [] →
        ∃ t, exec (.creplyReceive v h p false st det (d.seqWord (.port p)) el pay) s = .next t ∧ Keeps s t ∧ Replied s t (.port p) st det pay)
      ∧ (x.stale.contains (h.src, d.seqWord (.port p), false) = true →
        ∃ t, exec (.creplyReceive v h p false st det (d.seqWord (.port p)) el pay) s = .next t ∧ Keeps s t
          ∧ (t.dev.port p).busy = x.busy ∧ (t.dev.port p).repBuf = x.repBuf ∧ (t.dev.port p).fwdTo = x.fwdTo))

/-! ### Resets, modes, bring-up (13_modes_and_bringup.md) -/

/-- A core reset stops a core and, once its buffered stores are done or 10 µs are over, gives its registers their reset values; a bent reset
does so for the bent's cores and makes its sources IDLE, except in BOOT; both act for Keystone alone, and not while a reset is in progress,
which MODE_RSTSTAT.BUSY shows (R408, R409, R410, R417). -/
def Obligations.CoresAndBentsAreReset : Prop :=
  ∀ (s : State) (c : CoreId) (b : BentId),
    (s.dev.calm → s.dev.mode.rst = none →
      ((s.dev.core c.toNat).stores = [] →
        ∃ t, exec (.coreReset ksReq c) s = .next t ∧ t.mem = s.mem ∧ t.pending = s.pending ∧ t.dev.mode.rst = none
          ∧ let k := t.dev.core c.toNat
            k.status = .stopped ∧ k.regs = [] ∧ k.frames = [] ∧ k.pc = 0#32 ∧ k.trap.valid = false ∧ k.psr.curPri = 0xFF#8 ∧ k.psr.i = true
              ∧ k.psr.compact = (s.dev.core c.toNat).psr.compact ∧ k.stores = [])
      ∧ ((s.dev.core c.toNat).stores ≠ [] →
        ∃ t, exec (.coreReset ksReq c) s = .next t ∧ t.mem = s.mem ∧ t.pending = s.pending
          ∧ t.dev.mode.rst = some { whole := false, num := c.toNat, since := s.dev.clk } ∧ bitOf (t.dev.modeWord 0x11).pay 31 = true
          ∧ (t.dev.core c.toNat).status = .stopped ∧ (t.dev.core c.toNat).stores = (s.dev.core c.toNat).stores))
    ∧ (s.dev.calm → s.dev.mode.rst = none → s.dev.mode.mode ≠ mBoot → (∀ i, i < 16 → (s.dev.core (coreOf b.toNat i)).stores = []) →
      ∃ t, exec (.bentReset ksReq b) s = .next t ∧ t.mem = s.mem ∧ t.pending = s.pending ∧ t.dev.mode.rst = none
        ∧ (∀ i, i < 16 → (t.dev.core (coreOf b.toNat i)).status = .stopped ∧ (t.dev.core (coreOf b.toNat i)).regs = [])
        ∧ ∀ n, (t.dev.source b.toNat n).st = .idle)
    ∧ (∀ req : ReqId, req ≠ ksReq ∨ s.dev.mode.rst.isSome = true → s.dev.calm → Yields s (.coreReset req c) s.dev ∧ Yields s (.bentReset req b) s.dev)

/-- A cold reset clears SRAM and DDR5 and keeps code store, but for the line whose write it cuts, which is left to that write (R265); the
part is in BOOT and held in reset, with the cause in MODE_RESET (R407, R417, R249, R279): at power-on, by RESET_N, by a wake from P4 (R432).
A brown-out is a cold reset with the always-on domain (R515). A thermal trip holds the part so that a release other than that of RESET_N has
no effect (R516). The release with every rail good samples the straps (R508). -/
def Obligations.ColdResets : Prop :=
  ∀ (s : State) (b h : Bool) (n : BitVec 5),
    let cold := fun t : State => t.pending = s.pending ∧ t.dev.mode.mode = mBoot ∧ t.dev.pwr.inReset = true ∧ t.dev.cores = [] ∧ t.dev.txns = []
      ∧ t.dev.queues = []
      ∧ (Memory.wf s.mem = true → ∀ k, (s.dev.ws.phase = .writing → k / 128 ≠ s.dev.ws.line) → Memory.get t.mem k
        = if isDeck (k / 8) ∨ isBentSram (k / 8) ∨ (ddrKeyBase ≤ k ∧ k < ddrKeyBase + 2 ^ 39) then memDefault k else Memory.get s.mem k)
    (∃ t, exec (.coldReset .por) s = .next t ∧ cold t ∧ t.dev.mode.rstCause = 8#4)
    ∧ (∃ t, exec (.coldReset .pin) s = .next t ∧ cold t ∧ t.dev.mode.rstCause = 4#4 ∧ t.dev.pwr.thermTrip = s.dev.pwr.thermTrip)
    ∧ (s.dev.pwr.pstate = 4#3 → s.dev.pwr.waking = true →
      ∃ t, exec (.coldReset .wake) s = .next t ∧ cold t ∧ t.dev.mode.rstCause = 1#4 ∧ t.dev.pwr.wakeSrc = s.dev.pwr.wakeSrc)
    ∧ (∃ t, exec .brownOut s = .next t ∧ cold t ∧ t.dev.mode.rstCause = 8#4)
    ∧ (∃ t, exec (.thermtrip n) s = .next t ∧ cold t ∧ t.dev.pwr.thermTrip = true ∧ exec (.resetRelease b h) t = .next t)
    ∧ (s.dev.pwr.inReset = true → s.dev.pwr.railsUp = 0x1FFFF#17 → (s.dev.pwr.thermTrip = false ∨ s.dev.mode.rstCause = 4#4) →
      ∃ t, exec (.resetRelease b h) s = .next t ∧ Keeps s t ∧ t.dev.pwr.inReset = false ∧ t.dev.pwr.thermTrip = false ∧ t.dev.bifurc = b
        ∧ t.dev.chain.head = h ∧ t.dev.chain.uvalid = h)

/-- BOOT with a slot whose image passes the checks (R453) ends in COMMISSION, from the other slot with KS_FALLBACK; with none it stays in BOOT (R411,
R412). COMMISSION with no failed core, bent or crossing ends in STANDBY, when no latch of HOLD or STOP stands and PENDSAFE is 0, and waits with
COMM_HOLD (R399, R414, R417). -/
def Obligations.BootAndCommission : Prop :=
  (∀ (s : State) (r : BootReport),
    let a := s.dev.ks.slotB
    let first := s.dev.loadSpares.checkSlot s.mem a
    let second := (first.2.noteSlot a first.1).checkSlot s.mem (!a)
    s.dev.mode.mode = mBoot → s.dev.pwr.inReset = false → s.dev.mode.noFirmware = false →
    (first.1 = .good →
      ∃ t, exec (.bootComplete r) s = .next t ∧ t.mem = s.mem ∧ t.pending = s.pending ∧ t.dev.mode.mode = mCommission ∧ t.dev.mode.prev = mBoot
        ∧ t.dev.ks.firmware = true ∧ t.dev.ks.slotB = a ∧ t.dev.mode.bootMs = r.ms)
    ∧ (first.1 ≠ .good → second.1 = .good →
      ∃ t, exec (.bootComplete r) s = .next t ∧ t.mem = s.mem ∧ t.pending = s.pending ∧ t.dev.mode.mode = mCommission ∧ t.dev.ks.slotB = !a
        ∧ t.dev.mode.fallback = true ∧ t.dev.raising 720 0)
    ∧ (first.1 ≠ .good → second.1 ≠ .good →
      ∃ t, exec (.bootComplete r) s = .next t ∧ t.mem = s.mem ∧ t.pending = s.pending ∧ t.dev.mode.mode = mBoot ∧ t.dev.mode.noFirmware = true))
  ∧ (∀ (s : State) (r : CommReport), r.badSlots = [] → r.badBents = [] → r.xFail = none → s.dev.mode.mode = mCommission →
    s.dev.mode.commDone = false →
    ∃ t, exec (.commissionComplete r) s = .next t ∧ t.pending = s.pending ∧ t.dev.mode.commDone = true ∧ t.dev.mode.calibrated = true
      ∧ (s.dev.mode.holdComm = true → t.mem = s.mem ∧ t.dev.mode.mode = mCommission)
      ∧ (s.dev.mode.holdComm = false → s.dev.mode.pendSafe = false → s.dev.flt.atLeast 3 = false → t.mem = s.mem ∧ t.dev.mode.mode = mStandby))

/-! ### Power and pins (14_power_states.md, 19_pins_and_electrical.md) -/

/-- P1 is entered when the part has been quiet for the dwell, and left on its causes (R424, R425); a WAITING slot that has no loop and is
offered nothing is gated once its dwell is over (R427). While Keystone has no ACCEPTED command, the domain that is asked to sleep refuses
for the reason that R428 gives, or the next one is asked, or after the last the part is in P2, P3 or P4, in mode OFF (R419, R428, R429); a
domain that does not drain refuses with REASON 1 (R236). In a sleep state an enabled wake source starts the wake and is recorded: WAKE_N,
the alarm once it is due, a port's request (R432, R422, R433); a wake of P2 or P3 ends in P0 once every rail is good, with PWR_SLEPT grown
by what was slept, at its second step (R434). -/
def Obligations.PowerStatesAndWakes : Prop :=
  (∀ (s : State),
     let d := s.dev
     (d.p1Due = true →
       ∃ t, exec .p1Entry s = .next t ∧ Keeps s t ∧ t.dev.pwr = { d.pwr with pstate := 1#3, p1cnt := satInc d.pwr.p1cnt } ∧ t.dev.ks.gated = true)
     ∧ (d.pwr.pstate = 1#3 → ∀ cause, ∃ t, exec (.p1Exit cause) s = .next t ∧ Keeps s t ∧ t.dev.pwr = { d.pwr with pstate := 0#3, busyAt := d.clk }
       ∧ t.dev.ks.gated = false)
     ∧ (∀ c : CoreId, d.mayGate c.toNat = true →
       ∃ t, exec (.coreGate c) s = .next t ∧ t.mem = s.mem ∧ t.pending = s.pending ∧ t.dev.core c.toNat = { d.core c.toNat with status := .gated }
         ∧ ∀ i, i ≠ c.toNat → t.dev.core i = d.core i)
     ∧ (∀ n, d.pwr.nego = some n → d.calm →
       (∀ l12 r, d.refusal n l12 = some r →
         ∃ t, exec (.sleepDomainAnswer l12) s = .next t ∧ Keeps s t ∧ t.dev.pwr = { d.pwr with
           nego := none, refValid := true, refReason := BitVec.ofNat 8 r, refDomain := BitVec.ofNat 8 n.asked })
       ∧ (∀ l12, d.refusal n l12 = none → d.drainedAt n.asked = true →
         (∀ k, nextAsked n.target n.asked = some k →
           ∃ t, exec (.sleepDomainAnswer l12) s = .next t ∧ Keeps s t ∧ (t.dev.pwr.nego.map (·.asked)) = some k ∧ t.dev.pwr.pstate = d.pwr.pstate)
         ∧ (nextAsked n.target n.asked = none → n.target = 2#3 →
           ∃ t, exec (.sleepDomainAnswer l12) s = .next t ∧ Keeps s t ∧ t.dev.pwr.nego = none ∧ t.dev.pwr.pstate = 2#3 ∧ t.dev.pwr.sleepClk = d.clk
             ∧ (t.dev.via .up).st = .down ∧ (t.dev.via .dn).st = .down)
         ∧ (nextAsked n.target n.asked = none → n.target = 3#3 →
           ∃ t, exec (.sleepDomainAnswer l12) s = .next t ∧ t.pending = s.pending ∧ t.dev.pwr.nego = none ∧ t.dev.pwr.pstate = 3#3
             ∧ t.dev.pwr.enCore = false ∧ t.dev.pwr.sleepClk = d.clk)
         ∧ (nextAsked n.target n.asked = none → n.target = 4#3 →
           ∃ t, exec (.sleepDomainAnswer l12) s = .next t ∧ t.pending = s.pending ∧ t.dev.pwr.nego = none ∧ t.dev.pwr.pstate = 4#3
             ∧ t.dev.pwr.enRet = false ∧ t.dev.pwr.enCore = false ∧ t.dev.mode.mode = mOff))
       ∧ (d.drainedAt n.asked = false →
         ∃ t, exec .drainTimeout s = .next t ∧ Keeps s t ∧ t.dev.pwr = { d.pwr with
           nego := none, refValid := true, refReason := 1#8, refDomain := BitVec.ofNat 8 n.asked })))
  ∧ (∀ (s : State),
       let d := s.dev
       let woken := fun (t : State) (n : Nat) => Keeps s t ∧ t.dev.pwr.waking = true ∧ t.dev.pwr.wakeSrc = BitVec.ofNat 8 n
         ∧ t.dev.pwr.wakeFrom = d.pwr.pstate ∧ t.dev.pwr.pstate = d.pwr.pstate
       (d.pwr.nego = none → d.pwr.waking = false →
         (d.pwr.wakeOn 1 d.pwr.pstate.toNat = true → ∃ t, exec .wakeN s = .next t ∧ woken t 1)
         ∧ (d.pwr.wakeOn 2 d.pwr.pstate.toNat = true → d.alarmDue = true → ∃ t, exec .aonAlarm s = .next t ∧ woken t 2)
         ∧ (∀ p, let n := (match p with | .a => 3 | .b => 4)
           d.pwr.wakeOn n d.pwr.pstate.toNat = true → d.portCanWake p = true → ∃ t, exec (.portWakeRequest p) s = .next t ∧ woken t n))
       ∧ (d.pwr.waking = true → (d.pwr.pstate = 2#3 ∨ d.pwr.pstate = 3#3) → d.pwr.railsUp = 0x1FFFF#17 → d.pwr.wakeSafe = false → d.calm →
         ∃ t, exec .wakeComplete s = .next t ∧ Keeps s t ∧ t.dev.pwr.pstate = 0#3 ∧ t.dev.pwr.waking = false ∧ t.dev.ks.gated = false
           ∧ t.dev.pwr.slept = (if 2 ≤ d.pwr.wakeStep then d.pwr.slept else d.pwr.slept + BitVec.ofNat 64 (crystalTicks (d.clk - d.pwr.sleepClk)))
           ∧ ∀ b, b < 128 → (t.dev.bent b).asleep = false))

/-- A rail that leaves its range where it is expected on raises PWR_RAIL in P0 to P2, once (R438), and is noted bad, until it is good again; one that
is not expected on is down and raises nothing (R513, R515). A crossing cell that is found unstable is noted and raised, and its receiver keeps what it
has (R300). The missing kick and the lockstep pair stop ALIVE_K, the collector's self check both ALIVE outputs, and each is raised (R445, R447);
ALIVE_K and STAT_HEART go on while Keystone is healthy, ALIVE_S while its own conditions hold (R445, R446, R314). -/
def Obligations.SelfChecks : Prop :=
  ∀ (s : State),
    let d := s.dev
    (∀ r : BitVec 5, r.toNat < 17 → d.pwr.inReset = false →
      (d.pwr.expected r.toNat = true → d.pwr.pstate.toNat < 3 →
        ∃ t, exec (.railFault r) s = .next t ∧ Keeps s t ∧ t.dev.pwr = { d.pwr with railsBad := setBit d.pwr.railsBad r.toNat true }
          ∧ (if d.pwr.railsBad.getLsbD r.toNat then t.dev.flt = d.flt else t.dev.raising 744 r.toNat))
      ∧ (d.pwr.expected r.toNat = false →
        ∃ t, exec (.railFault r) s = .next t ∧ Keeps s t ∧ t.dev.pwr = { d.pwr with railsUp := setBit d.pwr.railsUp r.toNat false }
          ∧ t.dev.flt = d.flt)
      ∧ (∃ t, exec (.railGood r) s = .next t ∧ Keeps s t ∧ t.dev.pwr.railsBad = setBit d.pwr.railsBad r.toNat false
          ∧ t.dev.pwr.railsUp = setBit d.pwr.railsUp r.toNat true))
    ∧ (∀ n : Byte, n.toNat < 154 →
      ∃ t, exec (.xingUnstable n) s = .next t ∧ Keeps s t ∧ (t.dev.xing n.toNat).unstable = true ∧ (t.dev.xing n.toNat).frozen = true
        ∧ (t.dev.xing n.toNat).ucount = satInc (d.xing n.toNat).ucount ∧ t.dev.raising 640 n.toNat)
    ∧ (d.kickMissing = true → ∃ t, exec .ksWdog s = .next t ∧ Keeps s t ∧ t.dev.kRun = false ∧ t.dev.raising 722 0)
    ∧ (∃ t, exec .ksLockstep s = .next t ∧ Keeps s t ∧ t.dev.kRun = false ∧ t.dev.raising 721 0)
    ∧ (∃ t, exec .fltSelf s = .next t ∧ Keeps s t ∧ t.dev.kRun = false ∧ t.dev.sRun = false ∧ t.dev.raising 760 0)
    ∧ (∃ t, exec .aliveToggle s = .next t ∧ Keeps s t ∧ t.dev.flt.aliveK = (if d.kRun then !d.flt.aliveK else d.flt.aliveK)
      ∧ t.dev.flt.aliveS = (if d.sRun then !d.flt.aliveS else d.flt.aliveS)
      ∧ t.dev.flt.heart = (if d.kRun then d.flt.heart + 1#32 else d.flt.heart) ∧ t.dev.flt.srcs = d.flt.srcs)

/-! ### Faults (15_faults_and_reactions.md) -/

/-- One raise at the collector while Keystone has no ACCEPTED command, of a source with a programmed severity of 4 or less: one of severity
0 is counted and sets no latch; any other latches its source at its severity, one higher (at most 4) while a latch of its class stands, and
writes the first-fault record where it is free (R440, R443); one that reaches STOP in P0 or P1, with no sleep negotiation, stops every core
(R441). FLT_CLR clears every latch, or that of one source and leaves the others; FLT_KICK and its GRACE set the watchdog's moments; all for
Keystone alone (R444, R445, R449). -/
def Obligations.FaultsAndTheirRegisters : Prop :=
  (∀ (s : State) (r : Raise),
     let d := s.dev
     let v := (d.flt.sevOf r.src).toNat
     let eff := if d.flt.srcs.any (fun e => e.2.latched && fltClass e.1 == fltClass r.src) ∧ v < 4 then v + 1 else v
     let y := fun t : State => t.dev.flt.src r.src
     d.calm → d.flt.raises = [r] → v ≤ 4 →
     (v = 0 → ∃ t, exec .faultRaise s = .next t ∧ Keeps s t ∧ t.dev.flt.raises = [] ∧ y t = { d.flt.src r.src with ign := satInc (d.flt.src r.src).ign }
       ∧ t.dev.mode = d.mode)
     ∧ (0 < v → eff < 3 → (d.flt.src r.src).lsev.toNat < 3 → ∃ t, exec .faultRaise s = .next t ∧ Keeps s t ∧ t.dev.flt.raises = [] ∧ (y t).latched = true
       ∧ (y t).lsev.toNat = max eff (d.flt.src r.src).lsev.toNat ∧ ∀ n, n ≠ r.src → t.dev.flt.src n = d.flt.src n)
     ∧ (0 < v → ∃ t, exec .faultRaise s = .next t ∧ t.pending = s.pending ∧ (y t).latched = true
       ∧ (y t).lsev.toNat = max eff (d.flt.src r.src).lsev.toNat
       ∧ (d.flt.valid = false → t.dev.flt.valid = true ∧ t.dev.flt.source = r.src ∧ t.dev.flt.sev.toNat = eff ∧ t.dev.flt.inst = BitVec.ofNat 8 r.inst
         ∧ t.dev.flt.detail = r.detail ∧ t.dev.flt.time = d.timeAt domCollector))
     ∧ (eff = 4 → d.pwr.pstate.toNat < 2 → d.pwr.nego = none →
       ∃ t, exec .faultRaise s = .next t ∧ ∀ c, (t.dev.core c).status = .stopped ∨ (t.dev.core c).status = .gated))
  ∧ (∀ (s : State) (n : BitVec 10),
       let d := s.dev
       (∃ t, exec (.fltClrAll ksReq) s = .next t ∧ Keeps s t ∧ ∀ k, (t.dev.flt.src k).latched = false)
       ∧ (∃ t, exec (.fltClrSource ksReq n) s = .next t ∧ Keeps s t ∧ (t.dev.flt.src n.toNat).latched = false
         ∧ ∀ k, k ≠ n.toNat → t.dev.flt.src k = d.flt.src k)
       ∧ (d.ks.firmware = true → d.ks.halted = false → ∃ t, exec (.fltKick ksReq) s = .next t ∧ Keeps s t ∧ t.dev.ks.kicked = true
           ∧ t.dev.ks.lastKick = d.clk ∧ t.dev.ks.graceEnd = none
         ∧ t.dev.ks.stopped = (d.ks.stopped && d.ks.graceEnd.isNone) ∧ t.dev.flt = d.flt)
       ∧ (∃ t, exec (.fltKickGrace ksReq) s = .next t ∧ Keeps s t ∧ t.dev.ks.graceEnd = some (d.clk + 48000000) ∧ t.dev.raising 723 0)
       ∧ (∀ req : ReqId, req ≠ ksReq → Yields s (.fltClrAll req) d ∧ Yields s (.fltClrSource req n) d ∧ Yields s (.fltKick req) d
         ∧ Yields s (.fltKickGrace req) d))

/-! ### Host ports (10_host_ports.md) -/

/-- A host's accesses become transactions of class C1 of its port (R315 to R325). A doorbell that B0HOST lets through (R322) becomes an EVT
for each bit that is 1, and one that it drops is counted. A word of Deck SRAM becomes a WR or RD, a tag of it a TW or a read with tags, a
word of an untagged DDR5 region a WR or RD there, which reaches its target while nothing holds it up on its way; a payload write gives tag
RAW unless the port keeps tags (R318, R325). What BAR2 does not map is an Unsupported Request, counted, raised, and returned for a read
(R317). -/
def Obligations.HostAccessesAreSent : Prop :=
  ∀ (s : State) (p : Port) (off : BitVec 28) (far : BitVec 36) (b0 b1 b2 b3 : Byte),
    let d := s.dev
    let data := [some b0, some b1, some b2, some b3]
    let w := 0x01000000 + off.toNat / 4
    let v := 0x01000000 + off.toNat
    let r := (d.port p).b4base.toNat + far.toNat / 2 ^ 29
    let at_ := far.toNat % 2 ^ 29 / 4
    let sends := fun (i : Instr) (ok : Txn → Prop) =>
      ∃ t x, exec i s = .next t ∧ Keeps s t ∧ t.dev.txns = d.txns ++ [x] ∧ x.req = portReq p ∧ x.cls = 1#2 ∧ x.st = .sent ∧ x.dest = none ∧ ok x
    (∀ (rid : BitVec 16) (b : BentId) (u : W32), d.portServes p = true → d.portDrained p = true → d.portRoom p = true →
      (d.hostMay p rid = true → ∃ t, exec (.pciHdb p rid b u) s = .next t ∧ Keeps s t ∧ ∀ j, j < 16 → bitOf u j = true →
        ∃ x ∈ t.dev.txns, x.ty = .evt ∧ x.req = portReq p ∧ x.cls = 1#2 ∧ x.ev = some (b, BitVec.ofNat 8 (112 + j)))
      ∧ (d.hostMay p rid = false → ∃ t, exec (.pciHdb p rid b u) s = .next t ∧ Keeps s t ∧ t.dev.txns = d.txns
        ∧ (t.dev.port p).errDrop = satInc (d.port p).errDrop ∧ t.dev.raising 704 (Port.num p)))
    ∧ (d.freeWay → off.toNat % 4 = 0 → d.pciTakes p off.toNat 4 = true → isDeck w = true →
      sends (.bar2PayloadWrite p off data) (fun x => x.ty = .wr ∧ x.ddr = none
        ∧ x.parts = [{ addr := BitVec.ofNat 32 w, lanes := 15#4, tagWr := !(d.port p).tagKeep, word := { pay := wordOfBytes b0 b1 b2 b3, tag := 0x00#8 } }])
      ∧ (d.portDrained p = true → sends (.bar2PayloadRead p off 1#11) (fun x => x.ty = .rd ∧ x.ddr = none ∧ x.parts = [] ∧ x.count = 1
        ∧ x.addr = BitVec.ofNat 32 w ∧ x.origin = .hostRead p false)))
    ∧ (off.toNat % 4 = 0 → d.pciTakes p off.toNat 4 = true → bar2Kind w = .none →
      (∃ t, exec (.bar2PayloadWrite p off data) s = .next t ∧ Keeps s t ∧ t.dev.txns = d.txns ∧ (t.dev.port p).errUr = satInc (d.port p).errUr
        ∧ t.dev.raising 704 (Port.num p))
      ∧ (d.portDrained p = true → ∃ t, exec (.bar2PayloadRead p off 1#11) s = .next t ∧ Keeps s t ∧ t.dev.txns = d.txns
        ∧ (t.dev.port p).lastCplUr = true ∧ (t.dev.port p).errUr = satInc (d.port p).errUr ∧ t.dev.raising 704 (Port.num p)))
    ∧ (d.freeWay → d.pciTakes p off.toNat 1 = true → isDeck v = true →
      sends (.bar2TagWrite p off [b0]) (fun x => x.ty = .tw ∧ x.ddr = none
        ∧ x.parts = [{ addr := BitVec.ofNat 32 v, lanes := 0#4, tagWr := true, word := { pay := 0#32, tag := b0 } }])
      ∧ (d.portDrained p = true → sends (.bar2TagRead p off 1#13) (fun x => x.ty = .rd ∧ x.ddr = none ∧ x.count = 1
        ∧ x.addr = BitVec.ofNat 32 v ∧ x.origin = .hostRead p true)))
    ∧ (d.freeWay → far.toNat % 4 = 0 → d.pciTakes p far.toNat 4 = true → (d.port p).b4base.toNat ≤ 896 → d.regionTagged r = false →
      sends (.bar4Write p far data) (fun x => x.ty = .wr ∧ x.ddr = some (r, at_)
        ∧ x.parts = [{ addr := BitVec.ofNat 32 at_, lanes := 15#4, tagWr := !(d.port p).b4keep, word := { pay := wordOfBytes b0 b1 b2 b3, tag := 0x00#8 } }])
      ∧ (d.portDrained p = true → sends (.bar4Read p far 4#13) (fun x => x.ty = .rd ∧ x.ddr = some (r, at_) ∧ x.count = 1
        ∧ x.origin = .hostRead p false)))

/-- The endpoints (R308, R310, R322, R327, R328): of a configuration write the bits that the model's header lets a host set are kept (log
entry 25), and the first requester is noted; PERST# and a lost link take the link down, and they and a function-level reset clear
configuration space, MSI-X and PTM state; the semaphore that the port holds is released by force, and is then free when no acquisition of
the same tick waits for it (R332); a link comes up with its speed and width; a pending vector that can be sent is sent; PTM's first dialogue
gives the offset, and a failed one is counted and, as the third in a row, takes the lock of the port's timebase. -/
def Obligations.EndpointsFollowTheLink : Prop :=
  ∀ (s : State) (p : Port),
    let d := s.dev
    let x := d.port p
    let cleared := fun t : State => (t.dev.port p).cfg = [] ∧ (d.sem.holder ≠ some p → (t.dev.port p).pba = 0#2048) ∧ (t.dev.port p).msixTab = []
      ∧ (t.dev.port p).hostRid = none ∧ (t.dev.port p).ptmOfs = none ∧ (t.dev.port p).ptmEn = false ∧ (t.dev.port p).ptmInt = 0x000A#16
      ∧ (d.sem.holder ≠ some p → t.dev.sem = d.sem)
      ∧ (d.sem.holder = some p → d.sem.lateAcq = none → t.dev.sem.holder = none ∧ (t.dev.sem.stat p).forced = true
        ∧ (t.dev.sem.stat p).why = 2#2 ∧ t.dev.raising 706 (Port.num p))
    (∀ rid reg v, d.isPcie p = true → d.portServes p = true →
      ∃ t, exec (.pciConfigWrite p rid reg v) s = .next t ∧ Keeps s t ∧ Tab.find 0#32 (t.dev.port p).cfg reg.toNat = v &&& cfgMask reg.toNat
        ∧ (t.dev.port p).hostRid = some (x.hostRid.getD rid))
    ∧ (d.endpointOn p = true →
      (∃ t, exec (.perst p) s = .next t ∧ Keeps s t ∧ cleared t ∧ (t.dev.port p).linkUp = false)
      ∧ (x.linkUp = true → ∃ t, exec (.dlDown p) s = .next t ∧ Keeps s t ∧ cleared t ∧ (t.dev.port p).linkUp = false)
      ∧ (x.linkUp = true → ∃ t, exec (.flr p) s = .next t ∧ Keeps s t ∧ cleared t ∧ (t.dev.port p).linkUp = true)
      ∧ (∀ sp wd, x.linkUp = false → 1 ≤ sp.toNat → sp.toNat ≤ 4 → wd ∈ [1#5, 4#5, 8#5] ∨ (wd = 16#5 ∧ d.bifurc = false) →
        ∃ t, exec (.dlUp p sp wd) s = .next t ∧ Keeps s t ∧ (t.dev.port p).linkUp = true ∧ (t.dev.port p).speed = sp ∧ (t.dev.port p).width = wd)
      ∧ (∀ v : BitVec 11, x.pba.getLsbD v.toNat = true → x.canSend v.toNat = true →
        ∃ t, exec (.msixPendingSend p v) s = .next t ∧ Keeps s t ∧ (t.dev.port p).lastMsix = some v ∧ (t.dev.port p).pba.getLsbD v.toNat = false))
    ∧ (d.isPcie p = true → d.portServes p = true → x.ptmEn = true → x.pmState ≠ 3#2 →
      (x.ptmOfs = none → ∀ h : BitVec 64, ∃ t, exec (.ptmDialogue p (some h)) s = .next t ∧ Keeps s t
        ∧ (t.dev.port p).ptmOfs = some (h - (d.tb + d.pwr.slept)) ∧ (t.dev.port p).ptmFails = 0)
      ∧ (∃ t, exec (.ptmDialogue p none) s = .next t ∧ Keeps s t ∧ (t.dev.port p).ptmFails = x.ptmFails + 1
        ∧ (d.tbPort = some p → 2 ≤ x.ptmFails → t.dev.tbLock = false)))

/-- The semaphore acts on the writes of a port (R331): SEM_ACQ with a lease of 1 to 60,000 ms is granted when it is free, restarts the lease when the
port holds it, and is refused and counted when the other port does (a tie in one tick apart, R332); with another lease it is refused and the lease
runs on; SEM_HB restarts the lease, or is counted; SEM_REL with bit 0 releases, or is ignored. A lease lasts L × 100,000 ticks of 100 MHz, 8 ticks of
the model each; then it is released by force, and raised, at the tick after them at the latest, and not before; a heartbeat of its holder in the very
tick of its end comes first and keeps it (R332). These hold for writes that B0HOST lets through; one that it drops leaves the semaphore as it was and
is counted (R322). An acquisition of the other port refused in the same tick comes after a release or the expiry, and is left out here (R332). -/
def Obligations.SemaphoreActs : Prop :=
  ∀ (s : State) (p : Port) (rid : BitVec 16) (v : W32),
    let d := s.dev
    let m := d.sem
    let lease := v.extractLsb' 0 16
    let ends := d.clk + 800000 * lease.toNat
    let good := 1 ≤ lease.toNat ∧ lease.toNat ≤ 60000
    let refused := fun (t : State) => (t.dev.sem.stat p).refusals = satInc (m.stat p).refusals ∧ t.dev.sem.holder = m.holder
      ∧ t.dev.sem.lease = m.lease ∧ t.dev.sem.expiry = m.expiry
    let forced := fun (t : State) => t.dev.sem.holder = none ∧ (t.dev.sem.stat p).forced = true ∧ (t.dev.sem.stat p).why = 1#2
      ∧ t.dev.raising 706 (Port.num p)
    (d.portLive p = true → d.hostMay p rid = true → (∀ l o, m.lapsed ≠ some (d.clk / 8, p, l, o)) →
      (good → m.holder = none → ∃ t, exec (.semAcq p rid v) s = .next t ∧ Keeps s t ∧ t.dev.sem.holder = some p ∧ t.dev.sem.lease = lease
        ∧ t.dev.sem.expiry = ends ∧ (t.dev.sem.stat p).result = 1#3)
      ∧ (good → m.holder = some p → ∃ t, exec (.semAcq p rid v) s = .next t ∧ Keeps s t ∧ t.dev.sem.holder = some p ∧ t.dev.sem.lease = lease
        ∧ t.dev.sem.expiry = ends ∧ (t.dev.sem.stat p).result = 2#3)
      ∧ (good → m.holder = some (otherPort p) → m.grantTick ≠ some (d.clk / 8, otherPort p) → ∃ t, exec (.semAcq p rid v) s = .next t ∧ Keeps s t
        ∧ refused t ∧ (t.dev.sem.stat p).result = 3#3)
      ∧ (¬ good → ∃ t, exec (.semAcq p rid v) s = .next t ∧ Keeps s t ∧ refused t ∧ (t.dev.sem.stat p).result = 4#3)
      ∧ (m.holder = some p → ∃ t, exec (.semHb p rid v) s = .next t ∧ Keeps s t ∧ t.dev.sem = { m with expiry := d.clk + 800000 * m.lease.toNat })
      ∧ (m.holder ≠ some p → ∃ t, exec (.semHb p rid v) s = .next t ∧ Keeps s t ∧ refused t)
      ∧ (m.holder = some p → bitOf v 0 = true → m.lateAcq = none →
        ∃ t, exec (.semRel p rid v) s = .next t ∧ Keeps s t ∧ t.dev.sem.holder = none)
      ∧ (m.holder ≠ some p ∨ bitOf v 0 = false → ∃ t, exec (.semRel p rid v) s = .next t ∧ Keeps s t ∧ t.dev.sem = m))
    ∧ (∀ l o, d.portLive p = true → d.hostMay p rid = true → m.lapsed = some (d.clk / 8, p, l, o) →
      ∃ t, exec (.semHb p rid v) s = .next t ∧ Keeps s t ∧ t.dev.sem.holder = some p ∧ t.dev.sem.lease = l
        ∧ t.dev.sem.expiry = d.clk + 800000 * l.toNat)
    ∧ (d.portLive p = true → d.hostMay p rid = false → ∀ i ∈ ([.semAcq p rid v, .semHb p rid v, .semRel p rid v] : List Instr),
      ∃ t, exec i s = .next t ∧ Keeps s t ∧ t.dev.sem = m ∧ (t.dev.port p).errDrop = satInc (d.port p).errDrop ∧ t.dev.raising 704 (Port.num p))
    ∧ (m.holder = some p → m.lateAcq = none →
      (m.expiry ≤ d.clk → ∃ t, exec .semLeaseExpiry s = .next t ∧ Keeps s t ∧ forced t)
      ∧ (d.clk < m.expiry → Yields s .semLeaseExpiry d)
      ∧ (s.pending = [] → d.calm → ∃ t, step s = .next t
        ∧ (if m.expiry / 8 < (d.clk + 1) / 8 then forced t else t.dev.sem = m)))

/-- Accesses to registers that have no command of their own (R9, R10, R297, R306, R313): ones written to UNSTABLE and OVR of a crossing register clear
them, a read of a queue's error counts clears them, a host's aligned BAR0 read completes with the word, its write of a word of the request buffer of a
free port is kept, and an access of another size or place is an Unsupported Request, counted and raised, its write dropped. The I3C target of port B
(R329): its dynamic address, and with one the offset that a private write sets and the bytes of a private read, which the writes before it hold back
unless it stays in the status page (R314, R321). -/
def Obligations.RegistersAndI3c : Prop :=
  (∀ (s : State) (req : ReqId),
     (∀ (n : Nat) (v : W32), n < 154 → s.dev.calm →
       ∃ t, exec (.registerWrite (.dev req (BitVec.ofNat 32 (0x08004000 + n))) v) s = .next t ∧ Keeps s t
         ∧ t.dev.xing n = { s.dev.xing n with unstable := (s.dev.xing n).unstable && !bitOf v 31, ovr := (s.dev.xing n).ovr && !bitOf v 30 }
         ∧ ∀ k, k ≠ n → t.dev.xing k = s.dev.xing k)
     ∧ (∀ q, q < 1024 → s.dev.wordAsleep (0x08100000 + q / 128 * 0x10000) = false → (s.dev.span (q / 128)).asleep = false →
       ∃ t, exec (.readClear (.dev req (BitVec.ofNat 32 (0x08100000 + q / 128 * 0x10000 + 0x1000 + 16 * (q % 128) + 7)))) s = .next t ∧ Keeps s t
         ∧ t.dev.queue q = { s.dev.queue q with ce := 0#16, ue := 0#16 } ∧ ∀ k, k ≠ q → t.dev.queue k = s.dev.queue k)
     ∧ (∀ (p : Port) (rid off : BitVec 16) (n : BitVec 13),
       (s.dev.bar0Takes p off.toNat false = true →
         (off.toNat % 4 = 0 → n = 4#13 →
           ∃ t, exec (.readClear (.bar0 p rid off n)) s = .next t ∧ Keeps s t ∧ (t.dev.port p).lastCplUr = false
             ∧ (t.dev.port p).lastCpl.map (·.pay) = [(s.dev.portTouched p).bar0Read p off.toNat])
         ∧ (aWord off.toNat n.toNat = false →
           ∃ t, exec (.readClear (.bar0 p rid off n)) s = .next t ∧ Keeps s t ∧ (t.dev.port p).lastCplUr = true
             ∧ (t.dev.port p).errUr = satInc (s.dev.port p).errUr ∧ t.dev.raising 704 (Port.num p)))
       ∧ (s.dev.calm → s.dev.bar0Takes p off.toNat true = true → s.dev.hostMay p rid = true →
         (∀ v, 0x2000 ≤ off.toNat → off.toNat < 0x3000 → off.toNat % 4 = 0 → n = 4#13 → (s.dev.port p).busy = false →
           ∃ t, exec (.registerWrite (.bar0 p rid off n) v) s = .next t ∧ Keeps s t
             ∧ Tab.find 0#32 (t.dev.port p).reqBuf ((off.toNat - 0x2000) / 4) = v)
         ∧ (∀ v, aWord off.toNat n.toNat = false →
           ∃ t, exec (.registerWrite (.bar0 p rid off n) v) s = .next t ∧ Keeps s t ∧ t.dev.sem = s.dev.sem
             ∧ (t.dev.port p).errUr = satInc (s.dev.port p).errUr ∧ t.dev.raising 704 (Port.num p)))))
  ∧ (∀ (s : State), s.dev.i3cLive = true →
     (∀ a : BitVec 7, ∃ t, exec (.i3cDynamicAddress a) s = .next t ∧ Keeps s t ∧ t.dev.portB.i3cAddr = some a)
     ∧ (s.dev.portB.i3cAddr.isSome = true → s.dev.portB.i3cRest = [] →
       (∀ lo hi : Byte, ∃ t, exec (.i3cPrivateWrite [lo, hi]) s = .next t ∧ Keeps s t ∧ t.dev.portB.i3cOff = hi ++ lo)
       ∧ (∀ n : BitVec 13, s.dev.portDrained .b = true ∨ s.dev.portB.i3cOff.toNat + n.toNat ≤ 0x1000 → ∃ t, exec (.i3cPrivateRead n) s = .next t
           ∧ Keeps s t ∧ t.dev.portB.lastCpl.length = n.toNat
         ∧ t.dev.portB.i3cOff = i3cNext s.dev.portB.i3cOff n.toNat)))

/-! ### Test access (18_plumb_debug.md) -/

/-- The test access port (R488 to R491): each scan loads its instruction; IDCODE captures the part's code, BYPASS one 0, DBG_STAT its word;
the boundary scans capture the level of every ball whose level the part's state holds, and keep the cells shifted in; the instructions that
drive or float the balls do so in TEST and while RESET_N is low alone, and act as BYPASS elsewhere; SAMPLE/PRELOAD drives nothing;
Test-Logic-Reset selects IDCODE. The order of the boundary cells is the model's (log entry 76). -/
def Obligations.ScansLoadTheirInstruction : Prop :=
  ∀ (s : State) (cells : List Bool),
    let d := s.dev
    let loads := fun (i : Instr) (k : TapInstr) (driving hiz : Bool) (ok : Jtag → Prop) =>
      ∃ t, exec i s = .next t ∧ Keeps s t ∧ t.dev.jtag.instr = k ∧ t.dev.jtag.driving = driving ∧ t.dev.jtag.hiz = hiz ∧ ok t.dev.jtag
    let bypass := fun j : Jtag => j.capture = [0#8] ∧ j.irCapture = d.captureIr
    let scanned := fun j : Jtag => (∀ k, k < boundaryCells → Tab.find false j.boundary k = cells.getD k false)
      ∧ ∀ n v, n < boundaryCells → d.ballLevel n = some v → (byteAt j.capture (n / 8)).getLsbD (n % 8) = v
    loads .jtagTestLogicReset .idcode false false (fun j => j.boundary = d.jtag.boundary)
    ∧ loads .idcode .idcode false false (fun j => j.capture = bytesOfWord d.idcodeWord ∧ j.irCapture = d.captureIr)
    ∧ loads .bypass .bypass false false bypass
    ∧ loads .dbgStat .dbgStat false false (fun j => j.capture = bytesOfWord d.dbgStat)
    ∧ loads (.samplePreload cells) .sample false false scanned
    ∧ (d.mode.mode = mTest ∨ d.resetLow = true →
      loads (.extest cells) .extest true false scanned ∧ loads (.extestPulse cells) .extestPulse true false scanned
      ∧ loads (.extestTrain cells) .extestTrain true false scanned
      ∧ loads .clamp .clamp true false (fun j => j.boundary = d.jtag.boundary)
      ∧ loads .highz .highz false true (fun j => j.boundary = d.jtag.boundary))
    ∧ (d.mode.mode ≠ mTest → d.resetLow = false →
      ∀ i ∈ ([.extest cells, .extestPulse cells, .extestTrain cells, .clamp, .highz] : List Instr), loads i .bypass false false bypass)

/-- Debug access over JTAG (R492 to R495): UNLOCK_CH captures a fresh challenge; a good token for it opens its scope as SEC_UNLOCK does;
DBG_INSP with scope bit 0 sends a read of a bent's remote view over the idle Deck, as requester 800h in class C1, whose data becomes its result,
and its writes fail outside TEST; DBG_KS with bit 1 writes and reads Keystone's words; FW_RECOV with bit 2 in BOOT or TEST starts the write of
a line of a firmware slot while the sequencer and the Deck are idle; without its scope bit each acts as BYPASS. -/
def Obligations.DebugAccess : Prop :=
  ∀ (s : State) (wr : Bool) (addr data : W32) (words : List W32) (tok : List Byte),
    let d := s.dev
    (∃ t bs, exec .unlockCh s = .next t ∧ Keeps s t ∧ t.dev.jtag.instr = .unlockCh ∧ t.dev.jtag.capture = bs ∧ bs.length = 32
      ∧ t.dev.sec.challenge = some (bs, d.clk))
    ∧ (tok.length = 3412 → d.engineBusy = false → badToken tok = none → d.challengeMet tok = true → (∃ v ∈ d.sec.tokenVerdicts tok, v = .good) →
      ∃ t, exec (.unlockTok tok) s = .next t ∧ Keeps s t ∧ t.dev.jtag.instr = .unlockTok ∧ t.dev.sec.challenge = none ∧ t.dev.sec.tokRes = 1#3
        ∧ t.dev.sec.dbgScope = d.sec.dbgScope ||| BitVec.ofNat 4 (leNat tok 32 4))
    ∧ (d.calm → d.sec.dbgScope.getLsbD 0 = true → 0x08200000 ≤ addr.toNat → addr.toNat < 0x08280000 → d.deckIdle →
      ∃ t x, exec (.dbgInsp false addr data) s = .next t ∧ Keeps s t ∧ t.dev.jtag.instr = .dbgInsp ∧ t.dev.jtag.capture = d.jtag.result
        ∧ t.dev.txns = [x] ∧ x.origin = .debug ∧ x.ty = .rd ∧ x.addr = addr ∧ x.req = ksReq ∧ x.cls = 1#2 ∧ x.st = .sent)
    ∧ (∀ id x b w, d.calm → d.freeWay → d.txn id = some x → x.origin = .debug → x.st = .answered (.data b [w]) →
      ∃ t, exec (.deckDataReturn id) s = .next t ∧ Keeps s t ∧ t.dev.jtag.inspErr = false ∧ t.dev.jtag.inspAddr = x.addr
        ∧ t.dev.jtag.inspData = w.pay)
    ∧ (d.calm → d.sec.dbgScope.getLsbD 0 = true → d.mode.mode ≠ mTest →
      ∃ t, exec (.dbgInsp true addr data) s = .next t ∧ Keeps s t ∧ t.dev.jtag.instr = .dbgInsp ∧ t.dev.jtag.inspErr = true
        ∧ t.dev.jtag.inspAddr = addr ∧ t.dev.jtag.inspData = d.jtag.inspData)
    ∧ (d.sec.dbgScope.getLsbD 1 = true →
      (∃ t, exec (.dbgKs true addr data) s = .next t ∧ Keeps s t ∧ t.dev.jtag.instr = .dbgKs ∧ Tab.find 0#32 t.dev.ks.sram addr.toNat = data)
      ∧ (∀ e, d.ks.sram.find? (fun x => x.1 == addr.toNat) = some e →
        ∃ t, exec (.dbgKs false addr data) s = .next t ∧ Keeps s t ∧ t.dev.jtag.inspData = e.2 ∧ t.dev.jtag.inspAddr = addr))
    ∧ (d.sec.dbgScope.getLsbD 2 = true → (d.mode.mode = mBoot ∨ d.mode.mode = mTest) → 0x02000000 ≤ addr.toNat → addr.toNat < 0x02030000 →
      addr.toNat % 16 = 0 → d.ws.phase = .idle → (d.span 0).pacedBank = 0#8 → words.length = 16 → d.deckIdle →
      ∃ t, exec (.fwRecov 1#2 addr words) s = .next t ∧ Keeps s t ∧ t.dev.jtag.instr = .fwRecov ∧ t.dev.ws.phase = .sending
        ∧ t.dev.ws.line = addr.toNat / 16 ∧ t.dev.ws.words = words)
    ∧ (∀ e ∈ ([(.dbgInsp wr addr data, 0), (.dbgKs wr addr data, 1), (.fwRecov 1#2 addr words, 2)] : List (Instr × Nat)),
      d.calm → d.sec.dbgScope.getLsbD e.2 = false →
      ∃ t, exec e.1 s = .next t ∧ Keeps s t ∧ t.dev.jtag.instr = .bypass ∧ t.dev.jtag.capture = [0#8])

/-! ### The Viaduct (12_viaduct_chain.md) -/

/-- Flits in sequence at a port that is UP and serves them (R383, R385, R387, R392), for the own unit: a TXN enters the Deck and reaches its
target while nothing holds it up on its way, a RSP answers the transaction that waits for it, a CMD takes its slot of the forward buffer; a
TXN for another unit is passed on by the port's flit buffers and a CHANNEL cell, unless the link toward it is DOWN (R304, R385); a FILL, or more
than 8 words, cross no Viaduct (R380); each moves the expected number on. A REACH flit gives the port's mask
(R381); an IDLE flit brings its credits and the chain fault (R382, R384); a SYNC from below is returned with its stamps (R393); an exchange
that fails is counted (R394). -/
def Obligations.FlitsAreReceived : Prop :=
  ∀ (s : State) (p : ViaPort) (h : FlitHdr),
    let d := s.dev
    let v := d.via p
    let mine := d.inOrder p h ∧ d.viaServes p = true ∧ h.dest = d.chain.unit
    let moved := fun (t : State) (n : Nat) => Keeps s t ∧ (t.dev.via p).nextRx = v.nextRx + BitVec.ofNat 12 n
    (∀ ty req paced tag parts n, mine → overViaduct ty n = true → d.freeWay → d.entryFree (viaReq p) = true →
      ∃ t x, exec (.viaTxnReceive p h ty req paced tag parts n) s = .next t ∧ moved t 1 ∧ t.dev.txns = d.txns ++ [x] ∧ x.req = viaReq p ∧ x.ty = ty
        ∧ x.cls = h.cls ∧ x.st = .sent ∧ x.paced = paced ∧ x.origin = .viaduct p h.src req tag)
    ∧ (∀ ty req paced tag parts n, d.inOrder p h → overViaduct ty n = false →
      ∃ t, exec (.viaTxnReceive p h ty req paced tag parts n) s = .next t ∧ moved t 1 ∧ t.dev.txns = d.txns)
    ∧ (∀ ty req paced tag parts n, d.inOrder p h → overViaduct ty n = true → d.viaServes p = true → h.dest ≠ d.chain.unit →
      (d.via (d.routeTo h.dest)).lost = false →
      ∃ t, exec (.viaTxnReceive p h ty req paced tag parts n) s = .next t ∧ moved t 1 ∧ t.dev.txns = d.txns
        ∧ ((t.dev.via (d.routeTo h.dest)).carries (.txn (txnPassed h ty req paced tag parts n))
          ∨ ∃ f ∈ (t.dev.via p).rx, f.body = .txn (txnPassed h ty req paced tag parts n) ∧ f.dest = h.dest))
    ∧ (∀ req tag r x, mine → d.txns.find? (fun t => t.st == .remote && t.dest == some h.src && t.req == req && t.id % 256 == tag.toNat) = some x →
      ∃ t, exec (.viaRspReceive p h req tag r) s = .next t ∧ moved t 1 ∧ ∀ y ∈ t.dev.txns, y.id = x.id → y.st = .answered r)
    ∧ (∀ o body, mine → d.keystoneUp = true →
      ∃ t, exec (.viaCmdReceive p h o body) s = .next t ∧ moved t (streamOf o body).length
        ∧ ∃ f ∈ t.dev.ks.fwd, f.unit = h.src ∧ f.port = o ∧ f.at_ = d.clk ∧ ∀ i, i < body.length → Tab.find 0#32 f.req i = body.getD i 0#32)
    ∧ (∀ hd a len m, d.inOrder p h →
      ∃ t, exec (.viaLinkReceive p h true hd a len m) s = .next t ∧ moved t 1 ∧ (t.dev.via p).reach = m ∧ (t.dev.via p).nvalid = a.isSome
        ∧ (t.dev.via p).nunit = a.getD 0#4)
    ∧ (v.st = .up → ∃ t, exec (.viaReachPeriodic p) s = .next t ∧ Keeps s t ∧ (t.dev.via p).carries (d.linkFlit p true))
    ∧ (v.st = .up → v.queued = [] → v.ledger = [] → (∀ q, (d.via q).rx = []) →
      ∃ t, exec (.viaIdleReceive p h) s = .next t ∧ Keeps s t ∧ (t.dev.via p).cfIn = h.cf ∧ (t.dev.via p).nextRx = v.nextRx
        ∧ Tab.find 0 (t.dev.via p).credits h.cls.toNat
          = min (if h.cls = 0#2 then 32 else 64) (Tab.find 0 v.credits h.cls.toNat + h.credit.toNat))
    ∧ (∀ t1, p = .dn → d.inOrder p h → d.viaServes p = true →
      ∃ t a e, exec (.viaSyncReceive p h t1) s = .next t ∧ moved t 1 ∧ a < 32
        ∧ (t.dev.via .dn).carries (.sync t1 (d.chainTime * 32#64 + BitVec.ofNat 64 a) (d.chainTime * 32#64 + BitVec.ofNat 64 a + BitVec.ofNat 64 e)))
    ∧ (d.chain.head = false →
      (∃ t, exec (.viaSyncExchange none) s = .next t ∧ Keeps s t ∧ t.dev.chain.fails = satInc d.chain.fails ∧ t.dev.chain.good = 0)
      ∧ (∀ t2 t3, (d.via .up).st = .up → ∃ t, exec (.viaSyncExchange (some (t2, t3))) s = .next t ∧ Keeps s t ∧ t.dev.chain.fails = 0#7
        ∧ t.dev.chain.tbFresh = false ∧ t.dev.chain.tbOfs.isSome = true))

/-- Enumeration (R391): a unit takes the address of the token that it gets from above, and a seventeenth unit takes none and raises
VIA_TOPOLOGY, as the HEAD does that gets a token; END travels up to the HEAD, which records the chain's length and ends its VIA_ENUM, and
LENGTH records it below; a unit whose DOWN port is not UP in time is the last, and says so upward while its UP link is not DOWN. -/
def Obligations.TheChainIsEnumerated : Prop :=
  ∀ (s : State) (h : FlitHdr) (n : BitVec 5),
    let d := s.dev
    (d.inOrder .up h →
      (d.chain.head = false → n.toNat < 16 →
        ∃ t, exec (.viaEnumReceive .up h n) s = .next t ∧ Keeps s t ∧ t.dev.chain.uvalid = true ∧ t.dev.chain.unit = n.setWidth 4)
      ∧ (d.chain.head = false → 16 ≤ n.toNat →
        ∃ t, exec (.viaEnumReceive .up h n) s = .next t ∧ Keeps s t ∧ t.dev.chain.uvalid = false ∧ t.dev.raising 672 0)
      ∧ (d.chain.head = true → ∃ t, exec (.viaEnumReceive .up h n) s = .next t ∧ Keeps s t ∧ t.dev.raising 672 0
        ∧ t.dev.chain.unit = d.chain.unit)
      ∧ (d.chain.uvalid = true → ∃ t, exec (.viaLengthReceive .up h n) s = .next t ∧ Keeps s t ∧ t.dev.chain.chainLen = n))
    ∧ (d.inOrder .dn h → d.chain.uvalid = true → d.chain.head = true →
      ∃ t, exec (.viaEndReceive .dn h n) s = .next t ∧ Keeps s t ∧ t.dev.chain.chainLen = n
        ∧ ∀ p j, d.ks.jobs = [j] → j.src = .port p → j.kind = .viaEnum → j.late = 0 → Ended t p stDone (n.setWidth 16))
    ∧ (d.inOrder .dn h → d.chain.uvalid = true → d.chain.head = false → (d.via .up).lost = false →
      ∃ t, exec (.viaEndReceive .dn h n) s = .next t ∧ Keeps s t ∧ (t.dev.via .up).carries (.endf n))
    ∧ (∀ w, d.chain.enumWait = some w → w + 2400000 ≤ d.clk →
      (d.chain.head = true → ∃ t, exec .viaEnumTimeout s = .next t ∧ Keeps s t ∧ t.dev.chain.chainLen = d.chain.unit.setWidth 5 + 1#5
        ∧ t.dev.chain.enumWait = none)
      ∧ (d.chain.head = false → (d.via .up).lost = false → ∃ t, exec .viaEnumTimeout s = .next t ∧ Keeps s t ∧ t.dev.chain.enumWait = none
        ∧ (t.dev.via .up).carries (.endf (d.chain.unit.setWidth 5 + 1#5))))

/-- A Viaduct port's states (R377, R378, R383): a far end is found by a port that may leave DOWN, training ends with four lanes, with two, or with too
few, the check ends UP or DOWN; a link that is UP retrains on a lost lane and on RETRAIN, counts lane errors, and is DOWN when nothing comes or the
retrain fails, which is counted and raised; a bad flit asks for a replay with one NAK for each gap, and a replay sends the ledger again, with the
present ACK and CF (R379). A sideband input's level is kept, which the downstream port counts while SBEN is 1 (R376). -/
def Obligations.LinksChangeState : Prop :=
  ∀ (s : State) (p : ViaPort),
    let d := s.dev
    let v := d.via p
    let y := fun t : State => t.dev.via p
    (∀ m, v.st = .down → d.pwr.pstate.toNat < 2 → d.viaMayTrain p = true → 2 ≤ lanesIn m → ∃ t, exec (.viaFarEndDetect p m) s = .next t ∧ Keeps s t
        ∧ (y t).st = .train
      ∧ (y t).trainAt = d.clk)
    ∧ (∀ m, v.st = .train →
      let good := m &&& ~~~ v.bad
      (4 ≤ lanesIn good → ∃ t, exec (.viaTrainEnd p m) s = .next t ∧ Keeps s t ∧ (y t).st = .check ∧ (y t).half = false)
      ∧ (lanesIn good = 2 ∨ lanesIn good = 3 → ∃ t, exec (.viaTrainEnd p m) s = .next t ∧ Keeps s t ∧ (y t).st = .check ∧ (y t).half = true
        ∧ t.dev.raising 673 (viaInst p))
      ∧ (lanesIn good < 2 → ∃ t, exec (.viaTrainEnd p m) s = .next t ∧ Keeps s t ∧ (y t).st = .down))
    ∧ (∀ hd a len, v.st = .check →
      ((hd && d.chain.head) = false → ∃ t, exec (.viaCheckEnd p true hd a len) s = .next t ∧ Keeps s t ∧ (y t).st = .up ∧ (y t).nvalid = a.isSome
        ∧ (y t).retraining = false)
      ∧ (∃ t, exec (.viaCheckEnd p false hd a len) s = .next t ∧ Keeps s t ∧ (y t).st = .down))
    ∧ (v.st = .up →
      (∀ req, ∃ t, exec (.viaRetrain req p) s = .next t ∧ Keeps s t ∧ (y t).st = .train ∧ (y t).retraining = true ∧ (y t).ledger = v.ledger)
      ∧ (∀ l, l.toNat < 5 → ∃ t, exec (.viaLaneError p l true) s = .next t ∧ Keeps s t ∧ (y t).st = .train ∧ (y t).bad = v.bad ||| (1#5 <<< l.toNat))
      ∧ (∀ l, l.toNat < 5 → ∃ t, exec (.viaLaneError p l false) s = .next t ∧ Keeps s t
        ∧ Tab.find 0 (y t).lerr l.toNat = min 63 (Tab.find 0 v.lerr l.toNat + 1))
      ∧ (∃ t, exec (.viaFlitError p) s = .next t ∧ Keeps s t ∧ (y t).nakSent = true
        ∧ (y t).nakDue = (v.nakDue || !v.nakSent) ∧ (y t).st = .up)
      ∧ (∀ f r, v.ledger = f :: r → f.sentAt + 1600 ≤ d.clk → ∃ t, exec (.viaReplayTimeout p) s = .next t ∧ Keeps s t
        ∧ (y t).ledger = v.ledger.map (fun x => { x with sentAt := d.clk, ack := v.nextRx - 1#12, cf := d.cfSent p })
            ∧ (y t).retry = satAdd v.retry v.ledger.length)
      ∧ (∃ t, exec (.viaRxSilence p) s = .next t ∧ Keeps s t ∧ (y t).st = .down ∧ (y t).downs = satInc v.downs ∧ t.dev.raising 674 (viaInst p)))
    ∧ (v.st ≠ .up → v.retraining = true → v.trainAt + 800000 ≤ d.clk → ∃ t, exec (.viaRetrainTimeout p) s = .next t ∧ Keeps s t
      ∧ (y t).st = .down ∧ (y t).downs = satInc v.downs ∧ t.dev.raising 674 (viaInst p))
    ∧ (∀ b, ∃ t, exec (.viaChainSideband p b) s = .next t ∧ Keeps s t ∧ (y t).sbIn = b
        ∧ (t.dev.cfReceived p = ((!v.lost && v.cfIn) || (b && (p == .up || v.sbEn)))))
end

