-- ==== Sys2Proof/Laws/Tab.lean ====
section
/-! SUPPORT. Reading a table after an entry was written, dropped or changed. -/
namespace Sys2Proof

variable {α : Type}

@[simp] theorem Tab.find_nil (d : α) (k : Nat) : Tab.find d ([] : Tab α) k = d := rfl

/-- The entry written is read back. -/
@[simp] theorem Tab.find_put_self (d v : α) (t : Tab α) (k : Nat) : Tab.find d (Tab.put t k v) k = v := by
  induction t with
  | nil => simp [Tab.put, Tab.find]
  | cons e r ih =>
    obtain ⟨j, w⟩ := e
    unfold Tab.put
    by_cases h1 : k < j
    · simp [h1, Tab.find]
    · by_cases h2 : k = j
      · simp [h2, Tab.find]
      · simp [h1, h2, Tab.find, Ne.symm h2, ih]

/-- Every other entry reads as before. -/
@[simp] theorem Tab.find_put_other (d v : α) (t : Tab α) {k n : Nat} (h : n ≠ k) :
    Tab.find d (Tab.put t k v) n = Tab.find d t n := by
  induction t with
  | nil => simp [Tab.put, Tab.find, Ne.symm h]
  | cons e r ih =>
    obtain ⟨j, w⟩ := e
    unfold Tab.put
    by_cases h1 : k < j
    · simp [h1, Tab.find, Ne.symm h]
    · by_cases h2 : k = j
      · subst h2; simp [Tab.find, Ne.symm h]
      · simp only [h1, h2, if_false, Tab.find, ih]

/-- Reading after a write, in one equation. -/
theorem Tab.find_put (d v : α) (t : Tab α) (k n : Nat) :
    Tab.find d (Tab.put t k v) n = if n = k then v else Tab.find d t n := by
  by_cases h : n = k
  · subst h; simp
  · simp [h]

/-- A changed entry. -/
theorem Tab.find_modify (d : α) (t : Tab α) (k n : Nat) (f : α → α) :
    Tab.find d (Tab.modify d t k f) n = if n = k then f (Tab.find d t k) else Tab.find d t n := Tab.find_put d _ t k n

/-- A dropped entry reads as the default. -/
@[simp] theorem Tab.find_drop_self (d : α) (t : Tab α) (k : Nat) : Tab.find d (Tab.drop t k) k = d := by
  induction t with
  | nil => rfl
  | cons e r ih =>
    obtain ⟨j, w⟩ := e
    by_cases h : j = k <;> simp_all [Tab.drop, Tab.find]

/-- Dropping an entry leaves the others. -/
@[simp] theorem Tab.find_drop_other (d : α) (t : Tab α) {k n : Nat} (h : n ≠ k) : Tab.find d (Tab.drop t k) n = Tab.find d t n := by
  induction t with
  | nil => rfl
  | cons e r ih =>
    obtain ⟨j, w⟩ := e
    by_cases hj : j = k
    · subst hj; simp_all [Tab.drop, Tab.find, Ne.symm h]
    · by_cases hn : j = n <;> simp_all [Tab.drop, Tab.find]

end Sys2Proof
end

