-- ==== Sys2Proof/Laws/State.lean ====
section
/-! SUPPORT. What each update of the device leaves alone, field by field, and what it reads back; so no later proof unfolds an update. -/
namespace Sys2Proof.Machine

variable (d : Dev) (s : State)

/-! ### Outcomes -/

@[simp] theorem State.keep_eq (e : Dev) : s.keep e = .next { s with dev := e.seen s.dev } := rfl
@[simp] theorem State.commit_eq (e : Eff) : s.commit e = .next { s with dev := e.1.seen s.dev, mem := applyAll s.mem e.2 } := rfl

/-! ### setCore -/

@[simp] theorem Dev.setCore_clk (c : Nat) (k : Core) : (d.setCore c k).clk = d.clk := rfl
@[simp] theorem Dev.setCore_tb (c : Nat) (k : Core) : (d.setCore c k).tb = d.tb := rfl
@[simp] theorem Dev.setCore_tbSlew (c : Nat) (k : Core) : (d.setCore c k).tbSlew = d.tbSlew := rfl
@[simp] theorem Dev.setCore_tbSrc (c : Nat) (k : Core) : (d.setCore c k).tbSrc = d.tbSrc := rfl
@[simp] theorem Dev.setCore_tbLock (c : Nat) (k : Core) : (d.setCore c k).tbLock = d.tbLock := rfl
@[simp] theorem Dev.setCore_freeCtr (c : Nat) (k : Core) : (d.setCore c k).freeCtr = d.freeCtr := rfl
@[simp] theorem Dev.setCore_nextId (c : Nat) (k : Core) : (d.setCore c k).nextId = d.nextId := rfl
@[simp] theorem Dev.setCore_bents (c : Nat) (k : Core) : (d.setCore c k).bents = d.bents := rfl
@[simp] theorem Dev.setCore_spans (c : Nat) (k : Core) : (d.setCore c k).spans = d.spans := rfl
@[simp] theorem Dev.setCore_txns (c : Nat) (k : Core) : (d.setCore c k).txns = d.txns := rfl
@[simp] theorem Dev.setCore_chans (c : Nat) (k : Core) : (d.setCore c k).chans = d.chans := rfl
@[simp] theorem Dev.setCore_creqs (c : Nat) (k : Core) : (d.setCore c k).creqs = d.creqs := rfl
@[simp] theorem Dev.setCore_abtHigh (c : Nat) (k : Core) : (d.setCore c k).abtHigh = d.abtHigh := rfl
@[simp] theorem Dev.setCore_abtStarve (c : Nat) (k : Core) : (d.setCore c k).abtStarve = d.abtStarve := rfl
@[simp] theorem Dev.setCore_abtReq (c : Nat) (k : Core) : (d.setCore c k).abtReq = d.abtReq := rfl
@[simp] theorem Dev.setCore_abtCnt (c : Nat) (k : Core) : (d.setCore c k).abtCnt = d.abtCnt := rfl
@[simp] theorem Dev.setCore_ws (c : Nat) (k : Core) : (d.setCore c k).ws = d.ws := rfl
@[simp] theorem Dev.setCore_ddrs (c : Nat) (k : Core) : (d.setCore c k).ddrs = d.ddrs := rfl
@[simp] theorem Dev.setCore_spareA (c : Nat) (k : Core) : (d.setCore c k).spareA = d.spareA := rfl
@[simp] theorem Dev.setCore_spareB (c : Nat) (k : Core) : (d.setCore c k).spareB = d.spareB := rfl
@[simp] theorem Dev.setCore_poison (c : Nat) (k : Core) : (d.setCore c k).poison = d.poison := rfl
@[simp] theorem Dev.setCore_queues (c : Nat) (k : Core) : (d.setCore c k).queues = d.queues := rfl
@[simp] theorem Dev.setCore_xings (c : Nat) (k : Core) : (d.setCore c k).xings = d.xings := rfl
@[simp] theorem Dev.setCore_xFirst (c : Nat) (k : Core) : (d.setCore c k).xFirst = d.xFirst := rfl
@[simp] theorem Dev.setCore_xverDone (c : Nat) (k : Core) : (d.setCore c k).xverDone = d.xverDone := rfl
@[simp] theorem Dev.setCore_xverFail (c : Nat) (k : Core) : (d.setCore c k).xverFail = d.xverFail := rfl
@[simp] theorem Dev.setCore_xverDom (c : Nat) (k : Core) : (d.setCore c k).xverDom = d.xverDom := rfl
@[simp] theorem Dev.setCore_temps (c : Nat) (k : Core) : (d.setCore c k).temps = d.temps := rfl
@[simp] theorem Dev.setCore_bifurc (c : Nat) (k : Core) : (d.setCore c k).bifurc = d.bifurc := rfl
@[simp] theorem Dev.setCore_headPin (c : Nat) (k : Core) : (d.setCore c k).headPin = d.headPin := rfl
@[simp] theorem Dev.setCore_safeNLow (c : Nat) (k : Core) : (d.setCore c k).safeNLow = d.safeNLow := rfl
@[simp] theorem Dev.setCore_portA (c : Nat) (k : Core) : (d.setCore c k).portA = d.portA := rfl
@[simp] theorem Dev.setCore_portB (c : Nat) (k : Core) : (d.setCore c k).portB = d.portB := rfl
@[simp] theorem Dev.setCore_sem (c : Nat) (k : Core) : (d.setCore c k).sem = d.sem := rfl
@[simp] theorem Dev.setCore_ks (c : Nat) (k : Core) : (d.setCore c k).ks = d.ks := rfl
@[simp] theorem Dev.setCore_mode (c : Nat) (k : Core) : (d.setCore c k).mode = d.mode := rfl
@[simp] theorem Dev.setCore_pwr (c : Nat) (k : Core) : (d.setCore c k).pwr = d.pwr := rfl
@[simp] theorem Dev.setCore_flt (c : Nat) (k : Core) : (d.setCore c k).flt = d.flt := rfl
@[simp] theorem Dev.setCore_sec (c : Nat) (k : Core) : (d.setCore c k).sec = d.sec := rfl
@[simp] theorem Dev.setCore_chain (c : Nat) (k : Core) : (d.setCore c k).chain = d.chain := rfl
@[simp] theorem Dev.setCore_jtag (c : Nat) (k : Core) : (d.setCore c k).jtag = d.jtag := rfl
@[simp] theorem Dev.setCore_plb (c : Nat) (k : Core) : (d.setCore c k).plb = d.plb := rfl
@[simp] theorem Dev.setCore_grades (c : Nat) (k : Core) : (d.setCore c k).grades = d.grades := rfl
@[simp] theorem Dev.setCore_wear (c : Nat) (k : Core) : (d.setCore c k).wear = d.wear := rfl
@[simp] theorem Dev.setCore_near (c : Nat) (k : Core) : (d.setCore c k).near = d.near := rfl
@[simp] theorem Dev.setCore_recLines (c : Nat) (k : Core) : (d.setCore c k).recLines = d.recLines := rfl
@[simp] theorem Dev.setCore_resetLow (c : Nat) (k : Core) : (d.setCore c k).resetLow = d.resetLow := rfl
@[simp] theorem Dev.setCore_lineWrites (c : Nat) (k : Core) : (d.setCore c k).lineWrites = d.lineWrites := rfl

/-! ### onCore -/

@[simp] theorem Dev.onCore_clk (c : Nat) (f : Core → Core) : (d.onCore c f).clk = d.clk := rfl
@[simp] theorem Dev.onCore_tb (c : Nat) (f : Core → Core) : (d.onCore c f).tb = d.tb := rfl
@[simp] theorem Dev.onCore_tbSlew (c : Nat) (f : Core → Core) : (d.onCore c f).tbSlew = d.tbSlew := rfl
@[simp] theorem Dev.onCore_tbSrc (c : Nat) (f : Core → Core) : (d.onCore c f).tbSrc = d.tbSrc := rfl
@[simp] theorem Dev.onCore_tbLock (c : Nat) (f : Core → Core) : (d.onCore c f).tbLock = d.tbLock := rfl
@[simp] theorem Dev.onCore_freeCtr (c : Nat) (f : Core → Core) : (d.onCore c f).freeCtr = d.freeCtr := rfl
@[simp] theorem Dev.onCore_nextId (c : Nat) (f : Core → Core) : (d.onCore c f).nextId = d.nextId := rfl
@[simp] theorem Dev.onCore_bents (c : Nat) (f : Core → Core) : (d.onCore c f).bents = d.bents := rfl
@[simp] theorem Dev.onCore_spans (c : Nat) (f : Core → Core) : (d.onCore c f).spans = d.spans := rfl
@[simp] theorem Dev.onCore_txns (c : Nat) (f : Core → Core) : (d.onCore c f).txns = d.txns := rfl
@[simp] theorem Dev.onCore_chans (c : Nat) (f : Core → Core) : (d.onCore c f).chans = d.chans := rfl
@[simp] theorem Dev.onCore_creqs (c : Nat) (f : Core → Core) : (d.onCore c f).creqs = d.creqs := rfl
@[simp] theorem Dev.onCore_abtHigh (c : Nat) (f : Core → Core) : (d.onCore c f).abtHigh = d.abtHigh := rfl
@[simp] theorem Dev.onCore_abtStarve (c : Nat) (f : Core → Core) : (d.onCore c f).abtStarve = d.abtStarve := rfl
@[simp] theorem Dev.onCore_abtReq (c : Nat) (f : Core → Core) : (d.onCore c f).abtReq = d.abtReq := rfl
@[simp] theorem Dev.onCore_abtCnt (c : Nat) (f : Core → Core) : (d.onCore c f).abtCnt = d.abtCnt := rfl
@[simp] theorem Dev.onCore_ws (c : Nat) (f : Core → Core) : (d.onCore c f).ws = d.ws := rfl
@[simp] theorem Dev.onCore_ddrs (c : Nat) (f : Core → Core) : (d.onCore c f).ddrs = d.ddrs := rfl
@[simp] theorem Dev.onCore_spareA (c : Nat) (f : Core → Core) : (d.onCore c f).spareA = d.spareA := rfl
@[simp] theorem Dev.onCore_spareB (c : Nat) (f : Core → Core) : (d.onCore c f).spareB = d.spareB := rfl
@[simp] theorem Dev.onCore_poison (c : Nat) (f : Core → Core) : (d.onCore c f).poison = d.poison := rfl
@[simp] theorem Dev.onCore_queues (c : Nat) (f : Core → Core) : (d.onCore c f).queues = d.queues := rfl
@[simp] theorem Dev.onCore_xings (c : Nat) (f : Core → Core) : (d.onCore c f).xings = d.xings := rfl
@[simp] theorem Dev.onCore_xFirst (c : Nat) (f : Core → Core) : (d.onCore c f).xFirst = d.xFirst := rfl
@[simp] theorem Dev.onCore_xverDone (c : Nat) (f : Core → Core) : (d.onCore c f).xverDone = d.xverDone := rfl
@[simp] theorem Dev.onCore_xverFail (c : Nat) (f : Core → Core) : (d.onCore c f).xverFail = d.xverFail := rfl
@[simp] theorem Dev.onCore_xverDom (c : Nat) (f : Core → Core) : (d.onCore c f).xverDom = d.xverDom := rfl
@[simp] theorem Dev.onCore_temps (c : Nat) (f : Core → Core) : (d.onCore c f).temps = d.temps := rfl
@[simp] theorem Dev.onCore_bifurc (c : Nat) (f : Core → Core) : (d.onCore c f).bifurc = d.bifurc := rfl
@[simp] theorem Dev.onCore_headPin (c : Nat) (f : Core → Core) : (d.onCore c f).headPin = d.headPin := rfl
@[simp] theorem Dev.onCore_safeNLow (c : Nat) (f : Core → Core) : (d.onCore c f).safeNLow = d.safeNLow := rfl
@[simp] theorem Dev.onCore_portA (c : Nat) (f : Core → Core) : (d.onCore c f).portA = d.portA := rfl
@[simp] theorem Dev.onCore_portB (c : Nat) (f : Core → Core) : (d.onCore c f).portB = d.portB := rfl
@[simp] theorem Dev.onCore_sem (c : Nat) (f : Core → Core) : (d.onCore c f).sem = d.sem := rfl
@[simp] theorem Dev.onCore_ks (c : Nat) (f : Core → Core) : (d.onCore c f).ks = d.ks := rfl
@[simp] theorem Dev.onCore_mode (c : Nat) (f : Core → Core) : (d.onCore c f).mode = d.mode := rfl
@[simp] theorem Dev.onCore_pwr (c : Nat) (f : Core → Core) : (d.onCore c f).pwr = d.pwr := rfl
@[simp] theorem Dev.onCore_flt (c : Nat) (f : Core → Core) : (d.onCore c f).flt = d.flt := rfl
@[simp] theorem Dev.onCore_sec (c : Nat) (f : Core → Core) : (d.onCore c f).sec = d.sec := rfl
@[simp] theorem Dev.onCore_chain (c : Nat) (f : Core → Core) : (d.onCore c f).chain = d.chain := rfl
@[simp] theorem Dev.onCore_jtag (c : Nat) (f : Core → Core) : (d.onCore c f).jtag = d.jtag := rfl
@[simp] theorem Dev.onCore_plb (c : Nat) (f : Core → Core) : (d.onCore c f).plb = d.plb := rfl
@[simp] theorem Dev.onCore_grades (c : Nat) (f : Core → Core) : (d.onCore c f).grades = d.grades := rfl
@[simp] theorem Dev.onCore_wear (c : Nat) (f : Core → Core) : (d.onCore c f).wear = d.wear := rfl
@[simp] theorem Dev.onCore_near (c : Nat) (f : Core → Core) : (d.onCore c f).near = d.near := rfl
@[simp] theorem Dev.onCore_recLines (c : Nat) (f : Core → Core) : (d.onCore c f).recLines = d.recLines := rfl
@[simp] theorem Dev.onCore_resetLow (c : Nat) (f : Core → Core) : (d.onCore c f).resetLow = d.resetLow := rfl
@[simp] theorem Dev.onCore_lineWrites (c : Nat) (f : Core → Core) : (d.onCore c f).lineWrites = d.lineWrites := rfl

/-! ### setBent -/

@[simp] theorem Dev.setBent_clk (b : Nat) (x : Bent) : (d.setBent b x).clk = d.clk := rfl
@[simp] theorem Dev.setBent_tb (b : Nat) (x : Bent) : (d.setBent b x).tb = d.tb := rfl
@[simp] theorem Dev.setBent_tbSlew (b : Nat) (x : Bent) : (d.setBent b x).tbSlew = d.tbSlew := rfl
@[simp] theorem Dev.setBent_tbSrc (b : Nat) (x : Bent) : (d.setBent b x).tbSrc = d.tbSrc := rfl
@[simp] theorem Dev.setBent_tbLock (b : Nat) (x : Bent) : (d.setBent b x).tbLock = d.tbLock := rfl
@[simp] theorem Dev.setBent_freeCtr (b : Nat) (x : Bent) : (d.setBent b x).freeCtr = d.freeCtr := rfl
@[simp] theorem Dev.setBent_nextId (b : Nat) (x : Bent) : (d.setBent b x).nextId = d.nextId := rfl
@[simp] theorem Dev.setBent_cores (b : Nat) (x : Bent) : (d.setBent b x).cores = d.cores := rfl
@[simp] theorem Dev.setBent_spans (b : Nat) (x : Bent) : (d.setBent b x).spans = d.spans := rfl
@[simp] theorem Dev.setBent_txns (b : Nat) (x : Bent) : (d.setBent b x).txns = d.txns := rfl
@[simp] theorem Dev.setBent_chans (b : Nat) (x : Bent) : (d.setBent b x).chans = d.chans := rfl
@[simp] theorem Dev.setBent_creqs (b : Nat) (x : Bent) : (d.setBent b x).creqs = d.creqs := rfl
@[simp] theorem Dev.setBent_abtHigh (b : Nat) (x : Bent) : (d.setBent b x).abtHigh = d.abtHigh := rfl
@[simp] theorem Dev.setBent_abtStarve (b : Nat) (x : Bent) : (d.setBent b x).abtStarve = d.abtStarve := rfl
@[simp] theorem Dev.setBent_abtReq (b : Nat) (x : Bent) : (d.setBent b x).abtReq = d.abtReq := rfl
@[simp] theorem Dev.setBent_abtCnt (b : Nat) (x : Bent) : (d.setBent b x).abtCnt = d.abtCnt := rfl
@[simp] theorem Dev.setBent_ws (b : Nat) (x : Bent) : (d.setBent b x).ws = d.ws := rfl
@[simp] theorem Dev.setBent_ddrs (b : Nat) (x : Bent) : (d.setBent b x).ddrs = d.ddrs := rfl
@[simp] theorem Dev.setBent_spareA (b : Nat) (x : Bent) : (d.setBent b x).spareA = d.spareA := rfl
@[simp] theorem Dev.setBent_spareB (b : Nat) (x : Bent) : (d.setBent b x).spareB = d.spareB := rfl
@[simp] theorem Dev.setBent_poison (b : Nat) (x : Bent) : (d.setBent b x).poison = d.poison := rfl
@[simp] theorem Dev.setBent_queues (b : Nat) (x : Bent) : (d.setBent b x).queues = d.queues := rfl
@[simp] theorem Dev.setBent_xings (b : Nat) (x : Bent) : (d.setBent b x).xings = d.xings := rfl
@[simp] theorem Dev.setBent_xFirst (b : Nat) (x : Bent) : (d.setBent b x).xFirst = d.xFirst := rfl
@[simp] theorem Dev.setBent_xverDone (b : Nat) (x : Bent) : (d.setBent b x).xverDone = d.xverDone := rfl
@[simp] theorem Dev.setBent_xverFail (b : Nat) (x : Bent) : (d.setBent b x).xverFail = d.xverFail := rfl
@[simp] theorem Dev.setBent_xverDom (b : Nat) (x : Bent) : (d.setBent b x).xverDom = d.xverDom := rfl
@[simp] theorem Dev.setBent_temps (b : Nat) (x : Bent) : (d.setBent b x).temps = d.temps := rfl
@[simp] theorem Dev.setBent_bifurc (b : Nat) (x : Bent) : (d.setBent b x).bifurc = d.bifurc := rfl
@[simp] theorem Dev.setBent_headPin (b : Nat) (x : Bent) : (d.setBent b x).headPin = d.headPin := rfl
@[simp] theorem Dev.setBent_safeNLow (b : Nat) (x : Bent) : (d.setBent b x).safeNLow = d.safeNLow := rfl
@[simp] theorem Dev.setBent_portA (b : Nat) (x : Bent) : (d.setBent b x).portA = d.portA := rfl
@[simp] theorem Dev.setBent_portB (b : Nat) (x : Bent) : (d.setBent b x).portB = d.portB := rfl
@[simp] theorem Dev.setBent_sem (b : Nat) (x : Bent) : (d.setBent b x).sem = d.sem := rfl
@[simp] theorem Dev.setBent_ks (b : Nat) (x : Bent) : (d.setBent b x).ks = d.ks := rfl
@[simp] theorem Dev.setBent_mode (b : Nat) (x : Bent) : (d.setBent b x).mode = d.mode := rfl
@[simp] theorem Dev.setBent_pwr (b : Nat) (x : Bent) : (d.setBent b x).pwr = d.pwr := rfl
@[simp] theorem Dev.setBent_flt (b : Nat) (x : Bent) : (d.setBent b x).flt = d.flt := rfl
@[simp] theorem Dev.setBent_sec (b : Nat) (x : Bent) : (d.setBent b x).sec = d.sec := rfl
@[simp] theorem Dev.setBent_chain (b : Nat) (x : Bent) : (d.setBent b x).chain = d.chain := rfl
@[simp] theorem Dev.setBent_jtag (b : Nat) (x : Bent) : (d.setBent b x).jtag = d.jtag := rfl
@[simp] theorem Dev.setBent_plb (b : Nat) (x : Bent) : (d.setBent b x).plb = d.plb := rfl
@[simp] theorem Dev.setBent_grades (b : Nat) (x : Bent) : (d.setBent b x).grades = d.grades := rfl
@[simp] theorem Dev.setBent_wear (b : Nat) (x : Bent) : (d.setBent b x).wear = d.wear := rfl
@[simp] theorem Dev.setBent_near (b : Nat) (x : Bent) : (d.setBent b x).near = d.near := rfl
@[simp] theorem Dev.setBent_recLines (b : Nat) (x : Bent) : (d.setBent b x).recLines = d.recLines := rfl
@[simp] theorem Dev.setBent_resetLow (b : Nat) (x : Bent) : (d.setBent b x).resetLow = d.resetLow := rfl
@[simp] theorem Dev.setBent_lineWrites (b : Nat) (x : Bent) : (d.setBent b x).lineWrites = d.lineWrites := rfl

/-! ### onBent -/

@[simp] theorem Dev.onBent_clk (b : Nat) (f : Bent → Bent) : (d.onBent b f).clk = d.clk := rfl
@[simp] theorem Dev.onBent_tb (b : Nat) (f : Bent → Bent) : (d.onBent b f).tb = d.tb := rfl
@[simp] theorem Dev.onBent_tbSlew (b : Nat) (f : Bent → Bent) : (d.onBent b f).tbSlew = d.tbSlew := rfl
@[simp] theorem Dev.onBent_tbSrc (b : Nat) (f : Bent → Bent) : (d.onBent b f).tbSrc = d.tbSrc := rfl
@[simp] theorem Dev.onBent_tbLock (b : Nat) (f : Bent → Bent) : (d.onBent b f).tbLock = d.tbLock := rfl
@[simp] theorem Dev.onBent_freeCtr (b : Nat) (f : Bent → Bent) : (d.onBent b f).freeCtr = d.freeCtr := rfl
@[simp] theorem Dev.onBent_nextId (b : Nat) (f : Bent → Bent) : (d.onBent b f).nextId = d.nextId := rfl
@[simp] theorem Dev.onBent_cores (b : Nat) (f : Bent → Bent) : (d.onBent b f).cores = d.cores := rfl
@[simp] theorem Dev.onBent_spans (b : Nat) (f : Bent → Bent) : (d.onBent b f).spans = d.spans := rfl
@[simp] theorem Dev.onBent_txns (b : Nat) (f : Bent → Bent) : (d.onBent b f).txns = d.txns := rfl
@[simp] theorem Dev.onBent_chans (b : Nat) (f : Bent → Bent) : (d.onBent b f).chans = d.chans := rfl
@[simp] theorem Dev.onBent_creqs (b : Nat) (f : Bent → Bent) : (d.onBent b f).creqs = d.creqs := rfl
@[simp] theorem Dev.onBent_abtHigh (b : Nat) (f : Bent → Bent) : (d.onBent b f).abtHigh = d.abtHigh := rfl
@[simp] theorem Dev.onBent_abtStarve (b : Nat) (f : Bent → Bent) : (d.onBent b f).abtStarve = d.abtStarve := rfl
@[simp] theorem Dev.onBent_abtReq (b : Nat) (f : Bent → Bent) : (d.onBent b f).abtReq = d.abtReq := rfl
@[simp] theorem Dev.onBent_abtCnt (b : Nat) (f : Bent → Bent) : (d.onBent b f).abtCnt = d.abtCnt := rfl
@[simp] theorem Dev.onBent_ws (b : Nat) (f : Bent → Bent) : (d.onBent b f).ws = d.ws := rfl
@[simp] theorem Dev.onBent_ddrs (b : Nat) (f : Bent → Bent) : (d.onBent b f).ddrs = d.ddrs := rfl
@[simp] theorem Dev.onBent_spareA (b : Nat) (f : Bent → Bent) : (d.onBent b f).spareA = d.spareA := rfl
@[simp] theorem Dev.onBent_spareB (b : Nat) (f : Bent → Bent) : (d.onBent b f).spareB = d.spareB := rfl
@[simp] theorem Dev.onBent_poison (b : Nat) (f : Bent → Bent) : (d.onBent b f).poison = d.poison := rfl
@[simp] theorem Dev.onBent_queues (b : Nat) (f : Bent → Bent) : (d.onBent b f).queues = d.queues := rfl
@[simp] theorem Dev.onBent_xings (b : Nat) (f : Bent → Bent) : (d.onBent b f).xings = d.xings := rfl
@[simp] theorem Dev.onBent_xFirst (b : Nat) (f : Bent → Bent) : (d.onBent b f).xFirst = d.xFirst := rfl
@[simp] theorem Dev.onBent_xverDone (b : Nat) (f : Bent → Bent) : (d.onBent b f).xverDone = d.xverDone := rfl
@[simp] theorem Dev.onBent_xverFail (b : Nat) (f : Bent → Bent) : (d.onBent b f).xverFail = d.xverFail := rfl
@[simp] theorem Dev.onBent_xverDom (b : Nat) (f : Bent → Bent) : (d.onBent b f).xverDom = d.xverDom := rfl
@[simp] theorem Dev.onBent_temps (b : Nat) (f : Bent → Bent) : (d.onBent b f).temps = d.temps := rfl
@[simp] theorem Dev.onBent_bifurc (b : Nat) (f : Bent → Bent) : (d.onBent b f).bifurc = d.bifurc := rfl
@[simp] theorem Dev.onBent_headPin (b : Nat) (f : Bent → Bent) : (d.onBent b f).headPin = d.headPin := rfl
@[simp] theorem Dev.onBent_safeNLow (b : Nat) (f : Bent → Bent) : (d.onBent b f).safeNLow = d.safeNLow := rfl
@[simp] theorem Dev.onBent_portA (b : Nat) (f : Bent → Bent) : (d.onBent b f).portA = d.portA := rfl
@[simp] theorem Dev.onBent_portB (b : Nat) (f : Bent → Bent) : (d.onBent b f).portB = d.portB := rfl
@[simp] theorem Dev.onBent_sem (b : Nat) (f : Bent → Bent) : (d.onBent b f).sem = d.sem := rfl
@[simp] theorem Dev.onBent_ks (b : Nat) (f : Bent → Bent) : (d.onBent b f).ks = d.ks := rfl
@[simp] theorem Dev.onBent_mode (b : Nat) (f : Bent → Bent) : (d.onBent b f).mode = d.mode := rfl
@[simp] theorem Dev.onBent_pwr (b : Nat) (f : Bent → Bent) : (d.onBent b f).pwr = d.pwr := rfl
@[simp] theorem Dev.onBent_flt (b : Nat) (f : Bent → Bent) : (d.onBent b f).flt = d.flt := rfl
@[simp] theorem Dev.onBent_sec (b : Nat) (f : Bent → Bent) : (d.onBent b f).sec = d.sec := rfl
@[simp] theorem Dev.onBent_chain (b : Nat) (f : Bent → Bent) : (d.onBent b f).chain = d.chain := rfl
@[simp] theorem Dev.onBent_jtag (b : Nat) (f : Bent → Bent) : (d.onBent b f).jtag = d.jtag := rfl
@[simp] theorem Dev.onBent_plb (b : Nat) (f : Bent → Bent) : (d.onBent b f).plb = d.plb := rfl
@[simp] theorem Dev.onBent_grades (b : Nat) (f : Bent → Bent) : (d.onBent b f).grades = d.grades := rfl
@[simp] theorem Dev.onBent_wear (b : Nat) (f : Bent → Bent) : (d.onBent b f).wear = d.wear := rfl
@[simp] theorem Dev.onBent_near (b : Nat) (f : Bent → Bent) : (d.onBent b f).near = d.near := rfl
@[simp] theorem Dev.onBent_recLines (b : Nat) (f : Bent → Bent) : (d.onBent b f).recLines = d.recLines := rfl
@[simp] theorem Dev.onBent_resetLow (b : Nat) (f : Bent → Bent) : (d.onBent b f).resetLow = d.resetLow := rfl
@[simp] theorem Dev.onBent_lineWrites (b : Nat) (f : Bent → Bent) : (d.onBent b f).lineWrites = d.lineWrites := rfl

/-! ### onBiu -/

@[simp] theorem Dev.onBiu_clk (b : Nat) (f : Biu → Biu) : (d.onBiu b f).clk = d.clk := rfl
@[simp] theorem Dev.onBiu_tb (b : Nat) (f : Biu → Biu) : (d.onBiu b f).tb = d.tb := rfl
@[simp] theorem Dev.onBiu_tbSlew (b : Nat) (f : Biu → Biu) : (d.onBiu b f).tbSlew = d.tbSlew := rfl
@[simp] theorem Dev.onBiu_tbSrc (b : Nat) (f : Biu → Biu) : (d.onBiu b f).tbSrc = d.tbSrc := rfl
@[simp] theorem Dev.onBiu_tbLock (b : Nat) (f : Biu → Biu) : (d.onBiu b f).tbLock = d.tbLock := rfl
@[simp] theorem Dev.onBiu_freeCtr (b : Nat) (f : Biu → Biu) : (d.onBiu b f).freeCtr = d.freeCtr := rfl
@[simp] theorem Dev.onBiu_nextId (b : Nat) (f : Biu → Biu) : (d.onBiu b f).nextId = d.nextId := rfl
@[simp] theorem Dev.onBiu_cores (b : Nat) (f : Biu → Biu) : (d.onBiu b f).cores = d.cores := rfl
@[simp] theorem Dev.onBiu_spans (b : Nat) (f : Biu → Biu) : (d.onBiu b f).spans = d.spans := rfl
@[simp] theorem Dev.onBiu_txns (b : Nat) (f : Biu → Biu) : (d.onBiu b f).txns = d.txns := rfl
@[simp] theorem Dev.onBiu_chans (b : Nat) (f : Biu → Biu) : (d.onBiu b f).chans = d.chans := rfl
@[simp] theorem Dev.onBiu_creqs (b : Nat) (f : Biu → Biu) : (d.onBiu b f).creqs = d.creqs := rfl
@[simp] theorem Dev.onBiu_abtHigh (b : Nat) (f : Biu → Biu) : (d.onBiu b f).abtHigh = d.abtHigh := rfl
@[simp] theorem Dev.onBiu_abtStarve (b : Nat) (f : Biu → Biu) : (d.onBiu b f).abtStarve = d.abtStarve := rfl
@[simp] theorem Dev.onBiu_abtReq (b : Nat) (f : Biu → Biu) : (d.onBiu b f).abtReq = d.abtReq := rfl
@[simp] theorem Dev.onBiu_abtCnt (b : Nat) (f : Biu → Biu) : (d.onBiu b f).abtCnt = d.abtCnt := rfl
@[simp] theorem Dev.onBiu_ws (b : Nat) (f : Biu → Biu) : (d.onBiu b f).ws = d.ws := rfl
@[simp] theorem Dev.onBiu_ddrs (b : Nat) (f : Biu → Biu) : (d.onBiu b f).ddrs = d.ddrs := rfl
@[simp] theorem Dev.onBiu_spareA (b : Nat) (f : Biu → Biu) : (d.onBiu b f).spareA = d.spareA := rfl
@[simp] theorem Dev.onBiu_spareB (b : Nat) (f : Biu → Biu) : (d.onBiu b f).spareB = d.spareB := rfl
@[simp] theorem Dev.onBiu_poison (b : Nat) (f : Biu → Biu) : (d.onBiu b f).poison = d.poison := rfl
@[simp] theorem Dev.onBiu_queues (b : Nat) (f : Biu → Biu) : (d.onBiu b f).queues = d.queues := rfl
@[simp] theorem Dev.onBiu_xings (b : Nat) (f : Biu → Biu) : (d.onBiu b f).xings = d.xings := rfl
@[simp] theorem Dev.onBiu_xFirst (b : Nat) (f : Biu → Biu) : (d.onBiu b f).xFirst = d.xFirst := rfl
@[simp] theorem Dev.onBiu_xverDone (b : Nat) (f : Biu → Biu) : (d.onBiu b f).xverDone = d.xverDone := rfl
@[simp] theorem Dev.onBiu_xverFail (b : Nat) (f : Biu → Biu) : (d.onBiu b f).xverFail = d.xverFail := rfl
@[simp] theorem Dev.onBiu_xverDom (b : Nat) (f : Biu → Biu) : (d.onBiu b f).xverDom = d.xverDom := rfl
@[simp] theorem Dev.onBiu_temps (b : Nat) (f : Biu → Biu) : (d.onBiu b f).temps = d.temps := rfl
@[simp] theorem Dev.onBiu_bifurc (b : Nat) (f : Biu → Biu) : (d.onBiu b f).bifurc = d.bifurc := rfl
@[simp] theorem Dev.onBiu_headPin (b : Nat) (f : Biu → Biu) : (d.onBiu b f).headPin = d.headPin := rfl
@[simp] theorem Dev.onBiu_safeNLow (b : Nat) (f : Biu → Biu) : (d.onBiu b f).safeNLow = d.safeNLow := rfl
@[simp] theorem Dev.onBiu_portA (b : Nat) (f : Biu → Biu) : (d.onBiu b f).portA = d.portA := rfl
@[simp] theorem Dev.onBiu_portB (b : Nat) (f : Biu → Biu) : (d.onBiu b f).portB = d.portB := rfl
@[simp] theorem Dev.onBiu_sem (b : Nat) (f : Biu → Biu) : (d.onBiu b f).sem = d.sem := rfl
@[simp] theorem Dev.onBiu_ks (b : Nat) (f : Biu → Biu) : (d.onBiu b f).ks = d.ks := rfl
@[simp] theorem Dev.onBiu_mode (b : Nat) (f : Biu → Biu) : (d.onBiu b f).mode = d.mode := rfl
@[simp] theorem Dev.onBiu_pwr (b : Nat) (f : Biu → Biu) : (d.onBiu b f).pwr = d.pwr := rfl
@[simp] theorem Dev.onBiu_flt (b : Nat) (f : Biu → Biu) : (d.onBiu b f).flt = d.flt := rfl
@[simp] theorem Dev.onBiu_sec (b : Nat) (f : Biu → Biu) : (d.onBiu b f).sec = d.sec := rfl
@[simp] theorem Dev.onBiu_chain (b : Nat) (f : Biu → Biu) : (d.onBiu b f).chain = d.chain := rfl
@[simp] theorem Dev.onBiu_jtag (b : Nat) (f : Biu → Biu) : (d.onBiu b f).jtag = d.jtag := rfl
@[simp] theorem Dev.onBiu_plb (b : Nat) (f : Biu → Biu) : (d.onBiu b f).plb = d.plb := rfl
@[simp] theorem Dev.onBiu_grades (b : Nat) (f : Biu → Biu) : (d.onBiu b f).grades = d.grades := rfl
@[simp] theorem Dev.onBiu_wear (b : Nat) (f : Biu → Biu) : (d.onBiu b f).wear = d.wear := rfl
@[simp] theorem Dev.onBiu_near (b : Nat) (f : Biu → Biu) : (d.onBiu b f).near = d.near := rfl
@[simp] theorem Dev.onBiu_recLines (b : Nat) (f : Biu → Biu) : (d.onBiu b f).recLines = d.recLines := rfl
@[simp] theorem Dev.onBiu_resetLow (b : Nat) (f : Biu → Biu) : (d.onBiu b f).resetLow = d.resetLow := rfl
@[simp] theorem Dev.onBiu_lineWrites (b : Nat) (f : Biu → Biu) : (d.onBiu b f).lineWrites = d.lineWrites := rfl

/-! ### onScr -/

@[simp] theorem Dev.onScr_clk (b : Nat) (f : Scribe → Scribe) : (d.onScr b f).clk = d.clk := rfl
@[simp] theorem Dev.onScr_tb (b : Nat) (f : Scribe → Scribe) : (d.onScr b f).tb = d.tb := rfl
@[simp] theorem Dev.onScr_tbSlew (b : Nat) (f : Scribe → Scribe) : (d.onScr b f).tbSlew = d.tbSlew := rfl
@[simp] theorem Dev.onScr_tbSrc (b : Nat) (f : Scribe → Scribe) : (d.onScr b f).tbSrc = d.tbSrc := rfl
@[simp] theorem Dev.onScr_tbLock (b : Nat) (f : Scribe → Scribe) : (d.onScr b f).tbLock = d.tbLock := rfl
@[simp] theorem Dev.onScr_freeCtr (b : Nat) (f : Scribe → Scribe) : (d.onScr b f).freeCtr = d.freeCtr := rfl
@[simp] theorem Dev.onScr_nextId (b : Nat) (f : Scribe → Scribe) : (d.onScr b f).nextId = d.nextId := rfl
@[simp] theorem Dev.onScr_cores (b : Nat) (f : Scribe → Scribe) : (d.onScr b f).cores = d.cores := rfl
@[simp] theorem Dev.onScr_spans (b : Nat) (f : Scribe → Scribe) : (d.onScr b f).spans = d.spans := rfl
@[simp] theorem Dev.onScr_txns (b : Nat) (f : Scribe → Scribe) : (d.onScr b f).txns = d.txns := rfl
@[simp] theorem Dev.onScr_chans (b : Nat) (f : Scribe → Scribe) : (d.onScr b f).chans = d.chans := rfl
@[simp] theorem Dev.onScr_creqs (b : Nat) (f : Scribe → Scribe) : (d.onScr b f).creqs = d.creqs := rfl
@[simp] theorem Dev.onScr_abtHigh (b : Nat) (f : Scribe → Scribe) : (d.onScr b f).abtHigh = d.abtHigh := rfl
@[simp] theorem Dev.onScr_abtStarve (b : Nat) (f : Scribe → Scribe) : (d.onScr b f).abtStarve = d.abtStarve := rfl
@[simp] theorem Dev.onScr_abtReq (b : Nat) (f : Scribe → Scribe) : (d.onScr b f).abtReq = d.abtReq := rfl
@[simp] theorem Dev.onScr_abtCnt (b : Nat) (f : Scribe → Scribe) : (d.onScr b f).abtCnt = d.abtCnt := rfl
@[simp] theorem Dev.onScr_ws (b : Nat) (f : Scribe → Scribe) : (d.onScr b f).ws = d.ws := rfl
@[simp] theorem Dev.onScr_ddrs (b : Nat) (f : Scribe → Scribe) : (d.onScr b f).ddrs = d.ddrs := rfl
@[simp] theorem Dev.onScr_spareA (b : Nat) (f : Scribe → Scribe) : (d.onScr b f).spareA = d.spareA := rfl
@[simp] theorem Dev.onScr_spareB (b : Nat) (f : Scribe → Scribe) : (d.onScr b f).spareB = d.spareB := rfl
@[simp] theorem Dev.onScr_poison (b : Nat) (f : Scribe → Scribe) : (d.onScr b f).poison = d.poison := rfl
@[simp] theorem Dev.onScr_queues (b : Nat) (f : Scribe → Scribe) : (d.onScr b f).queues = d.queues := rfl
@[simp] theorem Dev.onScr_xings (b : Nat) (f : Scribe → Scribe) : (d.onScr b f).xings = d.xings := rfl
@[simp] theorem Dev.onScr_xFirst (b : Nat) (f : Scribe → Scribe) : (d.onScr b f).xFirst = d.xFirst := rfl
@[simp] theorem Dev.onScr_xverDone (b : Nat) (f : Scribe → Scribe) : (d.onScr b f).xverDone = d.xverDone := rfl
@[simp] theorem Dev.onScr_xverFail (b : Nat) (f : Scribe → Scribe) : (d.onScr b f).xverFail = d.xverFail := rfl
@[simp] theorem Dev.onScr_xverDom (b : Nat) (f : Scribe → Scribe) : (d.onScr b f).xverDom = d.xverDom := rfl
@[simp] theorem Dev.onScr_temps (b : Nat) (f : Scribe → Scribe) : (d.onScr b f).temps = d.temps := rfl
@[simp] theorem Dev.onScr_bifurc (b : Nat) (f : Scribe → Scribe) : (d.onScr b f).bifurc = d.bifurc := rfl
@[simp] theorem Dev.onScr_headPin (b : Nat) (f : Scribe → Scribe) : (d.onScr b f).headPin = d.headPin := rfl
@[simp] theorem Dev.onScr_safeNLow (b : Nat) (f : Scribe → Scribe) : (d.onScr b f).safeNLow = d.safeNLow := rfl
@[simp] theorem Dev.onScr_portA (b : Nat) (f : Scribe → Scribe) : (d.onScr b f).portA = d.portA := rfl
@[simp] theorem Dev.onScr_portB (b : Nat) (f : Scribe → Scribe) : (d.onScr b f).portB = d.portB := rfl
@[simp] theorem Dev.onScr_sem (b : Nat) (f : Scribe → Scribe) : (d.onScr b f).sem = d.sem := rfl
@[simp] theorem Dev.onScr_ks (b : Nat) (f : Scribe → Scribe) : (d.onScr b f).ks = d.ks := rfl
@[simp] theorem Dev.onScr_mode (b : Nat) (f : Scribe → Scribe) : (d.onScr b f).mode = d.mode := rfl
@[simp] theorem Dev.onScr_pwr (b : Nat) (f : Scribe → Scribe) : (d.onScr b f).pwr = d.pwr := rfl
@[simp] theorem Dev.onScr_flt (b : Nat) (f : Scribe → Scribe) : (d.onScr b f).flt = d.flt := rfl
@[simp] theorem Dev.onScr_sec (b : Nat) (f : Scribe → Scribe) : (d.onScr b f).sec = d.sec := rfl
@[simp] theorem Dev.onScr_chain (b : Nat) (f : Scribe → Scribe) : (d.onScr b f).chain = d.chain := rfl
@[simp] theorem Dev.onScr_jtag (b : Nat) (f : Scribe → Scribe) : (d.onScr b f).jtag = d.jtag := rfl
@[simp] theorem Dev.onScr_plb (b : Nat) (f : Scribe → Scribe) : (d.onScr b f).plb = d.plb := rfl
@[simp] theorem Dev.onScr_grades (b : Nat) (f : Scribe → Scribe) : (d.onScr b f).grades = d.grades := rfl
@[simp] theorem Dev.onScr_wear (b : Nat) (f : Scribe → Scribe) : (d.onScr b f).wear = d.wear := rfl
@[simp] theorem Dev.onScr_near (b : Nat) (f : Scribe → Scribe) : (d.onScr b f).near = d.near := rfl
@[simp] theorem Dev.onScr_recLines (b : Nat) (f : Scribe → Scribe) : (d.onScr b f).recLines = d.recLines := rfl
@[simp] theorem Dev.onScr_resetLow (b : Nat) (f : Scribe → Scribe) : (d.onScr b f).resetLow = d.resetLow := rfl
@[simp] theorem Dev.onScr_lineWrites (b : Nat) (f : Scribe → Scribe) : (d.onScr b f).lineWrites = d.lineWrites := rfl

/-! ### onSpan -/

@[simp] theorem Dev.onSpan_clk (n : Nat) (f : Span → Span) : (d.onSpan n f).clk = d.clk := rfl
@[simp] theorem Dev.onSpan_tb (n : Nat) (f : Span → Span) : (d.onSpan n f).tb = d.tb := rfl
@[simp] theorem Dev.onSpan_tbSlew (n : Nat) (f : Span → Span) : (d.onSpan n f).tbSlew = d.tbSlew := rfl
@[simp] theorem Dev.onSpan_tbSrc (n : Nat) (f : Span → Span) : (d.onSpan n f).tbSrc = d.tbSrc := rfl
@[simp] theorem Dev.onSpan_tbLock (n : Nat) (f : Span → Span) : (d.onSpan n f).tbLock = d.tbLock := rfl
@[simp] theorem Dev.onSpan_freeCtr (n : Nat) (f : Span → Span) : (d.onSpan n f).freeCtr = d.freeCtr := rfl
@[simp] theorem Dev.onSpan_nextId (n : Nat) (f : Span → Span) : (d.onSpan n f).nextId = d.nextId := rfl
@[simp] theorem Dev.onSpan_cores (n : Nat) (f : Span → Span) : (d.onSpan n f).cores = d.cores := rfl
@[simp] theorem Dev.onSpan_bents (n : Nat) (f : Span → Span) : (d.onSpan n f).bents = d.bents := rfl
@[simp] theorem Dev.onSpan_txns (n : Nat) (f : Span → Span) : (d.onSpan n f).txns = d.txns := rfl
@[simp] theorem Dev.onSpan_chans (n : Nat) (f : Span → Span) : (d.onSpan n f).chans = d.chans := rfl
@[simp] theorem Dev.onSpan_creqs (n : Nat) (f : Span → Span) : (d.onSpan n f).creqs = d.creqs := rfl
@[simp] theorem Dev.onSpan_abtHigh (n : Nat) (f : Span → Span) : (d.onSpan n f).abtHigh = d.abtHigh := rfl
@[simp] theorem Dev.onSpan_abtStarve (n : Nat) (f : Span → Span) : (d.onSpan n f).abtStarve = d.abtStarve := rfl
@[simp] theorem Dev.onSpan_abtReq (n : Nat) (f : Span → Span) : (d.onSpan n f).abtReq = d.abtReq := rfl
@[simp] theorem Dev.onSpan_abtCnt (n : Nat) (f : Span → Span) : (d.onSpan n f).abtCnt = d.abtCnt := rfl
@[simp] theorem Dev.onSpan_ws (n : Nat) (f : Span → Span) : (d.onSpan n f).ws = d.ws := rfl
@[simp] theorem Dev.onSpan_ddrs (n : Nat) (f : Span → Span) : (d.onSpan n f).ddrs = d.ddrs := rfl
@[simp] theorem Dev.onSpan_spareA (n : Nat) (f : Span → Span) : (d.onSpan n f).spareA = d.spareA := rfl
@[simp] theorem Dev.onSpan_spareB (n : Nat) (f : Span → Span) : (d.onSpan n f).spareB = d.spareB := rfl
@[simp] theorem Dev.onSpan_poison (n : Nat) (f : Span → Span) : (d.onSpan n f).poison = d.poison := rfl
@[simp] theorem Dev.onSpan_queues (n : Nat) (f : Span → Span) : (d.onSpan n f).queues = d.queues := rfl
@[simp] theorem Dev.onSpan_xings (n : Nat) (f : Span → Span) : (d.onSpan n f).xings = d.xings := rfl
@[simp] theorem Dev.onSpan_xFirst (n : Nat) (f : Span → Span) : (d.onSpan n f).xFirst = d.xFirst := rfl
@[simp] theorem Dev.onSpan_xverDone (n : Nat) (f : Span → Span) : (d.onSpan n f).xverDone = d.xverDone := rfl
@[simp] theorem Dev.onSpan_xverFail (n : Nat) (f : Span → Span) : (d.onSpan n f).xverFail = d.xverFail := rfl
@[simp] theorem Dev.onSpan_xverDom (n : Nat) (f : Span → Span) : (d.onSpan n f).xverDom = d.xverDom := rfl
@[simp] theorem Dev.onSpan_temps (n : Nat) (f : Span → Span) : (d.onSpan n f).temps = d.temps := rfl
@[simp] theorem Dev.onSpan_bifurc (n : Nat) (f : Span → Span) : (d.onSpan n f).bifurc = d.bifurc := rfl
@[simp] theorem Dev.onSpan_headPin (n : Nat) (f : Span → Span) : (d.onSpan n f).headPin = d.headPin := rfl
@[simp] theorem Dev.onSpan_safeNLow (n : Nat) (f : Span → Span) : (d.onSpan n f).safeNLow = d.safeNLow := rfl
@[simp] theorem Dev.onSpan_portA (n : Nat) (f : Span → Span) : (d.onSpan n f).portA = d.portA := rfl
@[simp] theorem Dev.onSpan_portB (n : Nat) (f : Span → Span) : (d.onSpan n f).portB = d.portB := rfl
@[simp] theorem Dev.onSpan_sem (n : Nat) (f : Span → Span) : (d.onSpan n f).sem = d.sem := rfl
@[simp] theorem Dev.onSpan_ks (n : Nat) (f : Span → Span) : (d.onSpan n f).ks = d.ks := rfl
@[simp] theorem Dev.onSpan_mode (n : Nat) (f : Span → Span) : (d.onSpan n f).mode = d.mode := rfl
@[simp] theorem Dev.onSpan_pwr (n : Nat) (f : Span → Span) : (d.onSpan n f).pwr = d.pwr := rfl
@[simp] theorem Dev.onSpan_flt (n : Nat) (f : Span → Span) : (d.onSpan n f).flt = d.flt := rfl
@[simp] theorem Dev.onSpan_sec (n : Nat) (f : Span → Span) : (d.onSpan n f).sec = d.sec := rfl
@[simp] theorem Dev.onSpan_chain (n : Nat) (f : Span → Span) : (d.onSpan n f).chain = d.chain := rfl
@[simp] theorem Dev.onSpan_jtag (n : Nat) (f : Span → Span) : (d.onSpan n f).jtag = d.jtag := rfl
@[simp] theorem Dev.onSpan_plb (n : Nat) (f : Span → Span) : (d.onSpan n f).plb = d.plb := rfl
@[simp] theorem Dev.onSpan_grades (n : Nat) (f : Span → Span) : (d.onSpan n f).grades = d.grades := rfl
@[simp] theorem Dev.onSpan_wear (n : Nat) (f : Span → Span) : (d.onSpan n f).wear = d.wear := rfl
@[simp] theorem Dev.onSpan_near (n : Nat) (f : Span → Span) : (d.onSpan n f).near = d.near := rfl
@[simp] theorem Dev.onSpan_recLines (n : Nat) (f : Span → Span) : (d.onSpan n f).recLines = d.recLines := rfl
@[simp] theorem Dev.onSpan_resetLow (n : Nat) (f : Span → Span) : (d.onSpan n f).resetLow = d.resetLow := rfl
@[simp] theorem Dev.onSpan_lineWrites (n : Nat) (f : Span → Span) : (d.onSpan n f).lineWrites = d.lineWrites := rfl

/-! ### onDdr -/

@[simp] theorem Dev.onDdr_clk (n : Nat) (f : Ddr → Ddr) : (d.onDdr n f).clk = d.clk := rfl
@[simp] theorem Dev.onDdr_tb (n : Nat) (f : Ddr → Ddr) : (d.onDdr n f).tb = d.tb := rfl
@[simp] theorem Dev.onDdr_tbSlew (n : Nat) (f : Ddr → Ddr) : (d.onDdr n f).tbSlew = d.tbSlew := rfl
@[simp] theorem Dev.onDdr_tbSrc (n : Nat) (f : Ddr → Ddr) : (d.onDdr n f).tbSrc = d.tbSrc := rfl
@[simp] theorem Dev.onDdr_tbLock (n : Nat) (f : Ddr → Ddr) : (d.onDdr n f).tbLock = d.tbLock := rfl
@[simp] theorem Dev.onDdr_freeCtr (n : Nat) (f : Ddr → Ddr) : (d.onDdr n f).freeCtr = d.freeCtr := rfl
@[simp] theorem Dev.onDdr_nextId (n : Nat) (f : Ddr → Ddr) : (d.onDdr n f).nextId = d.nextId := rfl
@[simp] theorem Dev.onDdr_cores (n : Nat) (f : Ddr → Ddr) : (d.onDdr n f).cores = d.cores := rfl
@[simp] theorem Dev.onDdr_bents (n : Nat) (f : Ddr → Ddr) : (d.onDdr n f).bents = d.bents := rfl
@[simp] theorem Dev.onDdr_spans (n : Nat) (f : Ddr → Ddr) : (d.onDdr n f).spans = d.spans := rfl
@[simp] theorem Dev.onDdr_txns (n : Nat) (f : Ddr → Ddr) : (d.onDdr n f).txns = d.txns := rfl
@[simp] theorem Dev.onDdr_chans (n : Nat) (f : Ddr → Ddr) : (d.onDdr n f).chans = d.chans := rfl
@[simp] theorem Dev.onDdr_creqs (n : Nat) (f : Ddr → Ddr) : (d.onDdr n f).creqs = d.creqs := rfl
@[simp] theorem Dev.onDdr_abtHigh (n : Nat) (f : Ddr → Ddr) : (d.onDdr n f).abtHigh = d.abtHigh := rfl
@[simp] theorem Dev.onDdr_abtStarve (n : Nat) (f : Ddr → Ddr) : (d.onDdr n f).abtStarve = d.abtStarve := rfl
@[simp] theorem Dev.onDdr_abtReq (n : Nat) (f : Ddr → Ddr) : (d.onDdr n f).abtReq = d.abtReq := rfl
@[simp] theorem Dev.onDdr_abtCnt (n : Nat) (f : Ddr → Ddr) : (d.onDdr n f).abtCnt = d.abtCnt := rfl
@[simp] theorem Dev.onDdr_ws (n : Nat) (f : Ddr → Ddr) : (d.onDdr n f).ws = d.ws := rfl
@[simp] theorem Dev.onDdr_spareA (n : Nat) (f : Ddr → Ddr) : (d.onDdr n f).spareA = d.spareA := rfl
@[simp] theorem Dev.onDdr_spareB (n : Nat) (f : Ddr → Ddr) : (d.onDdr n f).spareB = d.spareB := rfl
@[simp] theorem Dev.onDdr_poison (n : Nat) (f : Ddr → Ddr) : (d.onDdr n f).poison = d.poison := rfl
@[simp] theorem Dev.onDdr_queues (n : Nat) (f : Ddr → Ddr) : (d.onDdr n f).queues = d.queues := rfl
@[simp] theorem Dev.onDdr_xings (n : Nat) (f : Ddr → Ddr) : (d.onDdr n f).xings = d.xings := rfl
@[simp] theorem Dev.onDdr_xFirst (n : Nat) (f : Ddr → Ddr) : (d.onDdr n f).xFirst = d.xFirst := rfl
@[simp] theorem Dev.onDdr_xverDone (n : Nat) (f : Ddr → Ddr) : (d.onDdr n f).xverDone = d.xverDone := rfl
@[simp] theorem Dev.onDdr_xverFail (n : Nat) (f : Ddr → Ddr) : (d.onDdr n f).xverFail = d.xverFail := rfl
@[simp] theorem Dev.onDdr_xverDom (n : Nat) (f : Ddr → Ddr) : (d.onDdr n f).xverDom = d.xverDom := rfl
@[simp] theorem Dev.onDdr_temps (n : Nat) (f : Ddr → Ddr) : (d.onDdr n f).temps = d.temps := rfl
@[simp] theorem Dev.onDdr_bifurc (n : Nat) (f : Ddr → Ddr) : (d.onDdr n f).bifurc = d.bifurc := rfl
@[simp] theorem Dev.onDdr_headPin (n : Nat) (f : Ddr → Ddr) : (d.onDdr n f).headPin = d.headPin := rfl
@[simp] theorem Dev.onDdr_safeNLow (n : Nat) (f : Ddr → Ddr) : (d.onDdr n f).safeNLow = d.safeNLow := rfl
@[simp] theorem Dev.onDdr_portA (n : Nat) (f : Ddr → Ddr) : (d.onDdr n f).portA = d.portA := rfl
@[simp] theorem Dev.onDdr_portB (n : Nat) (f : Ddr → Ddr) : (d.onDdr n f).portB = d.portB := rfl
@[simp] theorem Dev.onDdr_sem (n : Nat) (f : Ddr → Ddr) : (d.onDdr n f).sem = d.sem := rfl
@[simp] theorem Dev.onDdr_ks (n : Nat) (f : Ddr → Ddr) : (d.onDdr n f).ks = d.ks := rfl
@[simp] theorem Dev.onDdr_mode (n : Nat) (f : Ddr → Ddr) : (d.onDdr n f).mode = d.mode := rfl
@[simp] theorem Dev.onDdr_pwr (n : Nat) (f : Ddr → Ddr) : (d.onDdr n f).pwr = d.pwr := rfl
@[simp] theorem Dev.onDdr_flt (n : Nat) (f : Ddr → Ddr) : (d.onDdr n f).flt = d.flt := rfl
@[simp] theorem Dev.onDdr_sec (n : Nat) (f : Ddr → Ddr) : (d.onDdr n f).sec = d.sec := rfl
@[simp] theorem Dev.onDdr_chain (n : Nat) (f : Ddr → Ddr) : (d.onDdr n f).chain = d.chain := rfl
@[simp] theorem Dev.onDdr_jtag (n : Nat) (f : Ddr → Ddr) : (d.onDdr n f).jtag = d.jtag := rfl
@[simp] theorem Dev.onDdr_plb (n : Nat) (f : Ddr → Ddr) : (d.onDdr n f).plb = d.plb := rfl
@[simp] theorem Dev.onDdr_grades (n : Nat) (f : Ddr → Ddr) : (d.onDdr n f).grades = d.grades := rfl
@[simp] theorem Dev.onDdr_wear (n : Nat) (f : Ddr → Ddr) : (d.onDdr n f).wear = d.wear := rfl
@[simp] theorem Dev.onDdr_near (n : Nat) (f : Ddr → Ddr) : (d.onDdr n f).near = d.near := rfl
@[simp] theorem Dev.onDdr_recLines (n : Nat) (f : Ddr → Ddr) : (d.onDdr n f).recLines = d.recLines := rfl
@[simp] theorem Dev.onDdr_resetLow (n : Nat) (f : Ddr → Ddr) : (d.onDdr n f).resetLow = d.resetLow := rfl
@[simp] theorem Dev.onDdr_lineWrites (n : Nat) (f : Ddr → Ddr) : (d.onDdr n f).lineWrites = d.lineWrites := rfl

/-! ### setQueue -/

@[simp] theorem Dev.setQueue_clk (q : Nat) (x : Queue) : (d.setQueue q x).clk = d.clk := rfl
@[simp] theorem Dev.setQueue_tb (q : Nat) (x : Queue) : (d.setQueue q x).tb = d.tb := rfl
@[simp] theorem Dev.setQueue_tbSlew (q : Nat) (x : Queue) : (d.setQueue q x).tbSlew = d.tbSlew := rfl
@[simp] theorem Dev.setQueue_tbSrc (q : Nat) (x : Queue) : (d.setQueue q x).tbSrc = d.tbSrc := rfl
@[simp] theorem Dev.setQueue_tbLock (q : Nat) (x : Queue) : (d.setQueue q x).tbLock = d.tbLock := rfl
@[simp] theorem Dev.setQueue_freeCtr (q : Nat) (x : Queue) : (d.setQueue q x).freeCtr = d.freeCtr := rfl
@[simp] theorem Dev.setQueue_nextId (q : Nat) (x : Queue) : (d.setQueue q x).nextId = d.nextId := rfl
@[simp] theorem Dev.setQueue_cores (q : Nat) (x : Queue) : (d.setQueue q x).cores = d.cores := rfl
@[simp] theorem Dev.setQueue_bents (q : Nat) (x : Queue) : (d.setQueue q x).bents = d.bents := rfl
@[simp] theorem Dev.setQueue_spans (q : Nat) (x : Queue) : (d.setQueue q x).spans = d.spans := rfl
@[simp] theorem Dev.setQueue_txns (q : Nat) (x : Queue) : (d.setQueue q x).txns = d.txns := rfl
@[simp] theorem Dev.setQueue_chans (q : Nat) (x : Queue) : (d.setQueue q x).chans = d.chans := rfl
@[simp] theorem Dev.setQueue_creqs (q : Nat) (x : Queue) : (d.setQueue q x).creqs = d.creqs := rfl
@[simp] theorem Dev.setQueue_abtHigh (q : Nat) (x : Queue) : (d.setQueue q x).abtHigh = d.abtHigh := rfl
@[simp] theorem Dev.setQueue_abtStarve (q : Nat) (x : Queue) : (d.setQueue q x).abtStarve = d.abtStarve := rfl
@[simp] theorem Dev.setQueue_abtReq (q : Nat) (x : Queue) : (d.setQueue q x).abtReq = d.abtReq := rfl
@[simp] theorem Dev.setQueue_abtCnt (q : Nat) (x : Queue) : (d.setQueue q x).abtCnt = d.abtCnt := rfl
@[simp] theorem Dev.setQueue_ws (q : Nat) (x : Queue) : (d.setQueue q x).ws = d.ws := rfl
@[simp] theorem Dev.setQueue_ddrs (q : Nat) (x : Queue) : (d.setQueue q x).ddrs = d.ddrs := rfl
@[simp] theorem Dev.setQueue_spareA (q : Nat) (x : Queue) : (d.setQueue q x).spareA = d.spareA := rfl
@[simp] theorem Dev.setQueue_spareB (q : Nat) (x : Queue) : (d.setQueue q x).spareB = d.spareB := rfl
@[simp] theorem Dev.setQueue_poison (q : Nat) (x : Queue) : (d.setQueue q x).poison = d.poison := rfl
@[simp] theorem Dev.setQueue_xings (q : Nat) (x : Queue) : (d.setQueue q x).xings = d.xings := rfl
@[simp] theorem Dev.setQueue_xFirst (q : Nat) (x : Queue) : (d.setQueue q x).xFirst = d.xFirst := rfl
@[simp] theorem Dev.setQueue_xverDone (q : Nat) (x : Queue) : (d.setQueue q x).xverDone = d.xverDone := rfl
@[simp] theorem Dev.setQueue_xverFail (q : Nat) (x : Queue) : (d.setQueue q x).xverFail = d.xverFail := rfl
@[simp] theorem Dev.setQueue_xverDom (q : Nat) (x : Queue) : (d.setQueue q x).xverDom = d.xverDom := rfl
@[simp] theorem Dev.setQueue_temps (q : Nat) (x : Queue) : (d.setQueue q x).temps = d.temps := rfl
@[simp] theorem Dev.setQueue_bifurc (q : Nat) (x : Queue) : (d.setQueue q x).bifurc = d.bifurc := rfl
@[simp] theorem Dev.setQueue_headPin (q : Nat) (x : Queue) : (d.setQueue q x).headPin = d.headPin := rfl
@[simp] theorem Dev.setQueue_safeNLow (q : Nat) (x : Queue) : (d.setQueue q x).safeNLow = d.safeNLow := rfl
@[simp] theorem Dev.setQueue_portA (q : Nat) (x : Queue) : (d.setQueue q x).portA = d.portA := rfl
@[simp] theorem Dev.setQueue_portB (q : Nat) (x : Queue) : (d.setQueue q x).portB = d.portB := rfl
@[simp] theorem Dev.setQueue_sem (q : Nat) (x : Queue) : (d.setQueue q x).sem = d.sem := rfl
@[simp] theorem Dev.setQueue_ks (q : Nat) (x : Queue) : (d.setQueue q x).ks = d.ks := rfl
@[simp] theorem Dev.setQueue_mode (q : Nat) (x : Queue) : (d.setQueue q x).mode = d.mode := rfl
@[simp] theorem Dev.setQueue_pwr (q : Nat) (x : Queue) : (d.setQueue q x).pwr = d.pwr := rfl
@[simp] theorem Dev.setQueue_flt (q : Nat) (x : Queue) : (d.setQueue q x).flt = d.flt := rfl
@[simp] theorem Dev.setQueue_sec (q : Nat) (x : Queue) : (d.setQueue q x).sec = d.sec := rfl
@[simp] theorem Dev.setQueue_chain (q : Nat) (x : Queue) : (d.setQueue q x).chain = d.chain := rfl
@[simp] theorem Dev.setQueue_jtag (q : Nat) (x : Queue) : (d.setQueue q x).jtag = d.jtag := rfl
@[simp] theorem Dev.setQueue_plb (q : Nat) (x : Queue) : (d.setQueue q x).plb = d.plb := rfl
@[simp] theorem Dev.setQueue_grades (q : Nat) (x : Queue) : (d.setQueue q x).grades = d.grades := rfl
@[simp] theorem Dev.setQueue_wear (q : Nat) (x : Queue) : (d.setQueue q x).wear = d.wear := rfl
@[simp] theorem Dev.setQueue_near (q : Nat) (x : Queue) : (d.setQueue q x).near = d.near := rfl
@[simp] theorem Dev.setQueue_recLines (q : Nat) (x : Queue) : (d.setQueue q x).recLines = d.recLines := rfl
@[simp] theorem Dev.setQueue_resetLow (q : Nat) (x : Queue) : (d.setQueue q x).resetLow = d.resetLow := rfl
@[simp] theorem Dev.setQueue_lineWrites (q : Nat) (x : Queue) : (d.setQueue q x).lineWrites = d.lineWrites := rfl

/-! ### onQueue -/

@[simp] theorem Dev.onQueue_clk (q : Nat) (f : Queue → Queue) : (d.onQueue q f).clk = d.clk := rfl
@[simp] theorem Dev.onQueue_tb (q : Nat) (f : Queue → Queue) : (d.onQueue q f).tb = d.tb := rfl
@[simp] theorem Dev.onQueue_tbSlew (q : Nat) (f : Queue → Queue) : (d.onQueue q f).tbSlew = d.tbSlew := rfl
@[simp] theorem Dev.onQueue_tbSrc (q : Nat) (f : Queue → Queue) : (d.onQueue q f).tbSrc = d.tbSrc := rfl
@[simp] theorem Dev.onQueue_tbLock (q : Nat) (f : Queue → Queue) : (d.onQueue q f).tbLock = d.tbLock := rfl
@[simp] theorem Dev.onQueue_freeCtr (q : Nat) (f : Queue → Queue) : (d.onQueue q f).freeCtr = d.freeCtr := rfl
@[simp] theorem Dev.onQueue_nextId (q : Nat) (f : Queue → Queue) : (d.onQueue q f).nextId = d.nextId := rfl
@[simp] theorem Dev.onQueue_cores (q : Nat) (f : Queue → Queue) : (d.onQueue q f).cores = d.cores := rfl
@[simp] theorem Dev.onQueue_bents (q : Nat) (f : Queue → Queue) : (d.onQueue q f).bents = d.bents := rfl
@[simp] theorem Dev.onQueue_spans (q : Nat) (f : Queue → Queue) : (d.onQueue q f).spans = d.spans := rfl
@[simp] theorem Dev.onQueue_txns (q : Nat) (f : Queue → Queue) : (d.onQueue q f).txns = d.txns := rfl
@[simp] theorem Dev.onQueue_chans (q : Nat) (f : Queue → Queue) : (d.onQueue q f).chans = d.chans := rfl
@[simp] theorem Dev.onQueue_creqs (q : Nat) (f : Queue → Queue) : (d.onQueue q f).creqs = d.creqs := rfl
@[simp] theorem Dev.onQueue_abtHigh (q : Nat) (f : Queue → Queue) : (d.onQueue q f).abtHigh = d.abtHigh := rfl
@[simp] theorem Dev.onQueue_abtStarve (q : Nat) (f : Queue → Queue) : (d.onQueue q f).abtStarve = d.abtStarve := rfl
@[simp] theorem Dev.onQueue_abtReq (q : Nat) (f : Queue → Queue) : (d.onQueue q f).abtReq = d.abtReq := rfl
@[simp] theorem Dev.onQueue_abtCnt (q : Nat) (f : Queue → Queue) : (d.onQueue q f).abtCnt = d.abtCnt := rfl
@[simp] theorem Dev.onQueue_ws (q : Nat) (f : Queue → Queue) : (d.onQueue q f).ws = d.ws := rfl
@[simp] theorem Dev.onQueue_ddrs (q : Nat) (f : Queue → Queue) : (d.onQueue q f).ddrs = d.ddrs := rfl
@[simp] theorem Dev.onQueue_spareA (q : Nat) (f : Queue → Queue) : (d.onQueue q f).spareA = d.spareA := rfl
@[simp] theorem Dev.onQueue_spareB (q : Nat) (f : Queue → Queue) : (d.onQueue q f).spareB = d.spareB := rfl
@[simp] theorem Dev.onQueue_poison (q : Nat) (f : Queue → Queue) : (d.onQueue q f).poison = d.poison := rfl
@[simp] theorem Dev.onQueue_xings (q : Nat) (f : Queue → Queue) : (d.onQueue q f).xings = d.xings := rfl
@[simp] theorem Dev.onQueue_xFirst (q : Nat) (f : Queue → Queue) : (d.onQueue q f).xFirst = d.xFirst := rfl
@[simp] theorem Dev.onQueue_xverDone (q : Nat) (f : Queue → Queue) : (d.onQueue q f).xverDone = d.xverDone := rfl
@[simp] theorem Dev.onQueue_xverFail (q : Nat) (f : Queue → Queue) : (d.onQueue q f).xverFail = d.xverFail := rfl
@[simp] theorem Dev.onQueue_xverDom (q : Nat) (f : Queue → Queue) : (d.onQueue q f).xverDom = d.xverDom := rfl
@[simp] theorem Dev.onQueue_temps (q : Nat) (f : Queue → Queue) : (d.onQueue q f).temps = d.temps := rfl
@[simp] theorem Dev.onQueue_bifurc (q : Nat) (f : Queue → Queue) : (d.onQueue q f).bifurc = d.bifurc := rfl
@[simp] theorem Dev.onQueue_headPin (q : Nat) (f : Queue → Queue) : (d.onQueue q f).headPin = d.headPin := rfl
@[simp] theorem Dev.onQueue_safeNLow (q : Nat) (f : Queue → Queue) : (d.onQueue q f).safeNLow = d.safeNLow := rfl
@[simp] theorem Dev.onQueue_portA (q : Nat) (f : Queue → Queue) : (d.onQueue q f).portA = d.portA := rfl
@[simp] theorem Dev.onQueue_portB (q : Nat) (f : Queue → Queue) : (d.onQueue q f).portB = d.portB := rfl
@[simp] theorem Dev.onQueue_sem (q : Nat) (f : Queue → Queue) : (d.onQueue q f).sem = d.sem := rfl
@[simp] theorem Dev.onQueue_ks (q : Nat) (f : Queue → Queue) : (d.onQueue q f).ks = d.ks := rfl
@[simp] theorem Dev.onQueue_mode (q : Nat) (f : Queue → Queue) : (d.onQueue q f).mode = d.mode := rfl
@[simp] theorem Dev.onQueue_pwr (q : Nat) (f : Queue → Queue) : (d.onQueue q f).pwr = d.pwr := rfl
@[simp] theorem Dev.onQueue_flt (q : Nat) (f : Queue → Queue) : (d.onQueue q f).flt = d.flt := rfl
@[simp] theorem Dev.onQueue_sec (q : Nat) (f : Queue → Queue) : (d.onQueue q f).sec = d.sec := rfl
@[simp] theorem Dev.onQueue_chain (q : Nat) (f : Queue → Queue) : (d.onQueue q f).chain = d.chain := rfl
@[simp] theorem Dev.onQueue_jtag (q : Nat) (f : Queue → Queue) : (d.onQueue q f).jtag = d.jtag := rfl
@[simp] theorem Dev.onQueue_plb (q : Nat) (f : Queue → Queue) : (d.onQueue q f).plb = d.plb := rfl
@[simp] theorem Dev.onQueue_grades (q : Nat) (f : Queue → Queue) : (d.onQueue q f).grades = d.grades := rfl
@[simp] theorem Dev.onQueue_wear (q : Nat) (f : Queue → Queue) : (d.onQueue q f).wear = d.wear := rfl
@[simp] theorem Dev.onQueue_near (q : Nat) (f : Queue → Queue) : (d.onQueue q f).near = d.near := rfl
@[simp] theorem Dev.onQueue_recLines (q : Nat) (f : Queue → Queue) : (d.onQueue q f).recLines = d.recLines := rfl
@[simp] theorem Dev.onQueue_resetLow (q : Nat) (f : Queue → Queue) : (d.onQueue q f).resetLow = d.resetLow := rfl
@[simp] theorem Dev.onQueue_lineWrites (q : Nat) (f : Queue → Queue) : (d.onQueue q f).lineWrites = d.lineWrites := rfl

/-! ### onXing -/

@[simp] theorem Dev.onXing_clk (n : Nat) (f : Xing → Xing) : (d.onXing n f).clk = d.clk := rfl
@[simp] theorem Dev.onXing_tb (n : Nat) (f : Xing → Xing) : (d.onXing n f).tb = d.tb := rfl
@[simp] theorem Dev.onXing_tbSlew (n : Nat) (f : Xing → Xing) : (d.onXing n f).tbSlew = d.tbSlew := rfl
@[simp] theorem Dev.onXing_tbSrc (n : Nat) (f : Xing → Xing) : (d.onXing n f).tbSrc = d.tbSrc := rfl
@[simp] theorem Dev.onXing_tbLock (n : Nat) (f : Xing → Xing) : (d.onXing n f).tbLock = d.tbLock := rfl
@[simp] theorem Dev.onXing_freeCtr (n : Nat) (f : Xing → Xing) : (d.onXing n f).freeCtr = d.freeCtr := rfl
@[simp] theorem Dev.onXing_nextId (n : Nat) (f : Xing → Xing) : (d.onXing n f).nextId = d.nextId := rfl
@[simp] theorem Dev.onXing_cores (n : Nat) (f : Xing → Xing) : (d.onXing n f).cores = d.cores := rfl
@[simp] theorem Dev.onXing_bents (n : Nat) (f : Xing → Xing) : (d.onXing n f).bents = d.bents := rfl
@[simp] theorem Dev.onXing_spans (n : Nat) (f : Xing → Xing) : (d.onXing n f).spans = d.spans := rfl
@[simp] theorem Dev.onXing_txns (n : Nat) (f : Xing → Xing) : (d.onXing n f).txns = d.txns := rfl
@[simp] theorem Dev.onXing_chans (n : Nat) (f : Xing → Xing) : (d.onXing n f).chans = d.chans := rfl
@[simp] theorem Dev.onXing_creqs (n : Nat) (f : Xing → Xing) : (d.onXing n f).creqs = d.creqs := rfl
@[simp] theorem Dev.onXing_abtHigh (n : Nat) (f : Xing → Xing) : (d.onXing n f).abtHigh = d.abtHigh := rfl
@[simp] theorem Dev.onXing_abtStarve (n : Nat) (f : Xing → Xing) : (d.onXing n f).abtStarve = d.abtStarve := rfl
@[simp] theorem Dev.onXing_abtReq (n : Nat) (f : Xing → Xing) : (d.onXing n f).abtReq = d.abtReq := rfl
@[simp] theorem Dev.onXing_abtCnt (n : Nat) (f : Xing → Xing) : (d.onXing n f).abtCnt = d.abtCnt := rfl
@[simp] theorem Dev.onXing_ws (n : Nat) (f : Xing → Xing) : (d.onXing n f).ws = d.ws := rfl
@[simp] theorem Dev.onXing_ddrs (n : Nat) (f : Xing → Xing) : (d.onXing n f).ddrs = d.ddrs := rfl
@[simp] theorem Dev.onXing_spareA (n : Nat) (f : Xing → Xing) : (d.onXing n f).spareA = d.spareA := rfl
@[simp] theorem Dev.onXing_spareB (n : Nat) (f : Xing → Xing) : (d.onXing n f).spareB = d.spareB := rfl
@[simp] theorem Dev.onXing_poison (n : Nat) (f : Xing → Xing) : (d.onXing n f).poison = d.poison := rfl
@[simp] theorem Dev.onXing_queues (n : Nat) (f : Xing → Xing) : (d.onXing n f).queues = d.queues := rfl
@[simp] theorem Dev.onXing_xFirst (n : Nat) (f : Xing → Xing) : (d.onXing n f).xFirst = d.xFirst := rfl
@[simp] theorem Dev.onXing_xverDone (n : Nat) (f : Xing → Xing) : (d.onXing n f).xverDone = d.xverDone := rfl
@[simp] theorem Dev.onXing_xverFail (n : Nat) (f : Xing → Xing) : (d.onXing n f).xverFail = d.xverFail := rfl
@[simp] theorem Dev.onXing_xverDom (n : Nat) (f : Xing → Xing) : (d.onXing n f).xverDom = d.xverDom := rfl
@[simp] theorem Dev.onXing_temps (n : Nat) (f : Xing → Xing) : (d.onXing n f).temps = d.temps := rfl
@[simp] theorem Dev.onXing_bifurc (n : Nat) (f : Xing → Xing) : (d.onXing n f).bifurc = d.bifurc := rfl
@[simp] theorem Dev.onXing_headPin (n : Nat) (f : Xing → Xing) : (d.onXing n f).headPin = d.headPin := rfl
@[simp] theorem Dev.onXing_safeNLow (n : Nat) (f : Xing → Xing) : (d.onXing n f).safeNLow = d.safeNLow := rfl
@[simp] theorem Dev.onXing_portA (n : Nat) (f : Xing → Xing) : (d.onXing n f).portA = d.portA := rfl
@[simp] theorem Dev.onXing_portB (n : Nat) (f : Xing → Xing) : (d.onXing n f).portB = d.portB := rfl
@[simp] theorem Dev.onXing_sem (n : Nat) (f : Xing → Xing) : (d.onXing n f).sem = d.sem := rfl
@[simp] theorem Dev.onXing_ks (n : Nat) (f : Xing → Xing) : (d.onXing n f).ks = d.ks := rfl
@[simp] theorem Dev.onXing_mode (n : Nat) (f : Xing → Xing) : (d.onXing n f).mode = d.mode := rfl
@[simp] theorem Dev.onXing_pwr (n : Nat) (f : Xing → Xing) : (d.onXing n f).pwr = d.pwr := rfl
@[simp] theorem Dev.onXing_flt (n : Nat) (f : Xing → Xing) : (d.onXing n f).flt = d.flt := rfl
@[simp] theorem Dev.onXing_sec (n : Nat) (f : Xing → Xing) : (d.onXing n f).sec = d.sec := rfl
@[simp] theorem Dev.onXing_chain (n : Nat) (f : Xing → Xing) : (d.onXing n f).chain = d.chain := rfl
@[simp] theorem Dev.onXing_jtag (n : Nat) (f : Xing → Xing) : (d.onXing n f).jtag = d.jtag := rfl
@[simp] theorem Dev.onXing_plb (n : Nat) (f : Xing → Xing) : (d.onXing n f).plb = d.plb := rfl
@[simp] theorem Dev.onXing_grades (n : Nat) (f : Xing → Xing) : (d.onXing n f).grades = d.grades := rfl
@[simp] theorem Dev.onXing_wear (n : Nat) (f : Xing → Xing) : (d.onXing n f).wear = d.wear := rfl
@[simp] theorem Dev.onXing_near (n : Nat) (f : Xing → Xing) : (d.onXing n f).near = d.near := rfl
@[simp] theorem Dev.onXing_recLines (n : Nat) (f : Xing → Xing) : (d.onXing n f).recLines = d.recLines := rfl
@[simp] theorem Dev.onXing_resetLow (n : Nat) (f : Xing → Xing) : (d.onXing n f).resetLow = d.resetLow := rfl
@[simp] theorem Dev.onXing_lineWrites (n : Nat) (f : Xing → Xing) : (d.onXing n f).lineWrites = d.lineWrites := rfl

/-! ### onPort -/

@[simp] theorem Dev.onPort_clk (p : Port) (f : PortSt → PortSt) : (d.onPort p f).clk = d.clk := by cases p <;> rfl
@[simp] theorem Dev.onPort_tb (p : Port) (f : PortSt → PortSt) : (d.onPort p f).tb = d.tb := by cases p <;> rfl
@[simp] theorem Dev.onPort_tbSlew (p : Port) (f : PortSt → PortSt) : (d.onPort p f).tbSlew = d.tbSlew := by cases p <;> rfl
@[simp] theorem Dev.onPort_tbSrc (p : Port) (f : PortSt → PortSt) : (d.onPort p f).tbSrc = d.tbSrc := by cases p <;> rfl
@[simp] theorem Dev.onPort_tbLock (p : Port) (f : PortSt → PortSt) : (d.onPort p f).tbLock = d.tbLock := by cases p <;> rfl
@[simp] theorem Dev.onPort_freeCtr (p : Port) (f : PortSt → PortSt) : (d.onPort p f).freeCtr = d.freeCtr := by cases p <;> rfl
@[simp] theorem Dev.onPort_nextId (p : Port) (f : PortSt → PortSt) : (d.onPort p f).nextId = d.nextId := by cases p <;> rfl
@[simp] theorem Dev.onPort_cores (p : Port) (f : PortSt → PortSt) : (d.onPort p f).cores = d.cores := by cases p <;> rfl
@[simp] theorem Dev.onPort_bents (p : Port) (f : PortSt → PortSt) : (d.onPort p f).bents = d.bents := by cases p <;> rfl
@[simp] theorem Dev.onPort_spans (p : Port) (f : PortSt → PortSt) : (d.onPort p f).spans = d.spans := by cases p <;> rfl
@[simp] theorem Dev.onPort_txns (p : Port) (f : PortSt → PortSt) : (d.onPort p f).txns = d.txns := by cases p <;> rfl
@[simp] theorem Dev.onPort_chans (p : Port) (f : PortSt → PortSt) : (d.onPort p f).chans = d.chans := by cases p <;> rfl
@[simp] theorem Dev.onPort_creqs (p : Port) (f : PortSt → PortSt) : (d.onPort p f).creqs = d.creqs := by cases p <;> rfl
@[simp] theorem Dev.onPort_abtHigh (p : Port) (f : PortSt → PortSt) : (d.onPort p f).abtHigh = d.abtHigh := by cases p <;> rfl
@[simp] theorem Dev.onPort_abtStarve (p : Port) (f : PortSt → PortSt) : (d.onPort p f).abtStarve = d.abtStarve := by cases p <;> rfl
@[simp] theorem Dev.onPort_abtReq (p : Port) (f : PortSt → PortSt) : (d.onPort p f).abtReq = d.abtReq := by cases p <;> rfl
@[simp] theorem Dev.onPort_abtCnt (p : Port) (f : PortSt → PortSt) : (d.onPort p f).abtCnt = d.abtCnt := by cases p <;> rfl
@[simp] theorem Dev.onPort_ws (p : Port) (f : PortSt → PortSt) : (d.onPort p f).ws = d.ws := by cases p <;> rfl
@[simp] theorem Dev.onPort_ddrs (p : Port) (f : PortSt → PortSt) : (d.onPort p f).ddrs = d.ddrs := by cases p <;> rfl
@[simp] theorem Dev.onPort_spareA (p : Port) (f : PortSt → PortSt) : (d.onPort p f).spareA = d.spareA := by cases p <;> rfl
@[simp] theorem Dev.onPort_spareB (p : Port) (f : PortSt → PortSt) : (d.onPort p f).spareB = d.spareB := by cases p <;> rfl
@[simp] theorem Dev.onPort_poison (p : Port) (f : PortSt → PortSt) : (d.onPort p f).poison = d.poison := by cases p <;> rfl
@[simp] theorem Dev.onPort_queues (p : Port) (f : PortSt → PortSt) : (d.onPort p f).queues = d.queues := by cases p <;> rfl
@[simp] theorem Dev.onPort_xings (p : Port) (f : PortSt → PortSt) : (d.onPort p f).xings = d.xings := by cases p <;> rfl
@[simp] theorem Dev.onPort_xFirst (p : Port) (f : PortSt → PortSt) : (d.onPort p f).xFirst = d.xFirst := by cases p <;> rfl
@[simp] theorem Dev.onPort_xverDone (p : Port) (f : PortSt → PortSt) : (d.onPort p f).xverDone = d.xverDone := by cases p <;> rfl
@[simp] theorem Dev.onPort_xverFail (p : Port) (f : PortSt → PortSt) : (d.onPort p f).xverFail = d.xverFail := by cases p <;> rfl
@[simp] theorem Dev.onPort_xverDom (p : Port) (f : PortSt → PortSt) : (d.onPort p f).xverDom = d.xverDom := by cases p <;> rfl
@[simp] theorem Dev.onPort_temps (p : Port) (f : PortSt → PortSt) : (d.onPort p f).temps = d.temps := by cases p <;> rfl
@[simp] theorem Dev.onPort_bifurc (p : Port) (f : PortSt → PortSt) : (d.onPort p f).bifurc = d.bifurc := by cases p <;> rfl
@[simp] theorem Dev.onPort_headPin (p : Port) (f : PortSt → PortSt) : (d.onPort p f).headPin = d.headPin := by cases p <;> rfl
@[simp] theorem Dev.onPort_safeNLow (p : Port) (f : PortSt → PortSt) : (d.onPort p f).safeNLow = d.safeNLow := by cases p <;> rfl
@[simp] theorem Dev.onPort_sem (p : Port) (f : PortSt → PortSt) : (d.onPort p f).sem = d.sem := by cases p <;> rfl
@[simp] theorem Dev.onPort_ks (p : Port) (f : PortSt → PortSt) : (d.onPort p f).ks = d.ks := by cases p <;> rfl
@[simp] theorem Dev.onPort_mode (p : Port) (f : PortSt → PortSt) : (d.onPort p f).mode = d.mode := by cases p <;> rfl
@[simp] theorem Dev.onPort_pwr (p : Port) (f : PortSt → PortSt) : (d.onPort p f).pwr = d.pwr := by cases p <;> rfl
@[simp] theorem Dev.onPort_flt (p : Port) (f : PortSt → PortSt) : (d.onPort p f).flt = d.flt := by cases p <;> rfl
@[simp] theorem Dev.onPort_sec (p : Port) (f : PortSt → PortSt) : (d.onPort p f).sec = d.sec := by cases p <;> rfl
@[simp] theorem Dev.onPort_chain (p : Port) (f : PortSt → PortSt) : (d.onPort p f).chain = d.chain := by cases p <;> rfl
@[simp] theorem Dev.onPort_jtag (p : Port) (f : PortSt → PortSt) : (d.onPort p f).jtag = d.jtag := by cases p <;> rfl
@[simp] theorem Dev.onPort_plb (p : Port) (f : PortSt → PortSt) : (d.onPort p f).plb = d.plb := by cases p <;> rfl
@[simp] theorem Dev.onPort_grades (p : Port) (f : PortSt → PortSt) : (d.onPort p f).grades = d.grades := by cases p <;> rfl
@[simp] theorem Dev.onPort_wear (p : Port) (f : PortSt → PortSt) : (d.onPort p f).wear = d.wear := by cases p <;> rfl
@[simp] theorem Dev.onPort_near (p : Port) (f : PortSt → PortSt) : (d.onPort p f).near = d.near := by cases p <;> rfl
@[simp] theorem Dev.onPort_recLines (p : Port) (f : PortSt → PortSt) : (d.onPort p f).recLines = d.recLines := by cases p <;> rfl
@[simp] theorem Dev.onPort_resetLow (p : Port) (f : PortSt → PortSt) : (d.onPort p f).resetLow = d.resetLow := by cases p <;> rfl
@[simp] theorem Dev.onPort_lineWrites (p : Port) (f : PortSt → PortSt) : (d.onPort p f).lineWrites = d.lineWrites := by cases p <;> rfl

/-! ### onVia -/

@[simp] theorem Dev.onVia_clk (p : ViaPort) (f : Via → Via) : (d.onVia p f).clk = d.clk := by cases p <;> rfl
@[simp] theorem Dev.onVia_tb (p : ViaPort) (f : Via → Via) : (d.onVia p f).tb = d.tb := by cases p <;> rfl
@[simp] theorem Dev.onVia_tbSlew (p : ViaPort) (f : Via → Via) : (d.onVia p f).tbSlew = d.tbSlew := by cases p <;> rfl
@[simp] theorem Dev.onVia_tbSrc (p : ViaPort) (f : Via → Via) : (d.onVia p f).tbSrc = d.tbSrc := by cases p <;> rfl
@[simp] theorem Dev.onVia_tbLock (p : ViaPort) (f : Via → Via) : (d.onVia p f).tbLock = d.tbLock := by cases p <;> rfl
@[simp] theorem Dev.onVia_freeCtr (p : ViaPort) (f : Via → Via) : (d.onVia p f).freeCtr = d.freeCtr := by cases p <;> rfl
@[simp] theorem Dev.onVia_nextId (p : ViaPort) (f : Via → Via) : (d.onVia p f).nextId = d.nextId := by cases p <;> rfl
@[simp] theorem Dev.onVia_cores (p : ViaPort) (f : Via → Via) : (d.onVia p f).cores = d.cores := by cases p <;> rfl
@[simp] theorem Dev.onVia_bents (p : ViaPort) (f : Via → Via) : (d.onVia p f).bents = d.bents := by cases p <;> rfl
@[simp] theorem Dev.onVia_spans (p : ViaPort) (f : Via → Via) : (d.onVia p f).spans = d.spans := by cases p <;> rfl
@[simp] theorem Dev.onVia_txns (p : ViaPort) (f : Via → Via) : (d.onVia p f).txns = d.txns := by cases p <;> rfl
@[simp] theorem Dev.onVia_chans (p : ViaPort) (f : Via → Via) : (d.onVia p f).chans = d.chans := by cases p <;> rfl
@[simp] theorem Dev.onVia_creqs (p : ViaPort) (f : Via → Via) : (d.onVia p f).creqs = d.creqs := by cases p <;> rfl
@[simp] theorem Dev.onVia_abtHigh (p : ViaPort) (f : Via → Via) : (d.onVia p f).abtHigh = d.abtHigh := by cases p <;> rfl
@[simp] theorem Dev.onVia_abtStarve (p : ViaPort) (f : Via → Via) : (d.onVia p f).abtStarve = d.abtStarve := by cases p <;> rfl
@[simp] theorem Dev.onVia_abtReq (p : ViaPort) (f : Via → Via) : (d.onVia p f).abtReq = d.abtReq := by cases p <;> rfl
@[simp] theorem Dev.onVia_abtCnt (p : ViaPort) (f : Via → Via) : (d.onVia p f).abtCnt = d.abtCnt := by cases p <;> rfl
@[simp] theorem Dev.onVia_ws (p : ViaPort) (f : Via → Via) : (d.onVia p f).ws = d.ws := by cases p <;> rfl
@[simp] theorem Dev.onVia_ddrs (p : ViaPort) (f : Via → Via) : (d.onVia p f).ddrs = d.ddrs := by cases p <;> rfl
@[simp] theorem Dev.onVia_spareA (p : ViaPort) (f : Via → Via) : (d.onVia p f).spareA = d.spareA := by cases p <;> rfl
@[simp] theorem Dev.onVia_spareB (p : ViaPort) (f : Via → Via) : (d.onVia p f).spareB = d.spareB := by cases p <;> rfl
@[simp] theorem Dev.onVia_poison (p : ViaPort) (f : Via → Via) : (d.onVia p f).poison = d.poison := by cases p <;> rfl
@[simp] theorem Dev.onVia_queues (p : ViaPort) (f : Via → Via) : (d.onVia p f).queues = d.queues := by cases p <;> rfl
@[simp] theorem Dev.onVia_xings (p : ViaPort) (f : Via → Via) : (d.onVia p f).xings = d.xings := by cases p <;> rfl
@[simp] theorem Dev.onVia_xFirst (p : ViaPort) (f : Via → Via) : (d.onVia p f).xFirst = d.xFirst := by cases p <;> rfl
@[simp] theorem Dev.onVia_xverDone (p : ViaPort) (f : Via → Via) : (d.onVia p f).xverDone = d.xverDone := by cases p <;> rfl
@[simp] theorem Dev.onVia_xverFail (p : ViaPort) (f : Via → Via) : (d.onVia p f).xverFail = d.xverFail := by cases p <;> rfl
@[simp] theorem Dev.onVia_xverDom (p : ViaPort) (f : Via → Via) : (d.onVia p f).xverDom = d.xverDom := by cases p <;> rfl
@[simp] theorem Dev.onVia_temps (p : ViaPort) (f : Via → Via) : (d.onVia p f).temps = d.temps := by cases p <;> rfl
@[simp] theorem Dev.onVia_bifurc (p : ViaPort) (f : Via → Via) : (d.onVia p f).bifurc = d.bifurc := by cases p <;> rfl
@[simp] theorem Dev.onVia_headPin (p : ViaPort) (f : Via → Via) : (d.onVia p f).headPin = d.headPin := by cases p <;> rfl
@[simp] theorem Dev.onVia_safeNLow (p : ViaPort) (f : Via → Via) : (d.onVia p f).safeNLow = d.safeNLow := by cases p <;> rfl
@[simp] theorem Dev.onVia_portA (p : ViaPort) (f : Via → Via) : (d.onVia p f).portA = d.portA := by cases p <;> rfl
@[simp] theorem Dev.onVia_portB (p : ViaPort) (f : Via → Via) : (d.onVia p f).portB = d.portB := by cases p <;> rfl
@[simp] theorem Dev.onVia_sem (p : ViaPort) (f : Via → Via) : (d.onVia p f).sem = d.sem := by cases p <;> rfl
@[simp] theorem Dev.onVia_ks (p : ViaPort) (f : Via → Via) : (d.onVia p f).ks = d.ks := by cases p <;> rfl
@[simp] theorem Dev.onVia_mode (p : ViaPort) (f : Via → Via) : (d.onVia p f).mode = d.mode := by cases p <;> rfl
@[simp] theorem Dev.onVia_pwr (p : ViaPort) (f : Via → Via) : (d.onVia p f).pwr = d.pwr := by cases p <;> rfl
@[simp] theorem Dev.onVia_flt (p : ViaPort) (f : Via → Via) : (d.onVia p f).flt = d.flt := by cases p <;> rfl
@[simp] theorem Dev.onVia_sec (p : ViaPort) (f : Via → Via) : (d.onVia p f).sec = d.sec := by cases p <;> rfl
@[simp] theorem Dev.onVia_jtag (p : ViaPort) (f : Via → Via) : (d.onVia p f).jtag = d.jtag := by cases p <;> rfl
@[simp] theorem Dev.onVia_plb (p : ViaPort) (f : Via → Via) : (d.onVia p f).plb = d.plb := by cases p <;> rfl
@[simp] theorem Dev.onVia_grades (p : ViaPort) (f : Via → Via) : (d.onVia p f).grades = d.grades := by cases p <;> rfl
@[simp] theorem Dev.onVia_wear (p : ViaPort) (f : Via → Via) : (d.onVia p f).wear = d.wear := by cases p <;> rfl
@[simp] theorem Dev.onVia_near (p : ViaPort) (f : Via → Via) : (d.onVia p f).near = d.near := by cases p <;> rfl
@[simp] theorem Dev.onVia_recLines (p : ViaPort) (f : Via → Via) : (d.onVia p f).recLines = d.recLines := by cases p <;> rfl
@[simp] theorem Dev.onVia_resetLow (p : ViaPort) (f : Via → Via) : (d.onVia p f).resetLow = d.resetLow := by cases p <;> rfl
@[simp] theorem Dev.onVia_lineWrites (p : ViaPort) (f : Via → Via) : (d.onVia p f).lineWrites = d.lineWrites := by cases p <;> rfl

/-! ### onKs -/

@[simp] theorem Dev.onKs_clk (f : Keystone → Keystone) : (d.onKs f).clk = d.clk := rfl
@[simp] theorem Dev.onKs_tb (f : Keystone → Keystone) : (d.onKs f).tb = d.tb := rfl
@[simp] theorem Dev.onKs_tbSlew (f : Keystone → Keystone) : (d.onKs f).tbSlew = d.tbSlew := rfl
@[simp] theorem Dev.onKs_tbSrc (f : Keystone → Keystone) : (d.onKs f).tbSrc = d.tbSrc := rfl
@[simp] theorem Dev.onKs_tbLock (f : Keystone → Keystone) : (d.onKs f).tbLock = d.tbLock := rfl
@[simp] theorem Dev.onKs_freeCtr (f : Keystone → Keystone) : (d.onKs f).freeCtr = d.freeCtr := rfl
@[simp] theorem Dev.onKs_nextId (f : Keystone → Keystone) : (d.onKs f).nextId = d.nextId := rfl
@[simp] theorem Dev.onKs_cores (f : Keystone → Keystone) : (d.onKs f).cores = d.cores := rfl
@[simp] theorem Dev.onKs_bents (f : Keystone → Keystone) : (d.onKs f).bents = d.bents := rfl
@[simp] theorem Dev.onKs_spans (f : Keystone → Keystone) : (d.onKs f).spans = d.spans := rfl
@[simp] theorem Dev.onKs_txns (f : Keystone → Keystone) : (d.onKs f).txns = d.txns := rfl
@[simp] theorem Dev.onKs_chans (f : Keystone → Keystone) : (d.onKs f).chans = d.chans := rfl
@[simp] theorem Dev.onKs_creqs (f : Keystone → Keystone) : (d.onKs f).creqs = d.creqs := rfl
@[simp] theorem Dev.onKs_abtHigh (f : Keystone → Keystone) : (d.onKs f).abtHigh = d.abtHigh := rfl
@[simp] theorem Dev.onKs_abtStarve (f : Keystone → Keystone) : (d.onKs f).abtStarve = d.abtStarve := rfl
@[simp] theorem Dev.onKs_abtReq (f : Keystone → Keystone) : (d.onKs f).abtReq = d.abtReq := rfl
@[simp] theorem Dev.onKs_abtCnt (f : Keystone → Keystone) : (d.onKs f).abtCnt = d.abtCnt := rfl
@[simp] theorem Dev.onKs_ws (f : Keystone → Keystone) : (d.onKs f).ws = d.ws := rfl
@[simp] theorem Dev.onKs_ddrs (f : Keystone → Keystone) : (d.onKs f).ddrs = d.ddrs := rfl
@[simp] theorem Dev.onKs_spareA (f : Keystone → Keystone) : (d.onKs f).spareA = d.spareA := rfl
@[simp] theorem Dev.onKs_spareB (f : Keystone → Keystone) : (d.onKs f).spareB = d.spareB := rfl
@[simp] theorem Dev.onKs_poison (f : Keystone → Keystone) : (d.onKs f).poison = d.poison := rfl
@[simp] theorem Dev.onKs_queues (f : Keystone → Keystone) : (d.onKs f).queues = d.queues := rfl
@[simp] theorem Dev.onKs_xings (f : Keystone → Keystone) : (d.onKs f).xings = d.xings := rfl
@[simp] theorem Dev.onKs_xFirst (f : Keystone → Keystone) : (d.onKs f).xFirst = d.xFirst := rfl
@[simp] theorem Dev.onKs_xverDone (f : Keystone → Keystone) : (d.onKs f).xverDone = d.xverDone := rfl
@[simp] theorem Dev.onKs_xverFail (f : Keystone → Keystone) : (d.onKs f).xverFail = d.xverFail := rfl
@[simp] theorem Dev.onKs_xverDom (f : Keystone → Keystone) : (d.onKs f).xverDom = d.xverDom := rfl
@[simp] theorem Dev.onKs_temps (f : Keystone → Keystone) : (d.onKs f).temps = d.temps := rfl
@[simp] theorem Dev.onKs_bifurc (f : Keystone → Keystone) : (d.onKs f).bifurc = d.bifurc := rfl
@[simp] theorem Dev.onKs_headPin (f : Keystone → Keystone) : (d.onKs f).headPin = d.headPin := rfl
@[simp] theorem Dev.onKs_safeNLow (f : Keystone → Keystone) : (d.onKs f).safeNLow = d.safeNLow := rfl
@[simp] theorem Dev.onKs_portA (f : Keystone → Keystone) : (d.onKs f).portA = d.portA := rfl
@[simp] theorem Dev.onKs_portB (f : Keystone → Keystone) : (d.onKs f).portB = d.portB := rfl
@[simp] theorem Dev.onKs_sem (f : Keystone → Keystone) : (d.onKs f).sem = d.sem := rfl
@[simp] theorem Dev.onKs_mode (f : Keystone → Keystone) : (d.onKs f).mode = d.mode := rfl
@[simp] theorem Dev.onKs_pwr (f : Keystone → Keystone) : (d.onKs f).pwr = d.pwr := rfl
@[simp] theorem Dev.onKs_flt (f : Keystone → Keystone) : (d.onKs f).flt = d.flt := rfl
@[simp] theorem Dev.onKs_sec (f : Keystone → Keystone) : (d.onKs f).sec = d.sec := rfl
@[simp] theorem Dev.onKs_chain (f : Keystone → Keystone) : (d.onKs f).chain = d.chain := rfl
@[simp] theorem Dev.onKs_jtag (f : Keystone → Keystone) : (d.onKs f).jtag = d.jtag := rfl
@[simp] theorem Dev.onKs_plb (f : Keystone → Keystone) : (d.onKs f).plb = d.plb := rfl
@[simp] theorem Dev.onKs_grades (f : Keystone → Keystone) : (d.onKs f).grades = d.grades := rfl
@[simp] theorem Dev.onKs_wear (f : Keystone → Keystone) : (d.onKs f).wear = d.wear := rfl
@[simp] theorem Dev.onKs_near (f : Keystone → Keystone) : (d.onKs f).near = d.near := rfl
@[simp] theorem Dev.onKs_recLines (f : Keystone → Keystone) : (d.onKs f).recLines = d.recLines := rfl
@[simp] theorem Dev.onKs_resetLow (f : Keystone → Keystone) : (d.onKs f).resetLow = d.resetLow := rfl
@[simp] theorem Dev.onKs_lineWrites (f : Keystone → Keystone) : (d.onKs f).lineWrites = d.lineWrites := rfl

/-! ### onPwr -/

@[simp] theorem Dev.onPwr_clk (f : Power → Power) : (d.onPwr f).clk = d.clk := rfl
@[simp] theorem Dev.onPwr_tb (f : Power → Power) : (d.onPwr f).tb = d.tb := rfl
@[simp] theorem Dev.onPwr_tbSlew (f : Power → Power) : (d.onPwr f).tbSlew = d.tbSlew := rfl
@[simp] theorem Dev.onPwr_tbSrc (f : Power → Power) : (d.onPwr f).tbSrc = d.tbSrc := rfl
@[simp] theorem Dev.onPwr_tbLock (f : Power → Power) : (d.onPwr f).tbLock = d.tbLock := rfl
@[simp] theorem Dev.onPwr_freeCtr (f : Power → Power) : (d.onPwr f).freeCtr = d.freeCtr := rfl
@[simp] theorem Dev.onPwr_nextId (f : Power → Power) : (d.onPwr f).nextId = d.nextId := rfl
@[simp] theorem Dev.onPwr_cores (f : Power → Power) : (d.onPwr f).cores = d.cores := rfl
@[simp] theorem Dev.onPwr_bents (f : Power → Power) : (d.onPwr f).bents = d.bents := rfl
@[simp] theorem Dev.onPwr_spans (f : Power → Power) : (d.onPwr f).spans = d.spans := rfl
@[simp] theorem Dev.onPwr_txns (f : Power → Power) : (d.onPwr f).txns = d.txns := rfl
@[simp] theorem Dev.onPwr_chans (f : Power → Power) : (d.onPwr f).chans = d.chans := rfl
@[simp] theorem Dev.onPwr_creqs (f : Power → Power) : (d.onPwr f).creqs = d.creqs := rfl
@[simp] theorem Dev.onPwr_abtHigh (f : Power → Power) : (d.onPwr f).abtHigh = d.abtHigh := rfl
@[simp] theorem Dev.onPwr_abtStarve (f : Power → Power) : (d.onPwr f).abtStarve = d.abtStarve := rfl
@[simp] theorem Dev.onPwr_abtReq (f : Power → Power) : (d.onPwr f).abtReq = d.abtReq := rfl
@[simp] theorem Dev.onPwr_abtCnt (f : Power → Power) : (d.onPwr f).abtCnt = d.abtCnt := rfl
@[simp] theorem Dev.onPwr_ws (f : Power → Power) : (d.onPwr f).ws = d.ws := rfl
@[simp] theorem Dev.onPwr_ddrs (f : Power → Power) : (d.onPwr f).ddrs = d.ddrs := rfl
@[simp] theorem Dev.onPwr_spareA (f : Power → Power) : (d.onPwr f).spareA = d.spareA := rfl
@[simp] theorem Dev.onPwr_spareB (f : Power → Power) : (d.onPwr f).spareB = d.spareB := rfl
@[simp] theorem Dev.onPwr_poison (f : Power → Power) : (d.onPwr f).poison = d.poison := rfl
@[simp] theorem Dev.onPwr_queues (f : Power → Power) : (d.onPwr f).queues = d.queues := rfl
@[simp] theorem Dev.onPwr_xings (f : Power → Power) : (d.onPwr f).xings = d.xings := rfl
@[simp] theorem Dev.onPwr_xFirst (f : Power → Power) : (d.onPwr f).xFirst = d.xFirst := rfl
@[simp] theorem Dev.onPwr_xverDone (f : Power → Power) : (d.onPwr f).xverDone = d.xverDone := rfl
@[simp] theorem Dev.onPwr_xverFail (f : Power → Power) : (d.onPwr f).xverFail = d.xverFail := rfl
@[simp] theorem Dev.onPwr_xverDom (f : Power → Power) : (d.onPwr f).xverDom = d.xverDom := rfl
@[simp] theorem Dev.onPwr_temps (f : Power → Power) : (d.onPwr f).temps = d.temps := rfl
@[simp] theorem Dev.onPwr_bifurc (f : Power → Power) : (d.onPwr f).bifurc = d.bifurc := rfl
@[simp] theorem Dev.onPwr_headPin (f : Power → Power) : (d.onPwr f).headPin = d.headPin := rfl
@[simp] theorem Dev.onPwr_safeNLow (f : Power → Power) : (d.onPwr f).safeNLow = d.safeNLow := rfl
@[simp] theorem Dev.onPwr_portA (f : Power → Power) : (d.onPwr f).portA = d.portA := rfl
@[simp] theorem Dev.onPwr_portB (f : Power → Power) : (d.onPwr f).portB = d.portB := rfl
@[simp] theorem Dev.onPwr_sem (f : Power → Power) : (d.onPwr f).sem = d.sem := rfl
@[simp] theorem Dev.onPwr_ks (f : Power → Power) : (d.onPwr f).ks = d.ks := rfl
@[simp] theorem Dev.onPwr_mode (f : Power → Power) : (d.onPwr f).mode = d.mode := rfl
@[simp] theorem Dev.onPwr_flt (f : Power → Power) : (d.onPwr f).flt = d.flt := rfl
@[simp] theorem Dev.onPwr_sec (f : Power → Power) : (d.onPwr f).sec = d.sec := rfl
@[simp] theorem Dev.onPwr_chain (f : Power → Power) : (d.onPwr f).chain = d.chain := rfl
@[simp] theorem Dev.onPwr_jtag (f : Power → Power) : (d.onPwr f).jtag = d.jtag := rfl
@[simp] theorem Dev.onPwr_plb (f : Power → Power) : (d.onPwr f).plb = d.plb := rfl
@[simp] theorem Dev.onPwr_grades (f : Power → Power) : (d.onPwr f).grades = d.grades := rfl
@[simp] theorem Dev.onPwr_wear (f : Power → Power) : (d.onPwr f).wear = d.wear := rfl
@[simp] theorem Dev.onPwr_near (f : Power → Power) : (d.onPwr f).near = d.near := rfl
@[simp] theorem Dev.onPwr_recLines (f : Power → Power) : (d.onPwr f).recLines = d.recLines := rfl
@[simp] theorem Dev.onPwr_resetLow (f : Power → Power) : (d.onPwr f).resetLow = d.resetLow := rfl
@[simp] theorem Dev.onPwr_lineWrites (f : Power → Power) : (d.onPwr f).lineWrites = d.lineWrites := rfl

/-! ### onMode -/

@[simp] theorem Dev.onMode_clk (f : Mode → Mode) : (d.onMode f).clk = d.clk := rfl
@[simp] theorem Dev.onMode_tb (f : Mode → Mode) : (d.onMode f).tb = d.tb := rfl
@[simp] theorem Dev.onMode_tbSlew (f : Mode → Mode) : (d.onMode f).tbSlew = d.tbSlew := rfl
@[simp] theorem Dev.onMode_tbSrc (f : Mode → Mode) : (d.onMode f).tbSrc = d.tbSrc := rfl
@[simp] theorem Dev.onMode_tbLock (f : Mode → Mode) : (d.onMode f).tbLock = d.tbLock := rfl
@[simp] theorem Dev.onMode_freeCtr (f : Mode → Mode) : (d.onMode f).freeCtr = d.freeCtr := rfl
@[simp] theorem Dev.onMode_nextId (f : Mode → Mode) : (d.onMode f).nextId = d.nextId := rfl
@[simp] theorem Dev.onMode_cores (f : Mode → Mode) : (d.onMode f).cores = d.cores := rfl
@[simp] theorem Dev.onMode_bents (f : Mode → Mode) : (d.onMode f).bents = d.bents := rfl
@[simp] theorem Dev.onMode_spans (f : Mode → Mode) : (d.onMode f).spans = d.spans := rfl
@[simp] theorem Dev.onMode_txns (f : Mode → Mode) : (d.onMode f).txns = d.txns := rfl
@[simp] theorem Dev.onMode_chans (f : Mode → Mode) : (d.onMode f).chans = d.chans := rfl
@[simp] theorem Dev.onMode_creqs (f : Mode → Mode) : (d.onMode f).creqs = d.creqs := rfl
@[simp] theorem Dev.onMode_abtHigh (f : Mode → Mode) : (d.onMode f).abtHigh = d.abtHigh := rfl
@[simp] theorem Dev.onMode_abtStarve (f : Mode → Mode) : (d.onMode f).abtStarve = d.abtStarve := rfl
@[simp] theorem Dev.onMode_abtReq (f : Mode → Mode) : (d.onMode f).abtReq = d.abtReq := rfl
@[simp] theorem Dev.onMode_abtCnt (f : Mode → Mode) : (d.onMode f).abtCnt = d.abtCnt := rfl
@[simp] theorem Dev.onMode_ws (f : Mode → Mode) : (d.onMode f).ws = d.ws := rfl
@[simp] theorem Dev.onMode_ddrs (f : Mode → Mode) : (d.onMode f).ddrs = d.ddrs := rfl
@[simp] theorem Dev.onMode_spareA (f : Mode → Mode) : (d.onMode f).spareA = d.spareA := rfl
@[simp] theorem Dev.onMode_spareB (f : Mode → Mode) : (d.onMode f).spareB = d.spareB := rfl
@[simp] theorem Dev.onMode_poison (f : Mode → Mode) : (d.onMode f).poison = d.poison := rfl
@[simp] theorem Dev.onMode_queues (f : Mode → Mode) : (d.onMode f).queues = d.queues := rfl
@[simp] theorem Dev.onMode_xings (f : Mode → Mode) : (d.onMode f).xings = d.xings := rfl
@[simp] theorem Dev.onMode_xFirst (f : Mode → Mode) : (d.onMode f).xFirst = d.xFirst := rfl
@[simp] theorem Dev.onMode_xverDone (f : Mode → Mode) : (d.onMode f).xverDone = d.xverDone := rfl
@[simp] theorem Dev.onMode_xverFail (f : Mode → Mode) : (d.onMode f).xverFail = d.xverFail := rfl
@[simp] theorem Dev.onMode_xverDom (f : Mode → Mode) : (d.onMode f).xverDom = d.xverDom := rfl
@[simp] theorem Dev.onMode_temps (f : Mode → Mode) : (d.onMode f).temps = d.temps := rfl
@[simp] theorem Dev.onMode_bifurc (f : Mode → Mode) : (d.onMode f).bifurc = d.bifurc := rfl
@[simp] theorem Dev.onMode_headPin (f : Mode → Mode) : (d.onMode f).headPin = d.headPin := rfl
@[simp] theorem Dev.onMode_safeNLow (f : Mode → Mode) : (d.onMode f).safeNLow = d.safeNLow := rfl
@[simp] theorem Dev.onMode_portA (f : Mode → Mode) : (d.onMode f).portA = d.portA := rfl
@[simp] theorem Dev.onMode_portB (f : Mode → Mode) : (d.onMode f).portB = d.portB := rfl
@[simp] theorem Dev.onMode_sem (f : Mode → Mode) : (d.onMode f).sem = d.sem := rfl
@[simp] theorem Dev.onMode_ks (f : Mode → Mode) : (d.onMode f).ks = d.ks := rfl
@[simp] theorem Dev.onMode_pwr (f : Mode → Mode) : (d.onMode f).pwr = d.pwr := rfl
@[simp] theorem Dev.onMode_flt (f : Mode → Mode) : (d.onMode f).flt = d.flt := rfl
@[simp] theorem Dev.onMode_sec (f : Mode → Mode) : (d.onMode f).sec = d.sec := rfl
@[simp] theorem Dev.onMode_chain (f : Mode → Mode) : (d.onMode f).chain = d.chain := rfl
@[simp] theorem Dev.onMode_jtag (f : Mode → Mode) : (d.onMode f).jtag = d.jtag := rfl
@[simp] theorem Dev.onMode_plb (f : Mode → Mode) : (d.onMode f).plb = d.plb := rfl
@[simp] theorem Dev.onMode_grades (f : Mode → Mode) : (d.onMode f).grades = d.grades := rfl
@[simp] theorem Dev.onMode_wear (f : Mode → Mode) : (d.onMode f).wear = d.wear := rfl
@[simp] theorem Dev.onMode_near (f : Mode → Mode) : (d.onMode f).near = d.near := rfl
@[simp] theorem Dev.onMode_recLines (f : Mode → Mode) : (d.onMode f).recLines = d.recLines := rfl
@[simp] theorem Dev.onMode_resetLow (f : Mode → Mode) : (d.onMode f).resetLow = d.resetLow := rfl
@[simp] theorem Dev.onMode_lineWrites (f : Mode → Mode) : (d.onMode f).lineWrites = d.lineWrites := rfl

/-! ### onFlt -/

@[simp] theorem Dev.onFlt_clk (f : Collector → Collector) : (d.onFlt f).clk = d.clk := rfl
@[simp] theorem Dev.onFlt_tb (f : Collector → Collector) : (d.onFlt f).tb = d.tb := rfl
@[simp] theorem Dev.onFlt_tbSlew (f : Collector → Collector) : (d.onFlt f).tbSlew = d.tbSlew := rfl
@[simp] theorem Dev.onFlt_tbSrc (f : Collector → Collector) : (d.onFlt f).tbSrc = d.tbSrc := rfl
@[simp] theorem Dev.onFlt_tbLock (f : Collector → Collector) : (d.onFlt f).tbLock = d.tbLock := rfl
@[simp] theorem Dev.onFlt_freeCtr (f : Collector → Collector) : (d.onFlt f).freeCtr = d.freeCtr := rfl
@[simp] theorem Dev.onFlt_nextId (f : Collector → Collector) : (d.onFlt f).nextId = d.nextId := rfl
@[simp] theorem Dev.onFlt_cores (f : Collector → Collector) : (d.onFlt f).cores = d.cores := rfl
@[simp] theorem Dev.onFlt_bents (f : Collector → Collector) : (d.onFlt f).bents = d.bents := rfl
@[simp] theorem Dev.onFlt_spans (f : Collector → Collector) : (d.onFlt f).spans = d.spans := rfl
@[simp] theorem Dev.onFlt_txns (f : Collector → Collector) : (d.onFlt f).txns = d.txns := rfl
@[simp] theorem Dev.onFlt_chans (f : Collector → Collector) : (d.onFlt f).chans = d.chans := rfl
@[simp] theorem Dev.onFlt_creqs (f : Collector → Collector) : (d.onFlt f).creqs = d.creqs := rfl
@[simp] theorem Dev.onFlt_abtHigh (f : Collector → Collector) : (d.onFlt f).abtHigh = d.abtHigh := rfl
@[simp] theorem Dev.onFlt_abtStarve (f : Collector → Collector) : (d.onFlt f).abtStarve = d.abtStarve := rfl
@[simp] theorem Dev.onFlt_abtReq (f : Collector → Collector) : (d.onFlt f).abtReq = d.abtReq := rfl
@[simp] theorem Dev.onFlt_abtCnt (f : Collector → Collector) : (d.onFlt f).abtCnt = d.abtCnt := rfl
@[simp] theorem Dev.onFlt_ws (f : Collector → Collector) : (d.onFlt f).ws = d.ws := rfl
@[simp] theorem Dev.onFlt_ddrs (f : Collector → Collector) : (d.onFlt f).ddrs = d.ddrs := rfl
@[simp] theorem Dev.onFlt_spareA (f : Collector → Collector) : (d.onFlt f).spareA = d.spareA := rfl
@[simp] theorem Dev.onFlt_spareB (f : Collector → Collector) : (d.onFlt f).spareB = d.spareB := rfl
@[simp] theorem Dev.onFlt_poison (f : Collector → Collector) : (d.onFlt f).poison = d.poison := rfl
@[simp] theorem Dev.onFlt_queues (f : Collector → Collector) : (d.onFlt f).queues = d.queues := rfl
@[simp] theorem Dev.onFlt_xings (f : Collector → Collector) : (d.onFlt f).xings = d.xings := rfl
@[simp] theorem Dev.onFlt_xFirst (f : Collector → Collector) : (d.onFlt f).xFirst = d.xFirst := rfl
@[simp] theorem Dev.onFlt_xverDone (f : Collector → Collector) : (d.onFlt f).xverDone = d.xverDone := rfl
@[simp] theorem Dev.onFlt_xverFail (f : Collector → Collector) : (d.onFlt f).xverFail = d.xverFail := rfl
@[simp] theorem Dev.onFlt_xverDom (f : Collector → Collector) : (d.onFlt f).xverDom = d.xverDom := rfl
@[simp] theorem Dev.onFlt_temps (f : Collector → Collector) : (d.onFlt f).temps = d.temps := rfl
@[simp] theorem Dev.onFlt_bifurc (f : Collector → Collector) : (d.onFlt f).bifurc = d.bifurc := rfl
@[simp] theorem Dev.onFlt_headPin (f : Collector → Collector) : (d.onFlt f).headPin = d.headPin := rfl
@[simp] theorem Dev.onFlt_safeNLow (f : Collector → Collector) : (d.onFlt f).safeNLow = d.safeNLow := rfl
@[simp] theorem Dev.onFlt_portA (f : Collector → Collector) : (d.onFlt f).portA = d.portA := rfl
@[simp] theorem Dev.onFlt_portB (f : Collector → Collector) : (d.onFlt f).portB = d.portB := rfl
@[simp] theorem Dev.onFlt_sem (f : Collector → Collector) : (d.onFlt f).sem = d.sem := rfl
@[simp] theorem Dev.onFlt_ks (f : Collector → Collector) : (d.onFlt f).ks = d.ks := rfl
@[simp] theorem Dev.onFlt_mode (f : Collector → Collector) : (d.onFlt f).mode = d.mode := rfl
@[simp] theorem Dev.onFlt_pwr (f : Collector → Collector) : (d.onFlt f).pwr = d.pwr := rfl
@[simp] theorem Dev.onFlt_sec (f : Collector → Collector) : (d.onFlt f).sec = d.sec := rfl
@[simp] theorem Dev.onFlt_chain (f : Collector → Collector) : (d.onFlt f).chain = d.chain := rfl
@[simp] theorem Dev.onFlt_jtag (f : Collector → Collector) : (d.onFlt f).jtag = d.jtag := rfl
@[simp] theorem Dev.onFlt_plb (f : Collector → Collector) : (d.onFlt f).plb = d.plb := rfl
@[simp] theorem Dev.onFlt_grades (f : Collector → Collector) : (d.onFlt f).grades = d.grades := rfl
@[simp] theorem Dev.onFlt_wear (f : Collector → Collector) : (d.onFlt f).wear = d.wear := rfl
@[simp] theorem Dev.onFlt_near (f : Collector → Collector) : (d.onFlt f).near = d.near := rfl
@[simp] theorem Dev.onFlt_recLines (f : Collector → Collector) : (d.onFlt f).recLines = d.recLines := rfl
@[simp] theorem Dev.onFlt_resetLow (f : Collector → Collector) : (d.onFlt f).resetLow = d.resetLow := rfl
@[simp] theorem Dev.onFlt_lineWrites (f : Collector → Collector) : (d.onFlt f).lineWrites = d.lineWrites := rfl

/-! ### onChain -/

@[simp] theorem Dev.onChain_clk (f : Chain → Chain) : (d.onChain f).clk = d.clk := rfl
@[simp] theorem Dev.onChain_tb (f : Chain → Chain) : (d.onChain f).tb = d.tb := rfl
@[simp] theorem Dev.onChain_tbSlew (f : Chain → Chain) : (d.onChain f).tbSlew = d.tbSlew := rfl
@[simp] theorem Dev.onChain_tbSrc (f : Chain → Chain) : (d.onChain f).tbSrc = d.tbSrc := rfl
@[simp] theorem Dev.onChain_tbLock (f : Chain → Chain) : (d.onChain f).tbLock = d.tbLock := rfl
@[simp] theorem Dev.onChain_freeCtr (f : Chain → Chain) : (d.onChain f).freeCtr = d.freeCtr := rfl
@[simp] theorem Dev.onChain_nextId (f : Chain → Chain) : (d.onChain f).nextId = d.nextId := rfl
@[simp] theorem Dev.onChain_cores (f : Chain → Chain) : (d.onChain f).cores = d.cores := rfl
@[simp] theorem Dev.onChain_bents (f : Chain → Chain) : (d.onChain f).bents = d.bents := rfl
@[simp] theorem Dev.onChain_spans (f : Chain → Chain) : (d.onChain f).spans = d.spans := rfl
@[simp] theorem Dev.onChain_txns (f : Chain → Chain) : (d.onChain f).txns = d.txns := rfl
@[simp] theorem Dev.onChain_chans (f : Chain → Chain) : (d.onChain f).chans = d.chans := rfl
@[simp] theorem Dev.onChain_creqs (f : Chain → Chain) : (d.onChain f).creqs = d.creqs := rfl
@[simp] theorem Dev.onChain_abtHigh (f : Chain → Chain) : (d.onChain f).abtHigh = d.abtHigh := rfl
@[simp] theorem Dev.onChain_abtStarve (f : Chain → Chain) : (d.onChain f).abtStarve = d.abtStarve := rfl
@[simp] theorem Dev.onChain_abtReq (f : Chain → Chain) : (d.onChain f).abtReq = d.abtReq := rfl
@[simp] theorem Dev.onChain_abtCnt (f : Chain → Chain) : (d.onChain f).abtCnt = d.abtCnt := rfl
@[simp] theorem Dev.onChain_ws (f : Chain → Chain) : (d.onChain f).ws = d.ws := rfl
@[simp] theorem Dev.onChain_ddrs (f : Chain → Chain) : (d.onChain f).ddrs = d.ddrs := rfl
@[simp] theorem Dev.onChain_spareA (f : Chain → Chain) : (d.onChain f).spareA = d.spareA := rfl
@[simp] theorem Dev.onChain_spareB (f : Chain → Chain) : (d.onChain f).spareB = d.spareB := rfl
@[simp] theorem Dev.onChain_poison (f : Chain → Chain) : (d.onChain f).poison = d.poison := rfl
@[simp] theorem Dev.onChain_queues (f : Chain → Chain) : (d.onChain f).queues = d.queues := rfl
@[simp] theorem Dev.onChain_xings (f : Chain → Chain) : (d.onChain f).xings = d.xings := rfl
@[simp] theorem Dev.onChain_xFirst (f : Chain → Chain) : (d.onChain f).xFirst = d.xFirst := rfl
@[simp] theorem Dev.onChain_xverDone (f : Chain → Chain) : (d.onChain f).xverDone = d.xverDone := rfl
@[simp] theorem Dev.onChain_xverFail (f : Chain → Chain) : (d.onChain f).xverFail = d.xverFail := rfl
@[simp] theorem Dev.onChain_xverDom (f : Chain → Chain) : (d.onChain f).xverDom = d.xverDom := rfl
@[simp] theorem Dev.onChain_temps (f : Chain → Chain) : (d.onChain f).temps = d.temps := rfl
@[simp] theorem Dev.onChain_bifurc (f : Chain → Chain) : (d.onChain f).bifurc = d.bifurc := rfl
@[simp] theorem Dev.onChain_headPin (f : Chain → Chain) : (d.onChain f).headPin = d.headPin := rfl
@[simp] theorem Dev.onChain_safeNLow (f : Chain → Chain) : (d.onChain f).safeNLow = d.safeNLow := rfl
@[simp] theorem Dev.onChain_portA (f : Chain → Chain) : (d.onChain f).portA = d.portA := rfl
@[simp] theorem Dev.onChain_portB (f : Chain → Chain) : (d.onChain f).portB = d.portB := rfl
@[simp] theorem Dev.onChain_sem (f : Chain → Chain) : (d.onChain f).sem = d.sem := rfl
@[simp] theorem Dev.onChain_ks (f : Chain → Chain) : (d.onChain f).ks = d.ks := rfl
@[simp] theorem Dev.onChain_mode (f : Chain → Chain) : (d.onChain f).mode = d.mode := rfl
@[simp] theorem Dev.onChain_pwr (f : Chain → Chain) : (d.onChain f).pwr = d.pwr := rfl
@[simp] theorem Dev.onChain_flt (f : Chain → Chain) : (d.onChain f).flt = d.flt := rfl
@[simp] theorem Dev.onChain_sec (f : Chain → Chain) : (d.onChain f).sec = d.sec := rfl
@[simp] theorem Dev.onChain_jtag (f : Chain → Chain) : (d.onChain f).jtag = d.jtag := rfl
@[simp] theorem Dev.onChain_plb (f : Chain → Chain) : (d.onChain f).plb = d.plb := rfl
@[simp] theorem Dev.onChain_grades (f : Chain → Chain) : (d.onChain f).grades = d.grades := rfl
@[simp] theorem Dev.onChain_wear (f : Chain → Chain) : (d.onChain f).wear = d.wear := rfl
@[simp] theorem Dev.onChain_near (f : Chain → Chain) : (d.onChain f).near = d.near := rfl
@[simp] theorem Dev.onChain_recLines (f : Chain → Chain) : (d.onChain f).recLines = d.recLines := rfl
@[simp] theorem Dev.onChain_resetLow (f : Chain → Chain) : (d.onChain f).resetLow = d.resetLow := rfl
@[simp] theorem Dev.onChain_lineWrites (f : Chain → Chain) : (d.onChain f).lineWrites = d.lineWrites := rfl

/-! ### onCreq -/

@[simp] theorem Dev.onCreq_clk (n : Nat) (f : CentreReq → CentreReq) : (d.onCreq n f).clk = d.clk := rfl
@[simp] theorem Dev.onCreq_tb (n : Nat) (f : CentreReq → CentreReq) : (d.onCreq n f).tb = d.tb := rfl
@[simp] theorem Dev.onCreq_tbSlew (n : Nat) (f : CentreReq → CentreReq) : (d.onCreq n f).tbSlew = d.tbSlew := rfl
@[simp] theorem Dev.onCreq_tbSrc (n : Nat) (f : CentreReq → CentreReq) : (d.onCreq n f).tbSrc = d.tbSrc := rfl
@[simp] theorem Dev.onCreq_tbLock (n : Nat) (f : CentreReq → CentreReq) : (d.onCreq n f).tbLock = d.tbLock := rfl
@[simp] theorem Dev.onCreq_freeCtr (n : Nat) (f : CentreReq → CentreReq) : (d.onCreq n f).freeCtr = d.freeCtr := rfl
@[simp] theorem Dev.onCreq_nextId (n : Nat) (f : CentreReq → CentreReq) : (d.onCreq n f).nextId = d.nextId := rfl
@[simp] theorem Dev.onCreq_cores (n : Nat) (f : CentreReq → CentreReq) : (d.onCreq n f).cores = d.cores := rfl
@[simp] theorem Dev.onCreq_bents (n : Nat) (f : CentreReq → CentreReq) : (d.onCreq n f).bents = d.bents := rfl
@[simp] theorem Dev.onCreq_spans (n : Nat) (f : CentreReq → CentreReq) : (d.onCreq n f).spans = d.spans := rfl
@[simp] theorem Dev.onCreq_txns (n : Nat) (f : CentreReq → CentreReq) : (d.onCreq n f).txns = d.txns := rfl
@[simp] theorem Dev.onCreq_chans (n : Nat) (f : CentreReq → CentreReq) : (d.onCreq n f).chans = d.chans := rfl
@[simp] theorem Dev.onCreq_abtHigh (n : Nat) (f : CentreReq → CentreReq) : (d.onCreq n f).abtHigh = d.abtHigh := rfl
@[simp] theorem Dev.onCreq_abtStarve (n : Nat) (f : CentreReq → CentreReq) : (d.onCreq n f).abtStarve = d.abtStarve := rfl
@[simp] theorem Dev.onCreq_abtReq (n : Nat) (f : CentreReq → CentreReq) : (d.onCreq n f).abtReq = d.abtReq := rfl
@[simp] theorem Dev.onCreq_abtCnt (n : Nat) (f : CentreReq → CentreReq) : (d.onCreq n f).abtCnt = d.abtCnt := rfl
@[simp] theorem Dev.onCreq_ws (n : Nat) (f : CentreReq → CentreReq) : (d.onCreq n f).ws = d.ws := rfl
@[simp] theorem Dev.onCreq_ddrs (n : Nat) (f : CentreReq → CentreReq) : (d.onCreq n f).ddrs = d.ddrs := rfl
@[simp] theorem Dev.onCreq_spareA (n : Nat) (f : CentreReq → CentreReq) : (d.onCreq n f).spareA = d.spareA := rfl
@[simp] theorem Dev.onCreq_spareB (n : Nat) (f : CentreReq → CentreReq) : (d.onCreq n f).spareB = d.spareB := rfl
@[simp] theorem Dev.onCreq_poison (n : Nat) (f : CentreReq → CentreReq) : (d.onCreq n f).poison = d.poison := rfl
@[simp] theorem Dev.onCreq_queues (n : Nat) (f : CentreReq → CentreReq) : (d.onCreq n f).queues = d.queues := rfl
@[simp] theorem Dev.onCreq_xings (n : Nat) (f : CentreReq → CentreReq) : (d.onCreq n f).xings = d.xings := rfl
@[simp] theorem Dev.onCreq_xFirst (n : Nat) (f : CentreReq → CentreReq) : (d.onCreq n f).xFirst = d.xFirst := rfl
@[simp] theorem Dev.onCreq_xverDone (n : Nat) (f : CentreReq → CentreReq) : (d.onCreq n f).xverDone = d.xverDone := rfl
@[simp] theorem Dev.onCreq_xverFail (n : Nat) (f : CentreReq → CentreReq) : (d.onCreq n f).xverFail = d.xverFail := rfl
@[simp] theorem Dev.onCreq_xverDom (n : Nat) (f : CentreReq → CentreReq) : (d.onCreq n f).xverDom = d.xverDom := rfl
@[simp] theorem Dev.onCreq_temps (n : Nat) (f : CentreReq → CentreReq) : (d.onCreq n f).temps = d.temps := rfl
@[simp] theorem Dev.onCreq_bifurc (n : Nat) (f : CentreReq → CentreReq) : (d.onCreq n f).bifurc = d.bifurc := rfl
@[simp] theorem Dev.onCreq_headPin (n : Nat) (f : CentreReq → CentreReq) : (d.onCreq n f).headPin = d.headPin := rfl
@[simp] theorem Dev.onCreq_safeNLow (n : Nat) (f : CentreReq → CentreReq) : (d.onCreq n f).safeNLow = d.safeNLow := rfl
@[simp] theorem Dev.onCreq_portA (n : Nat) (f : CentreReq → CentreReq) : (d.onCreq n f).portA = d.portA := rfl
@[simp] theorem Dev.onCreq_portB (n : Nat) (f : CentreReq → CentreReq) : (d.onCreq n f).portB = d.portB := rfl
@[simp] theorem Dev.onCreq_sem (n : Nat) (f : CentreReq → CentreReq) : (d.onCreq n f).sem = d.sem := rfl
@[simp] theorem Dev.onCreq_ks (n : Nat) (f : CentreReq → CentreReq) : (d.onCreq n f).ks = d.ks := rfl
@[simp] theorem Dev.onCreq_mode (n : Nat) (f : CentreReq → CentreReq) : (d.onCreq n f).mode = d.mode := rfl
@[simp] theorem Dev.onCreq_pwr (n : Nat) (f : CentreReq → CentreReq) : (d.onCreq n f).pwr = d.pwr := rfl
@[simp] theorem Dev.onCreq_flt (n : Nat) (f : CentreReq → CentreReq) : (d.onCreq n f).flt = d.flt := rfl
@[simp] theorem Dev.onCreq_sec (n : Nat) (f : CentreReq → CentreReq) : (d.onCreq n f).sec = d.sec := rfl
@[simp] theorem Dev.onCreq_chain (n : Nat) (f : CentreReq → CentreReq) : (d.onCreq n f).chain = d.chain := rfl
@[simp] theorem Dev.onCreq_jtag (n : Nat) (f : CentreReq → CentreReq) : (d.onCreq n f).jtag = d.jtag := rfl
@[simp] theorem Dev.onCreq_plb (n : Nat) (f : CentreReq → CentreReq) : (d.onCreq n f).plb = d.plb := rfl
@[simp] theorem Dev.onCreq_grades (n : Nat) (f : CentreReq → CentreReq) : (d.onCreq n f).grades = d.grades := rfl
@[simp] theorem Dev.onCreq_wear (n : Nat) (f : CentreReq → CentreReq) : (d.onCreq n f).wear = d.wear := rfl
@[simp] theorem Dev.onCreq_near (n : Nat) (f : CentreReq → CentreReq) : (d.onCreq n f).near = d.near := rfl
@[simp] theorem Dev.onCreq_recLines (n : Nat) (f : CentreReq → CentreReq) : (d.onCreq n f).recLines = d.recLines := rfl
@[simp] theorem Dev.onCreq_resetLow (n : Nat) (f : CentreReq → CentreReq) : (d.onCreq n f).resetLow = d.resetLow := rfl
@[simp] theorem Dev.onCreq_lineWrites (n : Nat) (f : CentreReq → CentreReq) : (d.onCreq n f).lineWrites = d.lineWrites := rfl

/-! ### seen -/

@[simp] theorem Dev.seen_clk (o : Dev) : (d.seen o).clk = d.clk := rfl
@[simp] theorem Dev.seen_tb (o : Dev) : (d.seen o).tb = d.tb := rfl
@[simp] theorem Dev.seen_tbSlew (o : Dev) : (d.seen o).tbSlew = d.tbSlew := rfl
@[simp] theorem Dev.seen_tbSrc (o : Dev) : (d.seen o).tbSrc = d.tbSrc := rfl
@[simp] theorem Dev.seen_tbLock (o : Dev) : (d.seen o).tbLock = d.tbLock := rfl
@[simp] theorem Dev.seen_freeCtr (o : Dev) : (d.seen o).freeCtr = d.freeCtr := rfl
@[simp] theorem Dev.seen_nextId (o : Dev) : (d.seen o).nextId = d.nextId := rfl
@[simp] theorem Dev.seen_cores (o : Dev) : (d.seen o).cores = d.cores := rfl
@[simp] theorem Dev.seen_bents (o : Dev) : (d.seen o).bents = d.bents := rfl
@[simp] theorem Dev.seen_spans (o : Dev) : (d.seen o).spans = d.spans := rfl
@[simp] theorem Dev.seen_txns (o : Dev) : (d.seen o).txns = d.txns := rfl
@[simp] theorem Dev.seen_near (o : Dev) : (d.seen o).near = d.near := rfl
@[simp] theorem Dev.seen_chans (o : Dev) : (d.seen o).chans = d.chans := rfl
@[simp] theorem Dev.seen_creqs (o : Dev) : (d.seen o).creqs = d.creqs := rfl
@[simp] theorem Dev.seen_abtHigh (o : Dev) : (d.seen o).abtHigh = d.abtHigh := rfl
@[simp] theorem Dev.seen_abtStarve (o : Dev) : (d.seen o).abtStarve = d.abtStarve := rfl
@[simp] theorem Dev.seen_abtReq (o : Dev) : (d.seen o).abtReq = d.abtReq := rfl
@[simp] theorem Dev.seen_abtCnt (o : Dev) : (d.seen o).abtCnt = d.abtCnt := rfl
@[simp] theorem Dev.seen_ws (o : Dev) : (d.seen o).ws = d.ws := rfl
@[simp] theorem Dev.seen_ddrs (o : Dev) : (d.seen o).ddrs = d.ddrs := rfl
@[simp] theorem Dev.seen_spareA (o : Dev) : (d.seen o).spareA = d.spareA := rfl
@[simp] theorem Dev.seen_spareB (o : Dev) : (d.seen o).spareB = d.spareB := rfl
@[simp] theorem Dev.seen_recLines (o : Dev) : (d.seen o).recLines = d.recLines := rfl
@[simp] theorem Dev.seen_poison (o : Dev) : (d.seen o).poison = d.poison := rfl
@[simp] theorem Dev.seen_queues (o : Dev) : (d.seen o).queues = d.queues := rfl
@[simp] theorem Dev.seen_xings (o : Dev) : (d.seen o).xings = d.xings := rfl
@[simp] theorem Dev.seen_xFirst (o : Dev) : (d.seen o).xFirst = d.xFirst := rfl
@[simp] theorem Dev.seen_xverDone (o : Dev) : (d.seen o).xverDone = d.xverDone := rfl
@[simp] theorem Dev.seen_xverFail (o : Dev) : (d.seen o).xverFail = d.xverFail := rfl
@[simp] theorem Dev.seen_xverDom (o : Dev) : (d.seen o).xverDom = d.xverDom := rfl
@[simp] theorem Dev.seen_temps (o : Dev) : (d.seen o).temps = d.temps := rfl
@[simp] theorem Dev.seen_bifurc (o : Dev) : (d.seen o).bifurc = d.bifurc := rfl
@[simp] theorem Dev.seen_headPin (o : Dev) : (d.seen o).headPin = d.headPin := rfl
@[simp] theorem Dev.seen_resetLow (o : Dev) : (d.seen o).resetLow = d.resetLow := rfl
@[simp] theorem Dev.seen_safeNLow (o : Dev) : (d.seen o).safeNLow = d.safeNLow := rfl
@[simp] theorem Dev.seen_portA (o : Dev) : (d.seen o).portA = d.portA := rfl
@[simp] theorem Dev.seen_portB (o : Dev) : (d.seen o).portB = d.portB := rfl
@[simp] theorem Dev.seen_sem (o : Dev) : (d.seen o).sem = d.sem := rfl
@[simp] theorem Dev.seen_ks (o : Dev) : (d.seen o).ks = d.ks := rfl
@[simp] theorem Dev.seen_mode (o : Dev) : (d.seen o).mode = d.mode := rfl
@[simp] theorem Dev.seen_pwr (o : Dev) : (d.seen o).pwr = d.pwr := rfl
@[simp] theorem Dev.seen_flt (o : Dev) : (d.seen o).flt = d.flt := rfl
@[simp] theorem Dev.seen_sec (o : Dev) : (d.seen o).sec = d.sec := rfl
@[simp] theorem Dev.seen_chain (o : Dev) : (d.seen o).chain = d.chain := rfl
@[simp] theorem Dev.seen_jtag (o : Dev) : (d.seen o).jtag = d.jtag := rfl
@[simp] theorem Dev.seen_grades (o : Dev) : (d.seen o).grades = d.grades := rfl
@[simp] theorem Dev.seen_wear (o : Dev) : (d.seen o).wear = d.wear := rfl
@[simp] theorem Dev.seen_lineWrites (o : Dev) : (d.seen o).lineWrites = d.lineWrites := rfl
@[simp] theorem Dev.core_seen (o : Dev) (c : Nat) : (d.seen o).core c = d.core c := rfl
@[simp] theorem Dev.bent_seen (o : Dev) (b : Nat) : (d.seen o).bent b = d.bent b := rfl
@[simp] theorem Dev.span_seen (o : Dev) (n : Nat) : (d.seen o).span n = d.span n := rfl
@[simp] theorem Dev.queue_seen (o : Dev) (q : Nat) : (d.seen o).queue q = d.queue q := rfl
@[simp] theorem Dev.xing_seen (o : Dev) (n : Nat) : (d.seen o).xing n = d.xing n := rfl
@[simp] theorem Dev.port_seen (o : Dev) (p : Port) : (d.seen o).port p = d.port p := by cases p <;> rfl
@[simp] theorem Dev.via_seen (o : Dev) (p : ViaPort) : (d.seen o).via p = d.via p := by cases p <;> rfl

/-! ### strobe -/

@[simp] theorem Dev.strobe_clk (n : Nat) : (d.strobe n).clk = d.clk := rfl
@[simp] theorem Dev.strobe_tb (n : Nat) : (d.strobe n).tb = d.tb := rfl
@[simp] theorem Dev.strobe_tbSlew (n : Nat) : (d.strobe n).tbSlew = d.tbSlew := rfl
@[simp] theorem Dev.strobe_tbSrc (n : Nat) : (d.strobe n).tbSrc = d.tbSrc := rfl
@[simp] theorem Dev.strobe_tbLock (n : Nat) : (d.strobe n).tbLock = d.tbLock := rfl
@[simp] theorem Dev.strobe_freeCtr (n : Nat) : (d.strobe n).freeCtr = d.freeCtr := rfl
@[simp] theorem Dev.strobe_nextId (n : Nat) : (d.strobe n).nextId = d.nextId := rfl
@[simp] theorem Dev.strobe_cores (n : Nat) : (d.strobe n).cores = d.cores := rfl
@[simp] theorem Dev.strobe_bents (n : Nat) : (d.strobe n).bents = d.bents := rfl
@[simp] theorem Dev.strobe_spans (n : Nat) : (d.strobe n).spans = d.spans := rfl
@[simp] theorem Dev.strobe_txns (n : Nat) : (d.strobe n).txns = d.txns := rfl
@[simp] theorem Dev.strobe_near (n : Nat) : (d.strobe n).near = d.near := rfl
@[simp] theorem Dev.strobe_chans (n : Nat) : (d.strobe n).chans = d.chans := rfl
@[simp] theorem Dev.strobe_creqs (n : Nat) : (d.strobe n).creqs = d.creqs := rfl
@[simp] theorem Dev.strobe_abtHigh (n : Nat) : (d.strobe n).abtHigh = d.abtHigh := rfl
@[simp] theorem Dev.strobe_abtStarve (n : Nat) : (d.strobe n).abtStarve = d.abtStarve := rfl
@[simp] theorem Dev.strobe_abtReq (n : Nat) : (d.strobe n).abtReq = d.abtReq := rfl
@[simp] theorem Dev.strobe_abtCnt (n : Nat) : (d.strobe n).abtCnt = d.abtCnt := rfl
@[simp] theorem Dev.strobe_ws (n : Nat) : (d.strobe n).ws = d.ws := rfl
@[simp] theorem Dev.strobe_ddrs (n : Nat) : (d.strobe n).ddrs = d.ddrs := rfl
@[simp] theorem Dev.strobe_spareA (n : Nat) : (d.strobe n).spareA = d.spareA := rfl
@[simp] theorem Dev.strobe_spareB (n : Nat) : (d.strobe n).spareB = d.spareB := rfl
@[simp] theorem Dev.strobe_recLines (n : Nat) : (d.strobe n).recLines = d.recLines := rfl
@[simp] theorem Dev.strobe_poison (n : Nat) : (d.strobe n).poison = d.poison := rfl
@[simp] theorem Dev.strobe_queues (n : Nat) : (d.strobe n).queues = d.queues := rfl
@[simp] theorem Dev.strobe_xings (n : Nat) : (d.strobe n).xings = d.xings := rfl
@[simp] theorem Dev.strobe_xFirst (n : Nat) : (d.strobe n).xFirst = d.xFirst := rfl
@[simp] theorem Dev.strobe_xverDone (n : Nat) : (d.strobe n).xverDone = d.xverDone := rfl
@[simp] theorem Dev.strobe_xverFail (n : Nat) : (d.strobe n).xverFail = d.xverFail := rfl
@[simp] theorem Dev.strobe_xverDom (n : Nat) : (d.strobe n).xverDom = d.xverDom := rfl
@[simp] theorem Dev.strobe_temps (n : Nat) : (d.strobe n).temps = d.temps := rfl
@[simp] theorem Dev.strobe_bifurc (n : Nat) : (d.strobe n).bifurc = d.bifurc := rfl
@[simp] theorem Dev.strobe_headPin (n : Nat) : (d.strobe n).headPin = d.headPin := rfl
@[simp] theorem Dev.strobe_resetLow (n : Nat) : (d.strobe n).resetLow = d.resetLow := rfl
@[simp] theorem Dev.strobe_safeNLow (n : Nat) : (d.strobe n).safeNLow = d.safeNLow := rfl
@[simp] theorem Dev.strobe_portA (n : Nat) : (d.strobe n).portA = d.portA := rfl
@[simp] theorem Dev.strobe_portB (n : Nat) : (d.strobe n).portB = d.portB := rfl
@[simp] theorem Dev.strobe_sem (n : Nat) : (d.strobe n).sem = d.sem := rfl
@[simp] theorem Dev.strobe_ks (n : Nat) : (d.strobe n).ks = d.ks := rfl
@[simp] theorem Dev.strobe_mode (n : Nat) : (d.strobe n).mode = d.mode := rfl
@[simp] theorem Dev.strobe_pwr (n : Nat) : (d.strobe n).pwr = d.pwr := rfl
@[simp] theorem Dev.strobe_flt (n : Nat) : (d.strobe n).flt = d.flt := rfl
@[simp] theorem Dev.strobe_sec (n : Nat) : (d.strobe n).sec = d.sec := rfl
@[simp] theorem Dev.strobe_chain (n : Nat) : (d.strobe n).chain = d.chain := rfl
@[simp] theorem Dev.strobe_jtag (n : Nat) : (d.strobe n).jtag = d.jtag := rfl
@[simp] theorem Dev.strobe_grades (n : Nat) : (d.strobe n).grades = d.grades := rfl
@[simp] theorem Dev.strobe_wear (n : Nat) : (d.strobe n).wear = d.wear := rfl
@[simp] theorem Dev.strobe_lineWrites (n : Nat) : (d.strobe n).lineWrites = d.lineWrites := rfl
@[simp] theorem Dev.core_strobe (n : Nat) (c : Nat) : (d.strobe n).core c = d.core c := rfl
@[simp] theorem Dev.bent_strobe (n : Nat) (b : Nat) : (d.strobe n).bent b = d.bent b := rfl
@[simp] theorem Dev.span_strobe (k : Nat) (n : Nat) : (d.strobe k).span n = d.span n := rfl
@[simp] theorem Dev.queue_strobe (n : Nat) (q : Nat) : (d.strobe n).queue q = d.queue q := rfl
@[simp] theorem Dev.xing_strobe (k : Nat) (n : Nat) : (d.strobe k).xing n = d.xing n := rfl
@[simp] theorem Dev.port_strobe (n : Nat) (p : Port) : (d.strobe n).port p = d.port p := by cases p <;> rfl
@[simp] theorem Dev.via_strobe (n : Nat) (p : ViaPort) : (d.strobe n).via p = d.via p := by cases p <;> rfl

/-! ### Pins that see nothing -/

@[simp] theorem Dev.edges_self (n : Nat) : d.edges d n = 0 := by
  unfold Dev.edges
  split
  · cases d.stepsOf n with
    | none => rfl
    | some x => simp
  · split
    · simp
    · split
      · simp
      · cases d.risen n with
        | none => cases d.sigLevel n <;> rfl
        | some x => simp

/-- A pin follows nothing where nothing has happened. -/
@[simp] theorem PlbPin.follow_self (p : PlbPin) : p.follow d d = p := by simp [PlbPin.follow]

/-- A meaning that leaves the device as it is leaves the pins as they are. -/
@[simp] theorem Dev.seen_self : d.seen d = d := by
  have h : d.plb.map (fun e => if e.2.sameAs (Tab.find {} d.plb e.1) then (e.1, e.2.follow d d) else e) = d.plb := by
    conv => rhs; rw [← List.map_id d.plb]
    apply List.map_congr_left
    intro e _
    split <;> simp
  simp only [Dev.seen, h]

/-- With no pin selected nothing shows. -/
theorem Dev.seen_none (o : Dev) (h : d.plb = []) : d.seen o = d := by
  cases d; simp_all [Dev.seen]

/-! ### Reading entries back -/

@[simp] theorem Dev.core_setCore (c : Nat) (k : Core) : (d.setCore c k).core c = k := by simp [Dev.core, Dev.setCore]
@[simp] theorem Dev.core_setCore_other {c n : Nat} (k : Core) (h : n ≠ c) : (d.setCore c k).core n = d.core n := by
  simp [Dev.core, Dev.setCore, h]
@[simp] theorem Dev.core_onCore (c : Nat) (f : Core → Core) : (d.onCore c f).core c = f (d.core c) := by simp [Dev.onCore]
@[simp] theorem Dev.core_onCore_other {c n : Nat} (f : Core → Core) (h : n ≠ c) : (d.onCore c f).core n = d.core n := by
  simp [Dev.onCore, h]
@[simp] theorem Dev.bent_setBent (b : Nat) (x : Bent) : (d.setBent b x).bent b = x := by simp [Dev.bent, Dev.setBent]
@[simp] theorem Dev.bent_setBent_other {b n : Nat} (x : Bent) (h : n ≠ b) : (d.setBent b x).bent n = d.bent n := by
  simp [Dev.bent, Dev.setBent, h]
@[simp] theorem Dev.bent_onBent (b : Nat) (f : Bent → Bent) : (d.onBent b f).bent b = f (d.bent b) := by simp [Dev.onBent]
@[simp] theorem Dev.bent_onBent_other {b n : Nat} (f : Bent → Bent) (h : n ≠ b) : (d.onBent b f).bent n = d.bent n := by
  simp [Dev.onBent, h]
@[simp] theorem Dev.bent_onBiu (b : Nat) (f : Biu → Biu) : (d.onBiu b f).bent b = { d.bent b with biu := f (d.bent b).biu } := by
  simp [Dev.onBiu]
@[simp] theorem Dev.bent_onScr (b : Nat) (f : Scribe → Scribe) : (d.onScr b f).bent b = { d.bent b with scr := f (d.bent b).scr } := by
  simp [Dev.onScr]
@[simp] theorem Dev.span_onSpan (n : Nat) (f : Span → Span) : (d.onSpan n f).span n = f (d.span n) := by simp [Dev.span, Dev.onSpan]
@[simp] theorem Dev.ddr_onDdr (n : Nat) (f : Ddr → Ddr) : (d.onDdr n f).ddr n = f (d.ddr n) := by simp [Dev.ddr, Dev.onDdr]
@[simp] theorem Dev.queue_setQueue (q : Nat) (x : Queue) : (d.setQueue q x).queue q = x := by simp [Dev.queue, Dev.setQueue]
@[simp] theorem Dev.queue_onQueue (q : Nat) (f : Queue → Queue) : (d.onQueue q f).queue q = f (d.queue q) := by simp [Dev.onQueue]
@[simp] theorem Dev.queue_setQueue_other {q n : Nat} (x : Queue) (h : n ≠ q) : (d.setQueue q x).queue n = d.queue n := by
  simp [Dev.queue, Dev.setQueue, h]
@[simp] theorem Dev.xing_onXing (n : Nat) (f : Xing → Xing) : (d.onXing n f).xing n = f (d.xing n) := by simp [Dev.xing, Dev.onXing]
@[simp] theorem Dev.creq_onCreq (n : Nat) (f : CentreReq → CentreReq) : (d.onCreq n f).creq n = f (d.creq n) := by
  simp [Dev.creq, Dev.onCreq]
@[simp] theorem Dev.port_onPort (p : Port) (f : PortSt → PortSt) : (d.onPort p f).port p = f (d.port p) := by cases p <;> rfl
@[simp] theorem Dev.via_onVia (p : ViaPort) (f : Via → Via) : (d.onVia p f).via p = f (d.via p) := by cases p <;> rfl
@[simp] theorem Dev.ks_onKs (f : Keystone → Keystone) : (d.onKs f).ks = f d.ks := rfl
@[simp] theorem Dev.pwr_onPwr (f : Power → Power) : (d.onPwr f).pwr = f d.pwr := rfl
@[simp] theorem Dev.mode_onMode (f : Mode → Mode) : (d.onMode f).mode = f d.mode := rfl
@[simp] theorem Dev.flt_onFlt (f : Collector → Collector) : (d.onFlt f).flt = f d.flt := rfl
@[simp] theorem Dev.chain_onChain (f : Chain → Chain) : (d.onChain f).chain = f d.chain := rfl

/-! ### Bents and cores apart -/

@[simp] theorem Dev.core_onBent (b c : Nat) (f : Bent → Bent) : (d.onBent b f).core c = d.core c := rfl
@[simp] theorem Dev.core_setBent (b c : Nat) (x : Bent) : (d.setBent b x).core c = d.core c := rfl
@[simp] theorem Dev.bent_onCore (b c : Nat) (f : Core → Core) : (d.onCore c f).bent b = d.bent b := rfl
@[simp] theorem Dev.bent_setCore (b c : Nat) (k : Core) : (d.setCore c k).bent b = d.bent b := rfl

end Sys2Proof.Machine
end

