-- ==== Sys2Proof/Laws/Core.lean ====
section
/-! SUPPORT. What an instruction of a core does when it issues: the fetch that follows changes lines only. -/
namespace Sys2Proof.Machine

/-- From d to e only core c's registers and state became k', fetched lines apart. -/
def SameBut (d : Dev) (c : Nat) (k' : Core) (e : Dev) : Prop :=
  (e.core c).arch = k'.arch ∧ (∀ n, n ≠ c → e.core n = d.core n) ∧ (∀ b, (e.bent b).arch = (d.bent b).arch) ∧ e.shared = d.shared

theorem SameBut.setCore (d : Dev) (c : Nat) (k : Core) : SameBut d c k (d.setCore c k) :=
  ⟨by simp, fun n h => by simp [h], fun b => by simp, rfl⟩

theorem SameBut.trans {d e f : Dev} {c : Nat} {k : Core} (h : SameBut d c k e) (g : SameBut e c (e.core c) f) : SameBut d c k f :=
  ⟨g.1.trans h.1, fun n hn => (g.2.1 n hn).trans (h.2.1 n hn), fun b => (g.2.2.1 b).trans (h.2.2.1 b), g.2.2.2.trans h.2.2.2⟩

theorem SameBut.refl (d : Dev) (c : Nat) : SameBut d c (d.core c) d := ⟨rfl, fun _ _ => rfl, fun _ => rfl, rfl⟩

/-- A core whose fetched lines alone changed. -/
theorem SameBut.fetched (d : Dev) (c : Nat) (k : Core) (h : k.arch = (d.core c).arch) : SameBut d c (d.core c) (d.setCore c k) :=
  ⟨by simp [h], fun n hn => by simp [hn], fun b => by simp, rfl⟩

/-- A bent whose lines alone changed. -/
theorem SameBut.cached (d : Dev) (c b : Nat) (x : Bent) (h : x.arch = (d.bent b).arch) : SameBut d c (d.core c) (d.setBent b x) := by
  refine ⟨by simp, fun n hn => by simp, fun n => ?_, rfl⟩
  by_cases hn : n = b
  · subst hn; simp [h]
  · simp [hn]

theorem requestFill_same (d : Dev) (c k n : Nat) : SameBut d c (d.core c) (d.requestFill k n) := by
  unfold Dev.requestFill
  dsimp only
  split
  · exact SameBut.cached d c _ _ rfl
  · exact SameBut.refl d c

theorem enterF2_same (d : Dev) (c n : Nat) : SameBut d c (d.core c) (d.enterF2 c n) := by
  unfold Dev.enterF2
  dsimp only
  split
  · exact requestFill_same d c _ _
  · refine SameBut.trans ?_ (requestFill_same _ c _ _)
    exact SameBut.fetched d c _ rfl
  · refine SameBut.trans ?_ (requestFill_same _ c _ _)
    exact SameBut.fetched d c _ rfl
  · exact requestFill_same d c _ _

theorem touchLine_same (d : Dev) (c n : Nat) : SameBut d c (d.core c) (d.touchLine c n) := by
  unfold Dev.touchLine
  dsimp only
  split
  · exact SameBut.refl d c
  · split
    · split
      · exact SameBut.refl d c
      · exact SameBut.fetched d c _ rfl
    · exact SameBut.fetched d c _ rfl

theorem selectLine_same (d : Dev) (c n : Nat) : SameBut d c (d.core c) (d.selectLine c n) := by
  unfold Dev.selectLine
  dsimp only
  split
  · split
    · exact SameBut.refl d c
    · split
      · split
        · exact SameBut.refl d c
        · exact SameBut.fetched d c _ rfl
      · exact SameBut.fetched d c _ rfl
  · split
    · exact enterF2_same d c n
    · exact requestFill_same d c _ _

/-- What completing an instruction changes: the core, and lines. -/
theorem finish_same (d : Dev) (c : Nat) (n : Need) (k : Core) (pc pc' : W32) :
    SameBut d c (k.advance n pc') (d.finish c n k pc pc') := by
  unfold Dev.finish
  dsimp only
  split
  · exact ((SameBut.setCore d c _).trans (touchLine_same _ c _)).trans (selectLine_same _ c _)
  · exact (SameBut.setCore d c _).trans (touchLine_same _ c _)

/-- An instruction that issues, by what EX makes of it. -/
theorem run_issued {d : Dev} {c : CoreId} {n : Need} {ex : Core → ExRes} (h : d.issues c n = true) :
    d.run c.toNat n ex = match ex (d.core c.toNat) with
      | .hold => d
      | .trap t => d.preciseTrap c.toNat t
      | .next k' => d.finish c.toNat n k' (d.core c.toNat).pc ((d.core c.toNat).pc + 1#32)
      | .goto k' pc' => d.finish c.toNat n k' (d.core c.toNat).pc pc' := by
  simp only [Dev.issues, Bool.and_eq_true, Bool.not_eq_true'] at h
  obtain ⟨⟨⟨h1, h0⟩, h2⟩, h3⟩ := h
  unfold Dev.run
  simp only [h1, h0, Bool.not_true, Bool.or_self, Bool.false_eq_true, if_false]
  split at h3
  · rename_i v hv
    simp only [hv]
    rw [Bool.not_eq_true'] at h3
    simp only [h3, Bool.false_eq_true, if_false]
    cases ex (d.core c.toNat) <;> simp [h2]
  · cases h3

/-- The same for instructions that reach beyond the core's registers. -/
theorem runDev_issued {d : Dev} {c : CoreId} {n : Need} {ex : Core → DevRes} (h : d.issues c n = true) :
    d.runDev c.toNat n ex = match ex (d.core c.toNat) with
      | .hold => d
      | .waits e => e
      | .trap t e => d.preciseTrapOn e c.toNat t
      | .next e => e.finish c.toNat n (e.core c.toNat) (d.core c.toNat).pc ((d.core c.toNat).pc + 1#32)
      | .goto e pc' => e.finish c.toNat n (e.core c.toNat) (d.core c.toNat).pc pc'
      | .sent e => (e.finish c.toNat n (e.core c.toNat) (d.core c.toNat).pc ((d.core c.toNat).pc + 1#32)).onCore c.toNat
          (fun x => { x with div := (d.core c.toNat).div }) := by
  simp only [Dev.issues, Bool.and_eq_true, Bool.not_eq_true'] at h
  obtain ⟨⟨⟨h1, h0⟩, h2⟩, h3⟩ := h
  unfold Dev.runDev
  simp only [h1, h0, Bool.not_true, Bool.or_self, Bool.false_eq_true, if_false]
  split at h3
  · rename_i v hv
    simp only [hv]
    rw [Bool.not_eq_true'] at h3
    simp only [h3, Bool.false_eq_true, if_false]
    cases ex (d.core c.toNat) <;> simp [h2]
  · cases h3

/-- A completed instruction, from its meaning's shape. -/
theorem keep_completed {s : State} {c : CoreId} {n : Need} {k : Core} {p pc : W32} :
    Completed s c n k pc { s with dev := (s.dev.finish c.toNat n k p pc).seen s.dev } := by
  have h := finish_same s.dev c.toNat n k p pc
  exact ⟨rfl, rfl, h.1, h.2.1, h.2.2.1, h.2.2.2⟩

/-- An instruction that issues and that EX completes. -/
theorem run_completes {s : State} {c : CoreId} {n : Need} {ex : Core → ExRes} {k' : Core} (h : s.dev.issues c n = true)
    (hx : ex (s.dev.core c.toNat) = .next k') :
    ∃ t, s.keep (s.dev.run c.toNat n ex) = .next t ∧ Completed s c n k' ((s.dev.core c.toNat).pc + 1#32) t :=
  ⟨_, rfl, by rw [run_issued h, hx]; exact keep_completed⟩

/-- An instruction that issues and that EX sends to another PC. -/
theorem run_goes {s : State} {c : CoreId} {n : Need} {ex : Core → ExRes} {k' : Core} {pc : W32} (h : s.dev.issues c n = true)
    (hx : ex (s.dev.core c.toNat) = .goto k' pc) :
    ∃ t, s.keep (s.dev.run c.toNat n ex) = .next t ∧ Completed s c n k' pc t :=
  ⟨_, rfl, by rw [run_issued h, hx]; exact keep_completed⟩

/-- An instruction that issues and traps once everything older is done. -/
theorem run_traps {d : Dev} {c : CoreId} {n : Need} {ex : Core → ExRes} {r : TrapRec} (h : d.issues c n = true)
    (hx : ex (d.core c.toNat) = .trap r) (hd : (d.core c.toNat).drained = true) :
    d.run c.toNat n ex = d.takeTrap c.toNat (d.core c.toNat).pc r := by
  rw [run_issued h, hx]
  simp [Dev.preciseTrap, hd]

/-- An instruction that cannot issue waits. -/
theorem run_held {d : Dev} {c : Nat} {n : Need} {ex : Core → ExRes} (h : (d.core c).canIssue n = false) : d.run c n ex = d := by
  simp [Dev.run, h]

end Sys2Proof.Machine
end

