-- ==== Sys2Proof/Laws/Deck.lean ====
section
/-! SUPPORT. What sending a transaction over the Deck does while nothing holds it up on its way: it stands at its target. -/
namespace Sys2Proof.Machine

/-- Few transactions leave every target room. -/
theorem fillAt_lt (d : Dev) (g : Nat × Nat) (h : d.txns.length < 64) : d.fillAt g < 64 := by
  have : (d.txns.filter (fun t => t.buffered && t.target == some g)).length ≤ d.txns.length := List.length_filter_le _ _
  simp only [Dev.fillAt]; omega

/-- A way is free where few transactions are under way and all of them stand past the arbiters. -/
theorem freeWay_of_few (d : Dev) (h : d.txns.length < 64) (hw : d.txns.all (fun t => !t.onWay && t.st != .queued) = true)
    (ha : d.abutmentDown = false) : d.freeWay :=
  ⟨fun t ht => by have := List.all_eq_true.mp hw t ht; simp_all, fun g => fillAt_lt d g h, ha⟩

/-- The Deck idles where no transaction is under way and no span has set a threshold. -/
theorem deckIdle_of_none (d : Dev) (h : d.txns = []) (hn : d.near = []) (ha : d.abutmentDown = false) (hs : d.spans = []) (hc : d.abtHigh ≠ 0#6) :
    d.deckIdle := by
  refine ⟨h, hn, ha, fun g => ?_⟩
  unfold Dev.highAt
  split
  · exact Nat.pos_of_ne_zero fun e => hc (BitVec.eq_of_toNat_eq e)
  · simp [Dev.span, hs]

/-- The peak kept up changes no transaction. -/
@[simp] theorem notePeak_txns (d : Dev) (g : Nat × Nat) : (d.notePeak g).txns = d.txns := by
  unfold Dev.notePeak Dev.onTarget; split <;> rfl

theorem onTarget_txns (d : Dev) (g : Nat × Nat) (f : Target → Target) : (d.onTarget g f).txns = d.txns := by
  unfold Dev.onTarget; split <;> rfl

/-- A transaction that crosses a cell changes no transaction. -/
theorem cross_txns (d : Dev) (t : Txn) (i : Nat) : (d.cross t i).txns = d.txns := by
  unfold Dev.cross Dev.onChan; split <;> (try split) <;> rfl

theorem crossAll_txns (t : Txn) (l : List Nat) (d : Dev) : (l.foldl (fun x i => x.cross t i) d).txns = d.txns := by
  induction l generalizing d with
  | nil => rfl
  | cons i l ih => simp [ih, cross_txns]

/-- A pulse of a PLUMB signal changes no transaction, and neither do the handshakes of a route. -/
theorem gateSeen_txns (d : Dev) (t : Txn) (g : Gate) : (d.gateSeen t g).txns = d.txns := by
  unfold Dev.gateSeen
  cases g with
  | link b => simp
  | hub s => simp
  | centre => rfl
  | port p => cases hubOf t.req <;> dsimp only <;> (repeat' split) <;> simp

theorem gatesSeen_txns (t : Txn) (l : List Gate) (d : Dev) : (l.foldl (fun x g => x.gateSeen t g) d).txns = d.txns := by
  induction l generalizing d with
  | nil => rfl
  | cons g l ih => simp [ih, gateSeen_txns]

theorem leaveP1_txns (d : Dev) : d.leaveP1.txns = d.txns := by unfold Dev.leaveP1; split <;> rfl

/-- What a transaction becomes at its target (R228, R229). -/
def Txn.landed (t : Txn) (d : Dev) (g : Nat × Nat) : Txn :=
  let high := decide (d.highAt g ≤ d.fillAt g)
  { t with st := .sent, overfull := high && t.cls == 2#2, delayed := t.delayed || (high && t.cls == 1#2), since := d.clk }

/-- A transaction that reaches a target inside the part stands there. -/
theorem land_txns (d : Dev) (t : Txn) (g : Nat × Nat) (h : t.target = some g) : (d.land t).txns = d.txns ++ [t.landed d g] := by
  unfold Dev.land
  simp only [h, Txn.landed]
  split <;> simp [onTarget_txns]

/-- A device with the same transactions has the same free way. -/
theorem Dev.freeWay.congr {d e : Dev} (hw : d.freeWay) (ht : e.txns = d.txns) (ha : e.abutmentDown = d.abutmentDown) : e.freeWay := by
  refine ⟨?_, fun g => ?_, ?_⟩
  · rw [ht]; exact hw.1
  · simp only [Dev.fillAt, ht]; exact hw.2.1 g
  · rw [ha]; exact hw.2.2

/-- P1's end leaves the abutment as it is. -/
theorem leaveP1_abutment (d : Dev) : d.leaveP1.abutmentDown = d.abutmentDown := by
  unfold Dev.leaveP1
  split
  · simp [Dev.abutmentDown, Dev.onXing, Dev.onPwr, Dev.onKs, Dev.xing, domKeystone, domAbutment]
  · rfl

/-- A transaction put on a free way stands at its target behind those that are there already (R216, R227). -/
theorem arrive_txns (d : Dev) (t : Txn) (g : Nat × Nat) (hw : d.freeWay) (hg : t.target = some g) :
    ∃ e : Dev, (d.arrive t).txns = d.txns ++ [t.landed e g] := by
  have h : d.clearWay t = true := by
    simp only [Dev.clearWay, Dev.roomAtTarget, hg, Bool.and_eq_true, Bool.not_eq_true', List.any_eq_false, Bool.or_eq_true, decide_eq_true_eq]
    exact ⟨fun t ht => by simpa using (hw.1 t ht).1, .inr (hw.2.1 g)⟩
  refine ⟨t.route.foldl (fun x g => x.gateSeen t g) ((List.range t.domains.length).foldl (fun x i => x.cross t i) d), ?_⟩
  simp only [Dev.arrive, h, if_true, hw.2.2, Bool.false_and, Bool.false_eq_true, if_false]
  rw [land_txns _ _ g hg, gatesSeen_txns, crossAll_txns]

/-- A transaction sent takes the next number, and with a free tracker entry and a free way it stands at its target (R216, R217, R235). -/
theorem issueTxn_txns (d : Dev) (f : Nat → Txn) (g : Nat × Nat) (hw : d.freeWay) (hg : (f d.nextId).target = some g)
    (he : d.entryFree (f d.nextId).req = true) : ∃ e : Dev, (d.issueTxn f).txns = d.txns ++ [(f d.nextId).landed e g] := by
  unfold Dev.issueTxn Dev.send
  generalize hd : ({ d with nextId := d.nextId + 1 } : Dev).leaveP1 = x
  have ht : x.txns = d.txns := by rw [← hd, leaveP1_txns]
  have ha : x.abutmentDown = d.abutmentDown := by rw [← hd, leaveP1_abutment]; rfl
  have hu : ∀ r, x.entriesUsed r = d.entriesUsed r := fun r => by unfold Dev.entriesUsed; rw [ht]
  have hx : x.entryFree (f d.nextId).req = true := by
    unfold Dev.entryFree at he ⊢; revert he; cases entryLimit (f d.nextId).req <;> simp [hu]
  rw [if_pos hx, ← ht]
  exact arrive_txns x _ g (hw.congr ht ha) hg

end Sys2Proof.Machine
end

