-- ==== Sys2Proof/Laws/Mem.lean ====
section
/-! SUPPORT. The memory cells: a write is read back and leaves every other byte, every change keeps the canonical form. -/
namespace Sys2Proof.Machine

/-- A canonical list from lo on is one from any lower bound. -/
theorem Memory.wfFrom_mono {m : List Host.Cell} {lo hi : Nat} (h : lo ≤ hi) (w : Memory.wfFrom hi m = true) : Memory.wfFrom lo m = true := by
  cases m with
  | nil => rfl
  | cons e t =>
    obtain ⟨a, b⟩ := e
    simp only [Memory.wfFrom, Bool.and_eq_true, decide_eq_true_eq] at w ⊢
    exact ⟨⟨Nat.le_trans h w.1.1, w.1.2⟩, w.2⟩

/-- A key below a canonical list reads as an unlisted one. -/
theorem Memory.get_below {m : List Host.Cell} {lo k : Nat} (w : Memory.wfFrom lo m = true) (h : k < lo) : Memory.get m k = memDefault k := by
  cases m with
  | nil => rfl
  | cons e t =>
    obtain ⟨a, b⟩ := e
    simp only [Memory.wfFrom, Bool.and_eq_true, decide_eq_true_eq] at w
    simp [Memory.get, Nat.lt_of_lt_of_le h w.1.1]

/-- Setting a byte keeps the canonical form from any bound at or below the key. -/
theorem Memory.set_wfFrom {m : List Host.Cell} {lo k : Nat} (v : Byte) (h : lo ≤ k) (w : Memory.wfFrom lo m = true) :
    Memory.wfFrom lo (Memory.set m k v) = true := by
  induction m generalizing lo with
  | nil => by_cases hv : v = memDefault k <;> simp [Memory.set, Memory.wfFrom, hv, h]
  | cons e t ih =>
    obtain ⟨a, b⟩ := e
    simp only [Memory.wfFrom, Bool.and_eq_true, decide_eq_true_eq] at w
    obtain ⟨⟨w1, w2⟩, w3⟩ := w
    by_cases h1 : k < a
    · by_cases hv : v = memDefault k
      · simp [Memory.set, h1, hv, Memory.wfFrom, w1, w2, w3]
      · simp [Memory.set, h1, hv, Memory.wfFrom, h, w2, w3, Nat.succ_le_of_lt h1]
    · by_cases h2 : a = k
      · subst h2
        by_cases hv : v = memDefault a
        · simp only [Memory.set, Nat.lt_irrefl, hv, if_true, if_false]
          exact Memory.wfFrom_mono (Nat.le_succ_of_le h) w3
        · simp [Memory.set, hv, Memory.wfFrom, h, w3]
      · simp [Memory.set, h1, h2, Memory.wfFrom, w1, w2, ih (lo := a + 1) (by omega) w3]

/-- Setting a byte keeps the canonical form. -/
theorem Memory.set_wf {m : List Host.Cell} (k : Nat) (v : Byte) (w : Memory.wf m = true) : Memory.wf (Memory.set m k v) = true :=
  Memory.set_wfFrom v (Nat.zero_le k) w

/-- The byte set is read back. -/
theorem Memory.get_set_self (m : List Host.Cell) (k : Nat) (v : Byte) (w : Memory.wf m = true) : Memory.get (Memory.set m k v) k = v := by
  unfold Memory.wf at w
  generalize hlo : (0 : Nat) = lo at w
  clear hlo
  induction m generalizing lo with
  | nil => by_cases hv : v = memDefault k <;> simp [Memory.set, Memory.get, hv]
  | cons e t ih =>
    obtain ⟨a, b⟩ := e
    simp only [Memory.wfFrom, Bool.and_eq_true, decide_eq_true_eq] at w
    by_cases h1 : k < a
    · by_cases hv : v = memDefault k <;> simp [Memory.set, Memory.get, h1, hv]
    · by_cases h2 : a = k
      · subst h2
        by_cases hv : v = memDefault a
        · simp only [Memory.set, Nat.lt_irrefl, hv, if_true, if_false]
          exact Memory.get_below w.2 (Nat.lt_succ_self a)
        · simp [Memory.set, Memory.get, hv]
      · simp [Memory.set, Memory.get, h1, h2, ih _ w.2]

/-- Setting a byte leaves every other byte. -/
theorem Memory.get_set_other (m : List Host.Cell) {k n : Nat} (v : Byte) (w : Memory.wf m = true) (h : n ≠ k) :
    Memory.get (Memory.set m k v) n = Memory.get m n := by
  unfold Memory.wf at w
  generalize hlo : (0 : Nat) = lo at w
  clear hlo
  induction m generalizing lo with
  | nil =>
    by_cases hv : v = memDefault k
    · simp [Memory.set, hv]
    · by_cases hn : n < k <;> simp [Memory.set, Memory.get, hv, hn, Ne.symm h]
  | cons e t ih =>
    obtain ⟨a, b⟩ := e
    simp only [Memory.wfFrom, Bool.and_eq_true, decide_eq_true_eq] at w
    by_cases h1 : k < a
    · by_cases hv : v = memDefault k
      · simp [Memory.set, h1, hv]
      · by_cases hn : n < k
        · simp [Memory.set, Memory.get, h1, hv, hn, Nat.lt_trans hn h1]
        · simp [Memory.set, Memory.get, h1, hv, hn, Ne.symm h]
    · by_cases h2 : a = k
      · subst h2
        by_cases hv : v = memDefault a
        · simp only [Memory.set, h1, hv, if_true, if_false, Memory.get, Ne.symm h]
          by_cases hn : n < a
          · simp [hn, Memory.get_below w.2 (by omega : n < a + 1)]
          · simp [hn]
        · simp [Memory.set, Memory.get, hv, Ne.symm h]
      · simp only [Memory.set, h1, h2, if_false, Memory.get, ih _ w.2]

/-- Erasing a range keeps the canonical form. -/
theorem Memory.clear_wfFrom {m : List Host.Cell} {b : Nat} (lo hi : Nat) (w : Memory.wfFrom b m = true) :
    Memory.wfFrom b (Memory.clear m lo hi) = true := by
  induction m generalizing b with
  | nil => rfl
  | cons e t ih =>
    obtain ⟨a, v⟩ := e
    simp only [Memory.wfFrom, Bool.and_eq_true, decide_eq_true_eq] at w
    have h := ih w.2
    unfold Memory.clear at h ⊢
    by_cases hk : (decide (a < lo) || decide (hi ≤ a)) = true
    · simp only [List.filter_cons, hk, if_true, Memory.wfFrom, w.1.1, h]
      simp [w.1.2]
    · simp only [List.filter_cons, hk]
      exact Memory.wfFrom_mono (by omega) h

/-- A conditional write keeps the canonical form. -/
theorem Memory.setIf_wf {m : List Host.Cell} (c : Bool) (k : Nat) (v : Byte) (w : Memory.wf m = true) :
    Memory.wf (Memory.setIf m c k v) = true := by
  cases c
  · exact w
  · exact Memory.set_wf k v w

/-- Every change of the cells keeps their canonical form. -/
theorem MemOp.apply_wf {m : List Host.Cell} (o : MemOp) (w : Memory.wf m = true) : Memory.wf (o.apply m) = true := by
  cases o with
  | word a lanes tagWr x =>
    exact Memory.setIf_wf _ _ _ (Memory.setIf_wf _ _ _ (Memory.setIf_wf _ _ _ (Memory.setIf_wf _ _ _ (Memory.setIf_wf _ _ _ w))))
  | byte k v => exact Memory.set_wf k v w
  | clear lo hi => exact Memory.clear_wfFrom lo hi w

/-- A list of changes keeps the canonical form. -/
theorem applyAll_wf {m : List Host.Cell} (l : List MemOp) (w : Memory.wf m = true) : Memory.wf (applyAll m l) = true := by
  induction l generalizing m with
  | nil => exact w
  | cons o r ih => exact ih (o.apply_wf w)

@[simp] theorem applyAll_nil (m : List Host.Cell) : applyAll m [] = m := rfl
@[simp] theorem applyAll_cons (m : List Host.Cell) (o : MemOp) (r : List MemOp) : applyAll m (o :: r) = applyAll (o.apply m) r := rfl

/-- Changes one after another. -/
theorem applyAll_append (m : List Host.Cell) (a b : List MemOp) : applyAll m (a ++ b) = applyAll (applyAll m a) b := by
  induction a generalizing m with
  | nil => rfl
  | cons o r ih => exact ih _

end Sys2Proof.Machine
end

