-- ==== Sys2Proof/WellFormed.lean ====
section
/-! DEFINITION. Which commands name something the part has or carry what the wire carries: the checks on operands whose type is wider
than the spec's range. An ill-formed command still has an outcome: its meaning changes nothing, or treats the operand as the spec treats one
it does not know. -/
namespace Sys2Proof

/-- A BIU source exists: 0 to 191 (R192). -/
def sourceExists (n : SrcId) : Bool := decide (n.toNat < 192)

/-- A physical slot exists: 0 to 16 (R22). -/
def slotExists (p : BitVec 5) : Bool := decide (p.toNat < 17)

/-- A rail instance exists: 0 to 16 (R511). -/
def railExists (r : BitVec 5) : Bool := decide (r.toNat < 17)

/-- A crossing domain exists: 0 to 153 (R298). -/
def domainExists (d : Byte) : Bool := decide (d.toNat < 154)

/-- A line number, word address over 16, lies in code store (R70, R133). -/
def codeLine (n : Nat) : Bool := decide (0x200000 ≤ n) && decide (n < 0x280000)

/-- A PCI Express write's payload has 1 to 512 bytes, the Max_Payload_Size supported (R310). -/
def writeLength (n : Nat) : Bool := decide (0 < n) && decide (n ≤ 512)

/-- A command is well formed. -/
def Instr.wellFormed : Instr → Bool
  | .add .. | .addf .. | .addfs .. | .sub .. | .subf .. | .subfs .. | .addi .. | .subi .. | .mul .. | .muli ..
  | .mulf .. | .mulfs .. | .macf .. | .macfs .. | .div .. | .divf .. | .divComplete .. | .cmp .. | .cmpi .. | .cset ..
  | .and .. | .or .. | .xor .. | .not .. | .andi .. | .ori .. | .xori .. | .shl .. | .shr .. | .sar .. | .shli ..
  | .shri .. | .sari .. | .mov .. | .movu .. | .tget .. | .tset .. | .tchk .. | .ttst .. | .ldw .. | .stw .. | .stag ..
  | .ld16 .. | .st16 .. | .adc .. | .sbc .. | .rlc .. | .rrc .. | .add16 .. | .addi16 .. | .bc .. | .bt .. | .bf ..
  | .call .. | .jmp .. | .wait .. | .reti .. | .signal .. | .fence .. | .mfpsr .. | .mtpsr .. | .di .. | .ei ..
  | .undefinedOpcode .. | .storeBufferSend .. | .deckDataReturn .. | .deckAckReturn .. | .deckRetryReturn ..
  | .retryResend .. | .deckNotPresentReturn .. | .deckErrorReturn .. | .deckRd .. | .deckWr .. | .deckTw ..
  | .deckEvt .. | .deckStarve .. => true
  | .lineFill _ line _ => codeLine line
  | .pacedFetchDelivery .. | .paceUnderrun .. | .biuOffer .. | .interruptEntry .. | .takeover .. | .alarmMatch ..
  | .timebasePulse .. | .coreUngateDone .. | .biuSwset .. | .biuAlmcmpWrite .. | .deadlineMiss .. => true
  | .nearMiss _ pslot _ => slotExists pslot
  | .timingLate _ pslot _ => slotExists pslot
  | .scribeControlPeriod _ actual _ => decide (actual.toNat ≤ 100)
  | .budgetEvaluation .. | .regFault .. => true
  | .sensorSample readings => decide (readings.length = 32)
  | .push .. | .pushs .. | .pushe .. | .pushse .. | .pop .. | .itemlen .. | .space .. | .status .. | .mark ..
  | .rewind .. | .release .. | .queCtlFlush .. | .queueFlushDone .. => true
  | .xingUnstable d => domainExists d
  | .scrubRead .. | .rowRepairSwitch .. | .spareRecordWrite | .cstWrite .. | .cstErase .. | .cstBankWriteDone ..
  | .cstInvalidateDone | .ddrTaginitDone .. | .ddrPatrolScrub .. | .ddrSoftPpr .. | .ddrTempPoll .. | .pmicAlert ..
  | .ddrFail .. | .pciHdb .. => true
  | .bar2PayloadWrite _ _ data => writeLength data.length
  | .bar2PayloadRead .. => true
  | .bar2TagWrite _ _ tags => writeLength tags.length
  | .bar2TagRead .. => true
  | .bar4Write _ _ data => writeLength data.length
  | .bar4Read .. | .pciConfigWrite .. | .perst .. | .flr .. | .dlDown .. | .ptmDialogue .. | .msixPendingSend ..
  | .i3cDynamicAddress .. | .i3cPrivateWrite .. | .i3cPrivateRead .. | .semAcq .. | .semHb .. | .semRel ..
  | .semLeaseExpiry | .cmdDb .. | .cmdForwardTimeout .. | .creplyReceive .. | .devInfo .. | .devStatus .. | .modeSet ..
  | .modeGet .. | .loopLoad .. | .loopBind .. | .loopStart .. | .loopStartTimeout .. | .loopStop ..
  | .loopStopTimeout .. | .loopMigrate .. | .loopUpdate .. | .memRead .. | .memWrite .. | .queCreate .. | .queConfig ..
  | .queFlush .. | .scrSet .. | .scrReport .. | .pwrState .. | .fltRead .. | .fltAck .. | .fltSeverity ..
  | .secAttest .. | .secImage .. | .secUnlock .. | .viaEnum .. | .viaStatus .. | .plbSelect .. | .spareSwap ..
  | .spareSwapTimeout .. | .spareStatus .. => true
  | .livSwctlArm _ _ _ _ src _ => sourceExists src
  | .livSwctlDisarm .. | .switchTimeout .. => true
  | .livLatch _ _ src => sourceExists src
  | .coreReset .. | .bentReset .. | .coldReset .. | .bootComplete .. | .commissionComplete .. | .safeNAccept
  | .recoveryPhaseEnd .. | .p1Entry | .p1Exit .. | .coreGate .. | .sleepDomainAnswer .. | .drainTimeout | .wakeN
  | .aonAlarm | .portWakeRequest .. | .wakeComplete => true
  | .railFault rail => railExists rail
  | .brownOut | .thermtrip .. | .faultRaise | .fltClrAll .. | .fltClrSource .. | .fltKick .. | .fltKickGrace ..
  | .ksWdog | .ksLockstep | .fltSelf | .secRelock .. | .secVerifyDone | .keystoneRestartDone .. | .viaTxnReceive ..
  | .viaRspReceive .. | .viaCmdReceive .. | .viaLinkReceive .. | .viaReachPeriodic .. | .viaEnumReceive ..
  | .viaEndReceive .. | .viaLengthReceive .. | .viaEnumTimeout | .viaSyncExchange .. | .viaSyncReceive ..
  | .viaFlitError .. | .viaReplayTimeout .. | .viaFarEndDetect .. | .viaTrainEnd .. | .viaCheckEnd ..
  | .viaLaneError .. | .viaRetrain .. | .viaRxSilence .. | .viaRetrainTimeout .. | .viaChainSideband ..
  | .registerWrite .. | .readClear .. | .jtagTestLogicReset | .extest .. | .samplePreload .. | .idcode | .clamp
  | .highz | .extestPulse .. | .extestTrain .. | .unlockCh => true
  | .unlockTok token => decide (token.length = 3412)
  | .dbgStat | .dbgInsp .. | .dbgKs .. => true
  | .fwRecov _ _ words => decide (words.length = 16)
  | .bypass | .resetRelease .. | .safeNRelease | .dlUp .. | .aliveToggle | .viaIdleReceive .. => true
  | .railGood rail => railExists rail
  | .regulatorSlewDone .. => true

end Sys2Proof
end

