-- ==== Sys2Proof/Tests/Slice0.lean ====
section
/-! SUPPORT. Tests: ill-formed terms that the checks refuse; for each statement a state and operands that meet its hypotheses (witness_…), most
with what the step then gives; worked examples of the spec. Expected values come from the spec's rules. -/
namespace Sys2Proof.Tests
open Sys2Proof.Machine

set_option Elab.async false

/-! ### Helpers -/

/-- The state that a command leads to. -/
def after (i : Instr) (s : State) : State :=
  match exec i s with
  | .next t => t
  | .fault _ => s
  | .refused _ => s

/-- The state after reset with another device. -/
def withDev (d : Dev) : State := { State.reset with dev := d }

/-- A core running in tagged mode at 0200_0000h with checks on and its line fetched: g1 = 5, g2 = 3 (INT), g3 = 2.5 (FIX unit 3), g4 a PTR
of window 1, g5 = 1 (BOOL), g6 NV, g7 CODE, g8 = 0 (INT), g10 a PTR of window 1 into Deck SRAM. -/
def tagged : Core :=
  { status := .running, pc := 0x02000000#32, lineBuf := [(0x200000, 0#16)], psr := { t := true }, winMask := 2#16,
    regs := [(1, ⟨5#32, 0x20#8⟩), (2, ⟨3#32, 0x20#8⟩), (3, ⟨0x28000#32, 0x43#8⟩), (4, ⟨0x100#32, 0x61#8⟩), (5, ⟨1#32, 0xA0#8⟩), (6, ⟨9#32, 0xE0#8⟩),
             (7, ⟨0x02000040#32, 0xC0#8⟩), (8, ⟨0#32, 0x20#8⟩), (10, ⟨0x01000010#32, 0x61#8⟩)] }

/-- The same core in compact mode: bytes g1 = 5, g2 = 250, g3 = 1, CORE_CMPT_BASE in Deck SRAM. -/
def compact : Core :=
  { tagged with psr := { compact := true }, cmptBase := 0x01240000#32, regs := [(1, ⟨5#32, 0#8⟩), (2, ⟨250#32, 0#8⟩), (3, ⟨1#32, 0#8⟩)] }

/-- A device in which logical core 0 is k, with bent 0's window 1 over its SRAM and Deck SRAM. -/
def devOf (k : Core) : Dev :=
  { cores := [(0, k)], bents := [(0, { winLim := [(1, 0x017FFFFF#32)], winPerm := 0xC#32 })] }

/-- A machine in which logical core 0 is k. -/
def on (k : Core) : State := withDev (devOf k)

/-- With T 0, no check is made. -/
def plain : Core := { tagged with psr := {} }

/-- Core 0 after a command. -/
def core0 (i : Instr) (s : State) : Core := (after i s).dev.core 0

/-! ### Core arithmetic -/

theorem witness_stepKeepsMemoryCanonical : Memory.wf State.reset.mem = true ∧ (match step State.reset with | .next _ => true | _ => false) = true := by
  decide +kernel

theorem witness_wordWriteFrame : Memory.wf [] = true ∧ 3 < 4 ∧ 7 < 8 * 1 ∧ 8 * 1 + 5 ≤ 13 := by decide +kernel

theorem witness_emptyQueueTicks : State.reset.pending = [] ∧ State.reset.dev.tbSlew = 0 := by decide +kernel

theorem witness_add : (on tagged).dev.issues 0 (need2 9 1 2 wNZVC) = true ∧ tagged.psr.compact = false
    ∧ tagged.checked (checkPair ((on tagged).dev.bentFor 0) .additive .add false (tagged.source .additive 1 2).tag (tagged.source .additive 2 1).tag) = .ok 0x20#8
    ∧ (core0 (.add 0 9 1 2) (on tagged)).reg 9 = ⟨8#32, 0x20#8⟩ :=
  ⟨by decide +kernel, rfl, rfl, by decide +kernel⟩

theorem witness_arithmetic : ∀ e ∈ pairForms, (on plain).dev.issues 0 (need2 9 1 2 wNZVC) = true ∧ plain.psr.compact = false
    ∧ plain.checked (checkPair ((on plain).dev.bentFor 0) e.2.1 e.2.2.1 false (plain.source e.2.1 1 2).tag (plain.source e.2.1 2 1).tag) = .ok 0x00#8 :=
  fun _ _ => ⟨by decide +kernel, rfl, rfl⟩

theorem witness_immediates : ∀ e ∈ immForms, (on plain).dev.issues 0 (need1 9 1 wNZVC) = true ∧ plain.psr.compact = false
    ∧ plain.checked (checkPair ((on plain).dev.bentFor 0) e.2.1 e.2.2.1 false 0x20#8 (immTag e.2.1 0x20#8)) = .ok 0x00#8 :=
  fun _ _ => ⟨by decide +kernel, rfl, rfl⟩

theorem test_muli : (core0 (.muli 0 9 1 0x7FFF#15) (on tagged)).reg 9 = ⟨0xFFFFFFFB#32, 0x20#8⟩ := by decide +kernel

theorem witness_macf : (on plain).dev.issues 0 (needMac 9 1 2) = true ∧ plain.psr.compact = false
    ∧ plain.checked (checkMac ((on plain).dev.bentFor 0) 0x20#8 0x20#8 0x20#8) = .ok 0x00#8 := ⟨by decide +kernel, rfl, rfl⟩

theorem witness_divide : (on tagged).dev.issues 0 (needDiv 9 1 8) = true ∧ tagged.psr.compact = false ∧ tagged.drained = true
    ∧ tagged.checked (checkPair ((on tagged).dev.bentFor 0) .divide .div false 0x20#8 0x20#8) = .ok 0x20#8
    ∧ (core0 (.div 0 9 1 8) (on tagged)).div.map (·.res) = some ⟨0#32, 0xE0#8⟩
    ∧ (core0 (.div 0 9 1 2) (on tagged)).div.map (·.res) = some ⟨1#32, 0x20#8⟩ :=
  ⟨by decide +kernel, rfl, by decide +kernel, rfl, by decide +kernel, by decide +kernel⟩

theorem witness_divide_refused : ∃ r, tagged.checked (checkPair ((on tagged).dev.bentFor 0) .divide .div false 0x20#8 0xE0#8) = .error r :=
  ⟨_, rfl⟩

theorem witness_divComplete :
    ((after (.div 0 9 1 2) (on tagged)).dev.core (0 : CoreId).toNat).div.isSome = true
    ∧ (core0 (.divComplete 0) (after (.div 0 9 1 2) (on tagged))).reg 9 = ⟨1#32, 0x20#8⟩ := by decide +kernel

/-! ### Compare, logic, shifts, moves -/

theorem witness_compares : (on tagged).dev.issues 0 (needCmp 1 2) = true ∧ (on tagged).dev.issues 0 { reads := [1], wrFlags := wNZVC } = true
    ∧ (on tagged).dev.issues 0 (need2 9 1 2 0#4) = true ∧ tagged.psr.compact = false ∧ (12#10).toNat ∈ [1, 2, 3, 4, 5, 6, 11, 12]
    ∧ tagged.checked (checkPair ((on tagged).dev.bentFor 0) .compare .cmp true 0x20#8 0x20#8) = .ok 0xFF#8
    ∧ tagged.checked (checkPair ((on tagged).dev.bentFor 0) .compare .cmp false 0x20#8 (immTag .compare 0x20#8)) = .ok 0xFF#8
    ∧ (core0 (.cset 0 9 2 1 3#10) (on tagged)).reg 9 = ⟨1#32, 0xA0#8⟩ :=
  ⟨by decide +kernel, by decide +kernel, by decide +kernel, rfl, by decide, rfl, rfl, by decide +kernel⟩

theorem witness_logic : (on tagged).dev.issues 0 (need2 9 1 2 wNZ) = true ∧ (on tagged).dev.issues 0 (need1 9 1 wNZ) = true ∧ tagged.psr.compact = false
    ∧ tagged.checked (checkPair ((on tagged).dev.bentFor 0) .logical .logic false 0x20#8 0x20#8) = .ok 0x20#8
    ∧ tagged.checked (checkPair ((on tagged).dev.bentFor 0) .logical .logic false 0x20#8 (immTag .logical 0x20#8)) = .ok 0x20#8
    ∧ tagged.checked (checkOne notKinds 0#4 false 0x20#8) = .ok 0x20#8
    ∧ (core0 (.not 0 9 5) (on tagged)).reg 9 = ⟨0#32, 0xA0#8⟩ :=
  ⟨by decide +kernel, by decide +kernel, rfl, rfl, rfl, rfl, by decide +kernel⟩

theorem witness_shifts : (on tagged).dev.issues 0 (need2 9 1 2 wNZ) = true ∧ (31#15).toNat < 32
    ∧ tagged.checked (checkShift 0x20#8 0x20#8) = .ok 0x20#8 ∧ tagged.checked (checkShift 0x20#8 tagInt) = .ok 0x20#8
    ∧ (core0 (.shl 0 9 1 2) (on tagged)).reg 9 = ⟨40#32, 0x20#8⟩ := ⟨by decide +kernel, by decide, rfl, rfl, by decide +kernel⟩

theorem witness_moves : (on tagged).dev.issues 0 (need1 9 6 0#4) = true ∧ tagged.psr.compact = false ∧ (on compact).dev.issues 0 (need1 9 1 0#4) = true
    ∧ compact.psr.compact = true ∧ (on tagged).dev.issues 0 { writes := [9] } = true
    ∧ (core0 (.movu 0 9 0x80000#20) (on tagged)).reg 9 = ⟨0x80000000#32, 0x00#8⟩ := by decide +kernel

theorem witness_tagTests : (on tagged).dev.issues 0 { reads := [1], wrFlags := wZ } = true ∧ tagged.psr.compact = false ∧ tagged.psr.t = true
    ∧ tagged.drained = true
    ∧ (core0 (.tchk 0 1 0x21#8 1#2) (on tagged)).psr.z = true
    ∧ (core0 (.tchk 0 1 0x21#8 0#2) (on tagged)).trap = { valid := true, cause := 3#4, opnd := 1#2, pc := 0x02000000#32, tagA := 0x20#8, tagB := 0x21#8, tagRes := 0xFF#8 }
    ∧ (core0 (.ttst 0 1 0x21#8 3#2) (on tagged)).trap.cause = 5#4 := by decide +kernel

/-! ### Compact mode -/

theorem witness_compactBytes : ∀ e ∈ byteForms, (on compact).dev.issues 0 { need2 9 1 2 e.2.1 with rdFlags := e.2.2.1 } = true := by decide +kernel

theorem witness_compactRest : compact.psr.compact = true ∧ (on compact).dev.issues 0 (need1 9 1 wNZVC) = true
    ∧ (on compact).dev.issues 0 (need1 9 1 14#4) = true
    ∧ (on compact).dev.issues 0 { need1 9 1 wNZVC with rdFlags := true } = true ∧ (on compact).dev.issues 0 (needCmp 1 2) = true
    ∧ (on compact).dev.issues 0 { reads := [1], wrFlags := wNZVC } = true ∧ (255#15).toNat < 256 ∧ (7#15).toNat < 8
    ∧ (core0 (.add 0 9 1 2) (on compact)).byte 9 = 255#8 ∧ (core0 (.rlc 0 9 2) (on compact)).byte 9 = 244#8 := by decide +kernel

theorem witness_compactPairs : isPair 15#5 = true ∧ isPair 1#5 = true
    ∧ (on compact).dev.issues 0 { reads := pairRegs 1#5 ++ pairRegs 2#5, writes := pairRegs 15#5, wrFlags := wNZVC } = true
    ∧ (on compact).dev.issues 0 { reads := pairRegs 1#5, writes := pairRegs 15#5, wrFlags := wNZVC } = true
    ∧ (on compact).dev.issues 0 { reads := [1, 2], writes := [30, 31], wrFlags := wNZVC } = true
    ∧ (core0 (.mul 0 15 1 2) (on compact)).pair 15 = 1250#16 := by decide +kernel

/-! ### Traps and waiting -/

theorem witness_failedChecks : tagged.psr.compact = false ∧ tagged.drained = true
    ∧ ((on tagged).dev.tagChecks 0 9 6 6 0#15 1#10).all (fun e => (on tagged).dev.issues 0 e.2.1
        && (match tagged.checked e.2.2 with | .error _ => true | .ok _ => false)) = true
    ∧ (core0 (.add 0 9 1 6) (on tagged)).trap.cause = 1#4 := by decide +kernel

theorem witness_undefinedOpcode : (on tagged).dev.issues 0 {} = true ∧ coreInstr 0 tagged.psr.compact 0#32 = none ∧ tagged.drained = true
    ∧ (on compact).dev.issues 0 {} = true ∧ coreInstr 0 compact.psr.compact 0#32 = none
    ∧ (core0 (.undefinedOpcode 0 0#32) (on tagged)).status = .stopped := by decide +kernel

theorem witness_undefinedOpcode_held :
    let k := { tagged with div := some { seq := 0, ra := 1, rb := 2, rd := 9, res := ⟨0#32, 0#8⟩, v := false, flagsLive := 15#4, pc := 0#32, younger := false } }
    (on k).dev.issues 0 {} = true ∧ k.drained = false ∧ coreInstr 0 k.psr.compact 0x88100003#32 ≠ none
    ∧ (core0 (.undefinedOpcode 0 0#32) (on k)).status = .running := by decide +kernel

theorem witness_held :
    let k : Core := { tagged with status := .stopped }
    let l : Core := { compact with status := .stopped }
    k.psr.compact = false ∧ l.psr.compact = true ∧ ((on k).dev.tagChecks 0 9 6 6 0#15 1#10).all (fun e => !k.canIssue e.2.1) = true
    ∧ (∀ e ∈ byteForms, l.canIssue { need2 9 1 2 e.2.1 with rdFlags := e.2.2.1 } = false)
    ∧ k.canIssue { reads := baseReads false 4, writes := [9] } = false ∧ k.canIssue { reads := 1 :: baseReads false 4 } = false
    ∧ k.canIssue { reads := [1, 4] } = false ∧ k.canIssue { rdFlags := true } = false ∧ k.canIssue {} = false
    ∧ k.canIssue { writes := [9], rdFlags := true } = false := by decide +kernel

/-! ### Encodings (R91, R99 to R125): words written out from the tables of 03_instruction_set.md -/

theorem test_words_tagged :
    coreInstr 0 false 0x88100003#32 = some (.movu 0 1 3#20) ∧ coreInstr 0 false 0xD2108060#32 = some (.tset 0 1 1 0x60#8)
    ∧ coreInstr 0 false 0x04520C02#32 = some (.subf 0 5 4 3) ∧ coreInstr 0 false 0x08731400#32 = some (.mulf 0 7 6 5)
    ∧ coreInstr 0 false 0x0A849401#32 = some (.macfs 0 8 9 5) ∧ coreInstr 0 false 0x0273A003#32 = some (.addfs 0 7 7 8)
    ∧ coreInstr 0 false 0x80C00002#32 = some (.bc 0 12#5 2#20) ∧ coreInstr 0 false 0xC0000000#32 = some (.wait 0) := by decide +kernel

theorem test_words_compact :
    coreInstr 0 true 0x66100010#32 = some (.ld16 0 1 0 0x10#15 []) ∧ coreInstr 0 true 0x26A19C00#32 = some (.sbc 0 10 3 7)
    ∧ coreInstr 0 true 0x80500005#32 = some (.bc 0 5#5 5#20) ∧ coreInstr 0 false 0x26A19C00#32 = none := by decide +kernel

/-! ### Control transfer -/

theorem witness_branches : (on tagged).dev.issues 0 { rdFlags := true } = true ∧ (on tagged).dev.issues 0 { reads := [5] } = true ∧ condDefined 12#5 = true
    ∧ (tagged.lone 5).tag = 0xA0#8 ∧ tagged.drained = true
    ∧ (core0 (.bt 0 5 5#20) (on tagged)).pc = 0x02000005#32 ∧ (core0 (.bf 0 5 5#20) (on tagged)).pc = 0x02000001#32
    ∧ (core0 (.bc 0 0#5 0xFFFFF#20) (on tagged)).trap = { valid := true, cause := 4#4, detail := 4#4, pc := 0x02000000#32, addr := 0x01FFFFFF#32, tagRes := 0xFF#8 } := by
  decide +kernel

theorem witness_calls : (on tagged).dev.issues 0 { writes := linkRegs tagged 30#5 } = true
    ∧ (on compact).dev.issues 0 { writes := linkRegs compact 15#5 } = true
    ∧ (on tagged).dev.issues 0 { reads := jmpReads tagged 7#5, writes := linkRegs tagged 30#5 } = true
    ∧ (on compact).dev.issues 0 { reads := jmpReads compact 1#5, writes := linkRegs compact 15#5 } = true ∧ isPair 1#5 = true
    ∧ (tagged.lone 7).tag = 0xC0#8 ∧ 0x02000000 ≤ (tagged.lone 7).pay.toNat ∧ (tagged.lone 7).pay.toNat < 0x02800000
    ∧ (core0 (.call 0 30 0x7FFFF#20) (on tagged)).pc = 0x0207FFFF#32 ∧ (core0 (.call 0 30 0x7FFFF#20) (on tagged)).reg 30 = ⟨0x02000001#32, 0xC0#8⟩
    ∧ (core0 (.jmp 0 0 1) (on compact)).pc = 0x020001FA#32 := by decide +kernel

/-! ### Loads and stores -/

/-- The compact core with its region in its bent's SRAM. -/
def compactNear : Core := { compact with cmptBase := 0#32 }

theorem witness_loads_near : (on tagged).dev.issues 0 { reads := baseReads false 4#5, writes := [9] } = true
    ∧ tagged.addrFault ((on tagged).dev.bentFor 0) (tagged.lone 4) 0x105#32 false = none ∧ isOwnSram 0x105 = true
    ∧ (on tagged).dev.forward 0 0x04000105 0xF#4 true = .memory ∧ tagged.loads.length < 8 ∧ 0x04000105 ∉ (on tagged).dev.poison ∧ foundIn [] 0 = .good
    ∧ (core0 (.ldw 0 9 4 5#15 []) { on tagged with mem := [(0x20000828, 0x34#8), (0x2000082C, 0x20#8)] }).reg 9 = ⟨0x34#32, 0x20#8⟩
    ∧ (core0 (.ldw 0 9 4 5#15 [.single 3#6]) (on tagged)).pc = 0x02000001#32
    ∧ (core0 (.ldw 0 9 4 5#15 [.uncorrectable]) (on tagged)).trap = { valid := true, cause := 6#4, pc := 0x02000000#32, addr := 0x105#32, tagRes := 0xFF#8 }
    ∧ (after (.ldw 0 9 4 5#15 [.uncorrectable]) (on tagged)).dev.poison = [0x04000105] := by decide +kernel

theorem witness_loads_compact : (on compactNear).dev.issues 0 { reads := baseReads true 1#5, writes := [9] } = true ∧ (1#5).toNat < 16
    ∧ (on compactNear).dev.issues 0 { reads := baseReads true 1#5, writes := [30, 31] } = true ∧ isPair 15#5 = true
    ∧ isOwnSram 0x41 = true ∧ (on compactNear).dev.forward 0 0x04000041 (1#4 <<< 1) false = .memory
    ∧ (on compactNear).dev.forward 0 0x04000041 (3#4 <<< 1) false = .memory ∧ 0x04000041 ∉ (on compactNear).dev.poison ∧ 0x105 / 4 = 0x41 ∧ 0x105 % 4 = 1
    ∧ (core0 (.ldw 0 9 0 0x105#15 []) { on compactNear with mem := [(0x20000209, 0x77#8)] }).byte 9 = 0x77#8
    ∧ (core0 (.ld16 0 15 0 0x105#15 []) { on compactNear with mem := [(0x20000209, 0x77#8), (0x2000020A, 0x66#8)] }).pair 15 = 0x6677#16 := by decide +kernel

/-- A free way, checked on a device. -/
theorem way (d : Dev) (h : d.txns.length < 64 ∧ d.txns.all (fun t => !t.onWay && t.st != .queued) = true ∧ d.abutmentDown = false) : d.freeWay :=
  freeWay_of_few d h.1 h.2.1 h.2.2

theorem witness_loads_deck : (on tagged).dev.freeWay ∧ (on tagged).dev.issues 0 { reads := [10], writes := [9] } = true
    ∧ tagged.addrFault ((on tagged).dev.bentFor 0) (tagged.lone 10) 0x01000015#32 false = none ∧ isDeck 0x01000015 = true
    ∧ (on tagged).dev.forward 0 0x01000015 0xF#4 true = .memory ∧ tagged.loads.length < 8
    ∧ (after (.ldw 0 9 10 5#15 []) (on tagged)).dev.txns.map (·.st) = [.sent] ∧ (core0 (.ldw 0 9 10 5#15 []) (on tagged)).loads.length = 1 :=
  ⟨way _ (by decide +kernel), by decide +kernel⟩

theorem witness_stores : (tagged.storeCount < 8 ∧ tagged.inFlight < 24 ∧ tagged.stores.all (fun e => decide (e.cls.toNat ≤ tagged.cls.toNat)) = true)
    ∧ (on tagged).dev.issues 0 { reads := 1 :: baseReads false 4#5 } = true ∧ (on tagged).dev.issues 0 { reads := [1, 4] } = true
    ∧ tagged.addrFault ((on tagged).dev.bentFor 0) (tagged.lone 4) 0x105#32 true = none ∧ isOwnSram 0x105 = true
    ∧ (core0 (.stw 0 1 4 5#15) (on tagged)).stores.length = 1
    ∧ ((core0 (.stag 0 1 4 5#15) (on tagged)).stores.flatMap (·.parts)).map (·.word.tag) = [0x05#8] := by decide +kernel

theorem witness_stores_compact : (on compact).dev.issues 0 { reads := 1 :: baseReads true 1#5 } = true
    ∧ (on compact).dev.issues 0 { reads := [2, 3] ++ baseReads true 1#5 } = true ∧ isPair 1#5 = true ∧ isDeck 0x01240041 = true
    ∧ ((core0 (.stw 0 1 0 0x105#15) (on compact)).stores.flatMap (·.parts)).map (·.lanes) = [2#4]
    ∧ ((core0 (.st16 0 1 0 0x105#15) (on compact)).stores.flatMap (·.parts)).map (·.word.pay) = [0x0001FA00#32] := by decide +kernel

theorem witness_windowChecks :
    let x := (on tagged).dev.bentFor 0
    tagged.psr.t = true ∧ (0x20#8 : Byte).extractLsb' 5 3 ≠ 3#3 ∧ (0x20#8 : Byte).extractLsb' 5 3 ≠ 7#3
    ∧ (0x61#8 : Byte).extractLsb' 5 3 = 3#3 ∧ (0x61#8 : Byte).getLsbD 4 = false ∧ tagged.winMask.getLsbD 0 = false ∧ tagged.winMask.getLsbD 1 = true
    ∧ Tab.find 0#32 x.winLim 1 = 0x017FFFFF#32 ∧ x.winPerm.getLsbD 2 = true ∧ x.winPerm.getLsbD 3 = true ∧ inCoreMap 0x01800000 = false
    ∧ isCode 0x02000000 = true ∧ isDeck 0x017FFFFF = true
    ∧ (tagged.addrFault x ⟨0#32, 0x60#8⟩ 0x100#32 false).map (·.detail) = some 1#4
    ∧ (tagged.addrFault x ⟨0#32, 0x61#8⟩ 0x01800000#32 false).map (·.detail) = some 0#4
    ∧ tagged.addrFault x ⟨0#32, 0x60#8⟩ 0x00010FFF#32 true = none := by decide +kernel

/-- A window that grants a read alone, and one that reaches past Deck SRAM into code store. -/
theorem witness_windowChecks_more :
    let x : Bent := { winLim := [(1, 0x02FFFFFF#32)], winPerm := 0x4#32 }
    let y : Bent := { winLim := [(1, 0x02FFFFFF#32)], winPerm := 0xC#32 }
    (tagged.addrFault x ⟨0#32, 0x61#8⟩ 0x100#32 true).map (·.detail) = some 2#4
    ∧ (tagged.addrFault y ⟨0#32, 0x61#8⟩ 0x01800000#32 false).map (·.detail) = some 4#4
    ∧ (tagged.addrFault y ⟨0#32, 0x61#8⟩ 0x02000000#32 true).map (·.detail) = some 5#4 := by decide +kernel

/-! ### System instructions -/

/-- A running core that serves source 96 of its bent, with and without a frame under it. -/
def serving : Core := { tagged with serving := some 96#8, psr := { curPri := 0x40#8, i := false } }
def nested : Core := { serving with frames := [{ pc := 0x02000100#32, psr := {}, g28 := ⟨1#32, 0x20#8⟩, g29 := ⟨2#32, 0x20#8⟩, g30 := ⟨3#32, 0x20#8⟩, g31 := ⟨4#32, 0x20#8⟩, wake := 7#32, cls := 2#2, serving := none }] }
def served (k : Core) : State :=
  withDev { cores := [(0, k)], bents := [(0, { biu := { src := [(96, { en := true, st := .claimed 0#4, pri := 0x40#8 })],
                                                        prioStacks := [(0, [{ src := 96#8, pri := 0x40#8, stamp := 0#64 }])] } })] }

theorem witness_returns : (served serving).dev.issues 0 {} = true ∧ serving.drained = true ∧ (served serving).dev.ks.jobs = []
    ∧ (served serving).dev.ks.loops = [] ∧ ((served serving).dev.bent 0).sw = []
    ∧ ((served serving).dev.bent 0).biu.stack 0 = [{ src := 96#8, pri := 0x40#8, stamp := 0#64 }] ∧ serving.serving = some 96#8 ∧ (96#8).toNat < 192
    ∧ serving.frames = [] ∧ nested.frames.length = 1
    ∧ (core0 (.wait 0) (served serving)).status = .waiting ∧ (core0 (.wait 0) (served serving)).pc = 0x02000001#32
    ∧ (core0 (.reti 0) (served nested)).pc = 0x02000100#32 ∧ (core0 (.reti 0) (served nested)).reg 31 = ⟨4#32, 0x20#8⟩
    ∧ (core0 (.reti 0) (served serving)).psr.curPri = 0xFF#8 := by decide +kernel

/-- Source 97 offered to core 0, which may take it while its PSR.I is 1. -/
def offeredTagged : State :=
  withDev { devOf tagged with bents := [(0, { biu := { src := [(97, { en := true, mask := 1#16, pri := 0x40#8, st := .offered 0#4 })] } })] }

theorem witness_system : (on tagged).dev.issues 0 {} = true ∧ tagged.loads.all (fun e => e.dead) = true ∧ tagged.stores = []
    ∧ (on tagged).dev.offerStands 0 false = true ∧ (on tagged).dev.issues 0 { writes := [9], rdFlags := true } = true
    ∧ (on tagged).dev.issues 0 { reads := [1], wrFlags := 15#4 } = true ∧ (on tagged).dev.offerStands 0 ((tagged.lone 1).pay.getLsbD 4) = true
    ∧ (core0 (.fence 0) (on tagged)).pc = 0x02000001#32
    ∧ (core0 (.mtpsr 0 1) (on tagged)).psr = { t := true, i := false, z := true, c := true } := by decide +kernel

theorem witness_fence_waits : let s := after (.stw 0 1 4 5#15) (on tagged)
    s.dev.issues 0 {} = true ∧ (s.dev.core 0).stores ≠ [] ∧ (core0 (.fence 0) s).pc = 0x02000001#32 := by decide +kernel

theorem witness_offerBack : offeredTagged.dev.issues 0 {} = true ∧ offeredTagged.dev.offerStands 0 false = false
    ∧ offeredTagged.dev.issues 0 { reads := [1], wrFlags := 15#4 } = true ∧ (tagged.lone 1).pay.getLsbD 4 = false
    ∧ offeredTagged.dev.offeredTo 0 0 = some 97 ∧ (offeredTagged.dev.bent 0).sw = []
    ∧ ((after (.di 0) offeredTagged).dev.source 0 97).st = .pending ∧ ((after (.mtpsr 0 1) offeredTagged).dev.source 0 97).st = .pending
    ∧ ((after (.ei 0) offeredTagged).dev.source 0 97).st = .offered 0#4 := by decide +kernel

theorem witness_signal : (on tagged).dev.freeWay ∧ (on compact).dev.freeWay ∧ (on tagged).dev.issues 0 { reads := [1] } = true ∧ tagged.stores = []
    ∧ (tagged.lone 1).tag = 0x20#8 ∧ (tagged.lone 1).pay.getLsbD 12 = false ∧ compact.psr.compact = true ∧ (on compact).dev.issues 0 { reads := [1] } = true
    ∧ (after (.signal 0 1 9#4) (on tagged)).dev.txns.map (fun t => (t.ev, t.st)) = [(some (5#7, 105#8), .sent)] :=
  ⟨way _ (by decide +kernel), way _ (by decide +kernel), by decide +kernel⟩

theorem witness_signal_waits : let s := after (.stw 0 1 4 5#15) (on tagged)
    s.dev.issues 0 { reads := [1] } = true ∧ (s.dev.core 0).stores ≠ [] ∧ (after (.signal 0 1 9#4) s).dev.txns = [] := by decide +kernel

theorem witness_signal_refused : (on tagged).dev.issues 0 { reads := [6] } = true ∧ tagged.psr.compact = false ∧ tagged.drained = true
    ∧ (match tagged.checked (checkOne (fun n => n == 0 || n == 1) 0#4 true (tagged.lone 6).tag) with | .error _ => true | .ok _ => false) = true
    ∧ (core0 (.signal 0 6 9#4) (on tagged)).status = .stopped := by decide +kernel

/-- SIGNALs that name the own unit of the chain, another that is not reached, and one that is reached below. -/
theorem witness_signal_units :
    let k : Core := { tagged with regs := [(1, ⟨0x1005#32, 0x20#8⟩), (2, ⟨0x1305#32, 0x20#8⟩)] }
    let s := on k
    let u := withDev { devOf k with chain := { s.dev.chain with dn := { s.dev.chain.dn with st := .up, reach := 8#16 } } }
    s.dev.freeWay ∧ u.dev.freeWay ∧ s.dev.issues 0 { reads := [1] } = true ∧ s.dev.issues 0 { reads := [2] } = true ∧ u.dev.issues 0 { reads := [2] } = true
    ∧ s.dev.chain.uvalid = true ∧ s.dev.chain.unit = 0#4 ∧ (k.lone 2).pay.getLsbD 12 = true ∧ s.dev.reaches 3#4 = false ∧ u.dev.reaches 3#4 = true
    ∧ (after (.signal 0 1 9#4) s).dev.txns.map (fun t => (t.ev, t.st)) = [(some (5#7, 137#8), .sent)]
    ∧ (after (.signal 0 2 9#4) s).dev.txns.map (·.st) = [.answered .notPresent] ∧ (after (.signal 0 2 9#4) u).dev.txns.map (·.st) = [.remote] :=
  ⟨way _ (by decide +kernel), way _ (by decide +kernel), by decide +kernel⟩

/-! ### Fetch and pace -/

/-- The FILL of a line for bent 0, as its agent has sent it. -/
def aFill : Txn := { newTxn 7 0x810#12 2#2 .fill 0x02040030#32 (.fill 0#7 0x204003) with count := 16 }

theorem witness_lines :
    let s := withDev { txns := [aFill], bents := [(0, {})] }
    s.dev.freeWay ∧ (s.dev.bent 0).fills = [] ∧ s.dev.fillOf 0 0x204003 = some aFill ∧ aFill.waits = true ∧ (aFill.overfull && aFill.cls == 2#2) = false
    ∧ s.dev.mayGrant aFill = true ∧ s.dev.lineHeld 0x204003 = false ∧ isReserved (16 * 0x204003) = false ∧ isCode (16 * 0x204003) = true
    ∧ lineIn ((after (.lineFill 0#7 0x204003 [.good, .uncorrectable]) s).dev.bent 0).lineCache 0x204003 = some 2#16
    ∧ (after (.lineFill 0#7 0x204003 []) s).dev.txns = [] := ⟨way _ (by decide +kernel), by decide +kernel⟩

theorem witness_paced :
    let k : Core := { tagged with psr := { paced := true }, reqLine := some (0x204003, 0) }
    let s := withDev { devOf k with clk := 77 }
    k.reqLine = some (0x204003, 0) ∧ k.psr.paced = true ∧ k.status = .running ∧ 0 + 77 ≤ s.dev.clk ∧ isCode (16 * 0x204003) = true
      ∧ isReserved (16 * 0x204003) = false
    ∧ (core0 (.pacedFetchDelivery 0 []) s).nextLine = some (0x204003, 0#16)
    ∧ Tab.find 0#16 ((after (.paceUnderrun 0) s).dev.bent 0).scr.underrun 0 = 1#16 := by decide +kernel

/-! ### The Deck -/

/-- A machine with one transaction at its target. -/
def inDeck (t : Txn) : State := withDev { txns := [t] }
def aRead : Txn := newTxn 7 0x000#12 2#2 .rd 0x01000010#32 (.load 0)
def aPart : WordPart := { addr := 0x01000010#32, lanes := 5#4, tagWr := true, word := ⟨0x44332211#32, 0x20#8⟩ }
def aWrite (ty : TxnType) : Txn := { newTxn 7 0x000#12 2#2 ty 0x01000010#32 (.store 0) with parts := [aPart] }
def anEvent : Txn := { newTxn 7 0x000#12 2#2 .evt 0#32 (.signal 0) with ev := some (5#7, 105#8) }

theorem witness_targets_read : (inDeck aRead).dev.freeWay ∧ (inDeck aRead).dev.ks.jobs = [] ∧ (inDeck aRead).dev.grants 7 aRead = true ∧ aRead.ddr = none
    ∧ aRead.count = 1 ∧ aRead.parts = [] ∧ isDeck aRead.addr.toNat = true ∧ (inDeck aRead).dev.wordAsleep aRead.addr.toNat = false
    ∧ aRead.addr.toNat ∉ (inDeck aRead).dev.poison ∧ foundIn [] 0 = .good
    ∧ ((after (.deckRd 7 []) (inDeck aRead)).dev.txn 7).map (·.st) = some (.answered (.data false [⟨0#32, 0xE0#8⟩])) :=
  ⟨way _ (by decide +kernel), by decide +kernel⟩

theorem witness_targets_write : ∀ ty ∈ [TxnType.wr, .tw], (inDeck (aWrite ty)).dev.freeWay ∧ (inDeck (aWrite ty)).dev.grants 7 (aWrite ty) = true
    ∧ (aWrite ty).ddr = none ∧ (aWrite ty).count = 1
    ∧ (aWrite ty).parts = [aPart] ∧ isDeck aPart.addr.toNat = true ∧ (inDeck (aWrite ty)).dev.wordAsleep aPart.addr.toNat = false
    ∧ aPart.addr.toNat ∉ (inDeck (aWrite ty)).dev.poison
    ∧ ((after (if ty == .wr then .deckWr 7 [] else .deckTw 7 []) (inDeck (aWrite ty))).dev.txn 7).map (·.st) = some (.answered (.ack false)) := by
  intro ty h
  simp only [List.mem_cons, List.not_mem_nil, or_false] at h
  rcases h with rfl | rfl <;> exact ⟨way _ (by decide +kernel), by decide +kernel⟩

theorem witness_targets_event : (inDeck anEvent).dev.freeWay ∧ (inDeck anEvent).dev.grants 7 anEvent = true ∧ anEvent.ddr = none ∧ anEvent.count = 1
    ∧ anEvent.ev = some (5#7, 105#8) ∧ anEvent.evKind = .event ∧ isLatchedSrc 105 = true ∧ (inDeck anEvent).dev.wordAsleep (0x08200000 + 0x1000 * 5) = false
    ∧ ((inDeck anEvent).dev.xing 5).hold = false ∧ Tab.find 0 ((inDeck anEvent).dev.xing 5).lines 105 = 0
    ∧ ((after (.deckEvt 7) (inDeck anEvent)).dev.source 5 105).level = true := ⟨way _ (by decide +kernel), by decide +kernel⟩

theorem witness_targets_full : let t := { aRead with overfull := true }
    (inDeck t).dev.freeWay ∧ (inDeck t).dev.txn 7 = some t ∧ t.byKeystone = false ∧ t.ty = .rd ∧ t.waits = true ∧ t.overfull = true ∧ t.cls = 2#2
    ∧ t.target = some (0, 0) ∧ ((after (.deckRd 7 []) (inDeck t)).dev.txn 7).map (·.st) = some (.answered .retry) :=
  ⟨way _ (by decide +kernel), by decide +kernel⟩

/-- Core 0 with a load and a store on their way, and a transaction of one of them with its response. -/
def waitingCore : Core :=
  { tagged with loads := [{ seq := 0, txn := 7, dest := .word 9, pc := 0x02000000#32, addr := 0x01000010#32, dead := false }],
                stores := [{ seq := 1, parts := [aPart], tagOnly := false, cls := 2#2, txn := some 8, pc := 0x02000001#32, addr := 0x01000010#32 }] }
def answeredBy (t : Txn) (r : Resp) : State := withDev { devOf waitingCore with txns := [{ t with st := .answered r }] }

theorem witness_responses : (answeredBy aRead (.data false [⟨3#32, 0x20#8⟩])).dev.freeWay ∧ (answeredBy aRead .notPresent).dev.freeWay
    ∧ (answeredBy aRead (.error 0#4 0x01000010#32)).dev.freeWay ∧ (answeredBy (aWrite .wr) (.ack false)).dev.freeWay
    ∧ (answeredBy aRead (.data false [⟨3#32, 0x20#8⟩])).dev.ks.jobs = []
    ∧ ((answeredBy aRead (.data false [⟨3#32, 0x20#8⟩])).dev.txn 7).map (·.origin) = some (.load 0) ∧ aRead.req = (0 : CoreId).setWidth 12
    ∧ waitingCore.loads.map (fun e => (e.txn, e.dead, e.dest)) = [(7, false, .word 9)] ∧ waitingCore.status = .running ∧ waitingCore.entry = none
    ∧ (core0 (.deckDataReturn 7) (answeredBy aRead (.data false [⟨3#32, 0x20#8⟩]))).reg 9 = ⟨3#32, 0x20#8⟩
    ∧ (core0 (.deckAckReturn 7) (answeredBy (aWrite .wr) (.ack false))).regs = waitingCore.regs
    ∧ (core0 (.deckNotPresentReturn 7) (answeredBy aRead .notPresent)).reg 9 = ⟨0#32, 0xE0#8⟩
    ∧ (core0 (.deckErrorReturn 7) (answeredBy aRead (.error 0#4 0x01000010#32))).trap.cause = 6#4 :=
  ⟨way _ (by decide +kernel), way _ (by decide +kernel), way _ (by decide +kernel), way _ (by decide +kernel), by decide +kernel⟩

theorem witness_retries :
    let t := { aRead with st := .backoff 128, refusals := 1 }
    let c := withDev { txns := [t], clk := 128 }
    c.dev.freeWay ∧ (answeredBy aRead .retry).dev.freeWay ∧ (answeredBy { aRead with cls := 1#2 } .retry).dev.freeWay
    ∧ c.dev.txn 7 = some t ∧ 128 ≤ c.dev.clk ∧ t.target = some (0, 0) ∧ t.id = 7
    ∧ (answeredBy aRead .retry).dev.deadTxn { aRead with st := .answered .retry } = false
    ∧ ((after (.deckRetryReturn 7) (answeredBy { aRead with refusals := 5 } .retry)).dev.txn 7).map (·.st) = some (.backoff 4096)
    ∧ ((after (.deckRetryReturn 7) (answeredBy { aRead with cls := 1#2 } .retry)).dev.txn 7).map (fun x => (x.st, x.refusals)) = some (.sent, 1)
    ∧ ((after (.retryResend 7) c).dev.txn 7).map (·.st) = some .sent :=
  ⟨way _ (by decide +kernel), way _ (by decide +kernel), way _ (by decide +kernel), by decide +kernel⟩

/-- A store of one part in a core's buffer. -/
def aStore (p : WordPart) : StoreEntry := { seq := 1, parts := [p], tagOnly := false, cls := 2#2, txn := none, pc := 0#32, addr := 0x01000010#32 }
def storing (p : WordPart) : State := on { tagged with stores := [aStore p] }

/-- The own bent's SRAM by either of its addresses (R33), and Deck SRAM. -/
theorem witness_storesSent :
    let s := storing aPart
    let u := storing { aPart with addr := 0x105#32 }
    let g := storing { aPart with addr := 0x04000105#32 }
    s.dev.freeWay ∧ s.dev.ks.jobs = [] ∧ (s.dev.core 0).stores = [aStore aPart] ∧ isDeck aPart.addr.toNat = true
    ∧ u.dev.placeOf 0 0x105 = .own 0x04000105 ∧ g.dev.placeOf 0 0x04000105 = .own 0x04000105 ∧ isBentSram 0x04000105 = true
    ∧ 0x04000105 ∉ u.dev.poison ∧ wholePart aPart = false
    ∧ (after (.storeBufferSend 0 []) s).dev.txns.map (·.st) = [.sent]
    ∧ (after (.storeBufferSend 0 []) u).mem.map (·.1) = [0x20000828, 0x2000082A, 0x2000082C]
    ∧ (after (.storeBufferSend 0 []) g).mem.map (·.1) = [0x20000828, 0x2000082A, 0x2000082C]
    ∧ (core0 (.storeBufferSend 0 [.uncorrectable]) u).trap.detail = 1#4 :=
  ⟨way _ (by decide +kernel), rfl, rfl, rfl, rfl, rfl, by decide +kernel⟩

theorem witness_starve :
    let s := withDev { txns := [aRead], clk := 16001 }
    let v := { aRead with starved := true }
    s.dev.txn 7 = some aRead ∧ aRead.target = some (0, 0) ∧ aRead.waits = true ∧ aRead.cls ≠ 0#2 ∧ aRead.starved = false
    ∧ aRead.since + 800 * (s.dev.span 0).starve.toNat < s.dev.clk ∧ ((after (.deckStarve 7) s).dev.span 0).starveCnt = 1#16
    ∧ (inDeck v).dev.txn 7 = some v ∧ v.starved = true := by decide +kernel

/-! ### Queues -/

/-- Queue 3, of 256 words at offset 1000h of slice 0, with an item of requester 000h open; and a transaction at one of its port words. -/
def aQueue : Queue := { en := true, offset := 0x1000#20, opened := true, owner := 0x000#12 }
def atQueue (k : Nat) (parts : List WordPart) : Txn := { newTxn 7 0x000#12 2#2 .qop (BitVec.ofNat 32 (quePortAddr 3 k)) (.load 0) with parts := parts }
def withQueue (q : Queue) (k : Nat) (parts : List WordPart) : State := withDev { txns := [atQueue k parts], queues := [(3, q)] }

theorem way_queue (q : Queue) (k : Nat) (parts : List WordPart) : (withQueue q k parts).dev.freeWay := way _ ⟨Nat.le_of_ble_eq_true rfl, rfl, rfl⟩

theorem witness_pushes : ∀ e ∈ [(0, aQueue), (1, { aQueue with opened := false }), (1, aQueue), (2, aQueue), (3, { aQueue with opened := false })],
    (withQueue e.2 e.1 [aPart]).dev.freeWay ∧ (withQueue e.2 e.1 [aPart]).dev.grants 7 (atQueue e.1 [aPart]) = true
    ∧ (withQueue e.2 e.1 [aPart]).dev.atPort (atQueue e.1 [aPart]) 3 e.1 = true
    ∧ (withQueue e.2 e.1 [aPart]).dev.safeBlocks 3 0x000#12 = false ∧ e.2.free ≠ 0 ∧ e.2.silent
    ∧ e.2.owner = 0x000#12 ∧ e.2.droppers.contains 0x000#12 = false := by
  intro e h
  simp only [List.mem_cons, List.not_mem_nil, or_false] at h
  rcases h with rfl | rfl | rfl | rfl | rfl <;>
    exact ⟨way_queue _ _ _, by decide +kernel, by decide +kernel, by decide +kernel, by decide +kernel, ⟨rfl, rfl⟩, rfl, rfl⟩

theorem test_push : ((after (.pushe 7) (withQueue aQueue 2 [aPart])).dev.queue 3).ends = [1] ∧ (after (.pushe 7) (withQueue aQueue 2 [aPart])).mem.map (·.1)
    = [0x08008000, 0x08008001, 0x08008002, 0x08008003, 0x08008004] := by decide +kernel

theorem witness_pops :
    let q := { aQueue with opened := false, wr := 2, ends := [2] }
    let s := withQueue q 4 []
    s.dev.freeWay ∧ q.silent
    ∧ (∀ k ∈ [4, 5, 6, 7], (withQueue q k []).dev.grants 7 (atQueue k []) = true ∧ (withQueue q k []).dev.atPort (atQueue k []) 3 k = true)
    ∧ aQueue.closedEnd ≤ aQueue.rd ∧ q.rd < q.closedEnd ∧ q.addr 3 q.rd ∉ s.dev.poison ∧ sideId (q.addr 3 q.rd) ∉ s.dev.poison ∧ (atQueue 4 []).count = 1
    ∧ foundIn [] 0 = .good ∧ foundIn [] 1 = .good ∧ q.addr 3 q.rd ∈ (withDev { s.dev with poison := [q.addr 3 q.rd] }).dev.poison
    ∧ ((after (.pop 7 []) s).dev.queue 3).rd = 1 ∧ ((after (.pop 7 []) s).dev.queue 3).rl = 1
    ∧ ((after (.pop 7 []) (withDev { s.dev with poison := [q.addr 3 q.rd] })).dev.txn 7).map (·.st) = some (.answered (.error 0#4 (atQueue 4 []).addr)) :=
  ⟨way_queue _ _ _, ⟨rfl, rfl⟩, by decide +kernel⟩

theorem witness_ledgers :
    let q := { aQueue with ledger := true, wr := 4, rd := 3, mkOff := 1, ends := [2, 4], opened := false }
    let zero := { aPart with word := ⟨0#32, 0x20#8⟩ }
    q.silent ∧ (∀ k ∈ [8, 9, 10], (withQueue q k [zero]).dev.grants 7 (atQueue k [zero]) = true
      ∧ (withQueue q k [zero]).dev.atPort (atQueue k [zero]) 3 k = true)
    ∧ q.ledger = true ∧ zero.word.pay = 0#32
    ∧ ((after (.mark 7) (withQueue q 8 [zero])).dev.queue 3).mkOff = 3 ∧ ((after (.rewind 7) (withQueue q 9 [zero])).dev.queue 3).rd = 1
    ∧ ((after (.release 7) (withQueue q 10 [zero])).dev.queue 3).rl = 1
    ∧ ((withQueue { q with flushing := true } 8 []).dev.queue (3#10).toNat).flushing = true ∧ (1#32).getLsbD 0 = true
    ∧ ((after (.queCtlFlush ksReq 3#10 1#32) (withQueue q 8 [])).dev.queue 3).flushing = true := ⟨⟨rfl, rfl⟩, by decide +kernel⟩

/-- Bent 0 with source 96 pending, and one with it offered to slot 0. -/
def pendingBent : Bent := { biu := { src := [(96, { en := true, mask := 1#16, pri := 0x40#8, vec := 0x02000200#32, st := .pending })] } }
def offeredBent : Bent := { biu := { src := [(96, { en := true, mask := 1#16, pri := 0x40#8, vec := 0x02000200#32, st := .offered 0#4 })] } }
def idleCore : Core := { tagged with status := .waiting }

theorem witness_offer :
    let s := withDev { cores := [(0, idleCore)], bents := [(0, pendingBent)] }
    s.dev.ks.jobs = [] ∧ (s.dev.bent 0).asleep = false ∧ (s.dev.bent 0).sw = [] ∧ 96 ∈ (s.dev.bent 0).biu.src.map (·.1) ∧ (s.dev.source 0 96).st = .pending
    ∧ (s.dev.source 0 96).en = true ∧ (s.dev.bent 0).biu.src.length = 1 ∧ s.dev.chooseSlot 0 96 = some 0 ∧ s.dev.offeredTo 0 0 = none
    ∧ ((after (.biuOffer 0#7) s).dev.source 0 96).st = .offered 0#4 := by decide +kernel

/-- A core with a load to g28 outstanding: its frame waits. -/
def frameWaiting : Core := { tagged with loads := [{ seq := 0, txn := 9, dest := .word 28, pc := 0x02000000#32, addr := 0x01000010#32, dead := false }] }

theorem witness_entry : ∀ k ∈ [idleCore, { tagged with lineBuf := [] }, frameWaiting],
    let s := withDev { cores := [(0, k)], bents := [(0, offeredBent)] }
    s.dev.offeredTo 0 (slotOf 0) = some 96 ∧ s.dev.mayAccept 0 = true ∧ (core0 (.interruptEntry 0 .whole) s).pc = 0x02000200#32
    ∧ (core0 (.interruptEntry 0 .whole) s).psr.curPri = 0x40#8
    ∧ ((after (.interruptEntry 0 .whole) s).dev.source 0 96).st = (if k.killDiv.loadPending 28 then .entering 0#4 else .claimed 0#4) := by decide +kernel

theorem witness_takeover :
    let k := { tagged with entry := some { src := 97#8, pushed := false, accept := 0#32 }, psr := { i := true } }
    let b : Bent := { biu := { src := [(96, { en := true, mask := 1#16, pri := 0x40#8, vec := 0x02000200#32, st := .offered 0#4 }),
                                       (97, { en := true, mask := 1#16, pri := 0x41#8, vec := 0x02000300#32, st := .entering 0#4 })] } }
    let s := withDev { cores := [(0, k)], bents := [(0, b)] }
    s.dev.ks.jobs = [] ∧ (s.dev.bent 0).sw = [] ∧ s.dev.offeredTo 0 (slotOf 0) = some 96 ∧ k.psr.i = true
    ∧ (s.dev.source 0 96).pri.toNat + (s.dev.bent 0).biu.preMargin.toNat < (s.dev.source 0 97).pri.toNat
    ∧ (core0 (.takeover 0) s).pc = 0x02000200#32 ∧ ((after (.takeover 0) s).dev.source 0 97).st = .pending := by decide +kernel

theorem witness_alarm :
    let s := withDev { bents := [(0, { biu := { alarms := [(3, { mode := 1#2, armed := true, cmp := 0#32 })] } })] }
    (3#5).toNat < 24 ∧ ((s.dev.bent 0).biu.alarm 3).mode = 1#2 ∧ ((s.dev.bent 0).biu.alarm 3).armed = true
        ∧ before s.dev.time ((s.dev.bent 0).biu.alarm 3).cmp = false
    ∧ ((after (.alarmMatch 0#7 3#5) s).dev.source 0 67).level = true := by decide +kernel

theorem witness_latches : State.reset.dev.tb.toNat % pulseTicks 0#2 = 0 ∧ Tab.find 0 (State.reset.dev.xing 127).lines 176 = 0
    ∧ (State.reset.dev.xing 127).hold = false ∧ (1#32).getLsbD 0 = true
    ∧ ((after (.timebasePulse 3#2) State.reset).dev.source 127 179).level = true
    ∧ ((after (.biuSwset 0#12 5#7 0x80#32) State.reset).dev.source 5 191).level = true
    ∧ ((after (.biuAlmcmpWrite 0#12 5#7 23#5 7#32) (withDev { bents := [(5, { biu := { alarms := [(23, { mode := 2#2 })] } })] })).dev.bent 5).biu.alarm 23
      = { mode := 2#2, cmp := 7#32, armed := true } := by
  decide +kernel

theorem witness_ungate :
    let s := withDev { bents := [(0, { biu := { src := [(96, { en := true, wake := true, mask := 1#16, pri := 0x40#8, st := .pending })] } })] }
    96 ∈ (s.dev.bent 0).biu.src.map (·.1) ∧ s.dev.wantsSlot 0 0 96 = true ∧ (core0 (.coreUngateDone 0#7 0#4) s).status = .waiting := by decide +kernel

/-! ### Scribe -/

/-- Bent 0 with a safety loop's iteration past its deadline. -/
def lateBent : Bent :=
  { scr := { slack := [(0, { valid := true, source := 96#8, deadline := 1#32, safety := true })] },
    biu := { src := [(96, { en := true, st := .claimed 0#4, stamp := 0#64 })], prioStacks := [(0, [{ src := 96#8, pri := 0#8, stamp := 0#64 }])] } }

theorem witness_miss :
    let s := withDev { tb := 1000#64, bents := [(0, lateBent)], mode := { mode := mRun, calibrated := true } }
    let u := after (.deadlineMiss 0#7 0#4 0#2) s
    (s.dev.bent 0).asleep = false ∧ s.dev.isMiss 0 ((s.dev.bent 0).scr.entry 0 0) = true ∧ s.dev.scrLive 0 = true ∧ State.reset.dev.scrLive 0 = false
    ∧ (u.dev.bent 0).scr.late = 0#16 ∧ ((u.dev.bent 0).scr.entry 0 0).miss = 1#16 ∧ (u.dev.bent 0).scr.request = 60#7
    ∧ u.dev.flt.raises.map (·.src) = [128, 752] := by decide +kernel

theorem witness_timing :
    let live := fun (a : Scribe) => withDev { bents := [(5, { scr := a })], mode := { mode := mRun, calibrated := true } }
    (16#5).toNat < 17 ∧ ((after (.timingLate 5#7 16#5 .ex) State.reset).dev.bent 5).scr.exDly = 10#4
    ∧ ((after (.timingLate 5#7 16#5 .ex) (live { exDly := 15#4 })).dev.bent 5).scr.exDly = 15#4
    ∧ (live {}).dev.scrLive 5 = true ∧ ((live {}).dev.bent 5).scr.presentCode = 50
    ∧ ((after (.nearMiss 5#7 16#5 .me) (live {})).dev.bent 5).scr.request = 51#7
    ∧ ((after (.nearMiss 5#7 16#5 .me) (live { request := 60#7 })).dev.bent 5).scr.meDly = 9#4
    ∧ ((after (.nearMiss 5#7 16#5 .me) (live { request := 100#7, grant := 100#7, actual := 100#7, meDly := 15#4 })).dev.bent 5).scr.unable = true := by
  decide +kernel

theorem witness_scribe :
    let graded : Scribe := { curve := [(5, (400#16, 400#16)), (6, (500#16, 500#16))] }
    let slewing := withDev { bents := [(5, { scr := { slew := true, grant := 60#7, k := 7#16 } })] }
    (100#7).toNat ≤ 100 ∧ (State.reset.dev.bent 5).asleep = false ∧ State.reset.dev.mode.bentOut.getLsbD 5 = false
    ∧ State.reset.dev.pwr.pstate.toNat < 2 ∧ (State.reset.dev.bent 5).scr.slew = false ∧ (State.reset.dev.bent 5).scr.grant.toNat + 3 < (0x36#7).toNat
    ∧ (0x2E#7).toNat + 3 < (State.reset.dev.bent 5).scr.grant.toNat
    ∧ (List.replicate 32 (true, 300#16)).length = 32 ∧ State.reset.dev.pwr.pstate = 0#3 ∧ State.reset.dev.pwr.nego = none
    ∧ (slewing.dev.bent 5).scr.slew = true ∧ 0 < graded.oscAt 50
    ∧ ((after (.regFault 5#7 0x36#7) State.reset).dev.bent 5).scr.unable = true
    ∧ ((after (.scribeControlPeriod 5#7 100#7 9#16) slewing).dev.bent 5).scr.k = 7#16
    ∧ ((after (.regulatorSlewDone 5#7) slewing).dev.bent 5).scr.actual = 60#7
    ∧ ((after (.scribeControlPeriod 5#7 50#7 200#16) (withDev { bents := [(5, { scr := graded })] })).dev.bent 5).scr.k = 0x4000#16 := by decide +kernel

/-! ### SRAM, code store, DDR5 -/

theorem witness_scrub :
    let s := State.reset
    (s.dev.bent 5).sram.scren = true ∧ s.dev.wordAsleep (0x04000000 + 5 * 0x10000 + 0xFFFF) = false ∧ 0x0405FFFF ∉ s.dev.poison
    ∧ s.dev.bankWanted (.bent 5#7) 7 = false ∧ s.dev.scrubbedIn (.bent 5#7) 7 = []
    ∧ (after (.scrubRead (.bent 5#7) 0xFFFF#20 .uncorrectable) s).dev.poison = [0x0405FFFF]
    ∧ (((after (.scrubRead (.bent 5#7) 0xFFFF#20 (.single 3#6)) s).dev.bent 5).sram.bank 7).ce = 1#16 := by decide +kernel

theorem witness_repairs :
    let s := withDev { bents := [(5, { sram := { banks := [(7, { repairing := [12] })] } })], ks := { firmware := true } }
    ((s.dev.bent 5).sram.bank 7).repairing = [12] ∧ s.dev.ks.firmware = true ∧ s.dev.ks.kbusy = false
    ∧ (((after (.rowRepairSwitch (.bent 5#7) 7#3) s).dev.bent 5).sram.bank 7).repaired = [12]
    ∧ (after .spareRecordWrite s).dev.spareRec.seq = 1 := by decide +kernel

theorem witness_codeStore :
    let s := withDev { ws := { addr := 0x02040010#32, buf := [(0, 0x11223344#32)] } }
    let u := withDev { ws := { phase := .writing, line := 0x204001, words := List.replicate 16 0x11223344#32 } }
    let v := withDev { ws := { phase := .invalidating, line := 0x204001 }, bents := [(3, { lineCache := [(0x204001, 0#16)] })] }
    s.dev.ws.phase = .idle ∧ isCode s.dev.ws.addr.toNat = true ∧ s.dev.ws.addr.toNat % 16 = 0
    ∧ (s.dev.span (codeSlice s.dev.ws.addr.toNat)).pacedBank.getLsbD (codeBank s.dev.ws.addr.toNat) = false
    ∧ u.dev.ws.phase = .writing ∧ u.dev.ws.words.length = 16 ∧ isCode (16 * u.dev.ws.line) = true ∧ Memory.wf u.mem = true
    ∧ v.dev.ws.phase = .invalidating ∧ v.dev.ks.copies = [] ∧ v.dev.ws.remap = false
    ∧ (after (.cstWrite ksReq) s).dev.ws.line = 0x204001 ∧ (after (.cstErase ksReq) s).dev.ws.words.length = 16
    ∧ (Memory.code (after (.cstBankWriteDone true) u).mem 0x0204001F).pay = 0x11223344#32
    ∧ ((after .cstInvalidateDone v).dev.bent 3).lineCache = [] := by decide +kernel

/-- Channel 0 ready with 8 regions. -/
def goodChannel : Ddr := { ready := true, cfg := 8#32, tagInit := [2], due := [9] }

theorem witness_ddr :
    let s := withDev { ddrs := [(0, goodChannel)], mode := { mode := mRun } }
    let full := withDev { ddrs := [(0, { goodChannel with rows := [1] })], mode := { mode := mRun } }
    (s.dev.ddr 0).tagInit = [2] ∧ (s.dev.ddr 0).live = true ∧ (s.dev.ddr 0).scrubEn = true ∧ 0x3FFFFFF / 0x800000 < fieldOf (s.dev.ddr 0).cfg 8 0
    ∧ (s.dev.lineMarks 7 (0x7FFFFF * 16)).any s.dev.poisoned = false ∧ s.dev.mode.mode = mRun ∧ (s.dev.ddr 0).ready = true ∧ 9 ∈ (s.dev.ddr 0).due
    ∧ ((after (.ddrTaginitDone 0#2) s).dev.ddr 0).tagInit = [] ∧ ((after (.ddrPatrolScrub 0#2 0x3FFFFFF#31 0#7 (.single 0#6)) s).dev.ddr 0).ce = 1#32
    ∧ ((after (.ddrPatrolScrub 0#2 0x3FFFFFF#31 0#7 .uncorrectable) s).dev.ddr 0).errAddr = 0xFFFFFFC0#37
    ∧ ((after (.ddrSoftPpr 0#2 9 false true) s).dev.ddr 0).rows = [9] ∧ ((after (.ddrSoftPpr 0#2 9 false false) full).dev.ddr 0).rows = [1]
    ∧ ((after (.ddrFail 0#2) s).dev.ddr 0).failed = true := by decide +kernel

/-! ### Command packets -/

/-- The words of a request: OPCODE with UNIT FFh, SEQ 9, LENGTH in bytes, the payload. -/
def packet (op : Nat) (payload : List W32) : Tab W32 :=
  let ws := [BitVec.ofNat 32 (0x00FF0000 + op), 9#32, BitVec.ofNat 32 (4 * payload.length), 0#32] ++ payload
  (List.range ws.length).zip ws

/-- A device whose Keystone runs in a mode, with a request waiting at port A, which holds the semaphore. -/
def asked (d : Dev) (m : BitVec 3) (op : Nat) (payload : List W32) : Dev :=
  { d with mode := { d.mode with mode := m }, ks := { d.ks with firmware := true }, sem := { d.sem with holder := some .a },
           portA := { d.portA with linkUp := true, busy := true, reqBuf := packet op payload } }

/-- The checks of R343 on port A's request as one decidable conjunction, for a port that holds the semaphore. -/
theorem admits_of (d : Dev) (c : CmdSpec) (h : (d.ks.jobs = [] ∧ d.pwr.nego = none ∧ d.keystoneUp = true ∧ d.pwr.pstate.toNat < 2 ∧ d.waiting (.port .a) = true
    ∧ d.itsTurn (.port .a) = true ∧ (∀ t ∈ d.txns, t.byKeystone = false) ∧ d.ks.halted = false ∧ d.ks.prog = none)
    ∧ d.reqWord (.port .a) 3 = 0#32 ∧ d.lenWord (.port .a) % 4 = 0 ∧ d.lenWord (.port .a) ≤ 4080 ∧ d.isOwn (.port .a) = true ∧ d.opcode (.port .a) = c.op
    ∧ c.len (d.lenWord (.port .a)) (fun i => (d.pay8 (.port .a) i).toNat) = true ∧ d.flagsByte (.port .a) < 4
    ∧ (d.flagsByte (.port .a) % 2 = 1 → c.bulk = true) ∧ d.mode.mode ∈ c.modes ∧ (c.changes = true → d.sem.holder = some .a)
    ∧ (c.changes = true → c.excepted = false → d.flt.atLeast 4 = false)) : d.admits (.port .a) c := h

/-- Of a device that has never used its Deck, the Deck idles. -/
theorem idle (d : Dev) (h : d.txns = [] ∧ d.near = [] ∧ d.abutmentDown = false ∧ d.spans = [] ∧ d.abtHigh ≠ 0#6) : d.deckIdle :=
  deckIdle_of_none d h.1 h.2.1 h.2.2.1 h.2.2.2.1 h.2.2.2.2

/-- The status and detail of the reply at port A. -/
def replied (s : State) : W32 := Tab.find 0#32 s.dev.portA.repBuf 0

theorem witness_checks :
    let d := asked {} mRun 0x0501 [0x0000FFFF#32, 0#32]
    let src : CmdSrc := .port .a
    d.ks.jobs = [] ∧ d.pwr.nego = none ∧ d.keystoneUp = true ∧ d.pwr.pstate.toNat < 2 ∧ d.waiting src = true ∧ d.itsTurn src = true ∧ d.txns = []
    ∧ d.opcode src = 0x0501 ∧ d.reqWord src 3 = 0#32
    ∧ d.lenWord src = 8 ∧ d.unitByte src = 0xFF ∧ d.flagsByte src = 0 ∧ d.mode.mode ∈ [mCommission, mStandby, mRun, mDegraded] ∧ d.sem.holder = some .a
    ∧ replied (after (.queCreate src) (withDev d)) = 0#32
    ∧ replied (after (.queCreate src) (withDev (asked {} mRun 0x0501 [0x0000FFFF#32]))) = 0x00020201#32
    ∧ replied (after (.queCreate src) (withDev (asked {} mSafeHold 0x0501 [0x0000FFFF#32, 0#32]))) = 0x00060203#32
    ∧ replied (after (.queCreate src) (withDev { d with sem := {} })) = 0x00FF0103#32
    ∧ replied (after (.queCreate src) (withDev { d with sem := { holder := some .b } })) = 0x00010103#32
    ∧ replied (after (.queCreate src) (withDev (asked {} mRun 0x0508 [0#32, 0#32]))) = 0x00000200#32 := by decide +kernel

/-- Requests that an earlier check stops: a reserved header word, UNIT 20h, a reserved flag, an uncleared STOP latch. -/
theorem witness_checks_more :
    let d := asked {} mRun 0x0501 [0x0000FFFF#32, 0#32]
    let src : CmdSrc := .port .a
    let e := fun (i : Nat) (w : W32) => { d with portA := { d.portA with reqBuf := Tab.put d.portA.reqBuf i w } }
    (e 3 1#32).reqWord src 3 ≠ 0#32 ∧ 16 ≤ (e 0 0x00200501#32).unitByte src ∧ 4 ≤ (e 0 0x04FF0501#32).flagsByte src
    ∧ ({ d with flt := { srcs := [(640, { latched := true, lsev := 4#3 })], valid := true, sev := 4#3, source := 640 } } : Dev).flt.atLeast 4 = true
    ∧ replied (after (.queCreate src) (withDev (e 3 1#32))) = 0x00010201#32
    ∧ replied (after (.queCreate src) (withDev (e 0 0x00200501#32))) = 0xFFFF0202#32
    ∧ replied (after (.queCreate src) (withDev (e 0 0x04FF0501#32))) = 0xFFFD0202#32
    ∧ replied (after (.queCreate src) (withDev { d with flt := { srcs := [(640, { latched := true, lsev := 4#3 })], valid := true, sev := 4#3, source := 640 } }))
      = 0x02800400#32 := by decide +kernel

theorem witness_reply : ({} : Dev).noVec (.port .a) = false ∧ ({ portA := { reqBuf := [(0, 0x02FF0101#32)] } } : Dev).noVec (.port .a) = true
    ∧ ({} : Dev).isPcie .a = true ∧ ({ linkUp := true, cfg := [(1, 4#32)], msixTab := [(3, 0#32)] } : PortSt).canSend 0 = true := by decide +kernel

theorem witness_reports :
    (∀ x ∈ [(0x0101, exact 0), (0x0102, exact 0), (0x0202, exact 0), (0x0902, exact 0), (0x0B02, exact 0)],
      (asked {} mRun x.1 []).admits (.port .a) { op := x.1, len := x.2, modes := modesAll })
    ∧ (asked {} mRun 0x0701 [0x000402FC#32]).admits (.port .a) { op := 0x0701, len := exact 4, modes := modesAll }
    ∧ (asked {} mRun 0x0801 (List.replicate 9 0#32)).admits (.port .a) { op := 0x0801, len := exact 36, modes := modesAll }
    ∧ (asked {} mRun 0x0602 [0x7F#32]).admits (.port .a) { op := 0x0602, len := exact 4, modes := modesAll } := by
  refine ⟨fun x h => ?_, admits_of _ _ (by decide +kernel), admits_of _ _ (by decide +kernel), admits_of _ _ (by decide +kernel)⟩
  simp only [List.mem_cons, List.not_mem_nil, or_false] at h
  rcases h with rfl | rfl | rfl | rfl | rfl <;> exact admits_of _ _ (by decide +kernel)

theorem witness_reports_fields :
    let d := asked {} mRun 0x0701 [0x000402FC#32]
    let e := asked {} mRun 0x0801 (List.replicate 9 0#32)
    let f := asked { temps := [(0, true, 300#16)] } mRun 0x0602 [0x7F#32]
    (d.pay16 (.port .a) 0).toNat ≤ 767 ∧ (d.pay16 (.port .a) 0).toNat + (d.pay16 (.port .a) 2).toNat ≤ 768
    ∧ (e.pay8 (.port .a) 32).toNat < 16 ∧ e.payZero (.port .a) 33 36 = true
    ∧ (f.pay8 (.port .a) 0).toNat < 128 ∧ f.payZero (.port .a) 1 4 = true ∧ f.wordAsleep (0x08200800 + 0x1000 * 127) = false ∧ (∃ x ∈ f.temps, x.2.1 = true)
    ∧ Tab.find 0#32 (after (.scrReport (.port .a)) (withDev f)).dev.portA.repBuf 2 = 40#32
    ∧ Tab.find 0#32 (after (.devInfo (.port .a)) (withDev (asked {} mRun 0x0101 []))).dev.portA.repBuf 2 = 32#32 := by decide +kernel

theorem witness_reports_idle :
    let d := asked {} mRun 0x0B02 []
    (asked { temps := [(0, true, 300#16)] } mRun 0x0602 [0x7F#32]).deckIdle ∧ d.deckIdle
    ∧ (∀ b, b < 128 → d.mode.bentOut.getLsbD b = false → d.wordAsleep (0x08200005 + 0x1000 * b) = false) ∧ (∃ b, b < 128 ∧ d.mode.bentOut.getLsbD b = false)
    ∧ Tab.find 0#32 (after (.spareStatus (.port .a)) (withDev d)).dev.portA.repBuf 2 = 544#32 :=
  ⟨idle _ (by decide +kernel), idle _ (by decide +kernel), by decide +kernel, ⟨0, by decide +kernel⟩, by decide +kernel⟩

/-- A loop image on Keystone's list, and a loop bound from it to core 0 with trigger 96. -/
def anImage : Image := { addr := 0x02040000#32, len := 3584, type := 2#8, entry := 0x02040370#32, verified := true }
def aLoop : Loop :=
  { num := 1#16, image := 0x02040000#32, entry := 0x02040370#32, core := 0#11, compact := false, t := true, paced := false, safety := false, cls := 1#2, wake := false,
    rate := 0#3, trigger := 96#8, pri := 0x40#8, cgroup := none, comp := none, slack := none, pslot := none, period := 1000#32, deadline := 0#32, unitId := 0#32,
    sbase := 0#16, slen := 0x100#17, cmpt := 0#32, regions := [{ ddr := false, num := 1#4, perm := 3#3, base := 0#32, limit := 0xFFFF#32 }] }
def imaged : Dev := { ks := { images := [anImage] } }
/-- A device with the loop bound, its trigger in a state, its core as given. -/
def bound (k : Core) (st : SrcState) : Dev :=
  { cores := [(0, k)], ks := { images := [anImage, { anImage with addr := 0x02050000#32, entry := 0x02050370#32 }], loops := [aLoop] },
    bents := [(0, { biu := { src := [(96, { mask := 1#16, pri := 0x40#8, vec := 0x02040370#32, st := st })] } })] }
def stopped : Core := { status := .stopped }

theorem test_budget :
    let s := withDev { bents := [(5, { scr := { request := 30#7, grant := 50#7 } })], mode := { mode := mRun, calibrated := true }, ks := { loops := [{ aLoop with core := 0x50#11, safety := true }] } }
    (s.dev.xing 5).hold = false ∧ (s.dev.xing 5).frozen = false ∧ s.dev.tierOf 5 = 0
    ∧ (after (.budgetEvaluation 7 [(5#7, 9#16)]) s).dev.pwr.pest = 16#32
    ∧ ((after (.budgetEvaluation 7 [(5#7, 9#16)]) s).dev.bent 5).scr.grant = 30#7
    ∧ ((after (.budgetEvaluation 7 [(6#7, 9#16)]) State.reset).dev.bent 6).scr.held = false := by decide +kernel

/-- LOOP_LOAD of 3,584 staged bytes into any slice; SEC_IMAGE of a unit table. -/
def loadPacket : List W32 := [0x01000000#32, 0xE00#32, 0xFF#32, 0#32]
def imagePacket : List W32 := [0x01000000#32, 0xE00#32, 3#32, 0#32]

theorem witness_loads_image :
    let d := asked {} mStandby 0x0301 loadPacket
    let e := asked {} mStandby 0x0802 imagePacket
    let src : CmdSrc := .port .a
    stagedInSlice (d.pay32 src 0).toNat (d.pay32 src 4).toNat = true ∧ (d.pay32 src 4).toNat = 0xE00 ∧ d.running src = false ∧ d.ks.copies = [] ∧ d.poison = []
    ∧ (d.pay8 src 8).toNat = 255 ∧ d.payZero src 9 16 = true ∧ 1 ∈ d.slices 255 ∧ e.pay8 src 8 ∈ [1#8, 3#8, 4#8, 5#8] ∧ (e.pay8 src 9).toNat < 2
    ∧ e.payZero src 10 16 = true ∧ (e.span 0).pacedBank = 0#8 := by decide +kernel

theorem witness_loads_admitted : (asked {} mStandby 0x0301 loadPacket).admits (.port .a) { op := 0x0301, len := exact 16, modes := modesCSRD, changes := true }
    ∧ (asked {} mStandby 0x0802 imagePacket).admits (.port .a) { op := 0x0802, len := exact 16, modes := modesCSRD, changes := true } :=
  ⟨admits_of _ _ (by decide +kernel), admits_of _ _ (by decide +kernel)⟩

theorem witness_loads_room : ((asked {} mStandby 0x0301 loadPacket).places 56 1 == []) = false
    ∧ ((asked {} mStandby 0x0802 imagePacket).imagePlaces 3#8 56 == []) = false := by
  decide +kernel

/-- LOOP_BIND of the loop above. -/
def bindPacket : List W32 := [0x02040000#32, 0x00120000#32, 0xFF004060#32, 1000#32, 0#32, 0#32, 0x01000000#32, 0#32, 1#32, 0x00030100#32, 0#32, 0xFFFF#32]

theorem witness_binds : (asked imaged mStandby 0x0302 bindPacket).admits (.port .a) { op := 0x0302, len := loopBindLen, modes := modesCSRD, changes := true } :=
  admits_of _ _ (by decide +kernel)

theorem witness_binds_fields :
    let d := asked imaged mStandby 0x0302 bindPacket
    let r := d.bindReq (.port .a)
    d.badBind r = none ∧ d.bindShort r = none ∧ d.wordAsleep (0x08200000 + 0x1000 * r.bent) = false ∧ (d.readTable r.bent r.unitId).1 = false
      ∧ d.image r.image = some anImage ∧ anImage.verified = true ∧ r.trigger = 96
    ∧ (d.freeNumbers == []) = false := by decide +kernel

theorem witness_loopStarts :
    (asked (bound stopped .idle) mRun 0x0303 [1#32, 0#32]).admits (.port .a) { op := 0x0303, len := exact 8, modes := [mRun, mDegraded], changes := true }
    ∧ (asked (bound stopped .idle) mRun 0x0304 [0x00030001#32]).admits (.port .a)
      { op := 0x0304, len := exact 4, modes := [mStandby, mRun, mDegraded, mSafeHold], changes := true, excepted := true } :=
  ⟨admits_of _ _ (by decide +kernel), admits_of _ _ (by decide +kernel)⟩

theorem witness_loopStarts_fields :
    let d := asked (bound stopped .idle) mRun 0x0303 [1#32, 0#32]
    let e := asked (bound stopped .idle) mRun 0x0304 [0x00030001#32]
    let f := asked (bound stopped .idle) mRun 0x0304 [1#32]
    let src : CmdSrc := .port .a
    d.loop (d.pay16 src 0) = some aLoop ∧ d.payZero src 2 4 = true ∧ d.pay32 src 4 = 0#32 ∧ d.started aLoop = false ∧ d.wordAsleep 0x08200000 = false
    ∧ (d.core 0).idleMoment = true ∧ (e.pay8 src 2).toNat < 4 ∧ e.pay8 src 3 = 0#8 ∧ (e.pay8 src 2).getLsbD 0 = true ∧ (f.pay8 src 2).getLsbD 0 = false
    ∧ f.iterating aLoop = false
    ∧ (after (.loopStart src) (withDev d)).dev.started aLoop = true ∧ (core0 (.loopStart src) (withDev d)).status = .waiting
    ∧ (after (.loopStop src) (withDev e)).dev.ks.loops = [] ∧ (after (.loopStop src) (withDev f)).dev.ks.loops = [aLoop] := by decide +kernel

/-- LOOP_UPDATE to the second image; LOOP_MIGRATE to core 16 with trigger 97. -/
def updatePacket : List W32 := [1#32, 0x02050000#32]
def migratePacket : List W32 := [0x00100001#32, 0xFF610000#32]

theorem witness_switches :
    (asked (bound tagged (.claimed 0#4)) mRun 0x0306 updatePacket).admits (.port .a) { op := 0x0306, len := exact 8, modes := [mStandby, mRun, mDegraded], changes := true }
    ∧ (asked (bound tagged (.claimed 0#4)) mRun 0x0305 migratePacket).admits (.port .a)
      { op := 0x0305, len := exact 8, modes := [mStandby, mRun, mDegraded], changes := true } :=
  ⟨admits_of _ _ (by decide +kernel), admits_of _ _ (by decide +kernel)⟩

theorem witness_switches_fields :
    let d := asked (bound tagged (.claimed 0#4)) mRun 0x0306 updatePacket
    let e := asked (bound tagged (.claimed 0#4)) mRun 0x0305 migratePacket
    let f := asked (bound stopped .idle) mRun 0x0306 updatePacket
    let src : CmdSrc := .port .a
    d.loop (d.pay16 src 0) = some aLoop ∧ aLoop.trigger.toNat < 192 ∧ d.switchArmed 0 = false ∧ d.wordAsleep 0x08200000 = false ∧ d.running src = false
    ∧ d.payZero src 2 4 = true ∧ d.badUpdate aLoop 0x02050000#32 = false ∧ d.imagePaced 0x02050000#32 = false ∧ anImage.verified = true
    ∧ d.image 0x02050000#32 = some { anImage with addr := 0x02050000#32, entry := 0x02050370#32 } ∧ d.iterating aLoop = true
    ∧ (f.source 0 96).st.switchNow = true
    ∧ e.badBind (e.moveReq src aLoop) = none ∧ aLoop.movedOut (e.moveReq src aLoop) = none ∧ e.bindShort (e.moveReq src aLoop) = none
    ∧ e.wordAsleep (0x08200000 + 0x1000 * (e.moveReq src aLoop).bent) = false ∧ (e.readTable (e.moveReq src aLoop).bent aLoop.unitId).1 = false
        ∧ (e.moveReq src aLoop).coreId = 16 ∧ e.iterating aLoop = true
    ∧ (after (.loopUpdate src) (withDev d)).dev.ks.jobs.map (·.kind) = [.update 1#16 0x02050000#32]
    ∧ ((after (.loopUpdate src) (withDev f)).dev.source 0 96).vec = 0x02050370#32
    ∧ replied (after (.loopMigrate src) (withDev e)) = 1#32 := by decide +kernel

/-- The Deck idles where the bindings and switches above are commanded. -/
theorem witness_loops_idle : (asked imaged mStandby 0x0302 bindPacket).deckIdle ∧ (asked (bound stopped .idle) mRun 0x0303 [1#32, 0#32]).deckIdle
    ∧ (asked (bound stopped .idle) mRun 0x0304 [0x00030001#32]).deckIdle ∧ (asked (bound tagged (.claimed 0#4)) mRun 0x0306 updatePacket).deckIdle
    ∧ (asked (bound tagged (.claimed 0#4)) mRun 0x0305 migratePacket).deckIdle :=
  ⟨idle _ (by decide +kernel), idle _ (by decide +kernel), idle _ (by decide +kernel), idle _ (by decide +kernel), idle _ (by decide +kernel)⟩

/-- A job of port A. -/
def jobOf (k : JobKind) : Job := { src := .port .a, seq := 9#32, noVec := false, start := 0, kind := k }
def withJob (d : Dev) (k : JobKind) : Dev := { d with ks := { d.ks with jobs := [jobOf k] }, portA := { d.portA with arun := true } }

theorem witness_waits :
    let d := withJob { bound stopped .idle with clk := 8000000 } (.loopStart 1#16 0#32)
    let e := withJob { bound tagged (.claimed 0#4) with clk := 64000 } (.loopStop 1#16 false)
    let f := withJob { clk := 80000000 } (.spareSwap 5#7 3#5 16#5 3#4)
    d.ks.jobs = [jobOf (.loopStart 1#16 0#32)] ∧ (jobOf (.loopStart 1#16 0#32)).start + 8000000 ≤ d.clk ∧ e.loop 1#16 = some aLoop ∧ e.iterating aLoop = true
    ∧ 0 + 64 * aLoop.period.toNat ≤ e.clk ∧ f.ks.jobs = [jobOf (.spareSwap 5#7 3#5 16#5 3#4)] ∧ 0 + 80000000 ≤ f.clk
    ∧ (after (.loopStartTimeout 1#16) (withDev d)).dev.portA.ares = 0x01000003#32 ∧ (core0 (.loopStopTimeout 1#16) (withDev e)).status = .stopped
    ∧ (after (.spareSwapTimeout 5#7) (withDev f)).dev.ks.swapResult = 2#3 := by decide +kernel

theorem witness_switchEntries :
    let b : Bent := { sw := [(0, { armed := true, src := 96#8 })], biu := { src := [(96, { mask := 1#16, st := .claimed 0#4 })] } }
    let d := { bound tagged (.claimed 0#4) with clk := 8064000, bents := [(0, b)] }
    d.ks.jobs = [] ∧ d.switchLate 0 0 = true ∧ (96#8).toNat < 192 ∧ (d.source 0 96).st.switchNow = false ∧ isLatchedSrc 96 = true ∧ (0x801#12 : ReqId) ≠ ksReq
    ∧ (Tab.find {} ((after (.switchTimeout 0#7 0#4) (withDev d)).dev.bent 0).sw 0 : Switch).armed = false
    ∧ (Tab.find {} ((after (.livSwctlArm ksReq 0#7 0#4 true 96#8 0#32) (withDev d)).dev.bent 0).sw 0 : Switch).kind = true := by decide +kernel

theorem witness_memoryCommands :
    let d := asked {} mRun 0x0401 [0x00010100#32, 0x01000010#32, 0#32]
    let e := asked {} mRun 0x0402 [0x00010100#32, 0x01000010#32, 0#32, 0x12345678#32, 0x20#32]
    let src : CmdSrc := .port .a
    (∀ x ∈ [d, e], x.pay8 src 0 = 0#8 ∧ (x.pay8 src 1).toNat < 2 ∧ x.pay16 src 2 = 1#16 ∧ isDeck (x.pay32 src 4).toNat = true ∧ x.payZero src 10 12 = true
      ∧ x.wordAsleep (x.pay32 src 4).toNat = false ∧ x.poison = [] ∧ (ksTxn (x.memHead src) false 0 none).target = some (0, 0)
          ∧ x.fillAt (0, 0) < x.highAt (0, 0))
    ∧ Tab.find 0#32 (after (.memRead src []) (withDev d)).dev.portA.repBuf 5 = 0xE0#32
    ∧ (after (.memWrite src []) (withDev e)).mem.map (·.2) = [0x78#8, 0x56#8, 0x34#8, 0x12#8, 0x20#8] := by decide +kernel

theorem witness_memoryCommands_idle :
    let e := asked {} mRun 0x0401 [0x00010100#32, 0x04000105#32, 0#32]
    (asked {} mRun 0x0401 [0x00010100#32, 0x01000010#32, 0#32]).deckIdle
    ∧ (asked {} mRun 0x0402 [0x00010100#32, 0x01000010#32, 0#32, 0x12345678#32, 0x20#32]).deckIdle
    ∧ isBentSram (e.pay32 (.port .a) 4).toNat = true ∧ foundIn [.uncorrectable] 0 = .uncorrectable ∧ foundIn [.single 0#6] 0 ≠ .uncorrectable
    ∧ replied (after (.memRead (.port .a) [.uncorrectable]) (withDev e)) = 0x02210400#32
    ∧ replied (after (.memRead (.port .a) [.single 0#6]) (withDev e)) = 0#32 :=
  ⟨idle _ (by decide +kernel), idle _ (by decide +kernel), by decide +kernel⟩

theorem witness_memoryCommands_admitted :
    (asked {} mRun 0x0401 [0x00010100#32, 0x01000010#32, 0#32]).admits (.port .a) { op := 0x0401, len := exact 12, modes := modesAll, bulk := true }
    ∧ (asked {} mRun 0x0402 [0x00010100#32, 0x01000010#32, 0#32, 0x12345678#32, 0x20#32]).admits (.port .a)
      { op := 0x0402, len := memWriteLen, modes := modesAll, changes := true, excepted := true, bulk := true } :=
  ⟨admits_of _ _ (by decide +kernel), admits_of _ _ (by decide +kernel)⟩

theorem witness_queueCommands :
    (asked {} mRun 0x0501 [0x0100FFFF#32, 8#32]).admits (.port .a) { op := 0x0501, len := exact 8, modes := modesCSRD, changes := true }
    ∧ (asked { queues := [(3, aQueue)] } mRun 0x0502 [0x003F0003#32, 0x3F7F0000#32, 0x000407FF#32, 0#32, 0#32, 0#32, 0#32, 0#32]).admits (.port .a)
      { op := 0x0502, len := exact 32, modes := modesCSRD, changes := true }
    ∧ (asked { queues := [(3, aQueue)] } mRun 0x0503 [3#32]).admits (.port .a) { op := 0x0503, len := exact 4, modes := [mStandby, mRun, mDegraded, mSafeHold], changes := true } :=
  ⟨admits_of _ _ (by decide +kernel), admits_of _ _ (by decide +kernel), admits_of _ _ (by decide +kernel)⟩

theorem witness_queueCommands_idle :
    let q : Dev := { queues := [(3, aQueue)] }
    (asked {} mRun 0x0501 [0x0100FFFF#32, 8#32]).deckIdle ∧ (asked {} mRun 0x0601 [0x02013F05#32, 0x64640103#32, 0#32]).deckIdle
    ∧ (asked q mRun 0x0502 [0x003F0003#32, 0x3F7F0000#32, 0x000407FF#32, 0#32, 0#32, 0#32, 0#32, 0#32]).deckIdle ∧ (asked q mRun 0x0503 [3#32]).deckIdle
    ∧ ∀ k, (q.span k).asleep = false :=
  ⟨idle _ (by decide +kernel), idle _ (by decide +kernel), idle _ (by decide +kernel), idle _ (by decide +kernel), fun _ => rfl⟩

theorem witness_queueCommands_fields :
    let d := asked {} mRun 0x0501 [0x0100FFFF#32, 8#32]
    let e := asked { queues := [(3, aQueue)] } mRun 0x0502 [0x003F0003#32, 0x3F7F0000#32, 0x000407FF#32, 0#32, 0#32, 0#32, 0#32, 0#32]
    let f := asked { queues := [(3, aQueue)] } mRun 0x0502 [0x001F0003#32, 0x3F7F0000#32, 0x000407FF#32, 0#32, 0#32, 0#32, 0#32, 0#32]
    let g := asked { queues := [(3, aQueue)] } mRun 0x0503 [3#32]
    let src : CmdSrc := .port .a
    (d.pay16 src 0).toNat = 0xFFFF ∧ (d.pay8 src 2).toNat < 8 ∧ d.freeQueue 0 = some 0 ∧ (d.pay8 src 3).toNat < 2 ∧ (d.pay8 src 4).toNat ≤ 8
        ∧ d.payZero src 5 8 = true
    ∧ 15 < 0x100000 / 2 ^ 16 ∧ d.blockFree 0 (2 ^ 16 * 15) (2 ^ 16) = true
    ∧ (e.pay16 src 0).toNat = 3 ∧ (e.queue 3).en = true ∧ (e.pay8 src 2).toNat < 64 ∧ (e.pay8 src 2).getLsbD 5 = true
    ∧ (f.pay8 src 2).getLsbD 5 = false ∧ (f.pay8 src 6).toNat = 127 ∧ (f.pay8 src 7).toNat = 63 ∧ (f.pay16 src 8).toNat = 2047 ∧ (f.pay8 src 10).toNat = 4
    ∧ f.pay8 src 11 = 0#8 ∧ f.driver 3 127#7 63#6 = none ∧ g.payZero src 2 4 = true
    ∧ (after (.queConfig src) (withDev e)).dev.queue 3 = {} ∧ ((after (.queConfig src) (withDev f)).dev.queue 3).vec = 2047#11
    ∧ ((after (.queFlush src) (withDev g)).dev.queue 3).opened = false := by decide +kernel

theorem witness_settings :
    (asked {} mRun 0x0601 [0x02013F05#32, 0x64640103#32, 0#32]).admits (.port .a) { op := 0x0601, len := exact 12, modes := modesCSRD, changes := true }
    ∧ (asked {} mRun 0x0702 [0x00010000#32, 0x02FF#32]).admits (.port .a) { op := 0x0702, len := fltAckLen, modes := modesAll, changes := true, excepted := true }
    ∧ (asked {} mStandby 0x0703 [0x00040280#32]).admits (.port .a) { op := 0x0703, len := exact 4, modes := [mCommission, mStandby], changes := true, excepted := true }
    ∧ (asked {} mRun 0x0A01 [0x00110301#32, 0xDB3#32]).admits (.port .a)
      { op := 0x0A01, len := exact 8, modes := [mCommission, mStandby, mRun, mDegraded, mTest], changes := true }
    ∧ (asked {} mStandby 0x0603 [0x00D20002#32]).admits (.port .a) { op := 0x0603, len := exact 4, modes := [mStandby, mRun, mDegraded], changes := true } :=
  ⟨admits_of _ _ (by decide +kernel), admits_of _ _ (by decide +kernel), admits_of _ _ (by decide +kernel), admits_of _ _ (by decide +kernel),
   admits_of _ _ (by decide +kernel)⟩

theorem witness_settings_fields :
    let src : CmdSrc := .port .a
    let a := asked {} mRun 0x0601 [0x02013F05#32, 0x64640103#32, 0#32]
    let b := asked {} mRun 0x0702 [0x00010000#32, 0x02FF#32]
    let b1 := asked { flt := { srcs := [(5, { latched := true, lsev := 1#3 })] } } mRun 0x0702 [1#32]
    let c := asked {} mStandby 0x0703 [0x00040280#32]
    let e := asked {} mRun 0x0A01 [0x00110301#32, 0xDB3#32]
    let f := asked {} mStandby 0x0603 [0x00D20002#32]
    (a.pay8 src 0).toNat = 5 ∧ (a.pay8 src 1).toNat = 63 ∧ a.pay8 src 2 ≠ 0#8 ∧ (a.pay8 src 5).toNat < 2 ∧ (a.pay8 src 6).toNat ≤ 100
        ∧ (a.pay8 src 7).toNat ≤ 100
    ∧ a.payZero src 8 12 = true ∧ a.wordAsleep (0x08200000 + 0x1000 * 5) = false
    ∧ b.pay8 src 0 = 0#8 ∧ b.pay8 src 1 = 0#8 ∧ (b.pay16 src 2).toNat = 1 ∧ (b.pay16 src 4).toNat = 767 ∧ b1.pay8 src 0 = 1#8
    ∧ (c.pay16 src 0).toNat = 640 ∧ (c.pay8 src 2).toNat ≤ 4 ∧ c.pay8 src 3 = 0#8
    ∧ (e.pay8 src 0).toNat < 2 ∧ (e.pay8 src 1).toNat = 3 ∧ (e.pay8 src 2).toNat = 17 ∧ e.pay8 src 3 = 0#8
        ∧ e.signalNamed (e.pay16 src 4).toNat = true ∧ e.payZero src 6 8 = true
    ∧ e.chain.dn.sbEn = false
    ∧ f.pay8 src 1 = 0#8 ∧ (f.pay16 src 2).toNat = 210 ∧ (f.pay8 src 0).toNat = 2
    ∧ ((after (.scrSet src) (withDev a)).dev.bent 5).scr.period = 1#8 ∧ ((after (.fltAck src) (withDev b1)).dev.flt.src 5).latched = false
    ∧ (after (.fltSeverity src) (withDev c)).dev.flt.sevOf 640 = 4#3 ∧ replied (after (.plbSelect src) (withDev e)) = 0#32
    ∧ ((after (.pwrState src) (withDev f)).dev.pwr.nego.map (·.asked)) = some 0 := by decide +kernel

theorem witness_modeSet : ∀ x ∈ [(mStandby, 4), (mRun, 3), (mDegraded, 3), (mRun, 4), (mRun, 2)],
    (asked {} x.1 0x0201 [BitVec.ofNat 32 x.2]).admits (.port .a) { op := 0x0201, len := exact 4, modes := modesAll, changes := true, excepted := true } := by
  intro x h
  simp only [List.mem_cons, List.not_mem_nil, or_false] at h
  rcases h with rfl | rfl | rfl | rfl | rfl <;> exact admits_of _ _ (by decide +kernel)

theorem witness_modeSet_fields :
    let src : CmdSrc := .port .a
    let d := asked {} mStandby 0x0201 [4#32]
    let e := asked {} mRun 0x0201 [3#32]
    d.pay8 src 0 = (4#3).setWidth 8 ∧ d.payZero src 1 4 = true ∧ d.safeNLow = false ∧ d.mode.recov = false ∧ d.running src = false ∧ e.ks.loops = []
    ∧ 2#3 ≠ mRun ∧ 2#3 ∉ modeTargets mRun false
    ∧ (after (.modeSet src) (withDev d)).dev.mode.mode = mRun ∧ (after (.modeSet src) (withDev e)).dev.mode.prev = mRun
    ∧ (after (.modeSet src) (withDev e)).dev.portA.ares = 0#32
    ∧ replied (after (.modeSet src) (withDev (asked {} mRun 0x0201 [2#32]))) = 0x00040203#32 := by decide +kernel

theorem witness_safeN :
    let s := withDev { mode := { mode := mRun }, cores := [(0, tagged)] }
    s.dev.mode.safePin = false ∧ s.dev.pwr.inReset = false ∧ s.dev.pwr.pstate.toNat < 2 ∧ s.dev.pwr.nego = none ∧ s.dev.ks.jobs = []
    ∧ s.dev.mode.mode ∈ [mStandby, mRun, mDegraded] ∧ State.reset.dev.mode.mode ∈ [mBoot, mCommission, mTest] ∧ s.dev.holdsSafety 0 = false
    ∧ (after .safeNAccept s).dev.mode.mode = mSafeHold ∧ (core0 .safeNAccept s).status = .stopped
        ∧ (after .safeNAccept State.reset).dev.mode.pendSafe = true := by
  decide +kernel

theorem witness_recovery :
    let s := withDev (withJob { mode := { mode := mSafeHold, recov := true, recovTarget := mStandby } } (.modeSet mStandby))
    s.dev.mode.mode = mSafeHold ∧ s.dev.mode.recov = true ∧ s.dev.mode.recovTarget = mStandby ∧ s.dev.ks.loops = []
      ∧ s.dev.ks.jobs = [jobOf (.modeSet mStandby)] ∧ (jobOf (.modeSet mStandby)).late = 0
    ∧ (after (.recoveryPhaseEnd none) s).dev.mode.mode = mStandby ∧ (after (.recoveryPhaseEnd none) s).dev.mode.reason = 4#3 := by decide +kernel

theorem witness_spares :
    (asked {} mStandby 0x0B01 [0x00000305#32]).admits (.port .a) { op := 0x0B01, len := exact 4, modes := modesCSRD, changes := true }
    ∧ (asked {} mStandby 0x0901 []).admits (.port .a) { op := 0x0901, len := exact 0, modes := [mCommission, mStandby], changes := true } :=
  ⟨admits_of _ _ (by decide +kernel), admits_of _ _ (by decide +kernel)⟩

theorem witness_spares_fields :
    let src : CmdSrc := .port .a
    let d := asked {} mStandby 0x0B01 [0x00000305#32]
    let e := asked {} mStandby 0x0901 []
    d.pay8 src 0 = 5#8 ∧ d.pay8 src 1 = 3#8 ∧ d.payZero src 2 4 = true ∧ (d.bent 5).retired.getLsbD 3 = false ∧ (d.bent 5).logicalOf 3 = some 3
    ∧ (d.bent 5).spareFree = true ∧ d.running src = false ∧ (d.core (coreOf 5 3)).idleMoment = true ∧ d.offeredTo 5 3 = none ∧ e.chain.head = true
    ∧ ((after (.spareSwap src true) (withDev d)).dev.bent 5).physOf 3 = 16#5 ∧ ((after (.spareSwap src false) (withDev d)).dev.bent 5).retired.getLsbD 16 = true
    ∧ (after (.viaEnum src) (withDev e)).dev.chain.enumWait = some 0 := by decide +kernel

/-! ### Security -/

/-- A verification that ends, of an image of zeros. -/
def verifying : Dev :=
  { sec := { busy := true }, ks := { jobs := [jobOf (.loopLoad 0x02040000#32)], copies := [{ src := .port .a, stage := 0x01000000, dest := 0x02040000, len := 3584, next := 56 }] } }

theorem witness_verify_bad :
    let c : Copy := { src := .port .a, stage := 0x01000000, dest := 0x02040000, len := 3584, next := 56 }
    verifying.ks.jobs = [jobOf (.loopLoad 0x02040000#32)] ∧ (jobOf (.loopLoad 0x02040000#32)).late = 0 ∧ verifying.ks.copies = [c] ∧ verifying.sec.busy = true
    ∧ c.lines ≤ c.next ∧ verifying.sec.subject = none ∧ verifying.engineDone = true
    ∧ verifying.sec.checkStored [] c.dest c.len [2#8] none = .auth 5#16
    ∧ verifying.sec.checkStored [] c.dest c.len [2#8] (some 547) = .unread 547
    ∧ (after .secVerifyDone (withDev verifying)).dev.sec.fails = 1#16
    ∧ (after .secVerifyDone (withDev { verifying with sec := { busy := true, rdBad := some 547 } })).dev.sec.fails = 0#16 := by decide +kernel

/-- Code store with a firmware image of 5,508 bytes in slot B and a loop image of 3,584 bytes at 0204_0000h, their other words erased. -/
def headers : List Host.Cell :=
  applyAll [] ([(0x02018000, 0x504C4F53#32), (0x02018001, 0x00000101#32), (0x02018002, 0#32), (0x02018003, 5508#32), (0x02040000, 0x504C4F53#32),
    (0x02040001, 0x00020201#32), (0x02040002, 0#32), (0x02040003, 3584#32)].map (fun e => MemOp.whole e.1 ⟨e.2, 0#8⟩))

/-- The engine of a part whose OTP holds one vendor root slot, all its hash bits 1, and of an owner with one key set. -/
def keyedSec : Sec := { roots := [(BitVec.allOnes 512, BitVec.allOnes 512)], rootPresent := 1#2 }
def ownedSec : Sec := { busy := true, cert := some { ownerId := 0#32, sets := [([], [])], addr := 0#32 } }

/-- An image is good where its header is, its keys are trusted, its counter is not behind, and both standards' verifiers accept its signatures: hash
and verifiers are uninterpreted (DESIGN CHOICE, log entry 10), so the good cases are shown on condition of their answers. -/
theorem check_good (c : Sec) (bs : List Byte) (len : Nat) (ty : Byte) (k : KeyPair) (hh : headerGood bs len [ty] = true) (hk : c.signer bs = some k)
    (hc : ¬ (imageIdx bs).toNat < (c.counter (imageCtr bs).toNat).toNat) (he : ∀ a b d, Config.edVerify a b d = true)
    (hm : ∀ a b d, Config.mlVerify a b d = true) : c.check bs len [ty] = .good := by
  simp [Sec.check, hh, hk, signatures, he, hm, hc]

theorem slot_good (d : Dev) (hp : d.poison = []) (h3 : d.sec.rootHas (BitVec.allOnes 512) (BitVec.allOnes 512) = true) (hc : d.sec.counter 0 = 0#8)
    (hs : ∀ bs, Config.sha512 bs = BitVec.allOnes 512) (he : ∀ a b d, Config.edVerify a b d = true) (hm : ∀ a b d, Config.mlVerify a b d = true) :
    (d.checkSlot headers true).1 = .good := by
  have hl : slotLen headers true = 5508 := by decide +kernel
  have hr : ∀ n, d.readSpan (slotBase true) n = (false, d) := fun n => by simp [Dev.readSpan, hp]
  have ht : imageType (imageBytes headers (slotBase true) 5508) = 1#8 := by decide +kernel
  have h1 : hashAt (imageBytes headers (slotBase true) 5508) 16 = BitVec.allOnes 512 := by decide +kernel
  have h2 : hashAt (imageBytes headers (slotBase true) 5508) 80 = BitVec.allOnes 512 := by decide +kernel
  have h4 : imageCtr (imageBytes headers (slotBase true) 5508) = 0#8 := by decide +kernel
  simp only [Dev.checkSlot, hr, hl, Bool.false_eq_true, if_false, Sec.checkStored]
  refine check_good _ _ _ _ (bytesAt (imageBytes headers (slotBase true) 5508) 3520 32, bytesAt (imageBytes headers (slotBase true) 5508) 3552 1952)
    (by decide +kernel) ?_ (by simp [h4, hc]) he hm
  simp only [Sec.signer, KeyPair.hashesTo, ht, h1, h2, h3, hs, BEq.rfl, Bool.and_self, if_true]
  rfl

theorem witness_verify_good (hs : ∀ bs, Config.sha512 bs = BitVec.allOnes 512) (he : ∀ a b d, Config.edVerify a b d = true)
    (hm : ∀ a b d, Config.mlVerify a b d = true) : ownedSec.checkStored headers 0x02040000 3584 [2#8] ownedSec.rdBad = .good := by
  have ht : imageType (imageBytes headers 0x02040000 3584) = 2#8 := by decide +kernel
  have h1 : hashAt (imageBytes headers 0x02040000 3584) 16 = BitVec.allOnes 512 := by decide +kernel
  have h2 : hashAt (imageBytes headers 0x02040000 3584) 80 = BitVec.allOnes 512 := by decide +kernel
  have hn : ownedSec.rdBad = none := rfl
  have hc : ownedSec.cert = some { ownerId := 0#32, sets := [([], [])], addr := 0#32 } := rfl
  rw [hn, Sec.checkStored]
  refine check_good _ _ _ _ ([], []) (by decide +kernel) ?_ (by decide +kernel) he hm
  simp [Sec.signer, KeyPair.hashesTo, ht, h1, h2, hc, carriesKeys, hs]

theorem witness_unlock : (asked {} mStandby 0x0803 [0#32]).admits (.port .a)
      { op := 0x0803, len := fun n _ => n == 4 || n == 3412, modes := [mCommission, mStandby, mTest], changes := true }
    ∧ (asked {} mStandby 0x0803 (List.replicate 853 1#32)).admits (.port .a)
      { op := 0x0803, len := fun n _ => n == 4 || n == 3412, modes := [mCommission, mStandby, mTest], changes := true } :=
  ⟨admits_of _ _ (by decide +kernel), admits_of _ _ (by decide +kernel)⟩

theorem witness_unlock_fields :
    let d := asked {} mStandby 0x0803 [0#32]
    let e := asked {} mStandby 0x0803 (List.replicate 853 1#32)
    d.lenWord (.port .a) = 4 ∧ d.payZero (.port .a) 0 4 = true ∧ e.lenWord (.port .a) = 3412 := by decide +kernel

theorem witness_token_bad : badToken (List.replicate 3412 0xFF#8) = some 32 := by decide +kernel

/-- A token whose signatures the verifiers accept, for the challenge that is outstanding. -/
theorem witness_token_good (d : Dev) (t : Cert) (k : KeyPair) (tok : List Byte) (hb : badToken tok = none) (h : d.sec.cert = some t) (hk : t.sets = [k])
    (hc : d.sec.challenge = some (tok.take 32, 0)) (hn : d.clk = 0)
    (he : ∀ sg dg, Config.edVerify k.1 sg dg = true) (hm : ∀ sg dg, Config.mlVerify k.2 sg dg = true) :
    badToken tok = none ∧ d.challengeMet tok = true ∧ ∃ v ∈ d.sec.tokenVerdicts tok, v = .good :=
  ⟨hb, by simp [Dev.challengeMet, hc, hn], .good, by simp [Sec.tokenVerdicts, Sec.tokenKeys, h, hk, signatures, he, hm], rfl⟩

theorem witness_token_shape : badToken (List.replicate 3412 0#8) = none := by decide +kernel

theorem witness_restart (hs : ∀ bs, Config.sha512 bs = BitVec.allOnes 512) (he : ∀ a b d, Config.edVerify a b d = true)
    (hm : ∀ a b d, Config.mlVerify a b d = true) :
    let d : Dev := { sec := keyedSec, ks := { kbusy := true, graceEnd := some 0, restartSlotB := true } }
    d.ks.kbusy = true ∧ d.ks.graceEnd = some 0 ∧ 0 ≤ d.clk ∧ (d.checkSlot headers d.ks.restartSlotB).1 = .good ∧ (d.checkSlot [] true).1 = .auth 5#16
    ∧ (after (.keystoneRestartDone false true 9#16) (withDev d)).dev.ks.slotB = false
    ∧ (after (.keystoneRestartDone false true 9#16) (withDev d)).dev.ks.revert = true :=
  ⟨rfl, rfl, Nat.le_refl 0, slot_good _ rfl (by decide +kernel) rfl hs he hm, by decide +kernel⟩

theorem witness_ports :
    let d : Dev := { ks := { firmware := true }, mode := { mode := mRun }, portA := { linkUp := true } }
    let f : FlitHdr := { seq := 0#12, ack := 0#12, nak := false, cf := false, cls := 1#2, dest := 0#4, src := 3#4, credit := 0#8 }
    let e : Dev := { d with chain := { dn := { st := .up } }, clk := 80000000,
                            portA := { linkUp := true, busy := true, fwdTo := some 3#4, reqBuf := packet 0x0101 [] } }
    let g : Dev := { d with portA := { linkUp := true, b0host := true, hostRid := some 7#16 } }
    bitOf 1#32 0 = true ∧ bitOf 2#32 0 = false ∧ d.portServes .a = true ∧ d.portDrained .a = true ∧ d.portA.busy = false ∧ d.keystoneUp = true
    ∧ d.hostMay .a 8#16 = true ∧ g.hostMay .a 7#16 = true ∧ g.hostMay .a 8#16 = false ∧ g.portServes .a = true ∧ g.portDrained .a = true
    ∧ ({ d with ks := {} } : Dev).keystoneUp = false ∧ e.portA.busy = true ∧ e.portA.fwdTo = some 3#4 ∧ e.portA.fwdAt + 80000000 ≤ e.clk
    ∧ (e.via .dn).st = .up ∧ f.seq = (e.via .dn).nextRx ∧ e.viaServes .dn = true ∧ f.dest = e.chain.unit ∧ stDone ≠ stAccepted ∧ hasPayload stDone = true
    ∧ e.seqWord (.port .a) = 9#32
    ∧ (after (.cmdDb .a 0#16 1#32) (withDev d)).dev.portA.busy = true ∧ replied (after (.cmdDb .a 0#16 1#32) (withDev { d with ks := {} })) = 0x00010100#32
    ∧ (after (.cmdDb .a 0#16 1#32) (withDev e)).dev.portA.drops = 1#16 ∧ (after (.cmdDb .a 8#16 1#32) (withDev g)).dev.portA.errDrop = 1#8
    ∧ replied (after (.cmdForwardTimeout .a) (withDev e)) = 0x00020500#32
    ∧ replied (after (.creplyReceive .dn f .a false 0x0400#16 7#16 9#32 0#32 []) (withDev e)) = 0x00070400#32
    ∧ replied (after (.creplyReceive .dn f .a false 0x0400#16 7#16 8#32 0#32 []) (withDev e)) = 0#32 := by decide +kernel

/-! ### Resets, modes, bring-up -/

theorem witness_resets :
    let s := withDev { devOf tagged with mode := { mode := mRun } }
    s.dev.ks.jobs = [] ∧ s.dev.mode.mode ≠ mBoot ∧ (0x801#12 : ReqId) ≠ ksReq ∧ (core0 (.coreReset ksReq 0) s).regs = []
    ∧ (core0 (.bentReset ksReq 0#7) s).status = .stopped := by decide +kernel

theorem witness_coldResets :
    let s := after (.coldReset .por) { on tagged with mem := [(0x08000000, 1#8), (0x10000000, 2#8)] }
    let u := withDev { pwr := { pstate := 4#3, waking := true, wakeSrc := 2#8 } }
    let x := after (.thermtrip 5#5) State.reset
    let y := withDev { pwr := { inReset := true, thermTrip := true }, mode := { rstCause := 4#4 } }
    s.dev.mode.mode = mBoot ∧ s.dev.pwr.inReset = true ∧ s.mem = [(0x10000000, 2#8)] ∧ Memory.wf [(0x08000000, 1#8), (0x10000000, 2#8)] = true
    ∧ u.dev.pwr.pstate = 4#3 ∧ u.dev.pwr.waking = true ∧ (after (.coldReset .wake) u).dev.pwr.wakeSrc = 2#8
    ∧ x.dev.pwr.thermTrip = true ∧ (after (.resetRelease false true) x).dev.pwr.inReset = true
    ∧ y.dev.pwr.thermTrip = true ∧ y.dev.mode.rstCause = 4#4 ∧ y.dev.pwr.inReset = true ∧ y.dev.pwr.railsUp = 0x1FFFF#17
    ∧ (after (.resetRelease false true) y).dev.pwr.inReset = false ∧ (after (.resetRelease false true) y).dev.pwr.thermTrip = false := by decide +kernel

theorem witness_boot (hs : ∀ bs, Config.sha512 bs = BitVec.allOnes 512) (he : ∀ a b d, Config.edVerify a b d = true)
    (hm : ∀ a b d, Config.mlVerify a b d = true) :
    let r : BootReport := { revokes := false, ms := 7#16, ddr := [], cfg := [] }
    let d : Dev := { sec := keyedSec, ks := { slotB := true } }
    let first := State.reset.dev.loadSpares.checkSlot [] false
    State.reset.dev.mode.mode = mBoot ∧ State.reset.dev.pwr.inReset = false ∧ State.reset.dev.mode.noFirmware = false
    ∧ (d.loadSpares.checkSlot headers true).1 = .good ∧ first.1 = .auth 5#16 ∧ ((first.2.noteSlot false first.1).checkSlot [] true).1 = .auth 5#16
    ∧ (after (.bootComplete r) State.reset).dev.mode.mode = mBoot ∧ (after (.bootComplete r) State.reset).dev.mode.noFirmware = true :=
  ⟨rfl, rfl, rfl, slot_good _ (by decide +kernel) (by decide +kernel) (by decide +kernel) hs he hm, by decide +kernel⟩

theorem witness_boot_second (hs : ∀ bs, Config.sha512 bs = BitVec.allOnes 512) (he : ∀ a b d, Config.edVerify a b d = true)
    (hm : ∀ a b d, Config.mlVerify a b d = true) :
    let d : Dev := { sec := keyedSec }
    let first := d.loadSpares.checkSlot headers false
    first.1 = .auth 5#16 ∧ ((first.2.noteSlot false first.1).checkSlot headers true).1 = .good :=
  ⟨by decide +kernel, slot_good _ (by decide +kernel) (by decide +kernel) (by decide +kernel) hs he hm⟩

theorem witness_commission :
    let s := withDev { mode := { mode := mCommission } }
    let r : CommReport := { badSlots := [], badBents := [], badRows := [], curves := [], grades := [], calib := [], xFail := none }
    s.dev.mode.commDone = false ∧ s.dev.mode.holdComm = false ∧ s.dev.mode.pendSafe = false ∧ s.dev.flt.atLeast 3 = false
    ∧ (after (.commissionComplete r) s).dev.mode.mode = mStandby ∧ (after (.commissionComplete r) s).dev.mode.calibrated = true
    ∧ (after (.commissionComplete r) (withDev { mode := { mode := mCommission, holdComm := true } })).dev.mode.mode = mCommission := by decide +kernel

/-! ### Power and pins -/

def negoOf (target : BitVec 3) (dom : Nat) : Nego := { target := target, asked := dom, stopped := [], src := none, isMode := false }
def negoAt (target : BitVec 3) (dom : Nat) : Dev := { pwr := { nego := some (negoOf target dom) }, mode := { mode := mStandby } }

theorem witness_power :
    let d : Dev := { mode := { mode := mRun }, cores := [(0, { tagged with status := .waiting })], clk := 80000, ks := { firmware := true } }
    d.p1Due = true ∧ ({ pwr := { pstate := 1#3 } } : Dev).pwr.pstate = 1#3 ∧ d.mayGate 0 = true
    ∧ (negoAt 2#3 0).refusal (negoOf 2#3 0) false = none ∧ (negoAt 2#3 0).drainedAt 0 = true ∧ nextAsked 2#3 0 = some 1
    ∧ (after .p1Entry (withDev d)).dev.pwr.pstate = 1#3 ∧ (core0 (.coreGate 0) (withDev d)).status = .gated
    ∧ (after (.p1Exit .doorbell) (withDev { pwr := { pstate := 1#3 } })).dev.pwr.pstate = 0#3
    ∧ ((after (.sleepDomainAnswer false) (withDev (negoAt 2#3 0))).dev.pwr.nego.map (·.asked)) = some 1 := by decide +kernel

theorem witness_power_refused :
    let n := negoOf 2#3 0
    let d := { negoAt 2#3 0 with cores := [(0, tagged)] }
    let e := { negoAt 2#3 0 with txns := [{ newTxn 1 0x801#12 1#2 .evt 0#32 (.hostWrite .a) with ev := some (0#7, 112#8), st := .answered (.ack false) }] }
    d.pwr.nego = some n ∧ d.refusal n false = some 3 ∧ e.drainedAt 0 = false ∧ (after (.sleepDomainAnswer false) (withDev d)).dev.pwr.refReason = 3#8
    ∧ (after .drainTimeout (withDev e)).dev.pwr.refReason = 1#8 := by decide +kernel

/-- The last domain that is asked for P2, for P3 and for P4. -/
theorem witness_power_last : ∀ target ∈ [2#3, 3#3, 4#3],
    let k := ((negoOrder target).getLast?).getD 0
    nextAsked target k = none ∧ (negoAt target k).refusal (negoOf target k) false = none ∧ (negoAt target k).drainedAt k = true
    ∧ (after (.sleepDomainAnswer false) (withDev (negoAt target k))).dev.pwr.pstate = target := by decide +kernel

theorem witness_wakes :
    let d : Dev := { pwr := { pstate := 2#3, alarm := 1#32, sleepClk := 0 }, clk := 24415, portA := { linkUp := true } }
    let w : Dev := { pwr := { pstate := 2#3, waking := true, sleepClk := 0 }, clk := 24415 }
    d.pwr.nego = none ∧ d.pwr.waking = false ∧ d.pwr.wakeOn 1 2 = true ∧ d.pwr.wakeOn 2 2 = true ∧ d.alarmDue = true
    ∧ ({ d.pwr with wakeEn := 0x08#8 } : Power).wakeOn 3 2 = true ∧ d.portCanWake .a = true ∧ w.pwr.railsUp = 0x1FFFF#17 ∧ w.pwr.wakeSafe = false
    ∧ (after .wakeN (withDev d)).dev.pwr.wakeSrc = 1#8 ∧ (after .aonAlarm (withDev d)).dev.pwr.wakeSrc = 2#8
    ∧ (after (.portWakeRequest .a) (withDev { d with pwr := { d.pwr with wakeEn := 0x08#8 } })).dev.pwr.wakeSrc = 3#8
    ∧ (after .wakeComplete (withDev w)).dev.pwr.pstate = 0#3 ∧ (after .wakeComplete (withDev w)).dev.pwr.slept = 24414#64 := by decide +kernel

theorem witness_selfChecks :
    let d : Dev := { ks := { kicked := true, firmware := true }, clk := 1600000 }
    let e : Dev := { d with clk := 1599999 }
    let off : Dev := { pwr := { pstate := 3#3, enCore := false } }
    (16#5).toNat < 17 ∧ d.pwr.inReset = false ∧ d.pwr.expected 16 = true ∧ d.pwr.pstate.toNat < 3 ∧ (153#8).toNat < 154 ∧ d.kickMissing = true ∧ e.kRun = true
    ∧ off.pwr.expected 0 = false ∧ (after (.railFault 0#5) (withDev off)).dev.pwr.railsUp = 0x1FFFE#17
    ∧ (after (.railFault 16#5) (withDev d)).dev.pwr.railsBad = 0x10000#17 ∧ (after .ksWdog (withDev d)).dev.kRun = false
    ∧ (after (.xingUnstable 153#8) (withDev d)).dev.flt.raises.map (·.inst) = [153] ∧ (after .aliveToggle (withDev e)).dev.flt.heart = 1#32 := by decide +kernel

/-! ### Faults -/

theorem witness_faults :
    let r : Raise := { src := 640, inst := 5, detail := 0#16 }
    let s := withDev { flt := { raises := [r] } }
    let f : FltSrc := { sev := some 0#3 }
    let z := withDev { flt := { raises := [r], srcs := [(640, f)] } }
    let g : FltSrc := { sev := some 3#3 }
    let h : FltSrc := { latched := true, lsev := 1#3 }
    let x := withDev { flt := { raises := [r], srcs := [(640, g), (641, h)] }, cores := [(0, tagged)] }
    s.dev.ks.jobs = [] ∧ s.dev.flt.raises = [r] ∧ (s.dev.flt.sevOf 640).toNat ≤ 4 ∧ 0 < (s.dev.flt.sevOf 640).toNat ∧ (s.dev.flt.sevOf 640).toNat < 3
    ∧ (z.dev.flt.sevOf 640).toNat = 0 ∧ s.dev.flt.valid = false ∧ (x.dev.flt.sevOf 640).toNat = 3 ∧ fltClass 641 = fltClass 640
    ∧ x.dev.pwr.pstate.toNat < 2 ∧ x.dev.pwr.nego = none
    ∧ (after .faultRaise s).dev.flt.source = 640 ∧ ((after .faultRaise z).dev.flt.src 640).ign = 1#8
        ∧ (core0 .faultRaise x).status = .stopped := by decide +kernel

/-! ### Host ports -/

/-- Port A with its link up, and a PTM dialogue allowed. -/
def linked : Dev := { portA := { linkUp := true, ptmEn := true, cfg := [(1, 4#32)], msixTab := [(15, 0#32)], pba := 8#2048 } }

theorem witness_hostAccesses :
    let p : Port := .a
    let s := withDev linked
    let u := withDev { linked with portA := { linked.portA with b0host := true, hostRid := some 7#16 } }
    let data := [some 0x11#8, some 0x22#8, some 0x33#8, some 0x44#8]
    s.dev.freeWay ∧ linked.portServes p = true ∧ linked.portDrained p = true ∧ linked.portRoom p = true ∧ linked.pciTakes p 0x40 4 = true
      ∧ linked.pciTakes p 0x40 1 = true
    ∧ linked.hostMay p 0#16 = true ∧ u.dev.hostMay p 8#16 = false ∧ u.dev.portServes p = true ∧ u.dev.portDrained p = true ∧ u.dev.portRoom p = true
    ∧ isDeck (0x01000000 + 0x40 / 4) = true ∧ isDeck (0x01000000 + 0x40) = true ∧ linked.pciTakes p 0x06000000 4 = true
        ∧ bar2Kind (0x01000000 + 0x06000000 / 4) = .none
    ∧ linked.pciTakes p 0x20000008 4 = true ∧ (linked.port p).b4base.toNat ≤ 896 ∧ linked.regionTagged 1 = false
    ∧ (after (.pciHdb p 0#16 5#7 0x8001#32) s).dev.txns.map (·.ev) = [some (5#7, 112#8), some (5#7, 127#8)]
    ∧ (after (.pciHdb p 8#16 5#7 0x8001#32) u).dev.txns = [] ∧ (after (.pciHdb p 8#16 5#7 0x8001#32) u).dev.portA.errDrop = 1#8
    ∧ (after (.bar2PayloadWrite p 0x40#28 data) s).dev.txns.map (fun t => t.parts.map (fun x => (x.addr, x.word))) = [[(0x01000010#32, ⟨0x44332211#32, 0x00#8⟩)]]
    ∧ (after (.bar2PayloadWrite p 0x06000000#28 data) s).dev.portA.errUr = 1#8 ∧ (after (.bar2PayloadRead p 0x06000000#28 1#11) s).dev.portA.lastCplUr = true
    ∧ (after (.bar2TagWrite p 0x40#28 [0x20#8]) s).dev.txns.map (fun t => t.parts.map (fun x => (x.addr, x.word.tag))) = [[(0x01000040#32, 0x20#8)]]
    ∧ (after (.bar4Write p 0x20000008#36 data) s).dev.txns.map (·.ddr) = [some (1, 2)] := ⟨way _ (by decide +kernel), by decide +kernel⟩

theorem witness_endpoints :
    let p : Port := .a
    linked.isPcie p = true ∧ linked.portServes p = true ∧ linked.endpointOn p = true ∧ (linked.port p).linkUp = true ∧ ({} : Dev).endpointOn p = true
    ∧ (({} : Dev).port p).linkUp = false ∧ (linked.port p).pba.getLsbD 3 = true ∧ (linked.port p).canSend 3 = true ∧ (linked.port p).ptmEn = true
    ∧ (linked.port p).ptmOfs = none ∧ ({} : Dev).bifurc = false
    ∧ (after (.dlUp p 4#4 16#5) State.reset).dev.portA.width = 16#5 ∧ (after (.flr p) (withDev linked)).dev.portA.cfg = []
    ∧ (after (.msixPendingSend p 3#11) (withDev linked)).dev.portA.pba = 0#2048
    ∧ (after (.ptmDialogue p (some 1000#64)) (withDev linked)).dev.portA.ptmOfs = some 1000#64
    ∧ Tab.find 0#32 (after (.pciConfigWrite p 7#16 1#10 0xFFFFFFFF#32) (withDev linked)).dev.portA.cfg 1 = cfgMask 1 ∧ cfgMask 1 ≠ 0xFFFFFFFF#32
    ∧ (after (.dlDown p) (withDev linked)).dev.portA.ptmEn = false := by decide +kernel

/-- A port that holds the semaphore releases it by force when its endpoint is reset (R308). -/
theorem test_flr_frees_semaphore :
    (after (.flr .a) (withDev { linked with sem := { holder := some .a } })).dev.sem.holder = none
    ∧ (after (.flr .a) (withDev { linked with sem := { holder := some .b } })).dev.sem.holder = some .b := by decide +kernel

theorem witness_semaphore :
    let p : Port := .a
    let s := fun (h : Option Port) => withDev { linked with sem := { holder := h, lease := 7#16, expiry := 0 } }
    let u := withDev { linked with portA := { linked.portA with b0host := true, hostRid := some 7#16 } }
    let e := fun (n : Nat) => withDev { linked with sem := { holder := some p, lease := 1#16, expiry := 800007 }, clk := n }
    let ended := fun (x : State) => match step x with | .next t => t.dev.sem.holder.isNone | _ => false
    (s none).dev.portLive p = true ∧ (s none).dev.hostMay p 9#16 = true ∧ u.dev.portLive p = true ∧ u.dev.hostMay p 9#16 = false
    ∧ (s (some p)).dev.sem.holder = some p ∧ (s (some .b)).dev.sem.holder = some (otherPort p) ∧ bitOf 1#32 0 = true
    ∧ (s (some .b)).dev.sem.grantTick ≠ some (0, otherPort p) ∧ (s (some p)).dev.sem.lateAcq = none
    ∧ (e 800006).pending = [] ∧ (e 800006).dev.ks.jobs = []
    ∧ (after (.semAcq p 0#16 60000#32) (s none)).dev.sem.expiry = 48000000000 ∧ (after (.semAcq p 0#16 1#32) (s (some p))).dev.sem.statA.result = 2#3
    ∧ (after (.semAcq p 0#16 1#32) (s (some .b))).dev.sem.statA.result = 3#3 ∧ (after (.semAcq p 0#16 0#32) (s none)).dev.sem.statA.result = 4#3
    ∧ (after (.semAcq p 0#16 60001#32) (s none)).dev.sem.statA.result = 4#3 ∧ (after (.semRel p 0#16 1#32) (s (some p))).dev.sem.holder = none
    ∧ (after (.semAcq p 9#16 1#32) u).dev.sem.holder = none ∧ (after (.semAcq p 9#16 1#32) u).dev.portA.errDrop = 1#8
    ∧ (after .semLeaseExpiry (s (some p))).dev.sem.statA.forced = true ∧ (after .semLeaseExpiry (e 800006)).dev.sem.holder = some p
    ∧ ended (e 800006) = false ∧ ended (e 800007) = true := by decide +kernel

/-- An acquisition of the other port in the last tick of a lease wins the semaphore where no heartbeat came (R332). -/
theorem test_semaphore_last_tick :
    let e := withDev { linked with sem := { holder := some .a, lease := 1#16, expiry := 800007 }, clk := 800007 }
    let held := fun (x : State) => match step x with | .next t => t.dev.sem.holder | _ => none
    held (after (.semAcq .b 0#16 5#32) e) = some .b ∧ held (after (.semHb .a 0#16 5#32) (after (.semAcq .b 0#16 5#32) e)) = some .a := by decide +kernel

theorem witness_registers :
    let x := withDev { xings := [(153, { unstable := true, ovr := true })] }
    let q := withDev { queues := [(1023, { en := true, ce := 5#16, ue := 2#16 })] }
    let l := withDev linked
    let i := withDev { portB := { i3cAddr := some 9#7 } }
    x.dev.ks.jobs = [] ∧ q.dev.wordAsleep (0x08100000 + 1023 / 128 * 0x10000) = false ∧ (q.dev.span (1023 / 128)).asleep = false
    ∧ linked.bar0Takes .a 0x0100 false = true ∧ linked.bar0Takes .a 0x2004 true = true ∧ linked.hostMay .a 0#16 = true ∧ linked.portA.busy = false
    ∧ aWord 0x2004 4 = true ∧ aWord 0x2004 2 = false ∧ aWord 0x2006 4 = false
    ∧ i.dev.i3cLive = true ∧ i.dev.portB.i3cAddr.isSome = true ∧ i.dev.portDrained .b = true
    ∧ ((after (.registerWrite (.dev ksReq 0x08004099#32) 0x80000000#32) x).dev.xing 153).unstable = false
    ∧ ((after (.registerWrite (.dev ksReq 0x08004099#32) 0x80000000#32) x).dev.xing 153).ovr = true
    ∧ ((after (.readClear (.dev ksReq (BitVec.ofNat 32 (0x08100000 + 7 * 0x10000 + 0x1000 + 16 * 127 + 7)))) q).dev.queue 1023).ce = 0#16
    ∧ (after (.registerWrite (.bar0 .a 0#16 0x2004#16 4#13) 7#32) l).dev.portA.reqBuf = [(1, 7#32)]
    ∧ (after (.registerWrite (.bar0 .a 0#16 0x2004#16 2#13) 7#32) l).dev.portA.errUr = 1#8
    ∧ (after (.registerWrite (.bar0 .a 0#16 0x2004#16 2#13) 7#32) l).dev.portA.reqBuf = []
    ∧ (after (.readClear (.bar0 .a 0#16 0x2006#16 4#13)) l).dev.portA.lastCplUr = true
    ∧ (after (.i3cDynamicAddress 9#7) State.reset).dev.portB.i3cAddr = some 9#7
    ∧ (after (.i3cPrivateWrite [0xFE#8, 0x3F#8]) i).dev.portB.i3cOff = 0x3FFE#16 := by decide +kernel

/-! ### Test access -/

theorem witness_scans :
    ({ mode := { mode := mTest } } : Dev).mode.mode = mTest ∧ State.reset.dev.mode.mode ≠ mTest ∧ State.reset.dev.pwr.inReset = false
    ∧ (after (.extest [true, false]) (withDev { mode := { mode := mTest } })).dev.jtag.driving = true
    ∧ (after (.extest [true, false]) State.reset).dev.jtag.capture = [0#8] ∧ (after .highz (withDev { mode := { mode := mTest } })).dev.jtag.hiz = true := by
  decide +kernel

theorem witness_debugAccess :
    let d : Dev := { sec := { dbgScope := 7#4 }, ks := { sram := [(0x20, 5#32)] } }
    let ws := List.replicate 16 7#32
    d.ks.jobs = [] ∧ d.sec.dbgScope.getLsbD 0 = true ∧ d.mode.mode ≠ mTest ∧ d.wordAsleep 0x08200000 = false ∧ d.sec.dbgScope.getLsbD 1 = true
    ∧ d.ks.sram.find? (fun x => x.1 == (0x20#32).toNat) = some (0x20, 5#32) ∧ d.sec.dbgScope.getLsbD 2 = true ∧ d.mode.mode = mBoot ∧ d.ws.phase = .idle
    ∧ (d.span 0).pacedBank = 0#8 ∧ ws.length = 16 ∧ State.reset.dev.sec.dbgScope = 0#4
        ∧ ({ d with sec := { dbgScope := 6#4 } } : Dev).sec.dbgScope.getLsbD 0 = false ∧ State.reset.dev.ks.jobs = []
    ∧ (after (.dbgKs false 0x20#32 0#32) (withDev d)).dev.jtag.inspData = 5#32
        ∧ (after (.dbgKs true 0x24#32 9#32) (withDev d)).dev.ks.sram = [(0x20, 5#32), (0x24, 9#32)]
    ∧ (after (.fwRecov 1#2 0x02000010#32 ws) (withDev d)).dev.ws.line = 0x200001
    ∧ (after (.dbgInsp true 0x08200000#32 0#32) (withDev d)).dev.jtag.inspErr = true
    ∧ (after (.dbgInsp false 0x08200000#32 0#32) State.reset).dev.jtag.instr = .bypass := by decide +kernel

/-! ### The Viaduct -/

/-- Unit 0 of a chain with both its links UP. -/
def chained : Dev := { chain := { up := { st := .up }, dn := { st := .up, sbEn := true } } }
/-- The same part as unit 2, below the HEAD. -/
def below : Dev := { chain := { chained.chain with head := false, unit := 2#4 }, headPin := false }
/-- A flit header in sequence, for a unit from unit 3. -/
def hdr (dest : BitVec 4) : FlitHdr := { seq := 0#12, ack := 0#12, nak := false, cf := true, cls := 1#2, dest := dest, src := 3#4, credit := 5#8 }

theorem witness_flits :
    let s := withDev chained
    let t : Txn := { newTxn 7 0x005#12 2#2 .rd 0x01000010#32 (.load 0) with st := .remote, dest := some 3#4 }
    s.dev.freeWay ∧ chained.entryFree (viaReq .dn) = true
    ∧ (chained.via .dn).st = .up ∧ (hdr 0#4).seq = (chained.via .dn).nextRx ∧ chained.viaServes .dn = true ∧ (hdr 0#4).dest = chained.chain.unit
    ∧ (below.via .dn).st = .up ∧ (hdr 1#4).seq = (below.via .dn).nextRx ∧ below.viaServes .dn = true ∧ (hdr 1#4).dest ≠ below.chain.unit
    ∧ (below.via (below.routeTo (hdr 1#4).dest)).lost = false
    ∧ ({ chained with txns := [t] } : Dev).txns.find? (fun t => t.st == .remote && t.dest == some (hdr 0#4).src && t.req == 0x005#12
        && t.id % 256 == (7#8).toNat) = some t
    ∧ (chained.via .dn).waiting = [] ∧ (chained.via .dn).ledger = [] ∧ below.chain.head = false ∧ (below.via .up).st = .up
    ∧ (after (.viaTxnReceive .dn (hdr 0#4) .rd 0x123#12 false 9#8 [] 1#4) s).dev.txns.map (·.origin) = [.viaduct .dn 3#4 0x123#12 9#8]
    ∧ (after (.viaTxnReceive .dn (hdr 1#4) .rd 0x123#12 false 9#8 [] 1#4) (withDev below)).dev.txns = []
    ∧ ((after (.viaTxnReceive .dn (hdr 1#4) .rd 0x123#12 false 9#8 [] 1#4) (withDev below)).dev.via .up).ledger.map (·.dest) = [1#4]
    ∧ (after (.viaRspReceive .dn (hdr 0#4) 0x005#12 7#8 (.ack false)) (withDev { chained with txns := [t] })).dev.txns.map (·.st) = [.answered (.ack false)]
    ∧ (after (.viaIdleReceive .dn (hdr 0#4)) s).dev.chain.dn.cfIn = true
    ∧ (after (.viaSyncExchange none) (withDev { below with chain := { below.chain with up := {} } })).dev.chain.fails = 1#7 := ⟨way _ (by decide +kernel), by decide +kernel⟩

theorem witness_enumeration :
    let w := withDev { chained with chain := { chained.chain with enumWait := some 0 }, clk := 2400000 }
    let e := withDev { below with chain := { below.chain with enumWait := some 0 }, clk := 2400000 }
    (below.via .up).st = .up ∧ (hdr 2#4).seq = (below.via .up).nextRx ∧ below.chain.head = false ∧ (15#5).toNat < 16 ∧ 16 ≤ (16#5).toNat
        ∧ below.chain.uvalid = true ∧ (below.via .up).lost = false ∧ chained.chain.head = true
    ∧ chained.chain.uvalid = true ∧ w.dev.chain.enumWait = some 0 ∧ w.dev.chain.head = true ∧ e.dev.chain.enumWait = some 0 ∧ e.dev.chain.head = false
    ∧ (after (.viaEnumReceive .up (hdr 2#4) 15#5) (withDev below)).dev.chain.unit = 15#4
        ∧ (after (.viaEndReceive .dn (hdr 0#4) 16#5) (withDev chained)).dev.chain.chainLen = 16#5
    ∧ (after (.viaEnumReceive .up (hdr 2#4) 16#5) (withDev below)).dev.chain.uvalid = false
    ∧ ((after (.viaEndReceive .dn (hdr 2#4) 4#5) (withDev below)).dev.via .up).ledger.map (·.body) = [.endf 4#5]
    ∧ (after (.viaLengthReceive .up (hdr 2#4) 4#5) (withDev below)).dev.chain.chainLen = 4#5 ∧ (after .viaEnumTimeout w).dev.chain.chainLen = 1#5 := by
  decide +kernel

theorem witness_end_ends_enumeration :
    let d := withJob chained .viaEnum
    d.ks.jobs = [jobOf .viaEnum] ∧ (jobOf .viaEnum).src = .port .a ∧ (jobOf .viaEnum).late = 0
      ∧ (after (.viaEndReceive .dn (hdr 0#4) 3#5) (withDev d)).dev.portA.ares ≠ d.portA.ares := by
  decide +kernel

theorem witness_links :
    let st := fun (x : LinkSt) => withDev { chain := { dn := { st := x, sbEn := true } } }
    let f : OutFlit := { seq := 0#12, cls := 1#2, dest := 3#4, src := 0#4, body := .enum 1#5, sentAt := 0 }
    let r := withDev { chain := { dn := { st := .up, ledger := [f] } }, clk := 1600 }
    let q := withDev { chain := { dn := { st := .train, retraining := true, trainAt := 0 } }, clk := 800000 }
    (st .down).dev.viaMayTrain .dn = true ∧ (true && false) = false ∧ 2 ≤ lanesIn 3#5 ∧ 4 ≤ lanesIn (0xF#5 &&& ~~~ 0#5)
        ∧ lanesIn (3#5 &&& ~~~ 0#5) = 2 ∧ lanesIn (7#5 &&& ~~~ 0#5) = 3
    ∧ lanesIn (1#5 &&& ~~~ 0#5) < 2 ∧ r.dev.chain.dn.ledger = f :: [] ∧ f.sentAt + 1600 ≤ r.dev.clk ∧ q.dev.chain.dn.st ≠ .up
        ∧ q.dev.chain.dn.trainAt + 800000 ≤ q.dev.clk
    ∧ (after (.viaFarEndDetect .dn 3#5) (st .down)).dev.chain.dn.st = .train ∧ (after (.viaTrainEnd .dn 7#5) (st .train)).dev.chain.dn.half = true
    ∧ (after (.viaTrainEnd .dn 1#5) (st .train)).dev.chain.dn.st = .down ∧ (after (.viaCheckEnd .dn true false none 0#5) (st .check)).dev.chain.dn.st = .up
    ∧ (after (.viaRxSilence .dn) (st .up)).dev.chain.dn.downs = 1#16 ∧ (after (.viaReplayTimeout .dn) r).dev.chain.dn.retry = 1#32
    ∧ (after (.viaRetrainTimeout .dn) q).dev.chain.dn.st = .down ∧ (after (.viaChainSideband .dn true) (st .up)).dev.cfReceived .dn = true
    ∧ ((after (.viaChainSideband .dn true) (withDev { chain := { dn := { st := .up } } })).dev.cfReceived .dn = false) := by decide +kernel

/-! ### Further clauses -/

/-- A C0 access from the Deck that waits at bank 0 of bent 0's SRAM, before the own core's in rank (R224, R247). -/
def bankTaken (k : Core) : State :=
  withDev { devOf k with txns := [{ newTxn 3 0x011#12 0#2 .rd 0x04000106#32 (.load 17) with since := 0 }] }

theorem witness_near :
    let k := { tagged with stores := [aStore { aPart with addr := 0x105#32 }] }
    let s := bankTaken { tagged with cls := 2#2 }
    let u := bankTaken k
    ((on tagged).dev.nearClaim 0 0 tagged.cls .rd [0x04000105]).1 = true ∧ (s.dev.nearClaim 0 0 2#2 .rd [0x04000105]).1 = false
    ∧ ((on k).dev.nearClaim 0 1 2#2 .wr [0x04000105]).1 = true ∧ (u.dev.nearClaim 0 1 2#2 .wr [0x04000105]).1 = false
    ∧ (core0 (.ldw 0 9 4 5#15 []) s).pc = 0x02000000#32 ∧ (after (.ldw 0 9 4 5#15 []) s).dev.near.length = 1
    ∧ (core0 (.storeBufferSend 0 []) u).stores.length = 1 := by decide +kernel

theorem witness_paced_granted :
    let k : Core := { tagged with psr := { paced := true }, reqLine := some (0x204003, 0) }
    let x : Txn := { newTxn 7 0x810#12 0#2 .fill 0x02040030#32 (.paced 0 0x204003) with count := 16, paced := true }
    let s := withDev { devOf k with clk := 77, txns := [x] }
    k.vecReq = [] ∧ s.dev.pacedOf 0 0x204003 = some x ∧ s.dev.mayGrant x = true ∧ s.dev.freeWay ∧ s.dev.wordAsleep (16 * 0x204003) = false
    ∧ (∀ y ∈ s.dev.txns, ∀ m, y.origin = .paced 0 m → m = 0x204003) ∧ s.dev.bentStill 0 = false
    ∧ (core0 (.pacedFetchDelivery 0 [.good, .uncorrectable]) s).nextLine = some (0x204003, 2#16) :=
  ⟨rfl, by decide +kernel, by decide +kernel, way _ (by decide +kernel), by decide +kernel, by
    intro y h m e
    have : y = { newTxn 7 0x810#12 0#2 .fill 0x02040030#32 (.paced 0 0x204003) with count := 16, paced := true } := List.mem_singleton.mp h
    subst this
    cases e
    rfl, by decide +kernel⟩

theorem witness_entry_free :
    let s := withDev { cores := [(0, idleCore)], bents := [(0, offeredBent)] }
    s.dev.coreStill 0 = false ∧ idleCore.vecReq = [] ∧ State.reset.dev.tbCounts = true ∧ (aWrite .wr).noWrite = false
    ∧ s.dev.ks.jobs = [] := by decide +kernel

/-- The write sequencer takes a line up over an idle Deck; its last part is acknowledged. -/
theorem witness_sequencer :
    let s : Dev := { ws := { addr := 0x02040010#32, buf := [(0, 0x11223344#32)] } }
    let x : Txn := { newTxn 7 0x806#12 1#2 .wr 0x02040010#32 .sequencer with st := .answered (.ack false) }
    let u : Dev := { ws := { phase := .sending, line := 0x204001, words := List.replicate 16 0#32 }, txns := [x] }
    s.deckIdle ∧ u.freeWay ∧ u.txn 7 = some x ∧ u.ks.jobs = [] ∧ u.ws.phase = .sending
    ∧ (after (.cstWrite ksReq) (withDev s)).dev.txns.map (fun t => (t.req, t.cls, t.parts.length)) = [(0x806#12, 1#2, 8), (0x806#12, 1#2, 8)]
    ∧ (after (.deckAckReturn 7) (withDev u)).dev.ws.phase = .writing :=
  ⟨idle _ (by decide +kernel), way _ (by decide +kernel), by decide +kernel⟩

theorem witness_ddr_quiet :
    let d : Dev := { ddrs := [(0, goodChannel)], mode := { mode := mRun } }
    d.chanWanted 0 = false ∧ 0x3FFFFFF ∉ (d.ddr 0).patrolDone d.clk
      ∧ Tab.find 0#8 (after (.pmicAlert 0#2 true 5#8) (withDev d)).dev.ddrs[0]!.2.pmic 1 = 5#8 := by
  decide +kernel

/-- SEC_ATTEST of nothing, of the firmware in its slot, and the latter when the engine has read it. -/
theorem witness_attest :
    let d := asked {} mRun 0x0801 (List.replicate 9 0#32)
    let e := asked {} mRun 0x0801 (List.replicate 8 0#32 ++ [1#32])
    let f : Dev := { e with sec := { busy := true, subject := some (.port .a) }, ks := { e.ks with prog := some { src := .port .a } } }
    d.engineIdle ∧ e.engineIdle ∧ d.measured [] (d.pay8 (.port .a) 32) = [] ∧ e.measured [] (e.pay8 (.port .a) 32) ≠ [] ∧ f.resumes (.port .a) 0x0801
    ∧ f.engineReady (.port .a) ∧ (after (.secAttest (.port .a)) (withDev e)).dev.sec.subject = some (.port .a)
    ∧ (after (.secAttest (.port .a)) (withDev e)).dev.portA.busy = true :=
  ⟨⟨by decide +kernel, by intro t h; cases h⟩, ⟨by decide +kernel, by intro t h; cases h⟩, by decide +kernel, by decide +kernel,
   by unfold Dev.resumes; decide +kernel, by unfold Dev.engineReady; decide +kernel, by decide +kernel⟩

theorem witness_attest_admitted : (asked {} mRun 0x0801 (List.replicate 8 0#32 ++ [1#32])).admits (.port .a) { op := 0x0801, len := exact 36, modes := modesAll } :=
  admits_of _ _ (by decide +kernel)

theorem witness_loads_idle :
    let d := asked {} mStandby 0x0301 loadPacket
    d.deckIdle ∧ d.wordAsleep 0x01000000 = false ∧ d.ws.phase = .idle ∧ d.poison = []
    ∧ (asked imaged mStandby 0x0302 bindPacket).tableReads 1 0#32 = [] :=
  ⟨idle _ (by decide +kernel), by decide +kernel⟩

theorem witness_spares_idle :
    let d := asked {} mStandby 0x0B01 [0x00000305#32]
    d.deckIdle ∧ d.wordAsleep (0x08200000 + 0x1000 * 5) = false := ⟨idle _ (by decide +kernel), by decide +kernel⟩

theorem witness_unlock_waits :
    let d := asked {} mStandby 0x0803 (List.replicate 853 1#32)
    let e : Dev := { d with sec := { busy := true } }
    d.engineIdle ∧ e.engineBusy = true ∧ e.sec.subject ≠ some (.port .a):=
  ⟨⟨by decide +kernel, by intro t h; cases h⟩, by decide +kernel⟩

/-- A reply to a request that has timed out is discarded, though the port has sent the same SEQ to the same unit again. -/
theorem witness_stale :
    let e : Dev := { ks := { firmware := true }, mode := { mode := mRun }, chain := { dn := { st := .up } }, clk := 90000000,
                     portA := { linkUp := true, busy := true, fwdTo := some 3#4, reqBuf := packet 0x0101 [], stale := [(3#4, 9#32, false)] } }
    let f : FlitHdr := { seq := 0#12, ack := 0#12, nak := false, cf := false, cls := 1#2, dest := 0#4, src := 3#4, credit := 0#8 }
    e.portA.stale.contains (3#4, e.seqWord (.port .a), false) = true
    ∧ (after (.creplyReceive .dn f .a false 0#16 7#16 9#32 0#32 []) (withDev e)).dev.portA.busy = true := by decide +kernel

theorem witness_resets_wait :
    let s := withDev { devOf { tagged with stores := [aStore aPart] } with mode := { mode := mRun } }
    s.dev.mode.rst = none ∧ (s.dev.core 0).stores ≠ [] ∧ (after (.coreReset ksReq 0) s).dev.mode.rst.isSome = true
    ∧ (after (.coreReset ksReq 0) s).dev.ks.jobs = [] ∧ (∀ i, i < 16 → (s.dev.core (coreOf 5 i)).stores = [])
    ∧ (core0 (.coreReset ksReq 0) s).status = .stopped
    ∧ (after (.coreReset ksReq 1) (after (.coreReset ksReq 0) s)).dev.mode.rst = (after (.coreReset ksReq 0) s).dev.mode.rst := by decide +kernel

theorem witness_wakes_second : ({ pwr := { pstate := 2#3, waking := true, wakeStep := 2 } } : Dev).pwr.wakeStep = 2
    ∧ (after .wakeComplete (withDev { pwr := { pstate := 2#3, waking := true, wakeStep := 2 }, clk := 24415 })).dev.pwr.slept = 0#64 := by decide +kernel

theorem witness_selfChecks_again :
    let d : Dev := { pwr := { railsBad := 0x10000#17 }, ks := { firmware := true } }
    d.pwr.railsBad.getLsbD 16 = true ∧ d.pwr.expected 16 = true ∧ (after (.railFault 16#5) (withDev d)).dev.flt.raises = []
    ∧ d.ks.halted = false ∧ (after (.fltKick ksReq) (withDev d)).dev.ks.kicked = true := by decide +kernel

theorem witness_lapsed :
    let s := withDev { linked with sem := { lapsed := some (0, .a, 7#16, {}) } }
    (∀ l o, State.reset.dev.sem.lapsed ≠ some (0, .a, l, o)) ∧ s.dev.portLive .a = true ∧ s.dev.hostMay .a 0#16 = true
    ∧ (after (.semHb .a 0#16 1#32) s).dev.sem.holder = some .a ∧ (after (.semHb .a 0#16 1#32) s).dev.sem.expiry = 5600000 :=
  ⟨fun l o h => (by cases h), by decide +kernel⟩

theorem witness_i3c :
    let i := withDev { portB := { i3cAddr := some 9#7 } }
    let u := withDev { portB := { i3cAddr := some 9#7, i3cOff := 0x1000#16, i3cRest := [(0x1000, 7#32)] } }
    i.dev.portB.i3cRest = [] ∧ i.dev.portB.i3cOff.toNat + (4#13).toNat ≤ 0x1000 ∧ u.dev.portB.i3cRest ≠ []
    ∧ (after (.i3cPrivateRead 4#13) i).dev.portB.lastCpl.length = 4 := by decide +kernel

theorem witness_scans_reset :
    let d : Dev := { resetLow := true, safeNLow := true }
    d.resetLow = true ∧ (after (.extest [true]) (withDev d)).dev.jtag.driving = true ∧ State.reset.dev.resetLow = false
    ∧ Tab.find false (after (.samplePreload [true]) State.reset).dev.jtag.boundary 0 = true := by decide +kernel

theorem witness_debug_deck :
    let d : Dev := { sec := { dbgScope := 7#4 } }
    let x : Txn := { newTxn 7 ksReq 1#2 .rd 0x08200005#32 .debug with st := .answered (.data false [⟨9#32, 0#8⟩]) }
    let e : Dev := { d with txns := [x] }
    d.deckIdle ∧ e.freeWay ∧ e.txn 7 = some x ∧ x.origin = .debug
    ∧ (after (.dbgInsp false 0x08200005#32 0#32) (withDev d)).dev.txns.map (fun t => (t.ty, t.req)) = [(.rd, ksReq)]
    ∧ (after (.deckDataReturn 7) (withDev e)).dev.jtag.inspData = 9#32 := ⟨idle _ (by decide +kernel), way _ (by decide +kernel), by decide +kernel⟩

theorem witness_token_engine : ({} : Dev).engineBusy = false ∧ (List.replicate 3412 (0#8 : Byte)).length = 3412 := by decide +kernel

theorem witness_flits_more :
    let s := withDev { chained with ks := { firmware := true }, mode := { mode := mRun } }
    overViaduct .rd 1#4 = true ∧ overViaduct .fill 1#4 = false ∧ overViaduct .rd 9#4 = false ∧ s.dev.keystoneUp = true
    ∧ (chained.via .dn).queued = [] ∧ (chained.via .up).rx = [] ∧ (chained.via .dn).rx = []
    ∧ (after (.viaTxnReceive .dn (hdr 0#4) .fill 0x123#12 false 9#8 [] 1#4) s).dev.txns = []
    ∧ ((after (.viaTxnReceive .dn (hdr 0#4) .fill 0x123#12 false 9#8 [] 1#4) s).dev.via .dn).nextRx = 1#12
    ∧ (after (.viaCmdReceive .dn (hdr 0#4) .a [5#32]) s).dev.ks.fwd.map (·.unit) = [3#4]
    ∧ (after (.viaLinkReceive .dn (hdr 0#4) true false (some 3#4) 1#5 8#16) s).dev.chain.dn.reach = 8#16
    ∧ ((after (.viaReachPeriodic .dn) s).dev.via .dn).queued.length + ((after (.viaReachPeriodic .dn) s).dev.via .dn).ledger.length = 1 := by decide +kernel

/-! ### The queue, and ill-formed commands -/

/-- A step runs the command at the front of the queue and leaves the rest: ADDI with immediate 7FFFh adds -1 (R93). -/
theorem test_step_runs_front :
    (match step { on tagged with pending := [.addi 0 9 1 0x7FFF#15, .add 0 9 9 9] } with
     | .next t => decide ((t.dev.core 0).reg 9 = ⟨4#32, 0x20#8⟩ ∧ t.pending = [.add 0 9 9 9])
     | _ => false) = true := by decide +kernel

theorem test_sources_checked : Instr.wellFormed (.livLatch 0x000#12 5#7 192#8) = false ∧ Instr.wellFormed (.livLatch 0x000#12 5#7 191#8) = true := by decide
theorem test_slots_checked : slotExists 17#5 = false ∧ slotExists 16#5 = true := by decide
theorem test_rails_checked : Instr.wellFormed (.railFault 17#5) = false ∧ Instr.wellFormed (.railGood 16#5) = true := by decide
theorem test_domains_checked : Instr.wellFormed (.xingUnstable 154#8) = false ∧ Instr.wellFormed (.xingUnstable 153#8) = true := by decide
theorem test_lines_checked : codeLine 0x280000 = false ∧ codeLine 0x1FFFFF = false ∧ codeLine 0x200000 = true := by decide
theorem test_writes_checked : Instr.wellFormed (.bar2TagWrite .a 0#28 []) = false ∧ Instr.wellFormed (.bar2TagWrite .a 0#28 [1#8]) = true
    ∧ writeLength 513 = false ∧ writeLength 512 = true := by decide
theorem test_readings_checked : Instr.wellFormed (.sensorSample []) = false := by decide
theorem test_tokens_checked : Instr.wellFormed (.unlockTok []) = false := by decide
theorem test_recovery_checked : Instr.wellFormed (.fwRecov 1#2 0x02000000#32 []) = false := by decide

end Sys2Proof.Tests
end

section
/-! SUPPORT. What the operations behind register accesses leave alone (P1's end, raises, the errors of a port), and that an effect on a calm
Keystone settles nothing more. -/
namespace Sys2Proof.Machine

variable (d : Dev)

/-! ### Outcomes -/

/-- With no job waiting, an effect that changes no memory cell ends none. -/
theorem settleEff_calm (m : List Host.Cell) {e : Dev} (h : e.calm) : settleEff m (e, []) = (e, []) := by
  have hs : e.settle m = (e, []) := by
    unfold Dev.settle
    rw [show e.ks.jobs = [] from h]
    split <;> rfl
  simp [settleEff, hs]

/-- A meaning that leaves the cores alone keeps memory, queue and cores. -/
theorem keeps_of_cores {s : State} {e : Dev} (h : e.cores = s.dev.cores) : Keeps s { s with dev := e.seen s.dev } := ⟨rfl, rfl, h⟩

/-! ### P1's end (R425) -/

@[simp] theorem leaveP1_cores : d.leaveP1.cores = d.cores := by unfold Dev.leaveP1; split <;> rfl
@[simp] theorem leaveP1_sem : d.leaveP1.sem = d.sem := by unfold Dev.leaveP1; split <;> rfl
@[simp] theorem leaveP1_bifurc : d.leaveP1.bifurc = d.bifurc := by unfold Dev.leaveP1; split <;> rfl
@[simp] theorem leaveP1_jobs : d.leaveP1.ks.jobs = d.ks.jobs := by unfold Dev.leaveP1; split <;> rfl
@[simp] theorem leaveP1_port (p : Port) : d.leaveP1.port p = d.port p := by
  unfold Dev.leaveP1; split <;> cases p <;> rfl

/-! ### Raises (R301, R302, R438) -/

/-- An event into a domain changes the crossing registers and the pins alone. -/
theorem eventInto_frame (dom n out : Nat) : ∃ x l, (d.eventInto dom n out).2 = { d with xings := x, plb := l } := by
  dsimp only [Dev.eventInto]
  split <;> exact ⟨_, _, rfl⟩

/-- An event that is merged is one whose line has another outstanding. -/
theorem eventInto_merged {dom n out : Nat} (h : (d.eventInto dom n out).1 = false) : 0 < out := by
  dsimp only [Dev.eventInto] at h
  split at h
  · next hm =>
    simp only [Bool.or_eq_true, Bool.and_eq_true, decide_eq_true_eq] at hm
    omega
  · cases h

/-- A raise changes the crossing registers, the pins and the collector alone. -/
theorem raise_frame (src inst : Nat) (det : BitVec 16) :
    ∃ x l f, d.raise src inst det = { d with xings := x, plb := l, flt := f } := by
  obtain ⟨x, l, he⟩ := eventInto_frame d domCollector (raiseLine src inst) (d.raisesOf src inst)
  unfold Dev.raise
  split
  · next h => rw [h] at he; subst he; exact ⟨x, l, _, rfl⟩
  · next h =>
    rw [h] at he
    subst he
    split <;> exact ⟨x, l, _, rfl⟩

@[simp] theorem raise_cores (src inst : Nat) (det : BitVec 16) : (d.raise src inst det).cores = d.cores := by
  obtain ⟨x, l, f, h⟩ := raise_frame d src inst det; rw [h]
@[simp] theorem raise_sem (src inst : Nat) (det : BitVec 16) : (d.raise src inst det).sem = d.sem := by
  obtain ⟨x, l, f, h⟩ := raise_frame d src inst det; rw [h]
@[simp] theorem raise_ks (src inst : Nat) (det : BitVec 16) : (d.raise src inst det).ks = d.ks := by
  obtain ⟨x, l, f, h⟩ := raise_frame d src inst det; rw [h]
@[simp] theorem raise_port (src inst : Nat) (det : BitVec 16) (p : Port) : (d.raise src inst det).port p = d.port p := by
  obtain ⟨x, l, f, h⟩ := raise_frame d src inst det; rw [h]; cases p <;> rfl

/-- A line with a raise that the collector has not taken is on its way to it. -/
theorem raising_of_raisesOf {src inst : Nat} (h : 0 < d.raisesOf src inst) : d.raising src inst := by
  obtain ⟨r, hr⟩ := List.exists_mem_of_length_pos h
  rw [List.mem_filter] at hr
  exact ⟨r, hr.1, by simpa using hr.2⟩

/-- A device with the collector's list extended raises what it raised. -/
theorem raising_addRaise {src inst : Nat} (r : Raise) (h : d.raising src inst) : (d.addRaise r).raising src inst := by
  obtain ⟨q, hq, hs⟩ := h
  exact ⟨q, List.mem_append_left _ hq, hs⟩

/-- After a raise its line is on its way to the collector: the raise itself, or the one with which it merged. -/
theorem raise_raising (src inst : Nat) (det : BitVec 16) : (d.raise src inst det).raising src inst := by
  obtain ⟨x, l, he⟩ := eventInto_frame d domCollector (raiseLine src inst) (d.raisesOf src inst)
  unfold Dev.raise
  split
  · exact ⟨_, List.mem_append_right _ (List.mem_singleton.mpr rfl), rfl, rfl⟩
  · next h =>
    have hr : d.raising src inst := raising_of_raisesOf d (eventInto_merged d (by rw [h]))
    rw [h] at he
    subst he
    split
    · exact raising_addRaise _ _ hr
    · exact hr

/-! ### A port's errors and what touches it (R313, R317, R322) -/

@[simp] theorem isPcie_onPort (p q : Port) (f : PortSt → PortSt) : (d.onPort p f).isPcie q = d.isPcie q := by cases q <;> simp [Dev.isPcie]

@[simp] theorem aerLog_cores (p : Port) : (d.aerLog p).cores = d.cores := by unfold Dev.aerLog; split <;> simp
@[simp] theorem aerLog_sem (p : Port) : (d.aerLog p).sem = d.sem := by unfold Dev.aerLog; split <;> simp
@[simp] theorem aerLog_ks (p : Port) : (d.aerLog p).ks = d.ks := by unfold Dev.aerLog; split <;> simp
@[simp] theorem aerLog_errUr (p : Port) : ((d.aerLog p).port p).errUr = (d.port p).errUr := by
  unfold Dev.aerLog; split <;> cases p <;> rfl

@[simp] theorem unsupported_cores (p : Port) : (d.unsupported p).cores = d.cores := by simp [Dev.unsupported]
@[simp] theorem unsupported_sem (p : Port) : (d.unsupported p).sem = d.sem := by simp [Dev.unsupported]
@[simp] theorem unsupported_ks (p : Port) : (d.unsupported p).ks = d.ks := by simp [Dev.unsupported]

/-- An Unsupported Request is counted. -/
@[simp] theorem unsupported_errUr (p : Port) : ((d.unsupported p).port p).errUr = satInc (d.port p).errUr := by simp [Dev.unsupported]

/-- An Unsupported Request is raised. -/
theorem unsupported_raising (p : Port) : (d.unsupported p).raising 704 (Port.num p) := raise_raising _ _ _ _

@[simp] theorem portTouched_cores (p : Port) : (d.portTouched p).cores = d.cores := by unfold Dev.portTouched; split <;> simp
@[simp] theorem portTouched_sem (p : Port) : (d.portTouched p).sem = d.sem := by unfold Dev.portTouched; split <;> simp
@[simp] theorem portTouched_jobs (p : Port) : (d.portTouched p).ks.jobs = d.ks.jobs := by unfold Dev.portTouched; split <;> simp
@[simp] theorem portTouched_isPcie (p q : Port) : (d.portTouched p).isPcie q = d.isPcie q := by
  unfold Dev.portTouched; split <;> cases q <;> simp [Dev.isPcie]

/-- A host's request leaves of its port all but the link's power state. -/
@[simp] theorem portTouched_port (p : Port) : (d.portTouched p).port p = { d.port p with l1 := false, l12 := false } := by
  unfold Dev.portTouched; split <;> simp

@[simp] theorem portTouched_hostMay (p : Port) (rid : BitVec 16) : (d.portTouched p).hostMay p rid = d.hostMay p rid := by
  simp [Dev.hostMay]

/-- A write that B0HOST lets through is made (R322). -/
theorem fromHost_of_hostMay {p : Port} {rid : BitVec 16} {f : Dev → Dev} (h : d.hostMay p rid = true) : d.fromHost p rid f = f d := by
  unfold Dev.hostMay at h
  rw [Bool.not_eq_true'] at h
  simp [Dev.fromHost, h]


/-! ### Device registers (R9, R236, R297, R306) -/

@[simp] theorem xing_onXing_other {n k : Nat} (f : Xing → Xing) (h : k ≠ n) : (d.onXing n f).xing k = d.xing k := by
  simp [Dev.xing, Dev.onXing, h]
@[simp] theorem queue_onQueue_other {q k : Nat} (f : Queue → Queue) (h : k ≠ q) : (d.onQueue q f).queue k = d.queue k := by
  simp [Dev.onQueue, h]

/-- The crossing registers stand in a domain that never sleeps. -/
theorem wordAsleep_xing {n : Nat} (h : n < 154) : d.wordAsleep (0x08004000 + n) = false := by
  have hc : centreDomain (0x08004000 + n) = none := by
    unfold centreDomain
    repeat rw [if_neg (by omega)]
  unfold Dev.wordAsleep
  rw [if_neg (by simp [isDeck]; omega), if_neg (by simp [isCode]; omega), if_neg (by simp [isBentSram]; omega), if_neg (by omega),
    if_neg (by omega), hc]

/-- A write of a crossing register clears UNSTABLE and OVR where it has ones (R306). -/
theorem regWrite_xing (req : ReqId) {n : Nat} (v : W32) (h : n < 154) : d.regWrite req (0x08004000 + n) v =
    d.onXing n (fun x => { x with unstable := x.unstable && !bitOf v 31, ovr := x.ovr && !bitOf v 30 }) := by
  unfold Dev.regWrite
  iterate 6 rw [if_neg (by omega)]
  rw [if_pos (by omega), Nat.add_sub_cancel_left]

/-- The register word of a queue's error counts (R297). -/
def queErrWord (q : Nat) : Nat := 0x08100000 + q / 128 * 0x10000 + 0x1000 + 16 * (q % 128) + 7

theorem queErrWord_span {q : Nat} (h : q < 1024) : (queErrWord q - 0x08100000) / 0x10000 = q / 128 := by unfold queErrWord; omega

/-- A span's register block sleeps with its span (R236). -/
theorem wordAsleep_queErr {q : Nat} (h : q < 1024) : d.wordAsleep (queErrWord q) = (d.span (q / 128)).asleep := by
  have hs := queErrWord_span h
  have hw : 0x08100000 ≤ queErrWord q ∧ queErrWord q < 0x08180000 := by unfold queErrWord; omega
  unfold Dev.wordAsleep
  rw [if_neg (by simp [isDeck]; omega), if_neg (by simp [isCode]; omega), if_neg (by simp [isBentSram]; omega), if_neg (by omega),
    if_pos hw, hs]

/-- A read of a queue's error counts clears them (R297). -/
theorem regClear_queErr {q : Nat} (h : q < 1024) : d.regClear (queErrWord q) = d.onQueue q (fun x => { x with ce := 0#16, ue := 0#16 }) := by
  have hs := queErrWord_span h
  have hw : 0x08100000 ≤ queErrWord q ∧ queErrWord q < 0x08180000 := by unfold queErrWord; omega
  have ho : queErrWord q % 0x10000 = 0x1000 + 16 * (q % 128) + 7 := by unfold queErrWord; omega
  unfold Dev.regClear
  rw [if_neg (by omega), if_pos hw, hs, ho]
  unfold Dev.spanClear
  iterate 4 rw [if_neg (by omega)]
  rw [if_pos (by omega), show 128 * (q / 128) + (0x1000 + 16 * (q % 128) + 7 - 0x1000) / 16 = q by omega,
    show (0x1000 + 16 * (q % 128) + 7) % 16 = 7 by omega]
  rfl

/-! ### BAR0 (R313) -/

@[simp] theorem bar0Clear_cores (p : Port) (off : Nat) : (d.bar0Clear p off).cores = d.cores := by
  unfold Dev.bar0Clear; (repeat' split) <;> simp
@[simp] theorem bar0Clear_i3cOff (p q : Port) (off : Nat) : ((d.bar0Clear p off).port q).i3cOff = (d.port q).i3cOff := by
  unfold Dev.bar0Clear; (repeat' split) <;> cases p <;> cases q <;> rfl

end Sys2Proof.Machine
end

section
/-! SUPPORT. What an access to a register gives, place by place: a device register, a port's BAR0, the I3C target. -/
namespace Sys2Proof.Machine

variable (d : Dev)

/-! ### Device registers (R9, R236) -/

/-- A register whose domain is awake takes a write. -/
theorem devStore_awake (req : ReqId) {w : Nat} (v : W32) (hw : isDevReg w = true) (ha : d.wordAsleep w = false) :
    d.devStore req w v = d.regWrite req w v := by simp [Dev.devStore, hw, ha]

/-- A read of a register whose domain is awake clears its RC fields. -/
theorem devLoad_awake (req : ReqId) {w : Nat} (hw : isDevReg w = true) (ha : d.wordAsleep w = false) :
    d.devLoad req w = d.regClear w := by simp [Dev.devLoad, hw, ha]

/-- A write of a crossing register (R306). -/
theorem storeAt_xing (req : ReqId) {n : Nat} (v : W32) (h : n < 154) : d.storeAt v (.dev req (BitVec.ofNat 32 (0x08004000 + n))) =
    d.onXing n (fun x => { x with unstable := x.unstable && !bitOf v 31, ovr := x.ovr && !bitOf v 30 }) := by
  have hw : (BitVec.ofNat 32 (0x08004000 + n)).toNat = 0x08004000 + n := by rw [BitVec.toNat_ofNat]; omega
  have hr : isDevReg (0x08004000 + n) = true := by simp [isDevReg]; omega
  simp only [Dev.storeAt, hw]
  rw [devStore_awake d req v hr (wordAsleep_xing d h), regWrite_xing d req v h]

/-- A read of a queue's error counts (R297). -/
theorem loadAt_queErr (req : ReqId) {q : Nat} (h : q < 1024) (ha : (d.span (q / 128)).asleep = false) :
    d.loadAt (.dev req (BitVec.ofNat 32 (queErrWord q))) = d.onQueue q (fun x => { x with ce := 0#16, ue := 0#16 }) := by
  have hw : (BitVec.ofNat 32 (queErrWord q)).toNat = queErrWord q := by rw [BitVec.toNat_ofNat]; unfold queErrWord; omega
  have hr : isDevReg (queErrWord q) = true := by simp only [isDevReg, Bool.and_eq_true, decide_eq_true_eq]; unfold queErrWord; omega
  simp only [Dev.loadAt, hw]
  rw [devLoad_awake d req hr ((wordAsleep_queErr d h).trans ha), regClear_queErr d h]

/-! ### BAR0 (R313, R321, R322) -/

variable {p : Port} {rid off : BitVec 16} {n : BitVec 13}

/-- A read that a port takes. -/
theorem loadAt_bar0 (rid : BitVec 16) (n : BitVec 13) (h : d.bar0Takes p off.toNat false = true) :
    d.loadAt (.bar0 p rid off n) = (d.portTouched p).bar0Load p off.toNat n.toNat := by simp [Dev.loadAt, h]

/-- A write that a port takes and B0HOST lets through: an aligned word is written, any other access is an Unsupported Request. -/
theorem storeAt_bar0 (n : BitVec 13) (v : W32) (h : d.bar0Takes p off.toNat true = true) (hm : d.hostMay p rid = true) :
    d.storeAt v (.bar0 p rid off n) =
      if aWord off.toNat n.toNat then (d.portTouched p).bar0Write p off.toNat v else (d.portTouched p).unsupported p := by
  simp only [Dev.storeAt, h, if_true, Dev.bar0Store]
  exact fromHost_of_hostMay _ ((portTouched_hostMay d p rid).trans hm)

/-- An aligned read completes with the word. -/
theorem bar0Load_word {o b : Nat} (h : aWord o b = true) :
    d.bar0Load p o b = (d.bar0Clear p o).onPort p (fun t => t.complete [rawWord (d.bar0Read p o)] false) := by simp [Dev.bar0Load, h]

/-- A read of another size or place is an Unsupported Request. -/
theorem bar0Load_other {o b : Nat} (h : aWord o b = false) : d.bar0Load p o b = d.unsupportedRead p := by simp [Dev.bar0Load, h]

@[simp] theorem unsupportedRead_cores (p : Port) : (d.unsupportedRead p).cores = d.cores := by simp [Dev.unsupportedRead]

theorem unsupportedRead_port (p : Port) : (d.unsupportedRead p).port p =
    { (d.unsupported p).port p with lastCpl := [], lastCplUr := true, lastCplEp := false } := by simp [Dev.unsupportedRead]

theorem unsupportedRead_raising (p : Port) : (d.unsupportedRead p).raising 704 (Port.num p) := by
  have h := unsupported_raising d p
  simpa only [Dev.raising, Dev.unsupportedRead, Dev.onPort_flt] using h

/-- A write of a word of the request buffer (R337, R341). -/
theorem bar0Write_reqBuf {o : Nat} (v : W32) (hl : 0x2000 ≤ o) (hh : o < 0x3000) :
    d.bar0Write p o v = d.onPort p (fun t => t.putReq ((o - 0x2000) / 4) v) := by
  unfold Dev.bar0Write
  iterate 5 rw [if_neg (by omega)]
  rw [if_pos ⟨hl, hh⟩]

/-- A port that is not BUSY keeps what is written to its request buffer. -/
theorem putReq_free {t : PortSt} (k : Nat) (v : W32) (h : t.busy = false) : t.putReq k v = { t with reqBuf := Tab.put t.reqBuf k v } := by
  simp [PortSt.putReq, h]

/-! ### The I3C target (R329) -/

theorem i3cNext_zero (o : BitVec 16) : i3cNext o 0 = o := by
  unfold i3cNext
  split
  · rw [Nat.add_zero, Nat.mod_eq_of_lt (by assumption), BitVec.ofNat_toNat, BitVec.setWidth_eq]
  · rfl

theorem leNat_pair (lo hi : Byte) : BitVec.ofNat 16 (leNat [lo, hi] 0 2) = hi ++ lo := by
  apply BitVec.eq_of_toNat_eq
  rw [BitVec.toNat_ofNat, BitVec.toNat_append, ← Nat.shiftLeft_add_eq_or_of_lt lo.isLt, Nat.shiftLeft_eq]
  have := lo.isLt
  have := hi.isLt
  simp [leNat, byteAt]
  omega

/-- With nothing of the last transfer waiting, nothing flows. -/
theorem i3cFlow_rest_nil (h : d.portB.i3cRest = []) : d.i3cFlow = d := by simp [Dev.i3cFlow, h]

/-- A transfer that writes an offset alone sets it (R329). -/
theorem i3cWrite_offset (lo hi : Byte) :
    d.i3cWrite [lo, hi] = (d.onPort .b (fun t => { t with i3cRest := [] })).onPort .b (fun t => { t with i3cOff := hi ++ lo }) := by
  simp [Dev.i3cWrite, leNat_pair, i3cWords, Dev.i3cPut, i3cNext_zero]

theorem i3cBytes_length (o : BitVec 16) (n : Nat) : (d.i3cBytes o n).1.length = n := by
  induction n with
  | zero => rfl
  | succ n ih => simp [Dev.i3cBytes, ih]

theorem i3cBytes_cores (o : BitVec 16) (n : Nat) : (d.i3cBytes o n).2.cores = d.cores := by
  induction n with
  | zero => rfl
  | succ n ih => simp only [Dev.i3cBytes]; split <;> simp [ih]

@[simp] theorem i3cRead_cores (n : Nat) : (d.i3cRead n).cores = d.cores := by
  simp only [Dev.i3cRead, Dev.onPort_cores]
  split <;> simp [i3cBytes_cores]

/-- A read transfer gives its bytes and moves the offset on (R329). -/
theorem i3cRead_port (n : Nat) : ((d.i3cRead n).port .b).lastCpl.length = n ∧ ((d.i3cRead n).port .b).i3cOff = i3cNext (d.port .b).i3cOff n := by
  simp [Dev.i3cRead, i3cBytes_length]

end Sys2Proof.Machine
end

section
/-! PROOFS. The statement on register accesses and the I3C target. -/
namespace Sys2Proof.Proofs
open Sys2Proof.Machine

variable {s : State}

/-- A calm Keystone, a write of a register: the device's own change is the whole change. -/
theorem exec_registerWrite {loc : RegLoc} {v : W32} (h : (s.dev.storeAt v loc).calm) :
    exec (.registerWrite loc v) s = .next { s with dev := (s.dev.storeAt v loc).seen s.dev } := by
  change s.commit (settleEff s.mem (s.dev.storeAt v loc, [])) = _
  rw [settleEff_calm s.mem h]
  rfl

theorem exec_readClear (loc : RegLoc) : exec (.readClear loc) s = .next { s with dev := (s.dev.loadAt loc).seen s.dev } := rfl

theorem crossingWrite_clears (req : ReqId) (n : Nat) (v : W32) (hn : n < 154) (hc : s.dev.calm) :
    ∃ t, exec (.registerWrite (.dev req (BitVec.ofNat 32 (0x08004000 + n))) v) s = .next t ∧ Keeps s t
      ∧ t.dev.xing n = { s.dev.xing n with unstable := (s.dev.xing n).unstable && !bitOf v 31, ovr := (s.dev.xing n).ovr && !bitOf v 30 }
      ∧ ∀ k, k ≠ n → t.dev.xing k = s.dev.xing k := by
  have he := storeAt_xing s.dev req v hn
  refine ⟨_, exec_registerWrite (by rw [he]; exact hc), ?_⟩
  rw [he]
  exact ⟨keeps_of_cores rfl, by simp, fun k hk => by simp [hk]⟩

theorem queueErrRead_clears (req : ReqId) (q : Nat) (hq : q < 1024) (ha : (s.dev.span (q / 128)).asleep = false) :
    ∃ t, exec (.readClear (.dev req (BitVec.ofNat 32 (queErrWord q)))) s = .next t ∧ Keeps s t
      ∧ t.dev.queue q = { s.dev.queue q with ce := 0#16, ue := 0#16 } ∧ ∀ k, k ≠ q → t.dev.queue k = s.dev.queue k := by
  refine ⟨_, exec_readClear _, ?_⟩
  rw [loadAt_queErr s.dev req hq ha]
  exact ⟨keeps_of_cores rfl, by simp, fun k hk => by simp [hk]⟩

section
variable {p : Port} {off : BitVec 16}

theorem bar0Read_completes (rid : BitVec 16) (ht : s.dev.bar0Takes p off.toNat false = true) (ho : off.toNat % 4 = 0) :
    ∃ t, exec (.readClear (.bar0 p rid off 4#13)) s = .next t ∧ Keeps s t ∧ (t.dev.port p).lastCplUr = false
      ∧ (t.dev.port p).lastCpl.map (·.pay) = [(s.dev.portTouched p).bar0Read p off.toNat] := by
  refine ⟨_, exec_readClear _, ?_⟩
  rw [loadAt_bar0 _ _ _ ht, bar0Load_word _ (by simp [aWord, ho])]
  exact ⟨keeps_of_cores (by simp), by simp [PortSt.complete], by simp [PortSt.complete, rawWord]⟩

theorem bar0Read_unsupported (rid : BitVec 16) {n : BitVec 13} (ht : s.dev.bar0Takes p off.toNat false = true) (hw : aWord off.toNat n.toNat = false) :
    ∃ t, exec (.readClear (.bar0 p rid off n)) s = .next t ∧ Keeps s t ∧ (t.dev.port p).lastCplUr = true
      ∧ (t.dev.port p).errUr = satInc (s.dev.port p).errUr ∧ t.dev.raising 704 (Port.num p) := by
  refine ⟨_, exec_readClear _, ?_⟩
  rw [loadAt_bar0 _ _ _ ht, bar0Load_other _ hw]
  exact ⟨keeps_of_cores (by simp), by simp [unsupportedRead_port], by simp [unsupportedRead_port], unsupportedRead_raising _ _⟩

variable {rid : BitVec 16}

theorem bar0Write_kept (v : W32) (hc : s.dev.calm) (ht : s.dev.bar0Takes p off.toNat true = true) (hm : s.dev.hostMay p rid = true)
    (hl : 0x2000 ≤ off.toNat) (hh : off.toNat < 0x3000) (ho : off.toNat % 4 = 0) (hb : (s.dev.port p).busy = false) :
    ∃ t, exec (.registerWrite (.bar0 p rid off 4#13) v) s = .next t ∧ Keeps s t
      ∧ Tab.find 0#32 (t.dev.port p).reqBuf ((off.toNat - 0x2000) / 4) = v := by
  have he := storeAt_bar0 s.dev 4#13 v ht hm
  rw [if_pos (by simp [aWord, ho]), bar0Write_reqBuf _ v hl hh] at he
  have hb' : ((s.dev.portTouched p).port p).busy = false := by simp [hb]
  refine ⟨_, exec_registerWrite (by rw [he]; simpa [Dev.calm] using hc), ?_⟩
  rw [he]
  exact ⟨keeps_of_cores (by simp), by rw [Dev.port_seen, Dev.port_onPort, putReq_free _ v hb', Tab.find_put_self]⟩

theorem bar0Write_unsupported (v : W32) {n : BitVec 13} (hc : s.dev.calm) (ht : s.dev.bar0Takes p off.toNat true = true)
    (hm : s.dev.hostMay p rid = true) (hw : aWord off.toNat n.toNat = false) :
    ∃ t, exec (.registerWrite (.bar0 p rid off n) v) s = .next t ∧ Keeps s t ∧ t.dev.sem = s.dev.sem
      ∧ (t.dev.port p).errUr = satInc (s.dev.port p).errUr ∧ t.dev.raising 704 (Port.num p) := by
  have he := storeAt_bar0 s.dev n v ht hm
  rw [if_neg (by simp [hw])] at he
  refine ⟨_, exec_registerWrite (by rw [he]; simpa [Dev.calm] using hc), ?_⟩
  rw [he]
  exact ⟨keeps_of_cores (by simp), by simp, by simp, unsupported_raising _ _⟩

end

theorem i3cAddress_assigned (a : BitVec 7) (hl : s.dev.i3cLive = true) :
    ∃ t, exec (.i3cDynamicAddress a) s = .next t ∧ Keeps s t ∧ t.dev.portB.i3cAddr = some a := by
  have he : exec (.i3cDynamicAddress a) s = s.keep (s.dev.leaveP1.onPort .b (fun t => { t with i3cAddr := some a })) := by
    change execI3cDynamicAddress a s = _
    simp only [execI3cDynamicAddress, hl, if_true]
  exact ⟨_, he, keeps_of_cores (by simp), rfl⟩

theorem i3cOffset_set (lo hi : Byte) (hl : s.dev.i3cLive = true) (ha : s.dev.portB.i3cAddr.isSome = true) (hr : s.dev.portB.i3cRest = []) :
    ∃ t, exec (.i3cPrivateWrite [lo, hi]) s = .next t ∧ Keeps s t ∧ t.dev.portB.i3cOff = hi ++ lo := by
  have he : exec (.i3cPrivateWrite [lo, hi]) s = s.keep (s.dev.leaveP1.i3cWrite [lo, hi]) := by
    have hready : s.dev.i3cReady = true := by simp [Dev.i3cReady, Dev.i3cHears, hl, ha, hr]
    change execI3cPrivateWrite [lo, hi] s = _
    simp only [execI3cPrivateWrite, i3cFlow_rest_nil _ hr, hready, if_true]
  rw [i3cWrite_offset] at he
  exact ⟨_, he, keeps_of_cores (by simp), rfl⟩

theorem i3cRead_answered (n : BitVec 13) (hl : s.dev.i3cLive = true) (ha : s.dev.portB.i3cAddr.isSome = true) (hr : s.dev.portB.i3cRest = [])
    (hd : s.dev.portDrained .b = true ∨ s.dev.portB.i3cOff.toNat + n.toNat ≤ 0x1000) :
    ∃ t, exec (.i3cPrivateRead n) s = .next t ∧ Keeps s t ∧ t.dev.portB.lastCpl.length = n.toNat
      ∧ t.dev.portB.i3cOff = i3cNext s.dev.portB.i3cOff n.toNat := by
  have he : exec (.i3cPrivateRead n) s = s.keep (s.dev.leaveP1.i3cRead n.toNat) := by
    have hears : s.dev.i3cHears = true := by simp [Dev.i3cHears, hl, ha]
    have hserved : (s.dev.i3cStatus n.toNat || (s.dev.i3cReady && s.dev.portDrained .b)) = true := by
      simpa [Dev.i3cStatus, Dev.i3cReady, hears, hr] using hd.symm
    change execI3cPrivateRead n s = _
    simp only [execI3cPrivateRead, i3cFlow_rest_nil _ hr, hears, hserved, Bool.and_self, if_true]
  obtain ⟨hlen, hoff⟩ := i3cRead_port s.dev.leaveP1 n.toNat
  rw [leaveP1_port] at hoff
  exact ⟨_, he, keeps_of_cores (by simp), hlen, hoff⟩

/-- Settles O55, access by access: each meets its place awake, or its port taking it, and does what the register's own lemma says. -/
theorem registersAndI3c : Obligations.RegistersAndI3c := by
  unfold Obligations.RegistersAndI3c
  refine ⟨fun s req => ⟨fun n v hn hc => crossingWrite_clears req n v hn hc, fun q hq _ ha => queueErrRead_clears req q hq ha,
    fun p rid off n => ⟨fun ht => ⟨?_, bar0Read_unsupported rid ht⟩, fun hc ht hm => ⟨?_, fun v => bar0Write_unsupported v hc ht hm⟩⟩⟩,
    fun s hl => ⟨fun a => i3cAddress_assigned a hl, fun ha hr => ⟨fun lo hi => i3cOffset_set lo hi hl ha hr, fun n => i3cRead_answered n hl ha hr⟩⟩⟩
  · rintro ho rfl
    exact bar0Read_completes rid ht ho
  · rintro v hl hh ho rfl hb
    exact bar0Write_kept v hc ht hm hl hh ho hb

end Sys2Proof.Proofs
end

section
/-! PROOFS. The statement on the commands that only report, which fails: a state in which a transaction under way already bears the number that the part
gives out next. The read that the security engine sends for SEC_ATTEST takes the same number and waits behind it; the grant that moves the other
transaction on takes every entry of that number off the list and puts back the other alone (Dev.pass). The engine's read is lost, the engine counts
as having read all that it was to read, and SEC_ATTEST is answered where the statement has it wait. -/
namespace Sys2Proof.Proofs
open Sys2Proof.Machine

/-- A read of port A that waits at its first arbiter and bears number 0. -/
def strayRead : Txn := { newTxn 0 (portReq .a) 1#2 .rd 0x01000000#32 .discard with st := .path 0 }

/-- A loop image on Keystone's list, small enough for the engine to read it in one transaction. -/
def smallImage : Image := { addr := 0x02040000#32, len := 32, type := 2#8, entry := 0#32, verified := true }

/-- A part in RUN that has given out no number yet, with the stray read under way; port A asks for a report on the loop images (SELECT 2). -/
def clashDev : Dev :=
  { mode := { mode := mRun }, ks := { firmware := true, images := [smallImage] }, txns := [strayRead],
    portA := { busy := true, reqBuf := [(0, 0x00FF0801#32), (2, 36#32), (12, 2#32)] } }

def clashState : State := { State.reset with dev := clashDev }

theorem clash_admits : clashDev.admits (.port .a) { op := 0x0801, len := exact 36, modes := modesAll } :=
  ⟨by unfold Dev.takes; decide +kernel, by decide +kernel, by decide +kernel, by decide +kernel, by decide +kernel, by decide +kernel,
   by decide +kernel, by decide +kernel, by decide +kernel, by decide +kernel, nofun, nofun⟩

theorem clash_engineIdle : clashDev.engineIdle := by unfold Dev.engineIdle; decide +kernel

theorem clash_measures : clashDev.measured [] (clashDev.pay8 (.port .a) 32) ≠ [] := by decide +kernel

/-- Whether port A's request still waits after a SEC_ATTEST. -/
def waitsAfterAttest (s : State) : Bool :=
  match exec (.secAttest (.port .a)) s with
  | .next t => t.dev.waiting (.port .a)
  | .fault _ | .refused _ => true

/-- SEC_ATTEST is answered at once: the engine's only read is gone. -/
theorem clash_answered : waitsAfterAttest clashState = false := by decide +kernel

/-- Refutes O35: where a transaction under way bears the next number to be given out, the security engine's read for SEC_ATTEST is lost and the command
does not wait for it. -/
theorem not_commandsReport : ¬ Obligations.CommandsReport := by
  unfold Obligations.CommandsReport
  intro h
  obtain ⟨-, -, -, -, -, hattest, -⟩ := h clashState (.port .a)
  obtain ⟨-, -, hwaits⟩ := hattest (by decide +kernel) (by decide +kernel)
  obtain ⟨t, ht, -, hwait, -⟩ := hwaits clash_admits clash_engineIdle clash_measures
  have hw : waitsAfterAttest clashState = true := by unfold waitsAfterAttest; rw [ht]; exact hwait
  rw [clash_answered] at hw
  cases hw

end Sys2Proof.Proofs
end

section
/-! PROOFS. The statement on the machine right after reset. -/
namespace Sys2Proof.Proofs
open Sys2Proof.Machine

/-- Settles O4, field by field: nothing has been written since the reset, so every table is empty and reads its default. -/
theorem resetState : Obligations.ResetState := by
  unfold Obligations.ResetState
  exact ⟨rfl, rfl, rfl, fun c => rfl, rfl, rfl, rfl, rfl, rfl, rfl⟩

end Sys2Proof.Proofs
end

section
/-! SUPPORT. What the access of a core to its own bent's SRAM, a transaction on a free way and a trap leave alone. -/
namespace Sys2Proof.Machine

variable (d : Dev)

/-! ### Cores and Keystone apart -/

/-- From d to e no core changed, and nothing of Keystone. -/
def Dev.sameCores (d e : Dev) : Prop := e.cores = d.cores ∧ e.ks = d.ks

theorem Dev.sameCores.refl : d.sameCores d := ⟨rfl, rfl⟩

theorem Dev.sameCores.trans {d e f : Dev} (h : d.sameCores e) (g : e.sameCores f) : d.sameCores f := ⟨g.1.trans h.1, g.2.trans h.2⟩

theorem Dev.sameCores.core {d e : Dev} (h : d.sameCores e) (n : Nat) : e.core n = d.core n := by
  unfold Dev.core
  rw [h.1]

theorem Dev.sameCores.calm {d e : Dev} (h : d.sameCores e) (hd : d.calm) : e.calm := (congrArg Keystone.jobs h.2).trans hd

theorem Dev.sameCores.foldl {α : Type} {f : Dev → α → Dev} (h : ∀ (x : Dev) a, x.sameCores (f x a)) (l : List α) : d.sameCores (l.foldl f d) := by
  induction l generalizing d with
  | nil => exact .refl d
  | cons a l ih => exact (h d a).trans (ih (f d a))

theorem raise_sameCores (src inst : Nat) (det : BitVec 16) : d.sameCores (d.raise src inst det) := ⟨raise_cores d _ _ _, raise_ks d _ _ _⟩

/-- The registers of a target are those of its span. -/
theorem onTarget_frame (g : Nat × Nat) (f : Target → Target) : ∃ sp, d.onTarget g f = { d with spans := sp } := by
  unfold Dev.onTarget
  split <;> exact ⟨_, rfl⟩

theorem onTarget_sameCores (g : Nat × Nat) (f : Target → Target) : d.sameCores (d.onTarget g f) := by
  obtain ⟨sp, h⟩ := onTarget_frame d g f
  rw [h]
  exact ⟨rfl, rfl⟩

/-! ### The end of waiting jobs -/

/-- With no job waiting, an effect ends none. -/
theorem settleEff_of_calm (m : List Host.Cell) {e : Eff} (h : e.1.calm) : settleEff m e = e := by
  have hs : e.1.settle (applyAll m e.2) = (e.1, []) := by
    unfold Dev.settle
    rw [show e.1.ks.jobs = [] from h]
    split <;> rfl
  simp [settleEff, hs]

/-- With no job waiting, none can end. -/
theorem endJobs_calm {d : Dev} (pick : Job → Bool) (st det : BitVec 16) (h : d.calm) : d.endJobs pick st det = d := by
  have hj : d.ks.jobs = [] := h
  have hk : d.onKs (fun k => { k with jobs := [] }) = d := by
    unfold Dev.onKs
    rw [← hj]
  simpa [Dev.endJobs, hj, Dev.onKs] using hk

/-! ### The arbiter of a bank (R224, R225, R247) -/

/-- A transaction without what grants to others at its arbiter have left on it. -/
def Txn.unpassed (u : Txn) : Txn := { u with passed := 0, passedBy := [], delayed := false }

theorem Txn.overtaken_unpassed (u t : Txn) (iu it : ReqId) : (u.overtaken t iu it).unpassed = u.unpassed := by
  unfold Txn.overtaken Txn.turn
  repeat' split
  all_goals rfl

/-- From d to e an arbiter has granted an access or left it to wait: transactions were passed, and nothing else changed but the accesses that wait at
the bents' banks and the targets' counts. -/
def Dev.arbitrated (d e : Dev) : Prop :=
  ∃ ts ns sp, e = { d with txns := ts, near := ns, spans := sp } ∧ ts.map Txn.unpassed = d.txns.map Txn.unpassed

theorem Dev.arbitrated.onTarget {d e : Dev} (h : d.arbitrated e) (g : Nat × Nat) (f : Target → Target) : d.arbitrated (e.onTarget g f) := by
  obtain ⟨ts, ns, sp, rfl, hts⟩ := h
  obtain ⟨sp', hs⟩ := onTarget_frame { d with txns := ts, near := ns, spans := sp } g f
  exact ⟨ts, ns, sp', hs, hts⟩

theorem passRivals_arbitrated (t : Txn) (rival : Txn → Bool) : d.arbitrated (d.passRivals t rival) := by
  have hts : (d.txns.map (fun u => if rival u then u.overtaken t u.req t.req else u)).map Txn.unpassed = d.txns.map Txn.unpassed := by
    rw [List.map_map]
    refine List.map_congr_left fun u _ => ?_
    dsimp only [Function.comp]
    split
    · exact Txn.overtaken_unpassed u t _ _
    · rfl
  have hpassed : d.arbitrated { d with
      txns := d.txns.map (fun u => if rival u then u.overtaken t u.req t.req else u)
      near := d.near.map (fun u => if u.sameArb t then u.overtaken t u.req t.req else u) } := ⟨_, _, _, rfl, hts⟩
  unfold Dev.passRivals
  dsimp only
  split
  · split
    · exact hpassed.onTarget _ _
    · exact hpassed
  · exact hpassed

theorem nearAccess_arbitrated (t : Txn) : d.arbitrated (d.nearAccess t).2 := by
  unfold Dev.nearAccess
  dsimp only
  split
  · obtain ⟨ts, ns, sp, he, hts⟩ := passRivals_arbitrated { d with near := d.near.filter (fun u => d.nearLive u && u.req != t.req) } t
      (fun u => u.buffered && u.sameArb t)
    exact ⟨ts, ns, sp, he, hts⟩
  · exact ⟨_, _, _, rfl, rfl⟩

/-- An access of one word claims one bank (R248). -/
theorem nearClaim_one (c seq : Nat) (cls : BitVec 2) (ty : TxnType) (w : Nat) :
    d.nearClaim c seq cls ty [w] = d.nearAccess (d.nearTxn c seq cls ty w) := by
  generalize hx : d.nearAccess (d.nearTxn c seq cls ty w) = x
  obtain ⟨g, e⟩ := x
  cases g <;> simp [Dev.nearClaim, bankWords, hx]

theorem nearClaim_arbitrated (c seq : Nat) (cls : BitVec 2) (ty : TxnType) (w : Nat) : d.arbitrated (d.nearClaim c seq cls ty [w]).2 := by
  rw [nearClaim_one]
  exact nearAccess_arbitrated d _

/-! ### Bent SRAM (R243, R244) -/

theorem sramOf_bent {w : Nat} (h : isBentSram w = true) : ∃ m off, sramOf w = some (m, off) := by simp [sramOf, h]

/-- A word of the bents' SRAM is told by 32 bits. -/
theorem toNat_bentSram {w : Nat} (h : isBentSram w = true) : (BitVec.ofNat 32 w).toNat = w := by
  simp only [isBentSram, Bool.and_eq_true, decide_eq_true_eq] at h
  rw [BitVec.toNat_ofNat]
  omega

theorem foundAt_good {w : Nat} {f : Found} (hp : w ∉ d.poison) (hf : f = .good) : d.foundAt w f = .good := by
  simp [Dev.foundAt, Dev.poisoned, hp, hf]

theorem foundAt_bad {w : Nat} {f : Found} (h : w ∈ d.poison ∨ f = .uncorrectable) : d.foundAt w f = .uncorrectable := by
  rcases h with h | h <;> simp [Dev.foundAt, Dev.poisoned, h]

theorem onSram_sameCores (m : SramRef) (f : Sram → Sram) : d.sameCores (d.onSram m f) := by
  cases m <;> exact ⟨rfl, rfl⟩

theorem poisonWord_sameCores (w : Nat) : d.sameCores (d.poisonWord w) := ⟨rfl, rfl⟩

theorem startRepair_sameCores (m : SramRef) (k row : Nat) : d.sameCores (d.startRepair m k row) := by
  unfold Dev.startRepair
  dsimp only
  split
  · exact .refl d
  · split
    · exact onSram_sameCores d m _
    · exact raise_sameCores d _ _ _

/-- An uncorrectable error is counted, recorded and raised; the SRAM itself stops no core. -/
theorem sramBad_sameCores (m : SramRef) (off : Nat) (kind : BitVec 4) (req : ReqId) : d.sameCores (d.sramBad m off kind req) := by
  unfold Dev.sramBad
  dsimp only
  refine Dev.sameCores.trans ?_ (startRepair_sameCores _ _ _ _)
  refine Dev.sameCores.trans ?_ (raise_sameCores _ _ _ _)
  exact (onSram_sameCores d m _).trans (poisonWord_sameCores _ _)

/-- A part written to a word whose stored bits are good is applied. -/
theorem sramWrite_good {p : WordPart} {f : Found} (req : ReqId) (hb : isBentSram p.addr.toNat = true) (hp : p.addr.toNat ∉ d.poison) (hf : f = .good) :
    ∃ x, d.sramWrite p f req = (true, { d with poison := x }, [.word p.addr.toNat p.lanes p.tagWr p.word]) := by
  obtain ⟨m, off, hm⟩ := sramOf_bent hb
  unfold Dev.sramWrite
  simp only [hm, foundAt_good d hp hf]
  split <;> exact ⟨_, rfl⟩

/-- A part of a word that is uncorrectable is refused. -/
theorem sramWrite_refused {p : WordPart} {f : Found} (req : ReqId) (hb : isBentSram p.addr.toNat = true)
    (hf : p.addr.toNat ∈ d.poison ∨ f = .uncorrectable) (hw : wholePart p = false) :
    ∃ e, d.sramWrite p f req = (false, e, []) ∧ d.sameCores e := by
  obtain ⟨m, off, hm⟩ := sramOf_bent hb
  refine ⟨d.sramBad m off 2#4 req, ?_, sramBad_sameCores d m off _ _⟩
  unfold Dev.sramWrite
  simp [hm, foundAt_bad d hf, hw]

/-! ### A transaction on a free way (R216, R217) -/

theorem cross_sameCores (t : Txn) (i : Nat) : d.sameCores (d.cross t i) := by
  unfold Dev.cross Dev.onChan
  repeat' split
  all_goals exact ⟨rfl, rfl⟩

theorem gateSeen_sameCores (t : Txn) (g : Gate) : d.sameCores (d.gateSeen t g) := by
  cases g with
  | link b => exact ⟨rfl, rfl⟩
  | hub s => exact ⟨rfl, rfl⟩
  | centre => exact .refl d
  | port p =>
    unfold Dev.gateSeen
    cases hubOf t.req <;> dsimp only <;> (repeat' split) <;> simp [Dev.sameCores]

/-- A transaction that reaches a target inside the part changes the list of transactions and the counts of the target. -/
theorem land_sameCores {t : Txn} {g : Nat × Nat} (h : t.target = some g) : d.sameCores (d.land t) := by
  unfold Dev.land
  simp only [h]
  refine Dev.sameCores.trans ?_ (onTarget_sameCores _ _ _)
  split
  · exact Dev.sameCores.trans (e := { d with txns := d.txns ++ [t.landed d g] }) ⟨rfl, rfl⟩ (onTarget_sameCores _ _ _)
  · exact ⟨rfl, rfl⟩

/-- On a free way no arbiter holds a transaction up, and its target has room. -/
theorem clearWay_of_freeWay {t : Txn} {g : Nat × Nat} (hw : d.freeWay) (hg : t.target = some g) : d.clearWay t = true := by
  simp only [Dev.clearWay, Dev.roomAtTarget, hg, Bool.and_eq_true, Bool.not_eq_true', List.any_eq_false, Bool.or_eq_true, decide_eq_true_eq]
  exact ⟨fun u hu => by simp [(hw.1 u hu).1], .inr (hw.2.1 g)⟩

/-- A transaction put on a free way changes no core, and nothing of Keystone. -/
theorem arrive_sameCores {t : Txn} {g : Nat × Nat} (hw : d.freeWay) (hg : t.target = some g) : d.sameCores (d.arrive t) := by
  simp only [Dev.arrive, clearWay_of_freeWay d hw hg, if_true, hw.2.2, Bool.false_and, Bool.false_eq_true, if_false]
  refine Dev.sameCores.trans ?_ (land_sameCores _ hg)
  exact (Dev.sameCores.foldl d (fun x i => cross_sameCores x t i) _).trans (.foldl _ (fun x g => gateSeen_sameCores x t g) _)

/-- A transaction sent on a free way changes no core and no waiting job. -/
theorem issueTxn_cores {f : Nat → Txn} {g : Nat × Nat} (hw : d.freeWay) (hg : (f d.nextId).target = some g)
    (he : entryLimit (f d.nextId).req = none) : (d.issueTxn f).cores = d.cores ∧ (d.issueTxn f).ks.jobs = d.ks.jobs := by
  have hfree : ({ d with nextId := d.nextId + 1 } : Dev).leaveP1.entryFree (f d.nextId).req = true := by simp [Dev.entryFree, he]
  have hway : ({ d with nextId := d.nextId + 1 } : Dev).leaveP1.freeWay := hw.congr (leaveP1_txns _) (leaveP1_abutment _)
  obtain ⟨hc, hk⟩ := arrive_sameCores _ hway hg
  unfold Dev.issueTxn Dev.send
  rw [if_pos hfree, hc, hk]
  exact ⟨leaveP1_cores _, leaveP1_jobs _⟩

/-! ### A trap (R64, R468) -/

/-- A core without its vector line registers and the lines that it has requested for them. -/
def Core.unlined (k : Core) : Core := { k with vecLines := [], vecReq := [] }

/-- From d to e the cores changed in their vector line registers and their requests alone, and no job came to wait: what offers that return to
PENDING do. -/
structure Dev.LinesOnly (d e : Dev) : Prop where
  core : ∀ n, (e.core n).unlined = (d.core n).unlined
  calm : d.calm → e.calm

theorem Dev.LinesOnly.refl : d.LinesOnly d := ⟨fun _ => rfl, id⟩

theorem Dev.LinesOnly.trans {d e f : Dev} (h : d.LinesOnly e) (g : e.LinesOnly f) : d.LinesOnly f :=
  ⟨fun n => (g.core n).trans (h.core n), g.calm ∘ h.calm⟩

/-- Equal cores and jobs. -/
theorem Dev.LinesOnly.of_eq {d e : Dev} (hc : e.cores = d.cores) (hj : e.ks.jobs = d.ks.jobs) : d.LinesOnly e :=
  ⟨fun n => by unfold Dev.core; rw [hc], fun h => hj.trans h⟩

theorem Dev.LinesOnly.foldl {α : Type} {f : Dev → α → Dev} (h : ∀ (x : Dev) a, x.LinesOnly (f x a)) (l : List α) : d.LinesOnly (l.foldl f d) := by
  induction l generalizing d with
  | nil => exact .refl d
  | cons a l ih => exact (h d a).trans (ih (f d a))

theorem Dev.LinesOnly.onCore (c : Nat) {f : Core → Core} (h : ∀ k, (f k).unlined = k.unlined) : d.LinesOnly (d.onCore c f) := by
  refine ⟨fun n => ?_, id⟩
  by_cases hn : n = c
  · subst hn
    rw [Dev.core_onCore, h]
  · rw [Dev.core_onCore_other d f hn]

theorem loadVector_linesOnly (c line : Nat) : d.LinesOnly (d.loadVector c line) := by
  have hasks : d.LinesOnly (d.onCore c (fun x => { x with vecReq := x.vecReq ++ [(line, d.clk)] })) := .onCore d c fun _ => rfl
  unfold Dev.loadVector
  dsimp only
  split
  · exact .onCore d c fun _ => rfl
  · split
    · exact .refl d
    · split
      · exact hasks
      · exact hasks.trans (.of_eq rfl rfl)

theorem switchLine_linesOnly (c : Nat) (old new : W32) (trig : Nat) : d.LinesOnly (d.switchLine c old new trig) := by
  have hfreed : d.LinesOnly (if (d.bent (bentOf c)).biu.src.any (fun e => e.1 != trig && e.2.mask.getLsbD (slotOf c) && lineOf e.2.vec == lineOf old)
      then d else d.onCore c (fun k => { k with vecLines := k.vecLines.filter (fun e => e.1 != lineOf old) })) := by
    split
    · exact .refl d
    · exact .onCore d c fun _ => rfl
  unfold Dev.switchLine
  dsimp only
  generalize (if (d.bent (bentOf c)).biu.src.any (fun e => e.1 != trig && e.2.mask.getLsbD (slotOf c) && lineOf e.2.vec == lineOf old) then d
    else d.onCore c (fun k => { k with vecLines := k.vecLines.filter (fun e => e.1 != lineOf old) })) = x at hfreed ⊢
  split
  · exact hfreed
  · exact hfreed.trans (loadVector_linesOnly _ _ _)

theorem noteGap_linesOnly (c n : Nat) : d.LinesOnly (d.noteGap c n) := by
  unfold Dev.noteGap
  split
  · exact .refl d
  · exact ⟨fun _ => rfl, fun h => by simp [Dev.calm, show d.ks.jobs = [] from h]⟩

theorem applySwitch_linesOnly (b i : Nat) : d.LinesOnly (d.applySwitch b i) := by
  unfold Dev.applySwitch
  dsimp only
  split
  · refine Dev.LinesOnly.trans ?_ (noteGap_linesOnly _ _ _)
    exact .of_eq rfl rfl
  · refine Dev.LinesOnly.trans ?_ (switchLine_linesOnly _ _ _ _ _)
    exact .of_eq rfl rfl

theorem returnPending_linesOnly (b n : Nat) : d.LinesOnly (d.returnPending b n) := by
  refine Dev.LinesOnly.trans (e := d.onSource b n (fun x => { x with st := .pending })) (.of_eq rfl rfl) (.foldl _ (fun x i => ?_) _)
  dsimp only
  split
  · exact applySwitch_linesOnly x b i
  · exact .refl x

theorem dropOffers_linesOnly (b i : Nat) : d.LinesOnly (d.dropOffers b i) := by
  unfold Dev.dropOffers
  exact Dev.LinesOnly.foldl d (fun x (e : Nat × Src) => returnPending_linesOnly x b e.1) _

theorem raise_linesOnly (src inst : Nat) (det : BitVec 16) : d.LinesOnly (d.raise src inst det) :=
  ⟨fun n => congrArg Core.unlined ((raise_sameCores d src inst det).core n), (raise_sameCores d src inst det).calm⟩

/-- While no command waits for the switch, its disarming changes the entry alone. -/
theorem disarm_linesOnly {d : Dev} (b i : Nat) (st det : BitVec 16) (h : d.calm) : d.LinesOnly (d.disarm b i st det) := by
  unfold Dev.disarm
  dsimp only
  split
  · rw [endJobs_calm (d := d.onBent b _) _ _ _ h]
    exact .of_eq rfl rfl
  · exact .refl d

/-- A core stopped, its entry gone. -/
def Core.halted (k : Core) : Core := { k with status := .stopped, entry := none }

theorem stopCore_halts {d : Dev} (c : Nat) (h : d.calm) :
    ((d.stopCore c).core c).unlined = (d.core c).halted.unlined ∧ (d.stopCore c).calm := by
  have hd := disarm_linesOnly (bentOf c) (slotOf c) stFaultActive (BitVec.ofNat 16 (bentOf c)) h
  generalize hx : (d.disarm (bentOf c) (slotOf c) stFaultActive (BitVec.ofNat 16 (bentOf c))) = x at hd
  have hs : (x.onCore c Core.halted).LinesOnly (d.stopCore c) := by
    unfold Dev.stopCore
    dsimp only
    rw [hx]
    refine (dropOffers_linesOnly _ (bentOf c) (slotOf c)).trans ?_
    split
    · exact raise_linesOnly _ _ _ _
    · exact .refl _
  refine ⟨?_, hs.calm (hd.calm h)⟩
  rw [hs.core c, Dev.core_onCore]
  exact congrArg Core.halted (hd.core c)

/-- A trap taken while no entry is in progress and no job waits (R64): the core stops with its record, and its registers stand. -/
theorem takeTrap_stops {d : Dev} {c : Nat} (pc : W32) (t : TrapRec) (h : d.calm) (he : (d.core c).entry = none) :
    (d.takeTrap c pc t).calm ∧ ((d.takeTrap c pc t).core c).status = .stopped
      ∧ ((d.takeTrap c pc t).core c).trap = { t with valid := true, pc := pc } ∧ ((d.takeTrap c pc t).core c).regs = (d.core c).regs := by
  obtain ⟨hk, hc⟩ := stopCore_halts (d := d.onCore c (fun k => { k.abandonEntry with trap := { t with valid := true, pc := pc }, pc := pc })) c h
  have hr := raise_linesOnly ((d.onCore c (fun k => { k.abandonEntry with trap := { t with valid := true, pc := pc }, pc := pc })).stopCore c)
    (bentOf c) (bentOf c) (BitVec.ofNat 16 (16 * t.cause.toNat + slotOf c))
  have hcore := (hr.core c).trans hk
  rw [Dev.core_onCore, show (d.core c).abandonEntry = d.core c by simp [Core.abandonEntry, he]] at hcore
  exact ⟨hr.calm hc, congrArg Core.status hcore, congrArg Core.trap hcore, (congrArg Core.regs hcore :)⟩

end Sys2Proof.Machine
end

section
/-! SUPPORT. The store buffer's drain and starved requests: where a store goes, what becomes of it there, what DECK_STARVE records. -/
namespace Sys2Proof.Machine

variable (d : Dev)

/-! ### Where a store goes (R33, R70) -/

/-- The place of an access is told by the windows of the bent and by the chain address. -/
theorem placeOf_congr {d e : Dev} (hb : e.bents = d.bents) (hc : e.chain = d.chain) (c w : Nat) : e.placeOf c w = d.placeOf c w := by
  simp only [Dev.placeOf, Dev.bent, hb, hc]

/-- An access to a word of Deck SRAM goes over the Deck. -/
theorem placeOf_deck (c : Nat) {w : Nat} (h : isDeck w = true) : d.placeOf c w = .deck w := by
  simp only [isDeck, Bool.and_eq_true, decide_eq_true_eq] at h
  unfold Dev.placeOf deckPlace
  rw [if_neg (by simp [isOwnSram]; omega), if_neg (by simp [isPrivate]; omega), if_neg (by simp [isOwnCtl]; omega),
    if_neg (by simp [isDdrWin]; omega), if_neg (by simp [isViaduct]; omega), if_neg (by simp [isBentSram]; omega)]

/-- No word of Deck SRAM is a queue port. -/
theorem quePort_deck {w : Nat} (h : isDeck w = true) : quePort w = none := by
  simp only [isDeck, Bool.and_eq_true, decide_eq_true_eq] at h
  unfold quePort
  rw [if_neg (by omega)]

/-! ### The store buffer (R138, R244, R245) -/

theorem dropUnsent_sameCores (es : List StoreEntry) : d.sameCores (d.dropUnsent es) := by
  unfold Dev.dropUnsent
  refine Dev.sameCores.foldl d (fun x e => ?_) es
  split
  · exact ⟨rfl, rfl⟩
  · exact .refl x

/-- A MEM_ERROR stops a running core with its record, and its registers stand (R245). -/
theorem memError_stops {d : Dev} {c : Nat} (q : Nat) (pc : W32) (t : TrapRec) (h : d.calm) (hr : (d.core c).status = .running)
    (he : (d.core c).entry = none) :
    (d.memError c q pc t).calm ∧ ((d.memError c q pc t).core c).status = .stopped
      ∧ ((d.memError c q pc t).core c).trap = { t with valid := true, pc := pc } ∧ ((d.memError c q pc t).core c).regs = (d.core c).regs := by
  unfold Dev.memError
  simp only [hr, show (Status.running == Status.stopped) = false from rfl, show (Status.running == Status.gated) = false from rfl, Bool.or_self,
    Bool.false_eq_true, if_false]
  generalize hx : d.onCore c _ = x
  have hk : x.calm := by rw [← hx]; exact h
  have hentry : (x.core c).entry = none := by rw [← hx, Dev.core_onCore]; exact he
  have hregs : (x.core c).regs = (d.core c).regs := by rw [← hx, Dev.core_onCore]
  have hsame := dropUnsent_sameCores x ((d.core c).stores.filter (fun e => decide (q < e.seq) && d.unsent e))
  rw [← hregs, ← hsame.core c]
  exact takeTrap_stops pc t (hsame.calm hk) (by rw [hsame.core c]; exact hentry)

/-- What becomes of a buffered store at its word in the own bent's SRAM: applied, or refused with MEM_ERROR (R244, R245). -/
def storeOutcome (c : Nat) (e : StoreEntry) (out : Bool × Eff) : Eff :=
  if out.1 then out.2 else (out.2.1.memError c e.seq e.pc (trapMemError 1#4 e.addr false), [])

theorem storeOwn_one {c : Nat} {e : StoreEntry} {p : WordPart} {w : Nat} (f : Finds) (hp : e.parts = [p])
    (hw : d.placeOf c p.addr.toNat = .own w) :
    d.storeOwn c e f =
      storeOutcome c e ((d.onCore c Core.popStore).sramWrite { p with addr := BitVec.ofNat 32 w } (foundIn f 0) (BitVec.ofNat 12 c)) := by
  simp only [Dev.storeOwn, hp, List.length_singleton, List.range_one, List.zip_cons_cons, List.zip_nil_right, List.foldl_cons, List.foldl_nil, hw]
  generalize (d.onCore c Core.popStore).sramWrite { p with addr := BitVec.ofNat 32 w } (foundIn f 0) (BitVec.ofNat 12 c) = out
  obtain ⟨applied, y⟩ := out
  cases applied <;> rfl

/-- The oldest store, of one part to the own bent's SRAM, claims its bank and is applied once it is granted (R138, R247). -/
theorem storeSend_own {c : Nat} {e : StoreEntry} {rest : List StoreEntry} {p : WordPart} {w : Nat} (f : Finds)
    (hs : (d.core c).stores = e :: rest) (ht : e.txn = none) (hp : e.parts = [p]) (hw : d.placeOf c p.addr.toNat = .own w) :
    d.storeSend c f =
      if (d.nearClaim c e.seq e.cls .wr [w]).1 then (d.nearClaim c e.seq e.cls .wr [w]).2.storeOwn c e f
      else ((d.nearClaim c e.seq e.cls .wr [w]).2, []) := by
  have hown : d.ownWords c e = [w] := by simp [Dev.ownWords, hp, hw]
  simp [Dev.storeSend, hs, ht, hp, hw, hown]

/-- Once granted, the store leaves the buffer for its word; the grant has passed what waits at the bank's arbiter (R225, R247). -/
theorem storeSend_granted {c : Nat} {e : StoreEntry} {rest : List StoreEntry} {p : WordPart} {w : Nat} (f : Finds)
    (hs : (d.core c).stores = e :: rest) (ht : e.txn = none) (hp : e.parts = [p]) (hw : d.placeOf c p.addr.toNat = .own w)
    (hg : (d.nearClaim c e.seq e.cls .wr [w]).1 = true) :
    ∃ x : Dev, x.poison = d.poison ∧ x.ks = d.ks ∧ x.core c = { d.core c with stores := rest }
      ∧ x.txns.map Txn.unpassed = d.txns.map Txn.unpassed
      ∧ d.storeSend c f = storeOutcome c e (x.sramWrite { p with addr := BitVec.ofNat 32 w } (foundIn f 0) (BitVec.ofNat 12 c)) := by
  obtain ⟨ts, ns, sp, he, hts⟩ := nearClaim_arbitrated d c e.seq e.cls .wr w
  refine ⟨({ d with txns := ts, near := ns, spans := sp } : Dev).onCore c Core.popStore, rfl, rfl, ?_, hts, ?_⟩
  · exact (Dev.core_onCore _ _ _).trans (congrArg (fun l => { d.core c with stores := l }) (congrArg List.tail hs))
  · rw [storeSend_own d f hs ht hp hw, hg, if_pos rfl, he, storeOwn_one _ f hp (placeOf_congr rfl rfl _ _ ▸ hw)]

/-- The oldest store, of one part to Deck SRAM, becomes a transaction and stays in the buffer (R138, R217). -/
theorem storeSend_deck {c : Nat} {e : StoreEntry} {rest : List StoreEntry} {p : WordPart} (f : Finds)
    (hs : (d.core c).stores = e :: rest) (ht : e.txn = none) (hp : e.parts = [p]) (hd : isDeck p.addr.toNat = true) :
    d.storeSend c f =
      ((d.onCore c (fun k => { k with stores := { e with txn := some d.nextId } :: rest })).issueTxn (d.storeTxn c e), []) := by
  simp [Dev.storeSend, hs, ht, hp, placeOf_deck d c hd]

/-- The transaction of a store of one part to Deck SRAM (R217). -/
theorem storeTxn_deck {c : Nat} {e : StoreEntry} {p : WordPart} (id : Nat) (hp : e.parts = [p]) (hd : isDeck p.addr.toNat = true) :
    d.storeTxn c e id = { newTxn id (BitVec.ofNat 12 c) e.cls (if e.tagOnly then .tw else .wr) p.addr (.store (BitVec.ofNat 11 c)) with
      paced := (d.core c).psr.paced, parts := [p] } := by
  simp [Dev.storeTxn, hp, placeOf_deck d c hd, Place.isQueue, quePort_deck hd, newTxn]

/-- A transaction to Deck SRAM stands at its span's Deck SRAM (R216, R229). -/
theorem target_deck {t : Txn} (hdest : t.dest = none) (hddr : t.ddr = none) (hev : t.ev = none) (hd : isDeck t.addr.toNat = true) :
    t.target = some ((t.addr.toNat - 0x01000000) / 0x100000, 0) := by
  simp [Txn.target, hdest, hddr, hev, hd]

/-- A core's tracker entries are counted as operations, not here (R132, R235). -/
theorem entryLimit_core (c : CoreId) : entryLimit (BitVec.ofNat 12 c.toNat) = none := by
  have hc : c.toNat < 0x800 := c.isLt
  have hn : (BitVec.ofNat 12 c.toNat).toNat < 0x800 := by rw [BitVec.toNat_ofNat]; omega
  unfold entryLimit
  exact if_pos hn

/-! ### Starved requests (R226) -/

theorem raise_span (src inst : Nat) (det : BitVec 16) (n : Nat) : (d.raise src inst det).span n = d.span n := by
  obtain ⟨x, l, f, h⟩ := raise_frame d src inst det
  rw [h]
  rfl

theorem raise_txns (src inst : Nat) (det : BitVec 16) : (d.raise src inst det).txns = d.txns := by
  obtain ⟨x, l, f, h⟩ := raise_frame d src inst det
  rw [h]

/-- A request recorded as starved in a span is raised there, and neither a core nor a transaction changes. -/
theorem noteStarve_span {n : Nat} (req : ReqId) (hn : n < 8) :
    (d.noteStarve n req).cores = d.cores ∧ (d.noteStarve n req).txns = d.txns ∧ ((d.noteStarve n req).span n).starveReq = req
      ∧ ((d.noteStarve n req).span n).starveCnt = satInc (d.span n).starveCnt ∧ (d.noteStarve n req).raising 608 n := by
  have h : d.noteStarve n req = (d.onSpan n (fun s => { s with starveReq := req, starveCnt := satInc s.starveCnt })).raise 608 n (req.setWidth 16) := by
    simp [Dev.noteStarve, Nat.ne_of_lt hn]
  rw [h, raise_span, Dev.span_onSpan]
  exact ⟨raise_cores _ _ _ _, raise_txns _ _ _ _, rfl, rfl, raise_raising _ _ _ _⟩

/-- A transaction whose starvation has been recorded. -/
def Txn.noted (t : Txn) : Txn := { t with starved := true }

/-- A changed transaction is found under its number. -/
theorem txn_onTxn {id : Nat} {t : Txn} {f : Txn → Txn} (h : d.txn id = some t) (hf : ∀ u, (f u).id = u.id) : (d.onTxn id f).txn id = some (f t) := by
  unfold Dev.txn Dev.onTxn at *
  rw [List.find?_map]
  have hid : (fun u : Txn => u.id == id) ∘ (fun u => if u.id == id then f u else u) = fun u => u.id == id := by
    funext u
    simp only [Function.comp]
    split
    · rw [hf]
    · rfl
  have ht : (t.id == id) = true := List.find?_some (p := fun u : Txn => u.id == id) h
  rw [hid, h, Option.map_some, if_pos ht]

end Sys2Proof.Machine
end

section
/-! PROOFS. The statement on the store buffer's drain and on starved requests. -/
namespace Sys2Proof.Proofs
open Sys2Proof.Machine

/-- STORE_BUFFER_SEND that leaves no job to end. -/
theorem exec_storeBufferSend {s : State} (c : CoreId) (f : Finds) (h : (s.dev.storeSend c.toNat f).1.calm) :
    exec (.storeBufferSend c f) s
      = .next { s with dev := (s.dev.storeSend c.toNat f).1.seen s.dev, mem := applyAll s.mem (s.dev.storeSend c.toNat f).2 } := by
  have hx : exec (.storeBufferSend c f) s = s.commit (settleEff s.mem (s.dev.storeSend c.toNat f)) := rfl
  rw [hx, settleEff_of_calm _ h, State.commit_eq]

section
variable {s : State} {c : CoreId} {e : StoreEntry} {rest : List StoreEntry} {p : WordPart} {w : Nat} (f : Finds)
  (hcalm : s.dev.calm) (hs : (s.dev.core c.toNat).stores = e :: rest) (ht : e.txn = none) (hp : e.parts = [p])
include hcalm hs ht hp

/-- A store that its bank's arbiter has not granted waits (R247). -/
theorem ownStore_waits (hw : s.dev.placeOf c.toNat p.addr.toNat = .own w) (hg : (s.dev.nearClaim c.toNat e.seq e.cls .wr [w]).1 = false) :
    ∃ t, exec (.storeBufferSend c f) s = .next t ∧ Keeps s t := by
  have hsend := storeSend_own s.dev f hs ht hp hw
  obtain ⟨ts, ns, sp, he, -⟩ := nearClaim_arbitrated s.dev c.toNat e.seq e.cls .wr w
  rw [hg, if_neg Bool.false_ne_true, he] at hsend
  refine ⟨_, exec_storeBufferSend c f ?_, ?_⟩
  · rw [hsend]; exact hcalm
  · rw [hsend]; exact ⟨rfl, rfl, rfl⟩

/-- A store granted at its bank is written, where the word is good (R33, R138, R247). -/
theorem ownStore_applied (hw : s.dev.placeOf c.toNat p.addr.toNat = .own w) (hb : isBentSram w = true)
    (hg : (s.dev.nearClaim c.toNat e.seq e.cls .wr [w]).1 = true) (hpoison : w ∉ s.dev.poison) (hf : foundIn f 0 = .good) :
    ∃ t, exec (.storeBufferSend c f) s = .next t ∧ t.mem = (MemOp.word w p.lanes p.tagWr p.word).apply s.mem ∧ t.pending = s.pending
      ∧ t.dev.core c.toNat = { s.dev.core c.toNat with stores := rest } ∧ t.dev.txns.map Txn.unpassed = s.dev.txns.map Txn.unpassed := by
  obtain ⟨x, hxp, hxk, hxc, hxt, hsend⟩ := storeSend_granted s.dev f hs ht hp hw hg
  obtain ⟨poison, hx⟩ := sramWrite_good x (p := { p with addr := BitVec.ofNat 32 w }) (BitVec.ofNat 12 c.toNat)
    (by rw [toNat_bentSram hb]; exact hb) (by rw [toNat_bentSram hb, hxp]; exact hpoison) hf
  rw [hx, toNat_bentSram hb] at hsend
  refine ⟨_, exec_storeBufferSend c f ?_, ?_⟩
  · rw [hsend]; exact (congrArg Keystone.jobs hxk).trans hcalm
  · rw [hsend]; exact ⟨rfl, rfl, hxc, hxt⟩

/-- A part of an uncorrectable word is refused, and MEM_ERROR stops a running core (R244, R245). -/
theorem ownStore_refused (hw : s.dev.placeOf c.toNat p.addr.toNat = .own w) (hb : isBentSram w = true)
    (hg : (s.dev.nearClaim c.toNat e.seq e.cls .wr [w]).1 = true) (hbad : w ∈ s.dev.poison ∨ foundIn f 0 = .uncorrectable)
    (hpart : wholePart p = false) (hr : (s.dev.core c.toNat).status = .running) (hentry : (s.dev.core c.toNat).entry = none) :
    ∃ t, exec (.storeBufferSend c f) s = .next t ∧ t.mem = s.mem ∧ t.pending = s.pending ∧ (t.dev.core c.toNat).status = .stopped
      ∧ (t.dev.core c.toNat).trap = { valid := true, cause := 6#4, detail := 1#4, pc := e.pc, addr := e.addr, tagRes := 0xFF#8 }
      ∧ (t.dev.core c.toNat).regs = (s.dev.core c.toNat).regs := by
  obtain ⟨x, hxp, hxk, hxc, -, hsend⟩ := storeSend_granted s.dev f hs ht hp hw hg
  obtain ⟨y, hy, hsame⟩ := sramWrite_refused x (p := { p with addr := BitVec.ofNat 32 w }) (BitVec.ofNat 12 c.toNat)
    (by rw [toNat_bentSram hb]; exact hb) (by rw [toNat_bentSram hb, hxp]; exact hbad) hpart
  rw [hy] at hsend
  have hcore : y.core c.toNat = { s.dev.core c.toNat with stores := rest } := (hsame.core _).trans hxc
  obtain ⟨hc, hstat, htrap, hregs⟩ := memError_stops e.seq e.pc (trapMemError 1#4 e.addr false)
    (hsame.calm ((congrArg Keystone.jobs hxk).trans hcalm)) (by rw [hcore]; exact hr) (by rw [hcore]; exact hentry)
  refine ⟨_, exec_storeBufferSend c f ?_, ?_⟩
  · rw [hsend]; exact hc
  · rw [hsend]; exact ⟨rfl, rfl, hstat, htrap, hregs.trans (by rw [hcore])⟩

/-- A store to Deck SRAM on a free way stands at its target as a transaction of its class, and stays in the buffer (R138, R217). -/
theorem deckStore_sent (hd : isDeck p.addr.toNat = true) (hway : s.dev.freeWay) :
    ∃ t x, exec (.storeBufferSend c f) s = .next t ∧ t.mem = s.mem ∧ t.pending = s.pending
      ∧ (t.dev.core c.toNat).stores = { e with txn := some s.dev.nextId } :: rest ∧ (t.dev.core c.toNat).regs = (s.dev.core c.toNat).regs
      ∧ t.dev.txns = s.dev.txns ++ [x] ∧ x.id = s.dev.nextId ∧ x.cls = e.cls ∧ x.parts = [p] ∧ x.st = .sent
      ∧ x.ty = (if e.tagOnly then .tw else .wr) := by
  have hsend := storeSend_deck s.dev f hs ht hp hd
  have htxn := storeTxn_deck s.dev (c := c.toNat) s.dev.nextId hp hd
  generalize hx : s.dev.onCore c.toNat (fun k => { k with stores := { e with txn := some s.dev.nextId } :: rest }) = x at hsend
  have hxn : x.nextId = s.dev.nextId := by rw [← hx]; rfl
  have hxw : x.freeWay := by rw [← hx]; exact hway.congr rfl rfl
  obtain ⟨g, htarget⟩ : ∃ g, (s.dev.storeTxn c.toNat e x.nextId).target = some g := by
    rw [hxn, htxn]; exact ⟨_, target_deck rfl rfl rfl hd⟩
  have hlimit : entryLimit (s.dev.storeTxn c.toNat e x.nextId).req = none := by
    rw [hxn, htxn]; exact entryLimit_core c
  obtain ⟨hcores, hjobs⟩ := issueTxn_cores x hxw htarget hlimit
  obtain ⟨u, htxns⟩ := issueTxn_txns x _ g hxw htarget (by unfold Dev.entryFree; rw [hlimit])
  have hcore : (x.issueTxn (s.dev.storeTxn c.toNat e)).core c.toNat
      = { s.dev.core c.toNat with stores := { e with txn := some s.dev.nextId } :: rest } := by
    rw [show (x.issueTxn (s.dev.storeTxn c.toNat e)).core c.toNat = x.core c.toNat by unfold Dev.core; rw [hcores], ← hx, Dev.core_onCore]
  refine ⟨_, (s.dev.storeTxn c.toNat e x.nextId).landed u g, exec_storeBufferSend c f ?_, ?_⟩
  · rw [hsend]; exact hjobs.trans (by rw [← hx]; exact hcalm)
  · rw [hsend]
    refine ⟨rfl, rfl, congrArg Core.stores hcore, (congrArg Core.regs hcore :), htxns.trans (by rw [← hx]; rfl), ?_⟩
    rw [hxn, htxn]
    exact ⟨rfl, rfl, rfl, rfl, rfl⟩

end

section
variable {s : State} {id : Nat} {t : Txn} {g : Nat × Nat}

/-- DECK_STARVE of a request that waits at its target. -/
theorem exec_deckStarve (ht : s.dev.txn id = some t) (hg : t.target = some g) (hw : t.waits = true) :
    exec (.deckStarve id) s = s.keep (if t.cls != 0#2 && !t.starved && decide (t.since + s.dev.starveLimit g.1 < s.dev.clk) then
      (s.dev.onTxn id Txn.noted).noteStarve g.1 t.req else s.dev) := by
  have hn : t.waitsIn = some g.1 := by simp [Txn.waitsIn, hw, hg]
  have hx : exec (.deckStarve id) s = execDeckStarve id s := rfl
  rw [hx, execDeckStarve]
  simp only [ht, hn]
  rfl

/-- A request that has waited longer than its span's limit is recorded and raised (R226). -/
theorem deckStarve_raises (ht : s.dev.txn id = some t) (hg : t.target = some g) (hw : t.waits = true) (hc : t.cls ≠ 0#2) (hs : g.1 < 8)
    (hu : t.starved = false) (hlate : t.since + 800 * (s.dev.span g.1).starve.toNat < s.dev.clk) :
    ∃ u, exec (.deckStarve id) s = .next u ∧ u.mem = s.mem ∧ u.pending = s.pending ∧ u.dev.cores = s.dev.cores
      ∧ (u.dev.span g.1).starveReq = t.req ∧ (u.dev.span g.1).starveCnt = satInc (s.dev.span g.1).starveCnt
      ∧ (u.dev.txn id).map (·.starved) = some true ∧ u.dev.raising 608 g.1 := by
  have hlimit : s.dev.starveLimit g.1 = 800 * (s.dev.span g.1).starve.toNat := by simp [Dev.starveLimit, Nat.ne_of_lt hs]
  obtain ⟨hcores, htxns, hreq, hcnt, hraise⟩ := noteStarve_span (s.dev.onTxn id Txn.noted) t.req hs
  have hexec := exec_deckStarve ht hg hw
  rw [if_pos (by simp [hc, hu, hlimit, hlate]), State.keep_eq] at hexec
  refine ⟨_, hexec, rfl, rfl, hcores, hreq, hcnt, ?_, hraise⟩
  have hfound : (((s.dev.onTxn id Txn.noted).noteStarve g.1 t.req).seen s.dev).txn id = (s.dev.onTxn id Txn.noted).txn id := by
    unfold Dev.txn
    rw [Dev.seen_txns, htxns]
  rw [hfound, txn_onTxn s.dev (f := Txn.noted) ht fun _ => rfl]
  rfl

/-- A request is recorded as starved once (R226). -/
theorem deckStarve_once (ht : s.dev.txn id = some t) (hg : t.target = some g) (hw : t.waits = true) (hu : t.starved = true) :
    exec (.deckStarve id) s = .next s := by
  rw [exec_deckStarve ht hg hw, if_neg (by simp [hu]), State.keep_eq, Dev.seen_self]

end

/-- Settles O26, by where the oldest store goes and what its bank's arbiter and its word answer. -/
theorem storesAreSent : Obligations.StoresAreSent := by
  unfold Obligations.StoresAreSent
  refine ⟨?_, ?_⟩
  · intro s c e rest p f k hcalm hs ht hp
    refine ⟨?_, deckStore_sent f hcalm hs ht hp⟩
    intro w hw hb granted unpassed
    exact ⟨ownStore_waits f hcalm hs ht hp hw, ownStore_applied f hcalm hs ht hp hw hb, ownStore_refused f hcalm hs ht hp hw hb⟩
  · intro s id t g ht hg hw hc hs
    exact ⟨deckStarve_raises ht hg hw hc hs, deckStarve_once ht hg hw⟩

end Sys2Proof.Proofs
end

section
/-! PROOFS. The statement on loads, which fails where the word is uncorrectable: MEM_ERROR stops the core, the source that the core was offered
returns to PENDING, and this is the switch point of a switch that another slot of the bent has armed for the source (R468). That slot's core then
asks for the line of the new vector (R472), so its line requests change too, where the frame of Trapped lets its vector line registers alone change. -/
namespace Sys2Proof.Proofs
open Sys2Proof.Machine

/-- A compact core about to load from word 0 of its bent's SRAM, the line of its instruction in its line buffer. -/
def loadingCore : Core := { status := .running, psr := { compact := true }, pc := 0x02000000#32, lineBuf := [(0x200000, 0#16)] }

/-- A source that slots 0 and 1 both serve, offered to slot 0. -/
def sharedSource : Src := { en := true, mask := 3#16, pri := 0x40#8, vec := 0x02000200#32, st := .offered 0#4 }

/-- The switch of slot 1, armed for source 96 while it was offered: it writes a vector in a line of code store outside the reserved region. -/
def dueSwitch : Switch := { armed := true, back := true, src := 96#8, vec := 0x02040000#32 }

/-- Core 0 loads; core 1 runs and has asked for no line. -/
def switchDue : State :=
  { State.reset with dev := { cores := [(0, loadingCore), (1, { status := .running })],
                              bents := [(0, { sw := [(1, dueSwitch)], biu := { src := [(96, sharedSource)] } })] } }

/-- LDW of core 0 from byte 0 of its bent's SRAM, whose word is uncorrectable. -/
def badLoad : Instr := .ldw 0 9 0 0#15 [.uncorrectable]

/-- The lines that core 1 has asked for, after an instruction. -/
def linesAsked (i : Instr) (s : State) : List (Nat × Nat) :=
  match exec i s with
  | .next t => (t.dev.core 1).vecReq
  | .fault _ | .refused _ => []

/-- The trap of core 0 makes core 1 ask for the line of the switch's vector. -/
theorem linesAsked_badLoad : linesAsked badLoad switchDue = [(0x204000, 0)] := by decide +kernel

/-- Refutes O18: an uncorrectable word stops core 0, the source offered to it returns to PENDING, and the switch that slot 1 has armed for that source
makes core 1 request the line of its new vector, while Trapped leaves core 1 as it was but for its vector line registers. -/
theorem not_loadsComplete : ¬ Obligations.LoadsComplete := by
  unfold Obligations.LoadsComplete
  intro h
  obtain ⟨hnear, -⟩ := h
  obtain ⟨-, hbyte, -⟩ := hnear 0 9 0 0#15 [.uncorrectable] switchDue
  obtain ⟨-, -, -, hbad⟩ := hbyte (by decide +kernel) (by decide +kernel) (by decide +kernel) (by decide +kernel)
  obtain ⟨t, ht, htrap, -⟩ := hbad (by decide +kernel) (.inr rfl) (by decide +kernel)
  obtain ⟨-, -, -, -, -, -, -, hothers, -⟩ := htrap
  have hcore := congrArg Core.vecReq (hothers 1 (by decide))
  have hasked : linesAsked badLoad switchDue = [] := by
    unfold linesAsked badLoad
    rw [ht]
    exact hcore
  rw [linesAsked_badLoad] at hasked
  cases hasked

end Sys2Proof.Proofs
end

section
/-! SUPPORT. The arithmetic on words: overflow by the signs, saturation at the ends of the range, the product's bits. -/
namespace Sys2Proof.Machine

/-! ### The range of a payload (R97, R98) -/

theorem sval_range (a : W32) : -2147483648 ≤ sval a ∧ sval a ≤ 2147483647 := by
  have hlo := BitVec.le_toInt a
  have hhi := BitVec.toInt_lt (x := a)
  unfold sval
  omega

/-- The sign bit of a word tells whether its value is negative. -/
theorem msb_eq_sval_neg (a : W32) : a.msb = decide (sval a < 0) := BitVec.msb_eq_toInt

/-- What does not fit a payload lies beyond an end of the range. -/
theorem fits32_eq_false {i : Int} : fits32 i = false ↔ i < -2147483648 ∨ 2147483647 < i := by
  simp only [fits32, Bool.and_eq_false_iff, decide_eq_false_iff_not]
  omega

/-- A sum does not fit a payload where the signed addition of the words overflows. -/
theorem not_fits32_add (a b : W32) : (!fits32 (sval a + sval b)) = a.saddOverflow b := by
  rw [Bool.eq_iff_iff, Bool.not_eq_true', fits32_eq_false]
  simp only [sval, BitVec.saddOverflow, Bool.or_eq_true, decide_eq_true_eq]
  omega

/-- A difference does not fit a payload where the signed subtraction of the words overflows. -/
theorem not_fits32_sub (a b : W32) : (!fits32 (sval a - sval b)) = a.ssubOverflow b := by
  rw [Bool.eq_iff_iff, Bool.not_eq_true', fits32_eq_false]
  simp only [sval, BitVec.ssubOverflow, Bool.or_eq_true, decide_eq_true_eq]
  omega

/-- A subtraction overflows where the operands' signs differ and the difference does not have the first one's. -/
theorem ssubOverflow_signs (a b : W32) : a.ssubOverflow b = (a.msb != b.msb && (a - b).msb != a.msb) := by
  rw [BitVec.ssubOverflow_eq]
  cases a.msb <;> cases b.msb <;> cases (a - b).msb <;> rfl

/-- What fits is not saturated. -/
theorem sat32_fits {i : Int} (h : fits32 i = true) : sat32 i = wrap32 i := by
  simp only [fits32, Bool.and_eq_true, decide_eq_true_eq] at h
  unfold sat32 wrap32
  rw [if_neg (by omega), if_neg (by omega)]

/-- What does not fit saturates to the end of the range on its side of 0. -/
theorem sat32_overflow {i : Int} (h : fits32 i = false) : sat32 i = if i < 0 then 0x80000000#32 else 0x7FFFFFFF#32 := by
  rw [fits32_eq_false] at h
  unfold sat32
  split
  · rw [if_neg (by omega)]
  · rw [if_pos (by omega), if_pos (by omega)]

/-- An exact sum or difference i of a word's value and another's, which is r modulo 2^32, saturates to the end on that word's side: where it
does not fit, it has that word's sign. -/
theorem sat32_by_sign {i : Int} {a r : W32} (hr : wrap32 i = r) (hsign : fits32 i = false → (i < 0 ↔ sval a < 0)) :
    sat32 i = if (!fits32 i) = true then (if a.msb then 0x80000000#32 else 0x7FFFFFFF#32) else r := by
  cases h : fits32 i with
  | true => rw [sat32_fits h, hr]; rfl
  | false => simp [sat32_overflow h, msb_eq_sval_neg, hsign h]

theorem wrap32_add (a b : W32) : wrap32 (sval a + sval b) = a + b := by simp [wrap32, sval, BitVec.ofInt_add]
theorem wrap32_sub (a b : W32) : wrap32 (sval a - sval b) = a - b := by
  simp [wrap32, sval, Int.sub_eq_add_neg, BitVec.ofInt_add, BitVec.ofInt_neg, BitVec.sub_eq_add_neg]
theorem wrap32_mul (a b : W32) : wrap32 (sval a * sval b) = a * b := by simp [wrap32, sval, BitVec.ofInt_mul]

/-- A sum that does not fit has the first operand's sign. -/
theorem sum_sign (a b : W32) (h : fits32 (sval a + sval b) = false) : sval a + sval b < 0 ↔ sval a < 0 := by
  have ha := sval_range a
  have hb := sval_range b
  rw [fits32_eq_false] at h
  omega

/-- A difference that does not fit has the first operand's sign. -/
theorem difference_sign (a b : W32) (h : fits32 (sval a - sval b) = false) : sval a - sval b < 0 ↔ sval a < 0 := by
  have ha := sval_range a
  have hb := sval_range b
  rw [fits32_eq_false] at h
  omega

/-- Bits [47:16] of the signed 64-bit product are the product shifted right by 16, modulo 2^32 (R100). -/
theorem wrap32_fixProduct (a b : W32) : wrap32 (fixProduct a b) = (a.signExtend 64 * b.signExtend 64).extractLsb' 16 32 := by
  have hp : a.signExtend 64 * b.signExtend 64 = BitVec.ofInt 64 (sval a * sval b) := (BitVec.ofInt_mul _ _).symm
  rw [hp]
  unfold wrap32 fixProduct
  rw [Int.fdiv_eq_ediv_of_nonneg _ (by decide)]
  generalize sval a * sval b = p
  apply BitVec.eq_of_toNat_eq
  rw [BitVec.extractLsb'_toNat, BitVec.toNat_ofInt, BitVec.toNat_ofInt, Nat.shiftRight_eq_div_pow]
  omega

end Sys2Proof.Machine
end

section
/-! PROOFS. The statement on the values and flags that the arithmetic computes. -/
namespace Sys2Proof.Proofs
open Sys2Proof.Machine

/-- Settles O8: V is what does not fit, which the signs tell; the saturating forms go to the end on the first operand's side. -/
theorem arithmeticResults : Obligations.ArithmeticResults := by
  unfold Obligations.ArithmeticResults
  intro a b
  have haddV : (addRes a b).2.v = (a.msb == b.msb && (a + b).msb != a.msb) := (not_fits32_add a b).trans (BitVec.saddOverflow_eq a b)
  have hsubV : (subRes a b).2.v = (a.msb != b.msb && (a - b).msb != a.msb) := (not_fits32_sub a b).trans (ssubOverflow_signs a b)
  have haddC : (addRes a b).2.c = BitVec.carry 32 a b false := by
    simp [addRes, BitVec.carry, Nat.mod_eq_of_lt a.isLt, Nat.mod_eq_of_lt b.isLt]
  have hmulfs : (mulfRes a b).2.v = false → (mulfsRes a b).1 = (mulfRes a b).1 := fun h => sat32_fits (by simpa [mulfRes, exactFlags] using h)
  exact ⟨rfl, rfl, rfl, haddV, haddC, rfl, hsubV, BitVec.ult_eq_decide.symm, sat32_by_sign (wrap32_add a b) (sum_sign a b),
    sat32_by_sign (wrap32_sub a b) (difference_sign a b), rfl, rfl, wrap32_mul a b, rfl, wrap32_fixProduct a b, hmulfs⟩

end Sys2Proof.Proofs
end

section
/-! SUPPORT. What EX makes of each instruction that stays within its core, by the core's data mode: which shared operation it is, and what
that operation writes once its operands' tags have passed their check. -/
namespace Sys2Proof.Machine

/-! ### Instructions within a core -/

/-- Instruction i of core c, with needs n, is r in EX. -/
def Executes (s : State) (c : CoreId) (n : Need) (i : Instr) (r : ExRes) : Prop :=
  ∃ ex : Core → ExRes, exec i s = s.keep (s.dev.run c.toNat n ex) ∧ ex (s.dev.core c.toNat) = r

section
variable {s : State} {c : CoreId} {n : Need} {i : Instr} {r : ExRes}

theorem Executes.completes {k' : Core} (h : Executes s c n i r) (hi : s.dev.issues c n = true) (hr : r = .next k') :
    ∃ t, exec i s = .next t ∧ Completed s c n k' ((s.dev.core c.toNat).pc + 1#32) t := by
  obtain ⟨ex, he, hx⟩ := h
  rw [he]
  exact run_completes hi (hx.trans hr)

theorem Executes.goes {k' : Core} {pc : W32} (h : Executes s c n i r) (hi : s.dev.issues c n = true) (hr : r = .goto k' pc) :
    ∃ t, exec i s = .next t ∧ Completed s c n k' pc t := by
  obtain ⟨ex, he, hx⟩ := h
  rw [he]
  exact run_goes hi (hx.trans hr)

theorem Executes.traps {t : TrapRec} (h : Executes s c n i r) (hi : s.dev.issues c n = true) (hr : r = .trap t)
    (hd : (s.dev.core c.toNat).drained = true) : Yields s i (s.dev.takeTrap c.toNat (s.dev.core c.toNat).pc t) := by
  obtain ⟨ex, he, hx⟩ := h
  unfold Yields
  rw [he, run_traps hi (hx.trans hr) hd, State.keep_eq]

/-- An instruction's needs, said another way. -/
theorem Executes.needs {n' : Need} (hn : n = n') (h : Executes s c n i r) : Executes s c n' i r := hn ▸ h

variable {f g : Core → ExRes}

/-- An instruction of both data modes, in tagged mode (R72). -/
theorem executes_tagged (h : exec i s = s.keep (s.dev.run c.toNat n (fun k => byMode k (f k) (g k))))
    (hm : (s.dev.core c.toNat).psr.compact = false) (hr : f (s.dev.core c.toNat) = r) : Executes s c n i r := ⟨_, h, by simp [byMode, hm, hr]⟩

/-- An instruction of both data modes, in compact mode (R72). -/
theorem executes_compact (h : exec i s = s.keep (s.dev.run c.toNat n (fun k => byMode k (f k) (g k))))
    (hm : (s.dev.core c.toNat).psr.compact = true) (hr : g (s.dev.core c.toNat) = r) : Executes s c n i r := ⟨_, h, by simp [byMode, hm, hr]⟩

/-- An instruction of tagged mode alone (R125). -/
theorem executes_taggedOnly (h : exec i s = s.keep (s.dev.run c.toNat n (fun k => taggedOnly k (f k))))
    (hm : (s.dev.core c.toNat).psr.compact = false) (hr : f (s.dev.core c.toNat) = r) : Executes s c n i r := ⟨_, h, by simp [taggedOnly, hm, hr]⟩

/-- An instruction of compact mode alone (R125). -/
theorem executes_compactOnly (h : exec i s = s.keep (s.dev.run c.toNat n (fun k => compactOnly k (f k))))
    (hm : (s.dev.core c.toNat).psr.compact = true) (hr : f (s.dev.core c.toNat) = r) : Executes s c n i r := ⟨_, h, by simp [compactOnly, hm, hr]⟩

end

/-! ### The flags that a data mode has an instruction write (R97, R121) -/

section
variable {k : Core}

theorem wLogic_tagged (h : k.psr.compact = false) : wLogic k = wNZ := by simp [wLogic, h]
theorem wLogic_compact (h : k.psr.compact = true) : wLogic k = 14#4 := by simp [wLogic, h]
theorem wShift_tagged (h : k.psr.compact = false) : wShift k = wNZ := by simp [wShift, h]
theorem wShift_compact (h : k.psr.compact = true) : wShift k = wNZVC := by simp [wShift, h]

end

/-! ### Instructions of tagged mode -/

section
variable {s : State} {c : CoreId} {rd ra rb : Reg} (hm : (s.dev.core c.toNat).psr.compact = false)
include hm

theorem executes_logicForm : ∀ e ∈ logicForms,
    Executes s c (need2 rd ra rb wNZ) (e.1 c rd ra rb) (logicRegs (s.dev.bentFor c) e.2 rd ra rb (s.dev.core c.toNat)) := by
  rw [← wLogic_tagged hm]
  simp only [logicForms, List.forall_mem_cons]
  exact ⟨executes_tagged rfl hm rfl, executes_tagged rfl hm rfl, executes_tagged rfl hm rfl, nofun⟩

theorem executes_logicImmForm {imm : BitVec 15} : ∀ e ∈ logicImmForms,
    Executes s c (need1 rd ra wNZ) (e.1 c rd ra imm) (logicImm (s.dev.bentFor c) e.2 rd ra imm (s.dev.core c.toNat)) := by
  rw [← wLogic_tagged hm]
  simp only [logicImmForms, List.forall_mem_cons]
  exact ⟨executes_tagged rfl hm rfl, executes_tagged rfl hm rfl, executes_tagged rfl hm rfl, nofun⟩

theorem executes_shiftForm : ∀ e ∈ shiftForms,
    Executes s c (need2 rd ra rb wNZ) (e.1 c rd ra rb) (shiftRegs e.2 rd ra rb (s.dev.core c.toNat)) := by
  rw [← wShift_tagged hm]
  simp only [shiftForms, List.forall_mem_cons]
  exact ⟨executes_tagged rfl hm rfl, executes_tagged rfl hm rfl, executes_tagged rfl hm rfl, nofun⟩

theorem executes_shiftImmForm {imm : BitVec 15} : ∀ e ∈ shiftImmForms,
    Executes s c (need1 rd ra wNZ) (e.1 c rd ra imm) (shiftImm e.2 rd ra imm (s.dev.core c.toNat)) := by
  rw [← wShift_tagged hm]
  simp only [shiftImmForms, List.forall_mem_cons]
  exact ⟨executes_tagged rfl hm rfl, executes_tagged rfl hm rfl, executes_tagged rfl hm rfl, nofun⟩

theorem executes_cmp :
    let k := s.dev.core c.toNat
    Executes s c (needCmp ra rb) (.cmp c ra rb)
      (cmpPair (s.dev.bentFor c) (k.source .compare ra.toNat rb.toNat) (k.source .compare rb.toNat ra.toNat) k) :=
  executes_tagged rfl hm rfl

theorem executes_cmpi {imm : BitVec 15} :
    let k := s.dev.core c.toNat
    Executes s c { reads := [ra.toNat], wrFlags := wNZVC } (.cmpi c ra imm)
      (cmpPair (s.dev.bentFor c) (k.lone ra.toNat) { pay := sext15 imm, tag := immTag .compare (k.lone ra.toNat).tag } k) :=
  executes_tagged rfl hm rfl

/-- CSET with a code that it allows. -/
theorem executes_cset {fn : BitVec 10} (hfn : fn.toNat < 32 ∧ csetAllowed (fn.setWidth 5) = true) :
    let k := s.dev.core c.toNat
    Executes s c (need2 rd ra rb 0#4) (.cset c rd ra rb fn)
      (csetPair (s.dev.bentFor c) (fn.setWidth 5) rd (k.source .compare ra.toNat rb.toNat) (k.source .compare rb.toNat ra.toNat) k) :=
  executes_taggedOnly rfl hm (if_pos hfn)

/-- The divides of tagged mode: their kind pairs, and what the dividend is scaled by (R99, R100). -/
def divForms : List ((CoreId → Reg → Reg → Reg → Instr) × Pairs × Int) := [(.div, Pairs.div, 1), (.divf, Pairs.fixed, 65536)]

theorem executes_divForm :
    ∀ e ∈ divForms, Executes s c (needDiv rd ra rb) (e.1 c rd ra rb)
      (aluDiv (s.dev.bentFor c) e.2.1 (fun a => sval a * e.2.2) rd ra rb (s.dev.core c.toNat)) := by
  have hdiv : Executes s c (needDiv rd ra rb) (.div c rd ra rb)
      (aluDiv (s.dev.bentFor c) .div (fun a => sval a) rd ra rb (s.dev.core c.toNat)) := executes_taggedOnly rfl hm rfl
  simp only [divForms, List.forall_mem_cons, Int.mul_one]
  exact ⟨hdiv, executes_taggedOnly rfl hm rfl, nofun⟩

theorem executes_not : Executes s c (need1 rd ra wNZ) (.not c rd ra) (notWord rd ra (s.dev.core c.toNat)) := by
  rw [← wLogic_tagged hm]
  exact executes_tagged rfl hm rfl

end

/-! ### Checked operations whose check passes (R96) -/

section
variable {x : Bent} {k : Core} {rd ra rb : Reg} {a b : Word} {tr : Byte}

theorem logicPair_passed (f : W32 → W32 → W32) (h : k.checked (checkPair x .logical .logic false a.tag b.tag) = .ok tr) :
    logicPair x f rd a b k
      = .next (k.putNZ rd tr (if kindOf a.tag = 5 ∧ kindOf b.tag = 5 then f a.pay b.pay &&& 1#32 else f a.pay b.pay)) := by
  simp [logicPair, h, kBool]

theorem shiftPair_passed (f : W32 → Nat → W32) (h : k.checked (checkShift a.tag b.tag) = .ok tr) :
    shiftPair f rd a b k = .next (k.putNZ rd tr (f a.pay (b.pay.toNat % 32))) := by
  simp [shiftPair, h]

/-- A shift by an immediate below 32 shifts by it (R93). -/
theorem shiftImm_passed {imm : BitVec 15} (f : W32 → Nat → W32) (hlt : imm.toNat < 32)
    (h : k.checked (checkShift (k.lone ra.toNat).tag tagInt) = .ok tr) :
    shiftImm f rd ra imm k = .next (k.putNZ rd tr (f (k.lone ra.toNat).pay imm.toNat)) := by
  have hp := shiftPair_passed (rd := rd) (b := { pay := zext15 imm, tag := tagInt }) f h
  have hamount : (zext15 imm).toNat % 32 = imm.toNat := by
    rw [zext15, BitVec.toNat_setWidth]
    omega
  rw [shiftImm, if_neg (Nat.not_le.mpr hlt), hp, hamount]

theorem notWord_passed (h : k.checked (checkOne notKinds 0#4 false (k.lone ra.toNat).tag) = .ok tr) :
    notWord rd ra k = .next (k.putNZ rd tr
      (if kindOf (k.lone ra.toNat).tag = 5 then (~~~ (k.lone ra.toNat).pay) &&& 1#32 else ~~~ (k.lone ra.toNat).pay)) := by
  simp [notWord, h, kBool]

theorem cmpPair_passed (h : k.checked (checkPair x .compare .cmp false a.tag b.tag) = .ok tr) :
    cmpPair x a b k = .next (k.setFlags (cmpFlags a b)) := by
  simp [cmpPair, h]

/-- The codes that CSET allows, and which of them refuse a BOOL pair (R105). -/
theorem csetAllowed_code {fn : BitVec 10} (h : fn.toNat ∈ [1, 2, 3, 4, 5, 6, 11, 12]) :
    (fn.toNat < 32 ∧ csetAllowed (fn.setWidth 5) = true) ∧ (!(fn.setWidth 5 == 1#5 || fn.setWidth 5 == 2#5)) = decide (2 < fn.toNat) := by
  have hcodes : ∀ n ∈ [1, 2, 3, 4, 5, 6, 11, 12],
      (n < 32 ∧ csetAllowed (BitVec.ofNat 5 n) = true) ∧ (!(BitVec.ofNat 5 n == 1#5 || BitVec.ofNat 5 n == 2#5)) = decide (2 < n) := by decide
  exact hcodes _ h

theorem csetPair_passed {cc : BitVec 5} (h : k.checked (checkPair x .compare .cmp (!(cc == 1#5 || cc == 2#5)) a.tag b.tag) = .ok tr) :
    csetPair x cc rd a b k = .next (k.setReg rd.toNat
      { pay := if condHolds cc (cmpFlags a b) then 1#32 else 0#32, tag := if k.psr.t then tagBool else tagRaw }) := by
  simp only [csetPair, h]

/-- While T is 0 every result is RAW (R61). -/
theorem checked_untagged {r : Except TrapRec Byte} (ht : k.psr.t = false) (h : k.checked r = .ok tr) : tr = tagRaw := by
  simpa [Core.checked, ht, eq_comm] using h

theorem aluDiv_refused {r : TrapRec} {tab : Pairs} (num : W32 → Int)
    (h : k.checked (checkPair x .divide tab false (k.source .divide ra.toNat rb.toNat).tag (k.source .divide rb.toNat ra.toNat).tag) = .error r) :
    aluDiv x tab num rd ra rb k = .trap r := by
  simp [aluDiv, h]

/-- A divide that passes its check enters EX with its quotient; where the divisor is 0, the result is NV while T is 1 (R101, R141). -/
theorem aluDiv_passed {tab : Pairs} (num : W32 → Int)
    (h : k.checked (checkPair x .divide tab false (k.source .divide ra.toNat rb.toNat).tag (k.source .divide rb.toNat ra.toNat).tag) = .ok tr) :
    let a := k.source .divide ra.toNat rb.toNat
    let b := k.source .divide rb.toNat ra.toNat
    ∃ v, aluDiv x tab num rd ra rb k = .next { k with div := some v } ∧ v.rd = rd ∧ v.pc = k.pc ∧ v.flagsLive = 15#4 ∧ v.younger = false
      ∧ v.res = { pay := (quotRes (num a.pay) b.pay).1, tag := if b.pay = 0#32 ∧ k.psr.t = true then tagNv else tr }
      ∧ v.v = (quotRes (num a.pay) b.pay).2 := by
  simp only [aluDiv, h]
  exact ⟨_, rfl, rfl, rfl, rfl, rfl, rfl, rfl⟩

/-- A divisor of 0 gives payload 0 and V (R101). -/
theorem quotRes_zero (num : Int) : quotRes num 0#32 = (0#32, true) := rfl

/-- Another divisor gives the quotient, truncated toward zero and saturated (R99, R100). -/
theorem quotRes_nonzero (num : Int) {b : W32} (h : b ≠ 0#32) : quotRes num b = (sat32 (num.tdiv (sval b)), !fits32 (num.tdiv (sval b))) := by
  rw [quotRes, if_neg h]

/-- DIV_COMPLETE changes its core alone. -/
theorem divComplete_coreOnly {s : State} (c : CoreId) :
    ∃ t, exec (.divComplete c) s = .next t ∧ CoreOnly s c (s.dev.core c.toNat).divDone t := by
  obtain ⟨hcore, hothers, hbents, hshared⟩ := SameBut.setCore s.dev c.toNat (s.dev.core c.toNat).divDone
  exact ⟨_, rfl, rfl, rfl, hcore, hothers, hbents, hshared⟩

/-- An immediate beside a BOOL operand is a BOOL (R59, R107). -/
theorem kindOf_immTag_logical (t : Byte) : kindOf (immTag .logical t) = 5 ↔ kindOf t = 5 := by
  unfold immTag
  have hint : kindOf tagInt = 1 := rfl
  by_cases h : kindOf t = 3 ∨ kindOf t = 6
  · rcases h with h | h <;> simp [h, kPtr, kCode, hint]
  · rw [not_or] at h
    simp [kPtr, kCode, h.1, h.2]

end

end Sys2Proof.Machine
end

section
/-! PROOFS. The statements on the divides and the compares. -/
namespace Sys2Proof.Proofs
open Sys2Proof.Machine

/-- Settles O9: a divide is checked before its divisor is looked at, and DIV_COMPLETE writes what it left in EX. -/
theorem dividesComplete : Obligations.DividesComplete := by
  unfold Obligations.DividesComplete
  refine ⟨?_, ?_⟩
  · intro e he c rd ra rb s k a b exact zero check hi hm
    have hex := executes_divForm (rd := rd) (ra := ra) (rb := rb) hm e he
    refine ⟨fun r hr hd => hex.traps hi (aluDiv_refused _ hr) hd, fun tr hr => ?_⟩
    obtain ⟨v, hv, hrd, hpc, hlive, hyounger, hres, hv'⟩ := aluDiv_passed (rd := rd) (fun a => sval a * e.2.2) hr
    obtain ⟨t, ht, hdone⟩ := hex.completes hi hv
    refine ⟨t, v, ht, hdone, hrd, hpc, hlive, hyounger, fun hz => ?_, fun hz => ?_⟩
    · have htag : (if zero ∧ k.psr.t = true then tagNv else tr) = if k.psr.t then 0xE0#8 else 0x00#8 := by
        cases ht : k.psr.t with
        | true => simp [hz, tagNv]
        | false => simp [checked_untagged ht hr, tagRaw]
      rw [hres, hv', htag, show b.pay = 0#32 from hz, quotRes_zero]
      exact ⟨rfl, rfl⟩
    · rw [hres, hv', if_neg fun h => hz h.1, quotRes_nonzero _ hz]
      exact ⟨rfl, rfl⟩
  · intro c s v hv
    obtain ⟨t, ht, hcore⟩ := divComplete_coreOnly (s := s) c
    refine ⟨t, ht, ?_⟩
    simpa only [Core.divDone, hv] using hcore

/-- Settles O10: the three compare the same two words, and their check passes. -/
theorem comparesComplete : Obligations.ComparesComplete := by
  unfold Obligations.ComparesComplete
  refine ⟨?_, ?_, ?_⟩
  · intro c ra rb s tr k a b hi hm hc
    exact (executes_cmp hm).completes hi (cmpPair_passed hc)
  · intro c ra imm s tr k a b n hi hm hc
    exact (executes_cmpi hm).completes hi (cmpPair_passed hc)
  · intro c rd ra rb fn s tr k a b hi hm hfn hc
    obtain ⟨hcode, hbool⟩ := csetAllowed_code hfn
    rw [← hbool] at hc
    exact (executes_cset hm hcode).completes hi (csetPair_passed hc)

end Sys2Proof.Proofs
end

section
/-! PROOFS. The statement on the logical and shift instructions of tagged mode. -/
namespace Sys2Proof.Proofs
open Sys2Proof.Machine

/-- Settles O11, table by table: each form is its table's checked operation, and the check passes. -/
theorem logicAndShiftsComplete : Obligations.LogicAndShiftsComplete := by
  unfold Obligations.LogicAndShiftsComplete
  refine ⟨⟨?_, ?_, ?_⟩, ?_, ?_⟩
  · intro e he c rd ra rb s tr k a b r hi hm hc
    exact (executes_logicForm hm e he).completes hi (logicPair_passed e.2 hc)
  · intro e he c rd ra imm s tr k a r hi hm hc
    have hp := logicPair_passed (rd := rd) (a := a) (b := { pay := zext15 imm, tag := immTag .logical a.tag }) e.2 hc
    simp only [kindOf_immTag_logical, and_self] at hp
    exact (executes_logicImmForm hm e he).completes hi hp
  · intro c rd ra s tr k a hi hm hc
    exact (executes_not hm).completes hi (notWord_passed hc)
  · intro e he c rd ra rb s tr k a b hi hm hc
    rw [BitVec.toNat_setWidth]
    exact (executes_shiftForm hm e he).completes hi (shiftPair_passed e.2 hc)
  · intro e he c rd ra imm s tr k a hi hm hlt hc
    exact (executes_shiftImmForm hm e he).completes hi (shiftImm_passed e.2 hlt hc)

end Sys2Proof.Proofs
end

section
/-! SUPPORT. The moves' words, and what TCHK and TTST compare. -/
namespace Sys2Proof.Machine

/-- The field of MOVU stands in the upper 20 bits (R108). -/
theorem movu_pay (imm : BitVec 20) : imm.setWidth 32 <<< 12 = imm ++ 0#12 := by
  apply BitVec.eq_of_toNat_eq
  have hlt := imm.isLt
  have happend : (imm ++ 0#12 : W32).toNat = imm.toNat <<< 12 ||| 0 := BitVec.toNat_append imm 0#12
  rw [happend, Nat.or_zero, BitVec.toNat_shiftLeft, BitVec.toNat_setWidth, Nat.shiftLeft_eq, Nat.shiftLeft_eq]
  omega

/-! ### The compared bits of a tag (R109) -/

theorem and_fullMask (a : Byte) : a &&& 0xFF#8 = a := BitVec.and_allOnes

theorem and_kindMask (a : Byte) : a &&& 0xE0#8 = a >>> 5 <<< 5 := by
  rw [BitVec.shiftLeft_ushiftRight]
  rfl

theorem toNat_and_unitMask (a : Byte) : (a &&& 0x1F#8).toNat = a.toNat % 32 := by
  rw [BitVec.toNat_and]
  exact Nat.and_two_pow_sub_one_eq_mod a.toNat 5

theorem kindField_eq_iff {a v : Byte} : a.extractLsb' 5 3 = v.extractLsb' 5 3 ↔ kindOf a = kindOf v := by
  rw [← BitVec.toNat_inj]
  simp only [kindOf, BitVec.extractLsb'_toNat, Nat.shiftRight_eq_div_pow]
  omega

theorem unitField_eq_iff {a v : Byte} : a.extractLsb' 0 5 = v.extractLsb' 0 5 ↔ a.toNat % 32 = v.toNat % 32 := by
  rw [← BitVec.toNat_inj]
  simp only [BitVec.extractLsb'_toNat, Nat.shiftRight_zero, Nat.reducePow]

/-- A tag is its kind and its unit (R46). -/
theorem tag_eq_iff {a v : Byte} : a = v ↔ kindOf a = kindOf v ∧ a.toNat % 32 = v.toNat % 32 := by
  rw [← BitVec.toNat_inj]
  unfold kindOf
  omega

/-- Tags with the same kind bits are those of one kind. -/
theorem kindBits_eq_iff {a v : Byte} : a &&& 0xE0#8 = v &&& 0xE0#8 ↔ kindOf a = kindOf v := by
  rw [and_kindMask, and_kindMask, ← BitVec.toNat_inj]
  simp only [kindOf, BitVec.toNat_shiftLeft, BitVec.toNat_ushiftRight, Nat.shiftLeft_eq, Nat.shiftRight_eq_div_pow]
  omega

/-- Whether the bits of two tags that a defined mask compares are the same: of mask 00b all, of 01b the kind, of 10b the unit. -/
def sameUnder (m : BitVec 2) (a v : Byte) : Bool :=
  let kinds := a.extractLsb' 5 3 == v.extractLsb' 5 3
  let units := a.extractLsb' 0 5 == v.extractLsb' 0 5
  if m = 0#2 then kinds && units else if m = 1#2 then kinds else units

theorem tagMatch_eq_sameUnder {m : BitVec 2} (a v : Byte) (h : m ≠ 3#2) : tagMatch m a v = sameUnder m a v := by
  have hm : m = 0#2 ∨ m = 1#2 ∨ m = 2#2 := by bv_omega
  rw [Bool.eq_iff_iff]
  rcases hm with rfl | rfl | rfl
  · change (a &&& 0xFF#8 == v &&& 0xFF#8) = true ↔ (_ == _ && _ == _) = true
    rw [Bool.and_eq_true, beq_iff_eq, beq_iff_eq, beq_iff_eq, and_fullMask, and_fullMask, kindField_eq_iff, unitField_eq_iff]
    exact tag_eq_iff
  · change (a &&& 0xE0#8 == v &&& 0xE0#8) = true ↔ (_ == _) = true
    rw [beq_iff_eq, beq_iff_eq, kindField_eq_iff]
    exact kindBits_eq_iff
  · change (a &&& 0x1F#8 == v &&& 0x1F#8) = true ↔ (_ == _) = true
    rw [beq_iff_eq, beq_iff_eq, unitField_eq_iff, ← BitVec.toNat_inj, toNat_and_unitMask, toNat_and_unitMask]

section
variable {ra : Reg} {v : Byte} {m : BitVec 2} {k : Core}

/-- Mask 11b is undefined, for both instructions. -/
theorem tagTest_undefined (traps : Bool) : tagTest traps ra v 3#2 k = .trap trapIllegal := rfl

/-- Z tells the match, where the instruction does not trap on a mismatch. -/
theorem tagTest_writesZ {traps : Bool} (hm : m ≠ 3#2) (h : sameUnder m (k.lone ra.toNat).tag v = true ∨ (traps && k.psr.t) = false) :
    tagTest traps ra v m k = .next (k.setZ (sameUnder m (k.lone ra.toNat).tag v)) := by
  simp only [tagTest, if_neg hm, tagMatch_eq_sameUnder _ _ hm]
  cases hs : sameUnder m (k.lone ra.toNat).tag v with
  | true => rfl
  | false =>
    rw [hs] at h
    simp [h.resolve_left Bool.false_ne_true]

/-- A mismatch of TCHK while T is 1: TYPE_FAULT where compared kind bits differ, else UNIT_FAULT. -/
theorem tagTest_traps (hm : m ≠ 3#2) (h : sameUnder m (k.lone ra.toNat).tag v = false) (ht : k.psr.t = true) :
    tagTest true ra v m k = .trap (tagTrap
      (if m ≠ 2#2 ∧ ((k.lone ra.toNat).tag.extractLsb' 5 3 == v.extractLsb' 5 3) = false then cType else cUnit) 0#4 1#2 (k.lone ra.toNat).tag v) := by
  have hkinds : (m != 2#2 && kindOf (k.lone ra.toNat).tag != kindOf v) = true
      ↔ m ≠ 2#2 ∧ ((k.lone ra.toNat).tag.extractLsb' 5 3 == v.extractLsb' 5 3) = false := by
    simp [kindField_eq_iff]
  simp only [tagTest, if_neg hm, tagMatch_eq_sameUnder _ _ hm, h, ht, hkinds, Bool.false_eq_true, if_false, Bool.and_self, if_true]
  split <;> rfl

end

end Sys2Proof.Machine
end

section
/-! PROOFS. The statements on the moves and on the tag tests. -/
namespace Sys2Proof.Proofs
open Sys2Proof.Machine

/-- Settles O12, move by move: none checks its operand. -/
theorem movesComplete : Obligations.MovesComplete := by
  unfold Obligations.MovesComplete
  intro c rd ra imm v s k n a
  refine ⟨fun hi hm => ⟨?_, ?_, ?_⟩, fun hi hm => ?_, fun hi hm => ?_⟩
  · exact (executes_tagged rfl hm rfl).completes hi rfl
  · exact (executes_taggedOnly rfl hm rfl).completes hi rfl
  · exact (executes_taggedOnly rfl hm rfl).completes hi rfl
  · exact (executes_compact rfl hm rfl).completes hi rfl
  · rw [← movu_pay]
    exact (executes_taggedOnly rfl hm rfl).completes hi rfl

/-- Settles O13: both instructions make the same test, and only TCHK while T is 1 traps on what it finds. -/
theorem tagTests : Obligations.TagTests := by
  unfold Obligations.TagTests
  intro c ra v m s k a n kinds units same undefinedMask hi hm
  have httst : Executes s c n (.ttst c ra v m) (tagTest false ra v m k) := executes_taggedOnly rfl hm rfl
  have htchk : Executes s c n (.tchk c ra v m) (tagTest true ra v m k) := executes_taggedOnly rfl hm rfl
  refine ⟨fun h3 hd => ?_, fun h3 => ⟨?_, fun h => ?_, fun h ht hd => ?_⟩⟩
  · subst h3
    exact ⟨httst.traps hi (tagTest_undefined _) hd, htchk.traps hi (tagTest_undefined _) hd⟩
  · exact httst.completes hi (tagTest_writesZ h3 (.inr rfl))
  · exact htchk.completes hi (tagTest_writesZ h3 h)
  · exact htchk.traps hi (tagTest_traps h3 h ht) hd

end Sys2Proof.Proofs
end

section
/-! SUPPORT. The instructions of compact mode: their immediates, the rotations through carry, the 16-bit sum. -/
namespace Sys2Proof.Machine

/-! ### Compact results (R120, R121) -/

theorem alu8i_byte {k : Core} {rd ra : Reg} {imm : BitVec 15} (f : Byte → Byte → Bool → Res8) (h : imm.toNat < 256) :
    alu8i f rd ra imm k = .next (k.put8 rd (f (k.byte ra.toNat) (imm.setWidth 8) k.psr.c)) := by
  simp [alu8i, byteImm, h]

theorem shift8i_below {k : Core} {rd ra : Reg} {imm : BitVec 15} (f : Byte → Nat → Bool → Res8) (h : imm.toNat < 8) :
    shift8i f rd ra imm k = .next (k.put8 rd (f (k.byte ra.toNat) imm.toNat k.psr.c)) := by
  rw [shift8i, if_neg (Nat.not_le.mpr h)]

/-- The places of a byte's bits. -/
theorem byteBit_cases {i : Nat} (hi : i < 8) : i = 0 ∨ i = 1 ∨ i = 2 ∨ i = 3 ∨ i = 4 ∨ i = 5 ∨ i = 6 ∨ i = 7 := by omega

/-- Left by one with the carry into bit 0 (RLC). -/
theorem rotateLeft_eq (a : Byte) (cf : Bool) : (a <<< 1) ||| (if cf then 1#8 else 0#8) = (a.extractLsb' 0 7 ++ BitVec.ofBool cf).setWidth 8 := by
  apply BitVec.eq_of_getLsbD_eq
  intro i hi
  rw [BitVec.getLsbD_setWidth, BitVec.getLsbD_append]
  obtain rfl | rfl | rfl | rfl | rfl | rfl | rfl | rfl := byteBit_cases hi <;> cases cf <;> simp

/-- Right by one with the carry into bit 7 (RRC). -/
theorem rotateRight_eq (a : Byte) (cf : Bool) : (a >>> 1) ||| (if cf then 0x80#8 else 0#8) = (BitVec.ofBool cf ++ a.extractLsb' 1 7).setWidth 8 := by
  apply BitVec.eq_of_getLsbD_eq
  intro i hi
  rw [BitVec.getLsbD_setWidth, BitVec.getLsbD_append]
  obtain rfl | rfl | rfl | rfl | rfl | rfl | rfl | rfl := byteBit_cases hi <;> cases cf <;> simp

/-- The flags of a 16-bit sum: overflow by the signs, the carry out of bit 15. -/
theorem add16_eq (a b : BitVec 16) : add16 a b = (a + b,
    { n := (a + b).msb, z := a + b == 0#16, v := a.msb == b.msb && (a + b).msb != a.msb, c := BitVec.carry 16 a b false }) := by
  have hv : (decide (a.toInt + b.toInt < -32768) || decide (32767 < a.toInt + b.toInt)) = (a.msb == b.msb && (a + b).msb != a.msb) := by
    refine Eq.trans ?_ (BitVec.saddOverflow_eq a b)
    rw [Bool.eq_iff_iff]
    simp only [BitVec.saddOverflow, Bool.or_eq_true, decide_eq_true_eq]
    omega
  have hc : decide (65536 ≤ a.toNat + b.toNat) = BitVec.carry 16 a b false := by
    simp [BitVec.carry, Nat.mod_eq_of_lt a.isLt, Nat.mod_eq_of_lt b.isLt]
  simp only [add16, hv, hc]

/-! ### What EX makes of them -/

section
variable {s : State} {c : CoreId} {rd ra rb : Reg} {imm : BitVec 15} (hm : (s.dev.core c.toNat).psr.compact = true)
include hm

theorem executes_byteForm :
    let k := s.dev.core c.toNat
    ∀ e ∈ byteForms, Executes s c { need2 rd ra rb e.2.1 with rdFlags := e.2.2.1 } (e.1 c rd ra rb)
      (.next (k.put8 rd (e.2.2.2 (k.byte ra.toNat) (k.byte rb.toNat) k.psr.c))) := by
  have hlogic := congrArg (need2 rd ra rb) (wLogic_compact hm)
  have hshift := congrArg (need2 rd ra rb) (wShift_compact hm)
  simp only [byteForms, List.forall_mem_cons]
  exact ⟨executes_compact rfl hm rfl, executes_compactOnly rfl hm rfl, executes_compact rfl hm rfl, executes_compactOnly rfl hm rfl,
    .needs hlogic (executes_compact rfl hm rfl), .needs hlogic (executes_compact rfl hm rfl), .needs hlogic (executes_compact rfl hm rfl),
    .needs hshift (executes_compact rfl hm rfl), .needs hshift (executes_compact rfl hm rfl),
    .needs hshift (executes_compact rfl hm rfl), nofun⟩

theorem executes_byteImmForm : ∀ e ∈ byteImmForms, Executes s c (need1 rd ra e.2.1) (e.1 c rd ra imm)
    (alu8i e.2.2 rd ra imm (s.dev.core c.toNat)) := by
  have hlogic := congrArg (need1 rd ra) (wLogic_compact hm)
  simp only [byteImmForms, List.forall_mem_cons]
  exact ⟨executes_compact rfl hm rfl, executes_compact rfl hm rfl, .needs hlogic (executes_compact rfl hm rfl),
    .needs hlogic (executes_compact rfl hm rfl), .needs hlogic (executes_compact rfl hm rfl), nofun⟩

theorem executes_byteShiftForm : ∀ e ∈ byteShiftForms, Executes s c (need1 rd ra wNZVC) (e.1 c rd ra imm)
    (shift8i e.2 rd ra imm (s.dev.core c.toNat)) := by
  have hshift := congrArg (need1 rd ra) (wShift_compact hm)
  simp only [byteShiftForms, List.forall_mem_cons]
  exact ⟨.needs hshift (executes_compact rfl hm rfl), .needs hshift (executes_compact rfl hm rfl),
    .needs hshift (executes_compact rfl hm rfl), nofun⟩

theorem executes_notByte :
    let k := s.dev.core c.toNat
    Executes s c (need1 rd ra 14#4) (.not c rd ra)
      (.next (k.put8 rd (logic8 (~~~ k.byte ra.toNat) k.psr.c))) :=
  .needs (congrArg (need1 rd ra) (wLogic_compact hm)) (executes_compact rfl hm rfl)

/-- CMPI of a byte register and a byte immediate. -/
theorem executes_cmpiByte (h : imm.toNat < 256) :
    let k := s.dev.core c.toNat
    Executes s c { reads := [ra.toNat], wrFlags := wNZVC } (.cmpi c ra imm)
      (.next (k.setFlags (sub8 (k.byte ra.toNat) (imm.setWidth 8) false).2)) :=
  executes_compact rfl hm (by simp [byteImm, h])

/-- MUL of two byte registers into a pair. -/
theorem executes_mulByte (hd : isPair rd = true) :
    let k := s.dev.core c.toNat
    Executes s c { reads := [ra.toNat, rb.toNat], writes := [2 * rd.toNat, 2 * rd.toNat + 1], wrFlags := wNZVC } (.mul c rd ra rb)
      (.next (k.put16 rd (mul8 (k.byte ra.toNat) (k.byte rb.toNat)))) :=
  .needs (n := needMul (s.dev.core c.toNat) rd ra rb) (by simp [needMul, hm]) (executes_compact rfl hm (if_pos hd))

theorem executes_add16 (hd : isPair rd = true) (ha : isPair ra = true) (hb : isPair rb = true) :
    let k := s.dev.core c.toNat
    Executes s c { reads := pairRegs ra ++ pairRegs rb, writes := pairRegs rd, wrFlags := wNZVC } (.add16 c rd ra rb)
      (.next (k.put16 rd (add16 (k.pair ra.toNat) (k.pair rb.toNat)))) :=
  executes_compactOnly rfl hm (by simp [hd, ha, hb])

theorem executes_addi16 (hd : isPair rd = true) (ha : isPair ra = true) :
    let k := s.dev.core c.toNat
    Executes s c { reads := pairRegs ra, writes := pairRegs rd, wrFlags := wNZVC } (.addi16 c rd ra imm)
      (.next (k.put16 rd (add16 (k.pair ra.toNat) (imm.signExtend 16)))) :=
  executes_compactOnly rfl hm (by simp [hd, ha])

end

end Sys2Proof.Machine
end

section
/-! PROOFS. The statement on the arithmetic of compact mode. -/
namespace Sys2Proof.Proofs
open Sys2Proof.Machine

/-- Settles O14, table by table: compact mode checks no tag, so each form completes with its result. -/
theorem compactArithmeticCompletes : Obligations.CompactArithmeticCompletes := by
  unfold Obligations.CompactArithmeticCompletes
  refine ⟨⟨?_, ?_, ?_, ?_, ?_, ?_, ?_⟩, ?_⟩
  · intro e he c rd ra rb s k n hi hm
    exact (executes_byteForm hm e he).completes hi rfl
  · intro e he c rd ra imm s k n hi hm hlt
    exact (executes_byteImmForm hm e he).completes hi (alu8i_byte e.2.2 hlt)
  · intro e he c rd ra imm s k n hi hm hlt
    exact (executes_byteShiftForm hm e he).completes hi (shift8i_below e.2 hlt)
  · intro c rd ra s k a n hi hm
    rw [← rotateLeft_eq, ← rotateRight_eq]
    exact ⟨(executes_compactOnly rfl hm rfl).completes hi rfl, (executes_compactOnly rfl hm rfl).completes hi rfl⟩
  · intro c rd ra s k hi hm
    exact (executes_notByte hm).completes hi rfl
  · intro c ra rb s k hi hm
    exact (executes_compact rfl hm rfl).completes hi rfl
  · intro c ra imm s k n hi hm hlt
    exact (executes_cmpiByte hm hlt).completes hi rfl
  · intro c pd pa pb imm s k sum na ni nm hm hd
    refine ⟨fun ha hb hi => ?_, fun ha hi => ?_, fun hi => (executes_mulByte hm hd).completes hi rfl⟩
    · exact (executes_add16 hm hd ha hb).completes hi (by rw [add16_eq])
    · exact (executes_addi16 hm hd ha).completes hi (by rw [add16_eq])

end Sys2Proof.Proofs
end

section
/-! SUPPORT. Control transfers: where a target of each data mode lies, and what a link leaves alone. -/
namespace Sys2Proof.Machine

/-! ### Targets (R112, R114, R122) -/

theorem toNat_upperHalf (pc : W32) : (pc &&& 0xFFFF0000#32).toNat = (pc.extractLsb' 16 16).toNat <<< 16 := by
  have hmask : pc &&& 0xFFFF0000#32 = pc >>> 16 <<< 16 := by
    rw [BitVec.shiftLeft_ushiftRight]
    rfl
  have hlt := pc.isLt
  rw [hmask, BitVec.toNat_shiftLeft, BitVec.toNat_ushiftRight, BitVec.extractLsb'_toNat, Nat.shiftLeft_eq, Nat.shiftLeft_eq,
    Nat.shiftRight_eq_div_pow]
  omega

theorem toNat_lowerHalf (low : W32) : (low &&& 0x0000FFFF#32).toNat = (low.extractLsb' 0 16).toNat := by
  rw [BitVec.toNat_and, BitVec.extractLsb'_toNat, Nat.shiftRight_zero]
  exact Nat.and_two_pow_sub_one_eq_mod low.toNat 16

/-- A target of compact mode has the PC's upper half and a lower half of its own. -/
theorem compactTarget_eq (pc low : W32) : compactTarget pc low = pc.extractLsb' 16 16 ++ low.extractLsb' 0 16 := by
  apply BitVec.eq_of_toNat_eq
  rw [compactTarget, BitVec.toNat_or, toNat_upperHalf, toNat_lowerHalf]
  exact (BitVec.toNat_append (pc.extractLsb' 16 16) (low.extractLsb' 0 16)).symm

theorem inCode_iff (t : W32) : inCode t = true ↔ 0x02000000 ≤ t.toNat ∧ t.toNat < 0x02800000 := by
  simp [inCode, isCode]

section
variable {k k' : Core} {t : W32} {ta : Byte}

theorem takeTo_inCode (h : 0x02000000 ≤ t.toNat ∧ t.toNat < 0x02800000) : takeTo k' t ta = .goto k' t := by
  rw [takeTo, if_pos ((inCode_iff t).mpr h)]

theorem takeTo_outside (h : ¬ (0x02000000 ≤ t.toNat ∧ t.toNat < 0x02800000)) : takeTo k' t ta = .trap (trapBounds 4#4 t ta) := by
  rw [takeTo, if_neg (mt (inCode_iff t).mp h)]

/-- Where a branch with this offset goes in the core's data mode. -/
def Core.branchTarget (k : Core) (off : BitVec 20) : W32 :=
  let far := k.pc + off.signExtend 32
  if k.psr.compact then k.pc.extractLsb' 16 16 ++ far.extractLsb' 0 16 else far

/-- A core may branch to a target: in tagged mode it lies in code store. -/
def Core.lands (k : Core) (t : W32) : Prop := k.psr.compact = true ∨ (0x02000000 ≤ t.toNat ∧ t.toNat < 0x02800000)

theorem branchTarget_tagged (hm : k.psr.compact = false) (off : BitVec 20) : k.branchTarget off = k.pc + off.signExtend 32 := by
  simp [Core.branchTarget, hm]

theorem branchTarget_compact (hm : k.psr.compact = true) (off : BitVec 20) :
    k.branchTarget off = k.pc.extractLsb' 16 16 ++ (k.pc + off.signExtend 32).extractLsb' 0 16 := by
  simp [Core.branchTarget, hm]

theorem branch_not (off : BitVec 20) : branch k false off ta = .next k.btbNot := rfl

theorem branch_taken {off : BitVec 20} (h : k.lands (k.branchTarget off)) :
    branch k true off ta = .goto (k.btbTaken (k.branchTarget off)) (k.branchTarget off) := by
  cases hm : k.psr.compact with
  | true => simp [branch, Core.branchTarget, hm, compactTarget_eq, sext20]
  | false =>
    simp only [Core.lands, Core.branchTarget, hm, Bool.false_eq_true, false_or, if_false] at h ⊢
    simp only [branch, hm, if_true, Bool.false_eq_true, if_false]
    exact takeTo_inCode h

/-- The link is no part of what a branch reads: a taken one goes where it went from the core without it. -/
theorem branch_linked {off : BitVec 20} (hpc : k'.pc = k.pc) (hpsr : k'.psr = k.psr) (h : k.lands (k.branchTarget off)) :
    branch k' true off ta = .goto (k'.btbTaken (k.branchTarget off)) (k.branchTarget off) := by
  have ht : k'.branchTarget off = k.branchTarget off := by simp only [Core.branchTarget, hpc, hpsr]
  have hl : k'.lands (k'.branchTarget off) := by
    rw [ht]
    simpa only [Core.lands, hpsr] using h
  rw [branch_taken hl, ht]

theorem branch_outside {off : BitVec 20} (h : ¬ k.lands (k.branchTarget off)) :
    branch k true off ta = .trap (trapBounds 4#4 (k.branchTarget off) ta) := by
  obtain ⟨hm, ht⟩ := not_or.mp h
  rw [Bool.not_eq_true] at hm
  simp only [Core.branchTarget, hm, Bool.false_eq_true, if_false] at ht ⊢
  simp only [branch, hm, if_true, Bool.false_eq_true, if_false]
  exact takeTo_outside ht

end

/-! ### The links (R112, R122) -/

section
variable (k : Core) (r : Nat)

@[simp] theorem Core.setReg_pc (w : Word) : (k.setReg r w).pc = k.pc := by unfold Core.setReg; split <;> rfl
@[simp] theorem Core.setReg_psr (w : Word) : (k.setReg r w).psr = k.psr := by unfold Core.setReg; split <;> rfl
@[simp] theorem Core.setPair_pc (v : BitVec 16) : (k.setPair r v).pc = k.pc := by simp [Core.setPair, Core.setByte]
@[simp] theorem Core.setPair_psr (v : BitVec 16) : (k.setPair r v).psr = k.psr := by simp [Core.setPair, Core.setByte]

end

/-! ### Operands that are checked (R113) -/

section
variable {k : Core} {rd ra : Reg} {off : BitVec 20}

/-- Where T is 0 or the tag passes, an instruction of one operand goes on. -/
theorem checkOne_passed {ok : Nat → Bool} {det : BitVec 4} {t tr : Byte} (h : k.psr.t = true → checkOne ok det false t = .ok tr) :
    ∃ tr, k.checked (checkOne ok det false t) = .ok tr := by
  cases ht : k.psr.t with
  | true => exact ⟨tr, by simp [Core.checked, ht, h ht]⟩
  | false => exact ⟨tagRaw, by simp [Core.checked, ht]⟩

theorem branchOn_passed (sense : Bool) (h : (!k.psr.t || (k.lone ra.toNat).tag == 0xA0#8) = true) :
    branchOn sense ra off k = branch k ((k.lone ra.toNat).pay.getLsbD 0 == sense) off (k.lone ra.toNat).tag := by
  have hbool : k.psr.t = true → checkOne (fun n => n == kBool) 3#4 false (k.lone ra.toNat).tag = .ok tagBool := by
    intro ht
    rw [ht, Bool.not_true, Bool.false_or, beq_iff_eq] at h
    rw [h]
    rfl
  obtain ⟨tr, hr⟩ := checkOne_passed hbool
  simp only [branchOn, hr]

theorem jmpTagged_passed (h : k.psr.t = false ∨ (k.lone ra.toNat).tag = 0xC0#8)
    (ht : 0x02000000 ≤ (k.lone ra.toNat).pay.toNat ∧ (k.lone ra.toNat).pay.toNat < 0x02800000) :
    jmpTagged rd ra k = .goto (k.setReg rd.toNat (linkWord k.pc)) (k.lone ra.toNat).pay := by
  have hcode : k.psr.t = true → checkOne (fun n => n == kCode) 2#4 false (k.lone ra.toNat).tag = .ok tagCode := by
    intro ht
    rw [h.resolve_left (by simp [ht])]
    rfl
  obtain ⟨tr, hr⟩ := checkOne_passed hcode
  simp only [jmpTagged, hr]
  exact takeTo_inCode ht

/-- JMP of compact mode goes to its pair, in the block of the PC, and writes the link where it names pair 15 (R122). -/
theorem jmpCompact_goes (hp : isPair ra = true) (hd : rd = 0#5 ∨ rd = 15#5) :
    jmpCompact rd ra k = .goto (if rd = 0#5 then k else k.setPair 15 ((k.pc + 1#32).extractLsb' 0 16))
      (k.pc.extractLsb' 16 16 ++ k.pair ra.toNat) := by
  have ht : compactTarget k.pc ((k.pair ra.toNat).setWidth 32) = k.pc.extractLsb' 16 16 ++ k.pair ra.toNat := by
    rw [compactTarget_eq, ← BitVec.setWidth_eq_extractLsb' (by decide), BitVec.setWidth_setWidth_of_le _ (by decide), BitVec.setWidth_eq]
  rcases hd with rfl | rfl
  · simp [jmpCompact, hp, ht]
  · simp [jmpCompact, hp, ht, BitVec.setWidth_eq_extractLsb' (show 16 ≤ 32 by decide)]

end

/-! ### What EX makes of the transfers -/

section
variable {s : State} {c : CoreId} {rd ra : Reg} {cc : BitVec 5} {off : BitVec 20}

theorem executes_bc (h : condDefined cc = true) :
    let k := s.dev.core c.toNat
    Executes s c { rdFlags := cc != 0#5 } (.bc c cc off) (branch k (condHolds cc k.psr.nzvc) off 0#8) := ⟨_, rfl, if_pos h⟩

section
variable (h : (!(s.dev.core c.toNat).psr.compact && (!(s.dev.core c.toNat).psr.t || ((s.dev.core c.toNat).lone ra.toNat).tag == 0xA0#8)) = true)
include h

theorem executes_bt :
    let k := s.dev.core c.toNat
    Executes s c { reads := [ra.toNat] } (.bt c ra off)
      (branch k ((k.lone ra.toNat).pay.getLsbD 0) off (k.lone ra.toNat).tag) := by
  obtain ⟨hm, htag⟩ := (Bool.and_eq_true _ _).mp h
  exact executes_taggedOnly rfl ((Bool.not_eq_true' _).mp hm) ((branchOn_passed true htag).trans (by rw [beq_true]))

theorem executes_bf :
    let k := s.dev.core c.toNat
    Executes s c { reads := [ra.toNat] } (.bf c ra off)
      (branch k (!(k.lone ra.toNat).pay.getLsbD 0) off (k.lone ra.toNat).tag) := by
  obtain ⟨hm, htag⟩ := (Bool.and_eq_true _ _).mp h
  exact executes_taggedOnly rfl ((Bool.not_eq_true' _).mp hm) ((branchOn_passed false htag).trans (by rw [beq_false]))

end

/-- CALL of tagged mode. -/
theorem executes_call (hm : (s.dev.core c.toNat).psr.compact = false) :
    let k := s.dev.core c.toNat
    Executes s c { writes := linkRegs k rd } (.call c rd off)
      (branch (k.setReg rd.toNat (linkWord k.pc)) true off 0#8) := ⟨_, rfl, by simp [hm]⟩

/-- CALL of compact mode, which names pair 15. -/
theorem executes_callPair (hm : (s.dev.core c.toNat).psr.compact = true) :
    let k := s.dev.core c.toNat
    Executes s c { writes := linkRegs k 15#5 } (.call c 15#5 off)
      (branch (k.setPair 15 ((k.pc + 1#32).setWidth 16)) true off 0#8) := ⟨_, rfl, by simp [hm]⟩

end

end Sys2Proof.Machine
end

section
/-! PROOFS. The statement on control transfers. -/
namespace Sys2Proof.Proofs
open Sys2Proof.Machine

/-- An instruction that is a branch in EX: not taken, taken to a target where it may go, or trapping on the branch (R112, R114). -/
theorem branch_outcomes {s : State} {c : CoreId} {n : Need} {i : Instr} {taken : Bool} {off : BitVec 20} {ta : Byte}
    (h : Executes s c n i (branch (s.dev.core c.toNat) taken off ta)) (hi : s.dev.issues c n = true) :
    let k := s.dev.core c.toNat
    let target := k.branchTarget off
    (taken = false → ∃ t, exec i s = .next t ∧ Completed s c n k.btbNot (k.pc + 1#32) t)
    ∧ (taken = true → k.lands target → ∃ t, exec i s = .next t ∧ Completed s c n (k.btbTaken target) target t)
    ∧ (taken = true → ¬ k.lands target → k.drained = true →
      Yields s i (s.dev.takeTrap c.toNat k.pc { cause := 4#4, detail := 4#4, addr := target, tagA := ta, tagRes := 0xFF#8 })) := by
  refine ⟨?_, ?_, ?_⟩
  · rintro rfl
    exact h.completes hi (branch_not off)
  · rintro rfl hl
    exact h.goes hi (branch_taken hl)
  · rintro rfl hl hd
    exact h.traps hi (branch_outside hl) hd

/-- Settles O17: BC, BT and BF are one branch in EX and CALL is one that is taken; JMP goes where its operand says. -/
theorem controlTransfersComplete : Obligations.ControlTransfersComplete := by
  unfold Obligations.ControlTransfersComplete
  refine ⟨?_, ?_⟩
  · intro c ra cc off s k a far target lands forms
    simp only [forms, List.forall_mem_cons]
    refine ⟨fun hi hdef => ?_, fun hi hdef => ?_, fun hi hdef => ?_, List.forall_mem_nil _⟩
    · exact branch_outcomes (executes_bc hdef) hi
    · exact branch_outcomes (executes_bt hdef) hi
    · exact branch_outcomes (executes_bf hdef) hi
  · intro c rd ra off s k a far near link link16 there n m
    refine ⟨fun hm hi hlo hhi => ?_, fun hm hi hrd => ?_, fun hm hi htag hlo hhi => ?_, fun hm hi hp hrd => ?_⟩
    · have hb := branch_linked (k := k) (k' := link) (ta := 0#8) (off := off) (by simp [link]) (by simp [link])
        (.inr (by rw [branchTarget_tagged hm]; exact ⟨hlo, hhi⟩))
      rw [branchTarget_tagged hm] at hb
      exact (executes_call hm).goes hi hb
    · subst hrd
      have hb := branch_linked (k := k) (k' := link16) (ta := 0#8) (off := off) (by simp [link16]) (by simp [link16]) (.inl hm)
      rw [branchTarget_compact hm] at hb
      exact (executes_callPair hm).goes hi hb
    · exact (executes_tagged rfl hm rfl).goes hi (jmpTagged_passed htag ⟨hlo, hhi⟩)
    · exact (executes_compact rfl hm rfl).goes hi (jmpCompact_goes hp hrd)

end Sys2Proof.Proofs
end

section
/-! SUPPORT. Instructions that cannot issue: what each instruction needs to issue, by its table, and that it waits while it has not got it. -/
namespace Sys2Proof.Machine

/-! ### Waiting (R131, R132) -/

section
variable {s : State} {c : CoreId} {n : Need} {i : Instr} (hk : (s.dev.core c.toNat).canIssue n = false)
include hk

/-- An instruction that stays within its core waits. -/
theorem Executes.waits {r : ExRes} (h : Executes s c n i r) : exec i s = .next s := by
  obtain ⟨ex, he, -⟩ := h
  rw [he, run_held hk, State.keep_eq, Dev.seen_self]

/-- An instruction that reaches beyond its core waits. -/
theorem runDev_waits {ex : Core → DevRes} (h : exec i s = s.keep (s.dev.runDev c.toNat n ex)) : exec i s = .next s := by
  have hd : s.dev.runDev c.toNat n ex = s.dev := by simp [Dev.runDev, hk]
  rw [h, hd, State.keep_eq, Dev.seen_self]

end

/-! ### The instructions of tagged mode that check tags (R99 to R106) -/

section
variable {s : State} {c : CoreId} {rd ra rb : Reg} (hm : (s.dev.core c.toNat).psr.compact = false)
include hm

theorem executes_pairForm : ∀ e ∈ pairForms,
    Executes s c (need2 rd ra rb wNZVC) (e.1 c rd ra rb)
      (aluRegs (s.dev.bentFor c) e.2.1 e.2.2.1 e.2.2.2 rd ra rb (s.dev.core c.toNat)) := by
  have hmul : needMul (s.dev.core c.toNat) rd ra rb = need2 rd ra rb wNZVC := by simp [needMul, hm]
  simp only [pairForms, List.forall_mem_cons]
  exact ⟨executes_tagged rfl hm rfl, executes_taggedOnly rfl hm rfl, executes_taggedOnly rfl hm rfl, executes_tagged rfl hm rfl,
    executes_taggedOnly rfl hm rfl, executes_taggedOnly rfl hm rfl, .needs hmul (executes_tagged rfl hm rfl), executes_taggedOnly rfl hm rfl,
    executes_taggedOnly rfl hm rfl, nofun⟩

theorem executes_immForm {imm : BitVec 15} : ∀ e ∈ immForms,
    Executes s c (need1 rd ra wNZVC) (e.1 c rd ra imm)
      (aluImm (s.dev.bentFor c) e.2.1 e.2.2.1 e.2.2.2 rd ra imm (s.dev.core c.toNat)) := by
  simp only [immForms, List.forall_mem_cons]
  exact ⟨executes_tagged rfl hm rfl, executes_tagged rfl hm rfl, executes_taggedOnly rfl hm rfl, nofun⟩

/-- Multiply-accumulate and its saturating form (R102). -/
def macForms : List ((CoreId → Reg → Reg → Reg → Instr) × (W32 → W32 → W32 → Res)) := [(.macf, macfRes), (.macfs, macfsRes)]

theorem executes_macForm : ∀ e ∈ macForms,
    Executes s c (needMac rd ra rb) (e.1 c rd ra rb) (aluMac (s.dev.bentFor c) e.2 rd ra rb (s.dev.core c.toNat)) := by
  simp only [macForms, List.forall_mem_cons]
  exact ⟨executes_taggedOnly rfl hm rfl, executes_taggedOnly rfl hm rfl, nofun⟩

/-- The needs listed for an instruction whose operands' tags are checked are those by which it issues. -/
theorem executes_tagCheck {imm : BitVec 15} {fn : BitVec 10} :
    ∀ e ∈ s.dev.tagChecks c rd ra rb imm fn, ∃ r, Executes s c e.2.1 e.1 r := by
  simp only [Dev.tagChecks, List.forall_mem_append, List.forall_mem_map, List.forall_mem_cons]
  refine ⟨⟨⟨⟨⟨⟨⟨?pair, ?imm⟩, ?lone⟩, ?cset⟩, ?logic⟩, ?logicImm⟩, ?shift⟩, ?shiftImm⟩
  case pair => exact fun e he => ⟨_, executes_pairForm hm e he⟩
  case imm => exact fun e he => ⟨_, executes_immForm hm e he⟩
  case lone =>
    have hmacs := executes_macForm (rd := rd) (ra := ra) (rb := rb) hm
    have hdivs := executes_divForm (rd := rd) (ra := ra) (rb := rb) hm
    simp only [macForms, divForms, List.forall_mem_cons] at hmacs hdivs
    obtain ⟨hmacf, hmacfs, -⟩ := hmacs
    obtain ⟨hdiv, hdivf, -⟩ := hdivs
    have hcmp := executes_cmp (ra := ra) (rb := rb) hm
    have hcmpi := executes_cmpi (ra := ra) (imm := imm) hm
    exact ⟨⟨_, hmacf⟩, ⟨_, hmacfs⟩, ⟨_, hdiv⟩, ⟨_, hdivf⟩, ⟨_, hcmp⟩, ⟨_, hcmpi⟩, ⟨_, executes_not hm⟩, List.forall_mem_nil _⟩
  case cset =>
    intro e he
    obtain ⟨hcode, he⟩ := List.mem_ite_nil_right.mp he
    obtain ⟨hfn, -⟩ := csetAllowed_code hcode
    rw [List.mem_singleton.mp he]
    exact ⟨_, executes_cset hm hfn⟩
  case logic => exact fun e he => ⟨_, executes_logicForm hm e he⟩
  case logicImm => exact fun e he => ⟨_, executes_logicImmForm hm e he⟩
  case shift => exact fun e he => ⟨_, executes_shiftForm hm e he⟩
  case shiftImm =>
    intro e he
    obtain ⟨-, he⟩ := List.mem_ite_nil_right.mp he
    obtain ⟨f, hf, rfl⟩ := List.mem_map.mp he
    exact ⟨_, executes_shiftImmForm hm f hf⟩

end

end Sys2Proof.Machine
end

section
/-! PROOFS. The statement on instructions that cannot issue yet. -/
namespace Sys2Proof.Proofs
open Sys2Proof.Machine

/-- Settles O16: every instruction named goes through the rule of issue with the needs that the statement gives it, and the rule leaves the device as it is
while they are not met. -/
theorem heldInstructionsWait : Obligations.HeldInstructionsWait := by
  unfold Obligations.HeldInstructionsWait
  intro c rd ra rb imm fn cc far f s k held
  refine ⟨fun hm e he hk => ?_, fun hm e he hk => (executes_byteForm hm e he).waits hk, fun hk => runDev_waits hk rfl, fun hk => runDev_waits hk rfl,
    fun hk => runDev_waits hk rfl, fun hk => Executes.waits hk ⟨_, rfl, rfl⟩, fun hk => Executes.waits hk ⟨_, rfl, rfl⟩,
    fun hk => Executes.waits hk ⟨_, rfl, rfl⟩, fun hk => Executes.waits hk ⟨_, rfl, rfl⟩⟩
  obtain ⟨r, hr⟩ := executes_tagCheck hm e he
  exact hr.waits hk

end Sys2Proof.Proofs
end

section
/-! SUPPORT. Responses: how a transaction leaves a free way or is sent again on it, what its response makes of the core that waits for it. -/
namespace Sys2Proof.Machine

variable (d : Dev)

/-! ### Transactions by number -/

theorem txn_id {id : Nat} {t : Txn} (h : d.txn id = some t) : t.id = id := by
  simpa using List.find?_some (p := fun u : Txn => u.id == id) h

@[simp] theorem txn_dropTxn (id : Nat) : (d.dropTxn id).txn id = none := by
  simp [Dev.txn, Dev.dropTxn]

/-! ### A transaction leaves a free way (R227, R235) -/

/-- Nothing waits at an arbiter on its way or for a tracker entry. -/
def Dev.wayStill (d : Dev) : Prop := ∀ t ∈ d.txns, t.onWay = false ∧ t.st ≠ .queued

theorem Dev.freeWay.still {d : Dev} (h : d.freeWay) : d.wayStill := h.1

variable {d}

theorem Dev.wayStill.dropTxn (h : d.wayStill) (id : Nat) : (d.dropTxn id).wayStill := fun t ht => h t (List.mem_filter.mp ht).1

theorem Dev.freeWay.dropTxn (h : d.freeWay) (id : Nat) : (d.dropTxn id).freeWay := by
  obtain ⟨hstill, hfill, hdown⟩ := h
  refine ⟨Dev.wayStill.dropTxn hstill id, fun g => Nat.lt_of_le_of_lt ?_ (hfill g), hdown⟩
  have hfewer := ((List.filter_sublist (l := d.txns) (p := fun t => t.id != id)).filter (fun t => t.buffered && t.target == some g)).length_le
  simp only [Dev.fillAt, Dev.dropTxn]
  omega

theorem flow_still (h : d.wayStill) : d.flow = d := by
  have hnone : d.txns.any Txn.onWay = false := List.any_eq_false.mpr fun t ht => by simp [(h t ht).1]
  simp [Dev.flow, hnone]

/-- Where nothing waits, the place of a transaction that leaves is taken by none. -/
theorem leave_still (h : d.wayStill) (t : Txn) : d.leave t = d.dropTxn t.id := by
  have hnone : (d.dropTxn t.id).txns.find? (fun u => u.req == t.req && u.st == .queued) = none :=
    List.find?_eq_none.mpr fun u hu => by simp [(h.dropTxn t.id u hu).2]
  simp only [Dev.leave, flow_still (h.dropTxn t.id), hnone]

/-! ### A transaction sent on a free way (R216, R230) -/

/-- From d to e transactions moved: their list, the cells that they passed, the spans' counts and the PLUMB pins changed, and nothing else. -/
def Dev.deckMoved (d e : Dev) : Prop := ∃ ts cs ss ps, e = { d with txns := ts, chans := cs, spans := ss, plb := ps }

theorem Dev.deckMoved.refl (d : Dev) : d.deckMoved d := ⟨_, _, _, _, rfl⟩

theorem Dev.deckMoved.trans {e f : Dev} (h : d.deckMoved e) (g : e.deckMoved f) : d.deckMoved f := by
  obtain ⟨_, _, _, _, rfl⟩ := h
  obtain ⟨ts, cs, ss, ps, rfl⟩ := g
  exact ⟨ts, cs, ss, ps, rfl⟩

theorem Dev.deckMoved.foldl {α : Type} {f : Dev → α → Dev} (h : ∀ (x : Dev) a, x.deckMoved (f x a)) (l : List α) (d : Dev) :
    d.deckMoved (l.foldl f d) := by
  induction l generalizing d with
  | nil => exact .refl d
  | cons a l ih => exact (h d a).trans (ih (f d a))

theorem cross_deckMoved (t : Txn) (i : Nat) : d.deckMoved (d.cross t i) := by
  unfold Dev.cross Dev.onChan
  split
  · split
    · exact .refl d
    · exact ⟨_, _, _, _, rfl⟩
  · exact .refl d

theorem strobe_deckMoved (n : Nat) : d.deckMoved (d.strobe n) := ⟨_, _, _, _, rfl⟩

theorem gateSeen_deckMoved (t : Txn) (g : Gate) : d.deckMoved (d.gateSeen t g) := by
  have hhub : ∀ (x : Dev) (s : Nat), x.deckMoved (if s < 8 then (x.strobe (0xDC4 + 8 * s)).strobe (0xDC5 + 8 * s) else x) := by
    intro x s
    split
    · exact (strobe_deckMoved _).trans (strobe_deckMoved _)
    · exact .refl x
  cases g with
  | link b => exact (strobe_deckMoved _).trans (strobe_deckMoved _)
  | hub s => exact strobe_deckMoved _
  | centre => exact .refl d
  | port p =>
    unfold Dev.gateSeen
    cases hubOf t.req with
    | none => exact hhub d p
    | some s => exact (hhub d s).trans (hhub _ p)

theorem onTarget_deckMoved (g : Nat × Nat) (f : Target → Target) : d.deckMoved (d.onTarget g f) := by
  obtain ⟨ss, h⟩ := onTarget_frame d g f
  rw [h]
  exact ⟨_, _, _, _, rfl⟩

theorem land_deckMoved {t : Txn} {g : Nat × Nat} (h : t.target = some g) : d.deckMoved (d.land t) := by
  have hput : d.deckMoved { d with txns := d.txns ++ [t.landed d g] } := ⟨_, _, _, _, rfl⟩
  unfold Dev.land
  simp only [h]
  split
  · exact (hput.trans (onTarget_deckMoved _ _)).trans (onTarget_deckMoved _ _)
  · exact hput.trans (onTarget_deckMoved _ _)

/-- A transaction put on a free way moves over the Deck alone. -/
theorem arrive_deckMoved {t : Txn} {g : Nat × Nat} (hw : d.freeWay) (hg : t.target = some g) : d.deckMoved (d.arrive t) := by
  simp only [Dev.arrive, clearWay_of_freeWay d hw hg, if_true, hw.2.2, Bool.false_and, Bool.false_eq_true, if_false]
  exact ((Dev.deckMoved.foldl (fun x i => cross_deckMoved t i) _ d).trans (.foldl (fun x g => gateSeen_deckMoved t g) _ _)).trans (land_deckMoved hg)

/-- A transaction put on a free way stands at its target with its number, its address and its parts. -/
theorem arrive_stands {t : Txn} {g : Nat × Nat} (hw : d.freeWay) (hg : t.target = some g) :
    ∃ x ∈ (d.arrive t).txns, x.id = t.id ∧ x.st = .sent ∧ x.addr = t.addr ∧ x.parts = t.parts ∧ x.refusals = t.refusals := by
  obtain ⟨e, he⟩ := arrive_txns d t g hw hg
  exact ⟨t.landed e g, by simp [he], rfl, rfl, rfl, rfl, rfl⟩

/-! ### The core that waits for a response (R132, R231) -/

/-- From d to e core c became k; no other core changed, no transaction and nothing of Keystone. -/
structure Dev.CoreTook (d : Dev) (c : Nat) (k : Core) (e : Dev) : Prop where
  core : e.core c = k
  others : ∀ i, i ≠ c → e.core i = d.core i
  txns : e.txns = d.txns
  ks : e.ks = d.ks

section
variable {e : Dev} {c : Nat} {k : Core}

theorem Dev.CoreTook.refl (d : Dev) (c : Nat) : d.CoreTook c (d.core c) d := ⟨rfl, fun _ _ => rfl, rfl, rfl⟩

theorem Dev.CoreTook.onCore (h : d.CoreTook c k e) (f : Core → Core) : d.CoreTook c (f k) (e.onCore c f) :=
  ⟨by rw [Dev.core_onCore, h.core], fun i hi => (Dev.core_onCore_other e f hi).trans (h.others i hi), h.txns, h.ks⟩

theorem Dev.CoreTook.raise (h : d.CoreTook c k e) (src inst : Nat) (det : BitVec 16) : d.CoreTook c k (e.raise src inst det) := by
  have hs := raise_sameCores e src inst det
  exact ⟨(hs.core c).trans h.core, fun i hi => (hs.core i).trans (h.others i hi), (raise_txns e src inst det).trans h.txns, hs.2.trans h.ks⟩

end

theorem toNat_coreReq (c : CoreId) : (c.setWidth 12 : ReqId).toNat = c.toNat := by
  rw [BitVec.toNat_setWidth]
  have := c.isLt
  omega

theorem isCoreReq_core (c : CoreId) : isCoreReq (c.setWidth 12) = true := by
  have := c.isLt
  simp only [isCoreReq, toNat_coreReq, decide_eq_true_eq]
  omega

/-- A core that has counted a delayed transaction, where the response says that it was one (R231). -/
def Core.sawDelay (k : Core) (late : Bool) : Core := { k with deckDly := if late then satInc k.deckDly else k.deckDly }

/-- The response of a core's transaction takes it off a free way; the core counts it where it was delayed (R231). -/
theorem arrived_took {t : Txn} {c : CoreId} (hw : d.freeWay) (hreq : t.req = c.setWidth 12) (r : Resp) :
    (d.dropTxn t.id).CoreTook c.toNat ((d.core c.toNat).sawDelay (lateResp r)) (d.arrived t r) := by
  unfold Dev.arrived
  rw [leave_still hw.still]
  cases lateResp r with
  | false => exact .refl _ _
  | true =>
    simp only [if_true, Dev.countDelay, hreq, isCoreReq_core, toNat_coreReq]
    exact (Dev.CoreTook.refl (d.dropTxn t.id) c.toNat).onCore fun k => k.sawDelay true

section
variable {t : Txn} {c : CoreId}

theorem giveData_load (h : t.origin = .load c) (ws : List Word) : d.giveData t ws = d.onCore c.toNat (fun k => k.takeData t.id ws) := by
  simp only [Dev.giveData, h]

theorem giveAck_store (h : t.origin = .store c) : d.giveAck t = d.onCore c.toNat (fun k => k.takeStore t.id) := by
  simp only [Dev.giveAck, h]

theorem giveAbsent_load (h : t.origin = .load c) : d.giveAbsent t = d.onCore c.toNat (fun k => k.takeData t.id [wordNv, wordNv]) := by
  simp only [Dev.giveAbsent, h]

theorem giveError_load (h : t.origin = .load c) (det : BitVec 4) (a : W32) : d.giveError t det a = d.coreError c.toNat t det a := by
  simp only [Dev.giveError, h]

end

/-- NOT_PRESENT is counted in the core and raised by its bent (R237). -/
theorem countNp_took {e : Dev} {k : Core} {c : CoreId} (h : d.CoreTook c.toNat k e) :
    d.CoreTook c.toNat { k with deckNp := satInc k.deckNp } (e.countNp (c.setWidth 12)) := by
  simp only [Dev.countNp, isCoreReq_core, toNat_coreReq, if_true]
  exact (h.onCore fun k => { k with deckNp := satInc k.deckNp }).raise _ _ _

/-- A response for a core's one load, which names register rd: the load is gone, and of the registers rd alone is written. -/
theorem takeData_word {k : Core} {e : LoadEntry} {id : Nat} {rd : Reg} (ws : List Word) (hl : k.loads = [e]) (hid : e.txn = id)
    (hdead : e.dead = false) (hdest : e.dest = .word rd) :
    ∃ v, k.takeData id ws = { k.setReg rd.toNat (ws.headD wordZero) with loads := [], div := v } := by
  have hset : ∀ w, ({ k with loads := [] } : Core).setReg rd.toNat w = { k.setReg rd.toNat w with loads := [] } := by
    intro w
    unfold Core.setReg
    split <;> rfl
  simp only [Core.takeData, hl, List.find?_cons, List.filter_cons, List.filter_nil, hid, beq_self_eq_true, bne_self_eq_false, hdead,
    Bool.false_eq_true, if_false, Core.loadWrite, hdest, hset]
  split
  · split <;> exact ⟨_, rfl⟩
  · exact ⟨_, rfl⟩

@[simp] theorem Core.setReg_deckNp (k : Core) (r : Nat) (w : Word) : (k.setReg r w).deckNp = k.deckNp := by unfold Core.setReg; split <;> rfl

/-- What a register write makes of the registers rests on them alone. -/
theorem setReg_regs_congr {k k' : Core} (r : Nat) (w : Word) (h : k'.regs = k.regs) : (k'.setReg r w).regs = (k.setReg r w).regs := by
  unfold Core.setReg
  split
  · exact h
  · simp only [h]

/-- A core whose load under transaction id is off its list. -/
def Core.dropLoad (k : Core) (id : Nat) : Core := { k with loads := k.loads.filter (fun e => e.txn != id) }

/-- ERROR for a core's one load, a word of its own: MEM_ERROR of the load's instruction (R245). -/
theorem coreError_load {c : Nat} {e : LoadEntry} {t : Txn} (det : BitVec 4) (a : W32) (hp : t.parts = []) (hl : (d.core c).loads = [e])
    (hid : e.txn = t.id) (hdead : e.dead = false) :
    d.coreError c t det a = (d.onCore c (·.dropLoad t.id)).memError c e.seq e.pc (trapMemError det e.addr false) := by
  simp [Dev.coreError, hl, hid, hdead, secondHalf, hp, Core.dropLoad]

/-! ### RETRY (R218, R230) -/

theorem countRetry_txns (r : ReqId) (first : Bool) : (d.countRetry r first).txns = d.txns := by unfold Dev.countRetry; split <;> rfl
theorem countRetry_ks (r : ReqId) (first : Bool) : (d.countRetry r first).ks = d.ks := by unfold Dev.countRetry; split <;> rfl
theorem countRetry_xings (r : ReqId) (first : Bool) : (d.countRetry r first).xings = d.xings := by unfold Dev.countRetry; split <;> rfl

theorem countRetry_freeWay (hw : d.freeWay) (r : ReqId) (first : Bool) : (d.countRetry r first).freeWay :=
  hw.congr (countRetry_txns r first) (by simp only [Dev.abutmentDown, Dev.xing, countRetry_xings])

/-- The wait doubles at each refusal and stays at 5.12 µs from the sixth on (R230). -/
theorem retryWait_succ (r : Nat) : retryWait (r + 1) = min 4096 (128 * 2 ^ r) := by
  unfold retryWait
  rw [Nat.add_sub_cancel]
  split
  · have : 2 ^ 5 ≤ 2 ^ r := Nat.pow_le_pow_right (by decide) (by omega)
    omega
  · have : 2 ^ r ≤ 2 ^ 5 := Nat.pow_le_pow_right (by decide) (by omega)
    omega

/-- A refused transaction, which waits to be sent again (R230). -/
def Txn.refused (t : Txn) (now : Nat) : Txn := { t with refusals := t.refusals + 1, st := .backoff (now + retryWait (t.refusals + 1)) }

theorem takeRetry_c2 {t : Txn} (hdead : d.deadTxn t = false) (hc : t.cls = 2#2) :
    d.takeRetry t = (d.countRetry t.req (t.refusals == 0)).onTxn t.id (fun u => u.refused d.clk) := by
  simp [Dev.takeRetry, hdead, hc, Txn.refused]

theorem takeRetry_raised {t : Txn} (hdead : d.deadTxn t = false) (hc : t.cls ≠ 2#2) :
    d.takeRetry t = ((d.countRetry t.req (t.refusals == 0)).dropTxn t.id).arrive { t with refusals := t.refusals + 1 } := by
  simp [Dev.takeRetry, hdead, hc]

end Sys2Proof.Machine
end

section
/-! PROOFS. The statement on responses at a core. -/
namespace Sys2Proof.Proofs
open Sys2Proof.Machine

variable {s : State} {id : Nat} {t : Txn} {c : CoreId}

/-- A row that delivers a response, where no job waits after it: what it makes of the device is the whole change. -/
theorem exec_respond {i : Instr} {f : Dev → Txn → Resp → Dev} {r : Resp}
    (hi : exec i s = s.commit (settleEff s.mem (s.dev.respond id f, []))) (ht : s.dev.txn id = some t) (hst : t.st = .answered r)
    (hc : (f s.dev t r).calm) : exec i s = .next { s with dev := (f s.dev t r).seen s.dev } := by
  have hr : s.dev.respond id f = f s.dev t r := by simp only [Dev.respond, ht, hst]
  rw [hi, hr, settleEff_calm s.mem hc, State.commit_eq]
  rfl

/-- A core's transaction has come to its end: it is gone, and core c, which took its response, is k. -/
theorem gone_of_took {e : Dev} {k : Core} (ht : s.dev.txn id = some t) (h : (s.dev.dropTxn t.id).CoreTook c.toNat k e) :
    (e.seen s.dev).txn id = none ∧ (∀ i, i ≠ c.toNat → (e.seen s.dev).core i = s.dev.core i) ∧ (e.seen s.dev).core c.toNat = k := by
  refine ⟨?_, h.others, h.core⟩
  rw [← txn_dropTxn s.dev id, ← txn_id s.dev ht]
  unfold Dev.txn
  rw [Dev.seen_txns, h.txns]

theorem took_calm {e : Dev} {k : Core} {n : Nat} (hcalm : s.dev.calm) (h : (s.dev.dropTxn t.id).CoreTook n k e) : e.calm :=
  (congrArg Keystone.jobs h.ks).trans hcalm

section
variable (hcalm : s.dev.calm) (ht : s.dev.txn id = some t) (hway : s.dev.freeWay)
include hcalm ht hway

section
variable (hreq : t.req = c.setWidth 12)
include hreq

/-- DATA for LDW writes the register that the load names (R132, R218). -/
theorem data_writes {e : LoadEntry} {w : Word} {late : Bool} {rd : Reg} (horig : t.origin = .load c) (hst : t.st = .answered (.data late [w]))
    (hl : (s.dev.core c.toNat).loads = [e]) (hid : e.txn = t.id) (hdead : e.dead = false) (hdest : e.dest = .word rd) :
    ∃ u, exec (.deckDataReturn id) s = .next u
      ∧ (u.mem = s.mem ∧ u.pending = s.pending ∧ u.dev.txn id = none ∧ ∀ i, i ≠ c.toNat → u.dev.core i = s.dev.core i)
      ∧ (u.dev.core c.toNat).loads = [] ∧ (u.dev.core c.toNat).regs = ((s.dev.core c.toNat).setReg rd.toNat w).regs
      ∧ (u.dev.core c.toNat).psr = (s.dev.core c.toNat).psr ∧ (u.dev.core c.toNat).pc = (s.dev.core c.toNat).pc := by
  have htook := (arrived_took hway hreq (.data late [w])).onCore (fun k => k.takeData t.id [w])
  rw [← giveData_load horig] at htook
  obtain ⟨hgone, hothers, hcore⟩ := gone_of_took ht htook
  obtain ⟨v, hv⟩ := takeData_word (k := (s.dev.core c.toNat).sawDelay late) [w] hl hid hdead hdest
  have hk := hcore.trans hv
  refine ⟨_, exec_respond rfl ht hst (took_calm hcalm htook), ⟨rfl, rfl, hgone, hothers⟩, ?_⟩
  exact ⟨congrArg Core.loads hk, (congrArg Core.regs hk).trans (setReg_regs_congr _ _ rfl), (congrArg Core.psr hk).trans (Core.setReg_psr _ _ _),
    (congrArg Core.pc hk).trans (Core.setReg_pc _ _ _)⟩

/-- ACK takes the store out of the buffer (R132, R218). -/
theorem ack_takesStore {late : Bool} (horig : t.origin = .store c) (hst : t.st = .answered (.ack late)) :
    ∃ u, exec (.deckAckReturn id) s = .next u
      ∧ (u.mem = s.mem ∧ u.pending = s.pending ∧ u.dev.txn id = none ∧ ∀ i, i ≠ c.toNat → u.dev.core i = s.dev.core i)
      ∧ (u.dev.core c.toNat).stores = (s.dev.core c.toNat).stores.filter (fun e => e.txn != some t.id)
      ∧ (u.dev.core c.toNat).regs = (s.dev.core c.toNat).regs := by
  have htook := (arrived_took hway hreq (.ack late)).onCore (fun k => k.takeStore t.id)
  rw [← giveAck_store horig] at htook
  obtain ⟨hgone, hothers, hcore⟩ := gone_of_took ht htook
  exact ⟨_, exec_respond rfl ht hst (took_calm hcalm htook), ⟨rfl, rfl, hgone, hothers⟩, congrArg Core.stores hcore, (congrArg Core.regs hcore :)⟩

/-- NOT_PRESENT gives the load payload 0 with tag E0h, and is counted (R237). -/
theorem absent_givesNv {e : LoadEntry} {rd : Reg} (horig : t.origin = .load c) (hst : t.st = .answered .notPresent)
    (hl : (s.dev.core c.toNat).loads = [e]) (hid : e.txn = t.id) (hdead : e.dead = false) (hdest : e.dest = .word rd) :
    ∃ u, exec (.deckNotPresentReturn id) s = .next u
      ∧ (u.mem = s.mem ∧ u.pending = s.pending ∧ u.dev.txn id = none ∧ ∀ i, i ≠ c.toNat → u.dev.core i = s.dev.core i)
      ∧ (u.dev.core c.toNat).regs = ((s.dev.core c.toNat).setReg rd.toNat { pay := 0#32, tag := 0xE0#8 }).regs
      ∧ (u.dev.core c.toNat).deckNp = satInc (s.dev.core c.toNat).deckNp := by
  have htook := (countNp_took (arrived_took hway hreq .notPresent)).onCore (fun k => k.takeData t.id [wordNv, wordNv])
  rw [← giveAbsent_load horig, ← hreq] at htook
  obtain ⟨hgone, hothers, hcore⟩ := gone_of_took ht htook
  obtain ⟨v, hv⟩ := takeData_word (k := { s.dev.core c.toNat with deckNp := satInc (s.dev.core c.toNat).deckNp }) [wordNv, wordNv] hl hid hdead hdest
  have hk := hcore.trans hv
  refine ⟨_, exec_respond rfl ht hst (took_calm hcalm htook), ⟨rfl, rfl, hgone, hothers⟩, ?_⟩
  exact ⟨(congrArg Core.regs hk).trans (setReg_regs_congr _ _ rfl), (congrArg Core.deckNp hk).trans (Core.setReg_deckNp _ _ _)⟩

end

/-- ERROR for a load of a running core stops it with MEM_ERROR at the load's own instruction (R245). -/
theorem error_stops {e : LoadEntry} {det : BitVec 4} {a : W32} (horig : t.origin = .load c) (hp : t.parts = [])
    (hst : t.st = .answered (.error det a)) (hl : (s.dev.core c.toNat).loads = [e]) (hid : e.txn = t.id) (hdead : e.dead = false)
    (hrun : (s.dev.core c.toNat).status = .running) (hentry : (s.dev.core c.toNat).entry = none) :
    ∃ u, exec (.deckErrorReturn id) s = .next u ∧ u.mem = s.mem ∧ u.pending = s.pending ∧ (u.dev.core c.toNat).status = .stopped
      ∧ (u.dev.core c.toNat).trap = { valid := true, cause := 6#4, detail := det, pc := e.pc, addr := e.addr, tagRes := 0xFF#8 }
      ∧ (u.dev.core c.toNat).regs = (s.dev.core c.toNat).regs := by
  have hgive : (s.dev.arrived t (.error det a)).giveError t det a
      = ((s.dev.dropTxn t.id).onCore c.toNat (·.dropLoad t.id)).memError c.toNat e.seq e.pc (trapMemError det e.addr false) := by
    rw [giveError_load horig]
    simp only [Dev.arrived, lateResp, leave_still hway.still, Bool.false_eq_true, if_false]
    exact coreError_load det a hp hl hid hdead
  have hcore := Dev.core_onCore (s.dev.dropTxn t.id) c.toNat (·.dropLoad t.id)
  obtain ⟨hc, hstop, htrap, hregs⟩ := memError_stops e.seq e.pc (trapMemError det e.addr false)
    (d := (s.dev.dropTxn t.id).onCore c.toNat (·.dropLoad t.id)) hcalm ((congrArg Core.status hcore).trans hrun) ((congrArg Core.entry hcore).trans hentry)
  rw [← hgive] at hc hstop htrap hregs
  exact ⟨_, exec_respond rfl ht hst hc, rfl, rfl, hstop, htrap, hregs.trans (congrArg Core.regs hcore :)⟩

/-- A refused transaction that is not of class C2 any more is sent again at once (R223). -/
theorem retry_resends {g : Nat × Nat} (hst : t.st = .answered .retry) (hdead : s.dev.deadTxn t = false) (hc : t.cls ≠ 2#2) (hg : t.target = some g) :
    ∃ u, exec (.deckRetryReturn id) s = .next u ∧ u.mem = s.mem ∧ u.pending = s.pending
      ∧ ∃ x ∈ u.dev.txns, x.id = id ∧ x.st = .sent ∧ x.addr = t.addr ∧ x.parts = t.parts ∧ x.refusals = t.refusals + 1 := by
  have hfree := (countRetry_freeWay hway t.req (t.refusals == 0)).dropTxn t.id
  have hsent := arrive_stands (t := { t with refusals := t.refusals + 1 }) hfree hg
  have hks := (arrive_sameCores _ (t := { t with refusals := t.refusals + 1 }) hfree hg).2
  rw [← takeRetry_raised hdead hc] at hsent hks
  obtain ⟨x, hx, hid, hrest⟩ := hsent
  refine ⟨_, exec_respond rfl ht hst ?_, rfl, rfl, x, hx, Eq.trans (b := t.id) hid (txn_id s.dev ht), hrest⟩
  exact (congrArg Keystone.jobs (hks.trans (countRetry_ks _ _))).trans hcalm

omit hway in
/-- A refused transaction of class C2 waits (R230). -/
theorem retry_waits (hst : t.st = .answered .retry) (hdead : s.dev.deadTxn t = false) (hc : t.cls = 2#2) :
    ∃ u, exec (.deckRetryReturn id) s = .next u ∧ u.mem = s.mem ∧ u.pending = s.pending
      ∧ (u.dev.txn id).map (·.st) = some (.backoff (s.dev.clk + min 4096 (128 * 2 ^ t.refusals)))
      ∧ (u.dev.txn id).map (·.refusals) = some (t.refusals + 1) := by
  have htake := takeRetry_c2 hdead hc
  have hcount : (s.dev.countRetry t.req (t.refusals == 0)).txn id = some t := by
    unfold Dev.txn
    rw [countRetry_txns]
    exact ht
  have hwaits : (s.dev.takeRetry t).txn id = some (t.refused s.dev.clk) := by
    rw [htake, txn_id s.dev ht]
    exact txn_onTxn _ hcount fun _ => rfl
  refine ⟨_, exec_respond rfl ht hst ?_, rfl, rfl, ?_, ?_⟩
  · show (s.dev.takeRetry t).calm
    rw [htake]
    exact (congrArg Keystone.jobs (countRetry_ks _ _)).trans hcalm
  · rw [← retryWait_succ]
    exact congrArg (Option.map (·.st)) hwaits
  · exact congrArg (Option.map (·.refusals)) hwaits

end

/-- After its wait a refused transaction is sent again (R230). -/
theorem resend_sends {g : Nat × Nat} {w : Nat} (ht : s.dev.txn id = some t) (hway : s.dev.freeWay) (hst : t.st = .backoff w) (hw : w ≤ s.dev.clk)
    (hg : t.target = some g) :
    ∃ u, exec (.retryResend id) s = .next u ∧ u.mem = s.mem ∧ SameUnits s u
      ∧ ∃ x ∈ u.dev.txns, x.id = id ∧ x.st = .sent ∧ x.addr = t.addr ∧ x.parts = t.parts := by
  have hx : exec (.retryResend id) s = s.keep ((s.dev.dropTxn id).arrive t) := by
    change execRetryResend id s = _
    simp only [execRetryResend, ht, hst, hw, if_true]
  obtain ⟨x, hmem, hid, hsent, haddr, hparts, -⟩ := arrive_stands (hway.dropTxn id) hg
  obtain ⟨ts, cs, ss, ps, he⟩ := arrive_deckMoved (hway.dropTxn id) hg
  refine ⟨_, hx, rfl, ?_, x, hmem, hid.trans (txn_id s.dev ht), hsent, haddr, hparts⟩
  rw [he]
  exact ⟨rfl, rfl, rfl, rfl, rfl, rfl, rfl, rfl⟩

/-- Settles O25, response by response: the transaction leaves the free way, or is put on it again, and the core that waits takes what the response
gives. -/
theorem responsesReachTheCore : Obligations.ResponsesReachTheCore := by
  unfold Obligations.ResponsesReachTheCore
  refine ⟨?_, ?_⟩
  · intro s id t c hcalm ht hway k gone
    refine ⟨?_, ?_, ?_, ?_, ?_, ?_⟩
    · intro e w d rd horig hst hreq hl hid hdead hdest
      exact data_writes hcalm ht hway hreq horig hst hl hid hdead hdest
    · intro d horig hst hreq
      exact ack_takesStore hcalm ht hway hreq horig hst
    · intro e rd horig hst hreq hl hid hdead hdest
      exact absent_givesNv hcalm ht hway hreq horig hst hl hid hdead hdest
    · intro g hst hdead hc hg
      exact retry_resends hcalm ht hway hst hdead hc hg
    · exact retry_waits hcalm ht
    · intro w g hst hw hg _
      exact resend_sends ht hway hst hw hg
  · intro s id t c e det a k hcalm ht hway horig hp hst hl hid hdead hrun hentry
    exact error_stops hcalm ht hway horig hp hst hl hid hdead hrun hentry

end Sys2Proof.Proofs
end

section
/-! SUPPORT. Lines on their way to the cores: what a FILL granted at its slice leaves behind, the marks of the line that it reads, what the line
changes where it arrives; and what a late step leaves of a bent's Scribe. -/
namespace Sys2Proof.Machine

variable {d : Dev}

theorem core_congr {e : Dev} (h : e.cores = d.cores) (n : Nat) : e.core n = d.core n := by
  unfold Dev.core
  rw [h]

/-! ### A FILL granted at its slice (R217, R225, R228) -/

/-- What a grant to another leaves on a transaction keeps none on its way. -/
theorem Dev.arbitrated.still {e : Dev} (h : d.arbitrated e) (hs : d.wayStill) : e.wayStill := by
  obtain ⟨ts, ns, sp, rfl, hts⟩ := h
  intro u hu
  have hmem : u.unpassed ∈ d.txns.map Txn.unpassed := hts ▸ List.mem_map_of_mem hu
  obtain ⟨v, hv, hvu⟩ := List.mem_map.mp hmem
  have hst : v.st = u.st := (congrArg Txn.st hvu :)
  simpa only [Txn.onWay, hst] using hs v hv

/-- A delayed transaction of a requester in the centre node is counted there (R231). -/
theorem countLate_frame {t : Txn} (h : isCoreReq t.req = false) : ∃ cr, d.countLate t = { d with creqs := cr } := by
  unfold Dev.countLate Dev.countDelay
  rw [h]
  split <;> exact ⟨_, rfl⟩

/-- From d to e transaction id has come to its end at its target: it is gone, and no core, no bent and no poisoned word changed. -/
structure Dev.Served (d : Dev) (id : Nat) (e : Dev) : Prop where
  cores : e.cores = d.cores
  bents : e.bents = d.bents
  poison : e.poison = d.poison
  gone : ∀ y ∈ e.txns, y.id ≠ id

theorem served_of_dropTxn {e : Dev} (id : Nat) (hc : e.cores = d.cores) (hb : e.bents = d.bents) (hp : e.poison = d.poison) :
    d.Served id (e.dropTxn id) :=
  ⟨hc, hb, hp, fun y hy => by simpa using (List.mem_filter.mp hy).2⟩

theorem granted_leaves (t : Txn) (hs : d.wayStill) : d.Served t.id ((d.granted t).leave t) := by
  have hg : d.arbitrated (d.granted t) := passRivals_arbitrated d t _
  rw [leave_still (hg.still hs)]
  obtain ⟨ts, ns, ss, he, -⟩ := hg
  rw [he]
  exact served_of_dropTxn t.id rfl rfl rfl

theorem granted_countLate_leaves {t : Txn} (hs : d.wayStill) (hreq : isCoreReq t.req = false) :
    d.Served t.id (((d.granted t).countLate t).leave t) := by
  have hg : d.arbitrated (d.granted t) := passRivals_arbitrated d t _
  obtain ⟨cr, hl⟩ := countLate_frame (d := d.granted t) hreq
  have hstill : ((d.granted t).countLate t).wayStill := by
    rw [hl]
    exact hg.still hs
  rw [leave_still hstill, hl]
  obtain ⟨ts, ns, ss, he, -⟩ := hg
  rw [he]
  exact served_of_dropTxn t.id rfl rfl rfl

theorem isCoreReq_fillReq (b : BentId) : isCoreReq (fillReq b.toNat) = false := by
  have hb := b.isLt
  simp only [isCoreReq, fillReq, spanOf, BitVec.toNat_ofNat, decide_eq_false_iff_not]
  omega

/-! ### The marks of a line (R259) -/

/-- From d to e words were poisoned, and errors counted and raised: no core, no bent and no transaction changed. -/
structure Dev.ErrorsNoted (d e : Dev) : Prop where
  cores : e.cores = d.cores
  bents : e.bents = d.bents
  txns : e.txns = d.txns

theorem Dev.ErrorsNoted.trans {e f : Dev} (h : d.ErrorsNoted e) (g : e.ErrorsNoted f) : d.ErrorsNoted f :=
  ⟨g.cores.trans h.cores, g.bents.trans h.bents, g.txns.trans h.txns⟩

theorem raise_bents (src inst : Nat) (det : BitVec 16) : (d.raise src inst det).bents = d.bents := by
  obtain ⟨xs, ps, fl, h⟩ := raise_frame d src inst det
  rw [h]

theorem raise_poison (src inst : Nat) (det : BitVec 16) : (d.raise src inst det).poison = d.poison := by
  obtain ⟨xs, ps, fl, h⟩ := raise_frame d src inst det
  rw [h]

theorem raise_errorsNoted (src inst : Nat) (det : BitVec 16) : d.ErrorsNoted (d.raise src inst det) :=
  ⟨raise_cores _ _ _ _, raise_bents _ _ _, raise_txns _ _ _ _⟩

theorem onSpan_errorsNoted (n : Nat) (f : Span → Span) : d.ErrorsNoted (d.onSpan n f) := ⟨rfl, rfl, rfl⟩

theorem poisonWord_poisoned (w v : Nat) : (d.poisonWord w).poisoned v = (d.poisoned v || v == w) := by
  simp only [Dev.poisonWord, Dev.poisoned]
  by_cases hvw : v = w
  · subst hvw
    split <;> simp_all
  · split <;> simp [hvw]

/-- The words of a line that a read finds uncorrectable are poisoned. -/
theorem poisonWords_poisoned (w i : Nat) (l : List Nat) :
    (l.foldl (fun x j => x.poisonWord (w + j)) d).poisoned (w + i) = (d.poisoned (w + i) || l.contains i) := by
  induction l generalizing d with
  | nil => simp
  | cons j l ih =>
    rw [List.foldl_cons, ih, poisonWord_poisoned, List.contains_cons, Bool.or_assoc]
    congr 2
    rw [Bool.eq_iff_iff, beq_iff_eq, beq_iff_eq]
    omega

theorem poisonWords_errorsNoted (w : Nat) (l : List Nat) : d.ErrorsNoted (l.foldl (fun x j => x.poisonWord (w + j)) d) := by
  induction l generalizing d with
  | nil => exact ⟨rfl, rfl, rfl⟩
  | cons j l ih => exact Dev.ErrorsNoted.trans (e := d.poisonWord (w + j)) ⟨rfl, rfl, rfl⟩ ih

theorem readLine_errorsNoted (line : Nat) (f : Finds) : d.ErrorsNoted (d.readLine line f) := by
  have hbad := poisonWords_errorsNoted (d := d) (16 * line) ((List.range 16).filter (fun i => foundIn f i == .uncorrectable))
  unfold Dev.readLine
  dsimp only
  split
  · split
    · exact hbad
    · exact hbad.trans (onSpan_errorsNoted _ _)
  · split
    · exact (hbad.trans (onSpan_errorsNoted _ _)).trans (raise_errorsNoted _ _ _)
    · exact ((hbad.trans (onSpan_errorsNoted _ _)).trans (onSpan_errorsNoted _ _)).trans (raise_errorsNoted _ _ _)

/-- A read of a line poisons the words that it finds uncorrectable. -/
theorem readLine_poison (line : Nat) (f : Finds) : (d.readLine line f).poison
    = (((List.range 16).filter (fun i => foundIn f i == .uncorrectable)).foldl (fun x j => x.poisonWord (16 * line + j)) d).poison := by
  unfold Dev.readLine
  dsimp only
  split
  · split <;> rfl
  · rw [raise_poison]
    split <;> rfl

theorem readLine_poisoned (line : Nat) (f : Finds) {i : Nat} (hi : i < 16) :
    (d.readLine line f).poisoned (16 * line + i) = (d.poisoned (16 * line + i) || foundIn f i == .uncorrectable) := by
  unfold Dev.poisoned
  rw [readLine_poison]
  refine (poisonWords_poisoned (16 * line) i _).trans ?_
  congr 1
  rw [Bool.eq_iff_iff]
  simp [hi]

/-- Bits set one after another where p holds. -/
theorem setBits_getLsbD (p : Nat → Bool) (n : Nat) {i : Nat} (hi : i < 16) :
    ((List.range n).foldl (fun v j => if p j then v ||| (1#16 <<< j) else v) 0#16).getLsbD i = (decide (i < n) && p i) := by
  induction n with
  | zero => simp
  | succ n ih =>
    rw [List.range_succ, List.foldl_append, List.foldl_cons, List.foldl_nil]
    have hbit : (1#16 <<< n).getLsbD i = decide (i = n) := by
      rw [BitVec.getLsbD_shiftLeft, BitVec.getLsbD_one, Bool.eq_iff_iff]
      simp
      omega
    have hset : ∀ v : BitVec 16, (if p n then v ||| (1#16 <<< n) else v).getLsbD i = (v.getLsbD i || (p n && decide (i = n))) := by
      intro v
      cases p n with
      | false => simp only [Bool.false_eq_true, if_false, Bool.false_and, Bool.or_false]
      | true => simp only [if_true, BitVec.getLsbD_or, hbit, Bool.true_and]
    rw [hset, ih]
    by_cases hin : i = n
    · subst hin
      simp
    · have hlt : i < n + 1 ↔ i < n := by omega
      simp [hin, hlt]

theorem marks_getLsbD (line : Nat) {i : Nat} (hi : i < 16) : (d.marks line).getLsbD i = d.poisoned (16 * line + i) := by
  refine (setBits_getLsbD (fun j => d.poisoned (16 * line + j)) 16 hi).trans ?_
  rw [decide_eq_true hi, Bool.true_and]

/-- A line outside the reserved region is read from the array, with the marks of the words known to be poisoned and of those found to be (R259). -/
theorem fetchLine_marks {line : Nat} (f : Finds) (hr : isReserved (16 * line) = false) (hc : isCode (16 * line) = true) :
    d.ErrorsNoted (d.fetchLine line f).2
      ∧ ∀ i, i < 16 → (d.fetchLine line f).1.getLsbD i = (d.poisoned (16 * line + i) || foundIn f i == .uncorrectable) := by
  have hf : d.fetchLine line f = ((d.readLine line f).marks line, d.readLine line f) := by simp [Dev.fetchLine, hr, hc]
  rw [hf]
  exact ⟨readLine_errorsNoted line f, fun i hi => (marks_getLsbD line hi).trans (readLine_poisoned line f hi)⟩

/-! ### A line in the bent line cache, the line buffers and the vector line registers (R126, R133, R530) -/

/-- A core without its line buffer, its vector line registers and what it has requested for them. -/
def Core.lineless (k : Core) : Core := { k with lineBuf := [], vecLines := [], vecReq := [] }

/-- From d to e lines moved within the cores and were requested: every line cache and every transaction stands. -/
structure Dev.LinesTaken (d e : Dev) : Prop where
  core : ∀ i, (e.core i).lineless = (d.core i).lineless
  cache : ∀ b, (e.bent b).lineCache = (d.bent b).lineCache
  txns : e.txns = d.txns

theorem Dev.LinesTaken.refl (d : Dev) : d.LinesTaken d := ⟨fun _ => rfl, fun _ => rfl, rfl⟩

theorem Dev.LinesTaken.trans {e f : Dev} (h : d.LinesTaken e) (g : e.LinesTaken f) : d.LinesTaken f :=
  ⟨fun i => (g.core i).trans (h.core i), fun b => (g.cache b).trans (h.cache b), g.txns.trans h.txns⟩

theorem Dev.LinesTaken.foldl {α : Type} {f : Dev → α → Dev} (h : ∀ (x : Dev) a, x.LinesTaken (f x a)) (l : List α) (d : Dev) :
    d.LinesTaken (l.foldl f d) := by
  induction l generalizing d with
  | nil => exact .refl d
  | cons a l ih => exact (h d a).trans (ih (f d a))

theorem Dev.LinesTaken.setCore (c : Nat) {k : Core} (h : k.lineless = (d.core c).lineless) : d.LinesTaken (d.setCore c k) := by
  refine ⟨fun i => ?_, fun b => rfl, rfl⟩
  by_cases hi : i = c
  · subst hi
    rw [Dev.core_setCore, h]
  · rw [Dev.core_setCore_other d k hi]

theorem requestFill_linesTaken (c n : Nat) : d.LinesTaken (d.requestFill c n) := by
  unfold Dev.requestFill
  dsimp only
  split
  · refine ⟨fun i => rfl, fun b => ?_, rfl⟩
    by_cases hb : b = bentOf c
    · subst hb
      rw [Dev.bent_setBent]
    · rw [Dev.bent_setBent_other d _ hb]
  · exact .refl d

theorem enterF2_linesTaken (c n : Nat) : d.LinesTaken (d.enterF2 c n) := by
  unfold Dev.enterF2
  dsimp only
  refine Dev.LinesTaken.trans ?_ (requestFill_linesTaken c (n + 1))
  split
  · exact .refl d
  · exact .setCore c rfl
  · exact .setCore c rfl
  · exact .refl d

theorem lineCame_linesTaken (b line : Nat) : d.LinesTaken (d.lineCame b line) := by
  refine .foldl (fun x i => ?_) _ d
  split
  · exact enterF2_linesTaken _ _
  · exact .refl x

theorem gotVector_lineless (k : Core) (line : Nat) (v : BitVec 16) : (k.gotVector line v).lineless = k.lineless := by
  unfold Core.gotVector
  split <;> rfl

theorem vectorsCame_linesTaken (b line : Nat) (v : BitVec 16) : d.LinesTaken (d.vectorsCame b line v) := by
  refine .foldl (fun x i => .setCore _ ?_) _ d
  dsimp only
  split
  · rfl
  · exact gotVector_lineless _ _ _

/-- A line put into a bent line cache is found there; whichever line it displaces, no core and no transaction changes (R133). -/
theorem cacheLine_holds (b : Nat) (e : Nat × BitVec 16) :
    lineIn ((d.cacheLine b e).bent b).lineCache e.1 = some e.2 ∧ (d.cacheLine b e).cores = d.cores ∧ (d.cacheLine b e).txns = d.txns := by
  have hfirst : ∀ l, lineIn (e :: l) e.1 = some e.2 := fun l => by simp [lineIn]
  have hchoose : ∀ l, (d.choose l).2.cores = d.cores ∧ (d.choose l).2.txns = d.txns := fun l => by cases l <;> exact ⟨rfl, rfl⟩
  unfold Dev.cacheLine
  dsimp only
  split
  · exact ⟨by rw [Dev.bent_onBent]; exact hfirst _, rfl, rfl⟩
  · exact ⟨by rw [Dev.bent_onBent]; exact hfirst _, hchoose _⟩

/-- A line delivered to a bent: it stands in the line cache, and the cores take it. -/
theorem lineDelivered (b line : Nat) (m : BitVec 16) :
    let e := ((d.cacheLine b (line, m)).lineCame b line).vectorsCame b line m
    lineIn (e.bent b).lineCache line = some m ∧ e.txns = d.txns ∧ ∀ i, (e.core i).lineless = (d.core i).lineless := by
  have htaken := (lineCame_linesTaken (d := d.cacheLine b (line, m)) b line).trans (vectorsCame_linesTaken b line m)
  obtain ⟨hcache, hcores, htxns⟩ := cacheLine_holds (d := d) b (line, m)
  refine ⟨by rw [htaken.cache]; exact hcache, htaken.txns.trans htxns, fun i => (htaken.core i).trans ?_⟩
  rw [core_congr hcores]

/-! ### Rows of fetch (R133, R152, R154, R259) -/

/-- The FILL of a line granted at its slice, awake, brings the line to the bent that has no request to be taken up. -/
theorem lineFill_granted {b line : Nat} {f : Finds} {x : Txn} (hfills : (d.bent b).fills = []) (hx : d.fillOf b line = some x) (hover : x.overfull = false)
    (hg : d.mayGrant x = true) (hawake : d.wordAsleep (16 * line) = false) (hheld : d.lineHeld line = false) :
    let e := (((d.granted x).countLate x).leave x).fetchLine line f
    d.lineFill b line f = ((e.2.cacheLine b (line, e.1)).lineCame b line).vectorsCame b line e.1 := by
  have htake : d.takeFills b = d := by simp [Dev.takeFills, hfills]
  have hwaits : x.waits = true := by
    simp only [Dev.mayGrant, Bool.and_eq_true] at hg
    exact hg.1.1.1
  simp [Dev.lineFill, htake, hx, hover, hg, hawake, hheld, hwaits]

section
variable {c : CoreId} {n at_ : Nat} {x : Txn} (hreq : (d.core c.toNat).reqLine = some (n, at_)) (hvec : (d.core c.toNat).vecReq = [])
include hreq hvec

theorem pacedWants_one : (d.core c.toNat).pacedWants = [(n, at_)] := by
  simp [Core.pacedWants, hvec, hreq]

variable (hx : d.pacedOf c.toNat n = some x)
include hx

/-- The fill agent has nothing to take up of a paced core whose FILL is under way, and no other (R154). -/
theorem takePaced_sent (hone : ∀ y ∈ d.txns, ∀ m, y.origin = .paced c m → m = n) : d.takePaced c.toNat = d := by
  have hold : ∀ y ∈ d.txns, y.oldFetch c.toNat [(n, at_)] = false := by
    intro y hy
    unfold Txn.oldFetch
    split
    · next z m ho =>
      by_cases hz : z = c
      · subst hz
        simp [hone y hy m ho]
      · have hne : z.toNat ≠ c.toNat := fun h => hz (BitVec.eq_of_toNat_eq h)
        simp [hne]
    · rfl
  have hnone : d.txns.any (fun y => y.oldFetch c.toNat [(n, at_)]) = false := List.any_eq_false.mpr fun y hy => by simp [hold y hy]
  simp only [Dev.takePaced, pacedWants_one hreq hvec, hnone, Bool.false_eq_true, if_false, List.foldl_cons, List.foldl_nil, hx, Option.isSome_some, if_true]

/-- The FILL of a paced core that its slice grants 96 ns after the request is due (R152). -/
theorem pacedDue_granted (hlate : at_ + 77 ≤ d.clk) (hg : d.mayGrant x = true) : d.pacedDue c.toNat = some (n, x) := by
  simp [Dev.pacedDue, pacedWants_one hreq hvec, pacedTicks, hlate, hx, hg]

/-- Such a FILL delivers its line (R152, R154). -/
theorem pacedDelivery_granted {f : Finds} (hone : ∀ y ∈ d.txns, ∀ m, y.origin = .paced c m → m = n) (hp : (d.core c.toNat).psr.paced = true)
    (hlate : at_ + 77 ≤ d.clk) (hg : d.mayGrant x = true) (hawake : d.wordAsleep (16 * n) = false) :
    let e := ((d.granted x).leave x).fetchLine n f
    d.pacedDelivery c.toNat f = e.2.onCore c.toNat (fun k => k.gotPaced n e.1) := by
  simp [Dev.pacedDelivery, hp, takePaced_sent hreq hvec hx hone, pacedDue_granted hreq hvec hx hlate hg, hawake]

end

/-- A paced core that waits for one line has it as its next line (R154). -/
theorem gotPaced_next {k : Core} {n at_ : Nat} (m : BitVec 16) (hreq : k.reqLine = some (n, at_)) (hvec : k.vecReq = []) :
    k.gotPaced n m = { k with nextLine := some (n, m), reqLine := none } := by
  have hv : k.gotVector n m = k := by simp [Core.gotVector, hvec]
  simp only [Core.gotPaced, hv, hreq, if_true]

/-! ### Late steps (R157, R176, R179) -/

/-- From d to e no core changed, and of bent b neither the counts of late steps nor the wait before a lowering. -/
structure Dev.PaceKept (d : Dev) (b : Nat) (e : Dev) : Prop where
  cores : e.cores = d.cores
  underrun : (e.bent b).scr.underrun = (d.bent b).scr.underrun
  noLower : (e.bent b).scr.noLower = (d.bent b).scr.noLower

theorem Dev.PaceKept.trans {b : Nat} {e f : Dev} (h : d.PaceKept b e) (g : e.PaceKept b f) : d.PaceKept b f :=
  ⟨g.cores.trans h.cores, g.underrun.trans h.underrun, g.noLower.trans h.noLower⟩

theorem Dev.PaceKept.of_eq (b : Nat) {e : Dev} (hc : e.cores = d.cores) (hb : e.bents = d.bents) : d.PaceKept b e := by
  refine ⟨hc, ?_, ?_⟩ <;> unfold Dev.bent <;> rw [hb]

theorem Dev.PaceKept.onScr (b : Nat) {f : Scribe → Scribe} (hu : ∀ a, (f a).underrun = a.underrun) (hn : ∀ a, (f a).noLower = a.noLower) :
    d.PaceKept b (d.onScr b f) := by
  refine ⟨rfl, ?_, ?_⟩ <;> rw [Dev.bent_onScr]
  · exact hu _
  · exact hn _

theorem raise_paceKept (b src inst : Nat) (det : BitVec 16) : d.PaceKept b (d.raise src inst det) := by
  exact .of_eq b (raise_cores _ _ _ _) (raise_bents _ _ _)

theorem giveGrant_paceKept (b code : Nat) (held : Bool) : d.PaceKept b (d.giveGrant b code held) := by
  unfold Dev.giveGrant
  split
  · exact .of_eq b rfl rfl
  · refine .onScr b (fun a => ?_) (fun a => ?_) <;> unfold Scribe.granted <;> split <;> rfl

theorem budgetRequest_paceKept (b : Nat) : d.PaceKept b (d.budgetRequest b) := by
  have hinto : d.PaceKept b (d.eventInto domPower b (Tab.find 0 (d.xing domPower).lines b)).2 := by
    obtain ⟨xs, ps, h⟩ := eventInto_frame d domPower b (Tab.find 0 (d.xing domPower).lines b)
    rw [h]
    exact .of_eq b rfl rfl
  unfold Dev.budgetRequest
  dsimp only
  split
  · next he =>
    rw [he] at hinto
    exact hinto.trans (.of_eq b rfl rfl)
  · next he =>
    rw [he] at hinto
    exact hinto.trans (raise_paceKept b _ _ _)

theorem scrAsk_paceKept (b code : Nat) : d.PaceKept b (d.scrAsk b code) := by
  have hask : ∀ r : BitVec 7, d.PaceKept b (d.onScr b (fun x => { x with request := r })) := fun r => .onScr b (fun _ => rfl) (fun _ => rfl)
  unfold Dev.scrAsk
  dsimp only
  generalize (if (d.bent b).scr.unable then 100 else max (d.bent b).scr.floor.toNat (min 100 code)) = asked
  split
  · exact (hask _).trans (giveGrant_paceKept b _ _)
  · exact (hask _).trans (budgetRequest_paceKept b)

/-- A fast raise asks for a code and leaves the counts. -/
theorem fastRaise_paceKept (b n : Nat) : d.PaceKept b (d.fastRaise b n) := by
  unfold Dev.fastRaise
  split
  · exact scrAsk_paceKept b _
  · exact .of_eq b rfl rfl

end Sys2Proof.Machine
end

section
/-! PROOFS. The statement on lines delivered to the cores and on late steps. -/
namespace Sys2Proof.Proofs
open Sys2Proof.Machine

variable {s : State} {f : Finds}

/-- The marks that a line of code store is delivered with: words known to be poisoned, and those that its read finds uncorrectable (R259). -/
def MarkedLine (s : State) (f : Finds) (n : Nat) (m : BitVec 16) : Prop :=
  ∀ i, i < 16 → m.getLsbD i = (s.dev.poisoned (16 * n + i) || foundIn f i == .uncorrectable)

theorem markedLine_of_served {e : Dev} {id n : Nat} {m : BitVec 16} (h : s.dev.Served id e)
    (hm : ∀ i, i < 16 → m.getLsbD i = (e.poisoned (16 * n + i) || foundIn f i == .uncorrectable)) : MarkedLine s f n m := by
  simp only [Dev.poisoned, h.poison] at hm
  exact hm

/-- LINE_FILL of a line whose FILL is granted at an awake slice (R133, R217, R259). -/
theorem lineFill_delivers {b : BentId} {line : Nat} {x : Txn} (hfills : (s.dev.bent b.toNat).fills = []) (hx : s.dev.fillOf b.toNat line = some x)
    (hreq : x.req = fillReq b.toNat) (hover : x.overfull = false) (hg : s.dev.mayGrant x = true) (hway : s.dev.freeWay)
    (hawake : s.dev.wordAsleep (16 * line) = false) (hheld : s.dev.lineHeld line = false) (hres : isReserved (16 * line) = false)
    (hcode : isCode (16 * line) = true) :
    ∃ t m, exec (.lineFill b line f) s = .next t ∧ t.mem = s.mem ∧ t.pending = s.pending ∧ MarkedLine s f line m
      ∧ (∀ i, (t.dev.core i).lineless = (s.dev.core i).lineless)
      ∧ lineIn (t.dev.bent b.toNat).lineCache line = some m ∧ ∀ y ∈ t.dev.txns, y.id ≠ x.id := by
  have hserved := granted_countLate_leaves hway.still (t := x) (by rw [hreq]; exact isCoreReq_fillReq b)
  have hrow : exec (.lineFill b line f) s = s.keep (s.dev.lineFill b.toNat line f) := rfl
  rw [lineFill_granted hfills hx hover hg hawake hheld] at hrow
  generalize (((s.dev.granted x).countLate x).leave x) = e at hserved hrow
  obtain ⟨hread, hmarks⟩ := fetchLine_marks (d := e) f hres hcode
  generalize e.fetchLine line f = y at hread hmarks hrow
  obtain ⟨hcache, htxns, hcores⟩ := lineDelivered (d := y.2) b.toNat line y.1
  refine ⟨_, _, hrow, rfl, rfl, markedLine_of_served hserved hmarks, fun i => ?_, ?_, ?_⟩
  · rw [Dev.core_seen, hcores, core_congr (hread.cores.trans hserved.cores)]
  · rw [Dev.bent_seen]
    exact hcache
  · rw [Dev.seen_txns, htxns, hread.txns]
    exact hserved.gone

/-- PACED_FETCH_DELIVERY of a line whose FILL is granted 96 ns after the request (R152, R154, R217). -/
theorem pacedFetch_delivers {c : CoreId} {n at_ : Nat} {x : Txn} (hreq : (s.dev.core c.toNat).reqLine = some (n, at_))
    (hvec : (s.dev.core c.toNat).vecReq = []) (hp : (s.dev.core c.toNat).psr.paced = true) (hlate : at_ + 77 ≤ s.dev.clk)
    (hx : s.dev.pacedOf c.toNat n = some x) (hone : ∀ y ∈ s.dev.txns, ∀ m, y.origin = .paced c m → m = n) (hg : s.dev.mayGrant x = true)
    (hway : s.dev.freeWay) (hawake : s.dev.wordAsleep (16 * n) = false) (hres : isReserved (16 * n) = false) (hcode : isCode (16 * n) = true) :
    ∃ t m, exec (.pacedFetchDelivery c f) s = .next t ∧ t.mem = s.mem ∧ t.pending = s.pending ∧ t.dev.bents = s.dev.bents ∧ MarkedLine s f n m
      ∧ t.dev.core c.toNat = { s.dev.core c.toNat with nextLine := some (n, m), reqLine := none }
      ∧ ∀ i, i ≠ c.toNat → t.dev.core i = s.dev.core i := by
  have hserved := granted_leaves x hway.still
  have hrow : exec (.pacedFetchDelivery c f) s = s.keep (s.dev.pacedDelivery c.toNat f) := rfl
  rw [pacedDelivery_granted hreq hvec hx hone hp hlate hg hawake] at hrow
  generalize ((s.dev.granted x).leave x) = e at hserved hrow
  obtain ⟨hread, hmarks⟩ := fetchLine_marks (d := e) f hres hcode
  generalize e.fetchLine n f = y at hread hmarks hrow
  have hcore := core_congr (hread.cores.trans hserved.cores)
  refine ⟨_, _, hrow, rfl, rfl, hread.bents.trans hserved.bents, markedLine_of_served hserved hmarks, ?_, fun i hi => ?_⟩
  · rw [Dev.core_seen, Dev.core_onCore, hcore]
    exact gotPaced_next _ hreq hvec
  · rw [Dev.core_seen, Dev.core_onCore_other _ _ hi, hcore]

/-- PACE_UNDERRUN of a running paced core whose bent is not still (R157, R179). -/
theorem paceUnderrun_counts {c : CoreId} (hp : (s.dev.core c.toNat).psr.paced = true) (hr : (s.dev.core c.toNat).status = .running)
    (hb : s.dev.bentStill (bentOf c.toNat) = false) :
    ∃ t, exec (.paceUnderrun c) s = .next t ∧ t.mem = s.mem ∧ t.pending = s.pending ∧ t.dev.cores = s.dev.cores
      ∧ Tab.find 0#16 (t.dev.bent (bentOf c.toNat)).scr.underrun (slotOf c.toNat)
        = satInc (Tab.find 0#16 (s.dev.bent (bentOf c.toNat)).scr.underrun (slotOf c.toNat))
      ∧ (t.dev.bent (bentOf c.toNat)).scr.noLower = 100 ∧ t.dev.raising (384 + bentOf c.toNat) (bentOf c.toNat) := by
  generalize hd : s.dev.onScr (bentOf c.toNat) (fun a => { a with
    underrun := Tab.modify 0#16 a.underrun (slotOf c.toNat) satInc, noLower := 100 }) = d
  have hrow : exec (.paceUnderrun c) s
      = s.keep ((d.fastRaise (bentOf c.toNat) 4).raise (384 + bentOf c.toNat) (bentOf c.toNat) (BitVec.ofNat 16 (slotOf c.toNat))) := by
    change s.keep (s.dev.paceUnderrun c.toNat) = _
    rw [← hd]
    simp [Dev.paceUnderrun, hp, hr, hb]
  obtain ⟨hcores, hunder, hlower⟩ := (fastRaise_paceKept (d := d) (bentOf c.toNat) 4).trans
    (raise_paceKept (bentOf c.toNat) (384 + bentOf c.toNat) (bentOf c.toNat) (BitVec.ofNat 16 (slotOf c.toNat)))
  have hscr : (d.bent (bentOf c.toNat)).scr = { (s.dev.bent (bentOf c.toNat)).scr with
      underrun := Tab.modify 0#16 (s.dev.bent (bentOf c.toNat)).scr.underrun (slotOf c.toNat) satInc, noLower := 100 } := by
    rw [← hd, Dev.bent_onScr]
  refine ⟨_, hrow, rfl, rfl, hcores.trans (by rw [← hd]; rfl), ?_, hlower.trans (by rw [hscr]), raise_raising _ _ _ _⟩
  rw [Dev.bent_seen, hunder, hscr, Tab.find_modify, if_pos rfl]

/-- Settles O23: a granted FILL leaves the way and its line is read once, with its marks; a late step is counted before its fast raise, which keeps the
counts. -/
theorem linesAreDelivered : Obligations.LinesAreDelivered := by
  unfold Obligations.LinesAreDelivered
  intro s b line c f marked b' i
  refine ⟨?_, ?_, paceUnderrun_counts⟩
  · intro x hfills hx hreq hover hg hway hawake hheld hres hcode
    exact lineFill_delivers hfills hx hreq hover hg hway hawake hheld hres hcode
  · intro n at_ x hreq hvec hp hlate hx hone hg hway hawake hres hcode
    exact pacedFetch_delivers hreq hvec hp hlate hx hone hg hway hawake hres hcode

end Sys2Proof.Proofs
end

section
/-! SUPPORT. The Scribe's agents at work: what a request, a grant, a budget evaluation, an unable bent and the control law leave alone, and what they
write. -/
namespace Sys2Proof.Machine

variable {d e f : Dev} {b n : Nat} {α β : Type}

/-- A raise withdraws none that the collector has not taken. -/
theorem raise_keepsRaises (src inst : Nat) (det : BitVec 16) : d.flt.raises ⊆ (d.raise src inst det).flt.raises := by
  obtain ⟨xs, ps, hinto⟩ := eventInto_frame d domCollector (raiseLine src inst) (d.raisesOf src inst)
  unfold Dev.raise
  split
  · next h =>
    rw [h] at hinto
    subst hinto
    exact List.subset_append_left _ _
  · next h =>
    rw [h] at hinto
    subst hinto
    split
    · exact List.subset_append_left _ _
    · exact List.Subset.refl _

/-! ### What the agents leave alone -/

/-- From d to e agents of the Scribe acted, with the crossings and the collector that they use: no core, mode, power state and nothing of Keystone
changed, no raise was withdrawn, and of bent b's agent stands what π shows. -/
structure Dev.Steered (d : Dev) (b : Nat) (π : Scribe → α) (e : Dev) : Prop where
  cores : e.cores = d.cores
  mode : e.mode = d.mode
  pwr : e.pwr = d.pwr
  ks : e.ks = d.ks
  raises : d.flt.raises ⊆ e.flt.raises
  shown : π (e.bent b).scr = π (d.bent b).scr

theorem Dev.Steered.refl (d : Dev) (b : Nat) (π : Scribe → α) : d.Steered b π d := ⟨rfl, rfl, rfl, rfl, List.Subset.refl _, rfl⟩

theorem Dev.Steered.trans {π : Scribe → α} (h : d.Steered b π e) (g : e.Steered b π f) : d.Steered b π f :=
  ⟨g.cores.trans h.cores, g.mode.trans h.mode, g.pwr.trans h.pwr, g.ks.trans h.ks, List.Subset.trans h.raises g.raises, g.shown.trans h.shown⟩

/-- What shows less of the agent stands too. -/
theorem Dev.Steered.less {π : Scribe → Scribe} (h : d.Steered b π e) (φ : Scribe → β) (hφ : ∀ a, φ (π a) = φ a) : d.Steered b φ e :=
  ⟨h.cores, h.mode, h.pwr, h.ks, h.raises, by rw [← hφ, h.shown, hφ]⟩

theorem Dev.Steered.raising {π : Scribe → α} (h : d.Steered b π e) {src inst : Nat} (hr : d.raising src inst) : e.raising src inst := by
  obtain ⟨r, hmem, hline⟩ := hr
  exact ⟨r, h.raises hmem, hline⟩

theorem Dev.Steered.scrLive {π : Scribe → α} (h : d.Steered b π e) (m : Nat) : e.scrLive m = d.scrLive m := by simp only [Dev.scrLive, h.mode]

theorem Dev.Steered.foldl {γ : Type} {π : Scribe → α} {g : Dev → γ → Dev} (h : ∀ (x : Dev) c, x.Steered b π (g x c)) (l : List γ) (d : Dev) :
    d.Steered b π (l.foldl g d) := by
  induction l generalizing d with
  | nil => exact .refl d b π
  | cons c l ih => exact (h d c).trans (ih _)

theorem onScr_steered {π : Scribe → α} {g : Scribe → Scribe} (h : ∀ a, π (g a) = π a) : d.Steered b π (d.onScr n g) := by
  refine ⟨rfl, rfl, rfl, rfl, List.Subset.refl _, ?_⟩
  by_cases hb : b = n
  · subst hb
    rw [Dev.bent_onScr]
    exact h _
  · rw [Dev.onScr, Dev.bent_onBent_other _ _ hb]

theorem raise_steered (π : Scribe → α) (src inst : Nat) (det : BitVec 16) : d.Steered b π (d.raise src inst det) := by
  have hraises := raise_keepsRaises (d := d) src inst det
  obtain ⟨xs, ps, fl, h⟩ := raise_frame d src inst det
  rw [h] at hraises ⊢
  exact ⟨rfl, rfl, rfl, rfl, hraises, rfl⟩

theorem onSpan_steered (π : Scribe → α) (k : Nat) (g : Span → Span) : d.Steered b π (d.onSpan k g) :=
  ⟨rfl, rfl, rfl, rfl, List.Subset.refl _, rfl⟩

/-! ### Requests and grants (R170, R175, R176, R180) -/

/-- An agent without what a request and a grant write. -/
def Scribe.unasked (a : Scribe) : Scribe := { a with request := 0#7, grant := 0#7, held := false, slew := false }

theorem granted_unasked (a : Scribe) (code : Nat) (held : Bool) : (a.granted code held).unasked = a.unasked := by
  unfold Scribe.granted
  split <;> rfl

theorem granted_request (a : Scribe) (code : Nat) (held : Bool) : (a.granted code held).request = a.request := by
  unfold Scribe.granted
  split <;> rfl

theorem giveGrant_steered {π : Scribe → α} (hπ : ∀ a code held, π (a.granted code held) = π a) (code : Nat) (held : Bool) :
    d.Steered b π (d.giveGrant n code held) := by
  unfold Dev.giveGrant
  split
  · exact ⟨rfl, rfl, rfl, rfl, List.Subset.refl _, rfl⟩
  · exact onScr_steered (fun a => hπ a code held)

theorem budgetRequest_steered (π : Scribe → α) : d.Steered b π (d.budgetRequest n) := by
  have hinto : d.Steered b π (d.eventInto domPower n (Tab.find 0 (d.xing domPower).lines n)).2 := by
    obtain ⟨xs, ps, h⟩ := eventInto_frame d domPower n (Tab.find 0 (d.xing domPower).lines n)
    rw [h]
    exact ⟨rfl, rfl, rfl, rfl, List.Subset.refl _, rfl⟩
  unfold Dev.budgetRequest
  dsimp only
  split
  · next h =>
    rw [h] at hinto
    exact hinto.trans ⟨rfl, rfl, rfl, rfl, List.Subset.refl _, rfl⟩
  · next h =>
    rw [h] at hinto
    exact hinto.trans (raise_steered π _ _ _)

/-- A request is written, and then granted at once or sent to the power controller. -/
theorem scrAsk_cases (d : Dev) (n code : Nat) :
    let d1 := d.onScr n (fun x => { x with request := BitVec.ofNat 7 ((d.bent n).scr.asked code) })
    d.scrAsk n code = d1.giveGrant n ((d.bent n).scr.asked code) false ∨ d.scrAsk n code = d1.budgetRequest n := by
  unfold Dev.scrAsk Scribe.asked
  dsimp only
  generalize (if (d.bent n).scr.unable then 100 else max (d.bent n).scr.floor.toNat (min 100 code)) = c
  split
  · exact .inl rfl
  · exact .inr rfl

theorem scrAsk_steered (code : Nat) : d.Steered b Scribe.unasked (d.scrAsk n code) := by
  have hask : ∀ r : BitVec 7, d.Steered b Scribe.unasked (d.onScr n (fun x => { x with request := r })) := fun _ => onScr_steered (fun _ => rfl)
  obtain h | h := scrAsk_cases d n code
  · rw [h]
    exact (hask _).trans (giveGrant_steered granted_unasked _ _)
  · rw [h]
    exact (hask _).trans (budgetRequest_steered _)

theorem asked_lt (a : Scribe) (code : Nat) : a.asked code < 128 := by
  have hfloor := a.floor.isLt
  unfold Scribe.asked
  split <;> omega

/-- The request is the code asked for, within the floor and code 100 (R175, R187). -/
theorem scrAsk_request (code : Nat) : ((d.scrAsk b code).bent b).scr.request.toNat = (d.bent b).scr.asked code := by
  have hstands : ((d.scrAsk b code).bent b).scr.request = BitVec.ofNat 7 ((d.bent b).scr.asked code) := by
    obtain h | h := scrAsk_cases d b code
    · rw [h, (giveGrant_steered (b := b) granted_request _ _).shown, Dev.bent_onScr]
    · rw [h, (budgetRequest_steered (b := b) Scribe.request).shown, Dev.bent_onScr]
  rw [hstands, BitVec.toNat_ofNat, Nat.mod_eq_of_lt (asked_lt _ _)]

theorem fastRaise_steered (k : Nat) : d.Steered b Scribe.unasked (d.fastRaise n k) := by
  unfold Dev.fastRaise
  split
  · exact scrAsk_steered _
  · exact .refl d b _

/-- A fast raise adds to the present code where the Scribe moves the bent's code, and else asks for nothing (R176). -/
theorem fastRaise_request (k : Nat) : ((d.fastRaise b k).bent b).scr.request.toNat
    = if d.scrLive b = true then (d.bent b).scr.asked ((d.bent b).scr.presentCode + k) else (d.bent b).scr.request.toNat := by
  unfold Dev.fastRaise
  split
  · exact scrAsk_request _
  · rfl

/-! ### Unable bents and the control law (R174, R175, R187) -/

/-- An agent without what requests and grants, the judgement of an unable bent and the control law write. -/
def Scribe.unjudged (a : Scribe) : Scribe :=
  { a.unasked with unable := false, inRange := 0, propose := .none, target := 0#7, unableStreak := 0, startHold := 0, noLower := 0 }

theorem scrAsk_unjudged (code : Nat) : d.Steered b Scribe.unjudged (d.scrAsk n code) := (scrAsk_steered code).less _ (fun _ => rfl)

/-- A bent that has become unable, before code 100 is asked for: UNABLE and its span bit, SCR_UNABLE, the proposal (R187, R188). -/
def Dev.judged (d : Dev) (n : Nat) : Dev :=
  ((d.onScr n (fun a => { a with unable := true, inRange := 0, propose := (d.bent n).proposal })).markUnable n true).raise 513 n 0#16

theorem goUnable_eq (n : Nat) : d.goUnable n
    = if (d.bent n).scr.unable then d else if d.scrLive n then (d.judged n).scrAsk n 100 else d.judged n := rfl

theorem judged_steered : d.Steered b Scribe.unjudged (d.judged n) := by
  refine .trans (.trans ?_ (onSpan_steered _ _ _)) (raise_steered _ _ _ _)
  exact onScr_steered (fun _ => rfl)

theorem judged_unable : ((d.judged b).bent b).scr.unable = true := by
  rw [Dev.judged, (raise_steered (b := b) Scribe.unable _ _ _).shown, Dev.markUnable, (onSpan_steered (b := b) Scribe.unable _ _).shown, Dev.bent_onScr]

theorem goUnable_steered : d.Steered b Scribe.unjudged (d.goUnable n) := by
  rw [goUnable_eq]
  split
  · exact .refl d b _
  · split
    · exact judged_steered.trans (scrAsk_unjudged _)
    · exact judged_steered

/-- A bent that becomes unable, or has been, is unable (R187). -/
theorem goUnable_unable : ((d.goUnable b).bent b).scr.unable = true := by
  rw [goUnable_eq]
  split
  · next h => exact h
  · split
    · exact ((scrAsk_steered 100).less Scribe.unable (fun _ => rfl)).shown.trans judged_unable
    · exact judged_unable

theorem clearUnable_steered : d.Steered b Scribe.unjudged (d.clearUnable n) := by
  unfold Dev.clearUnable
  split
  · refine .trans ?_ (onSpan_steered _ _ _)
    exact onScr_steered (fun _ => rfl)
  · exact .refl d b _

theorem controlLaw_steered (u : Option Util) : d.Steered b Scribe.unjudged (d.controlLaw n u) := by
  unfold Dev.controlLaw
  extract_lets a rate raw overfull cur idle c streak ok d1 d2
  have h1 : d.Steered b Scribe.unjudged d1 := onScr_steered (fun _ => rfl)
  have h2 : d.Steered b Scribe.unjudged d2 := by
    refine h1.trans ?_
    unfold d2
    split
    · split
      · exact clearUnable_steered
      · exact .refl _ _ _
    · split
      · exact goUnable_steered
      · exact .refl _ _ _
  refine h2.trans ?_
  split
  · split
    · exact scrAsk_unjudged _
    · exact .refl _ _ _
  · split
    · exact scrAsk_unjudged _
    · split
      · exact scrAsk_unjudged _
      · exact .refl _ _ _

end Sys2Proof.Machine
end

section
/-! SUPPORT. What the timing events, a control period and a sample of the sensors do to a bent's agent. -/
namespace Sys2Proof.Machine

variable {d e : Dev} {b : Nat}

/-! ### Deadlines (R169, R170) -/

@[simp] theorem Scribe.entry_onEntry (a : Scribe) (i k : Nat) (g : Slack → Slack) : (a.onEntry i k g).entry i k = g (a.entry i k) :=
  Tab.find_put_self _ _ _ _

/-- A miss noted in its slack entry and raised, before codes are asked for. -/
def Dev.missNoted (d : Dev) (b i k : Nat) : Dev :=
  (d.onScr b (fun a => a.onEntry i k (fun x => { x with miss := satInc x.miss, missed := true }))).raise (128 + b) b (BitVec.ofNat 16 (16 * k + i))

theorem missNoted_scr (i k : Nat) : ((d.missNoted b i k).bent b).scr
    = (d.bent b).scr.onEntry i k (fun x => { x with miss := satInc x.miss, missed := true }) := by
  refine (raise_steered (b := b) (fun a => a) _ _ _).shown.trans ?_
  rw [Dev.bent_onScr]

/-- A miss is noted before anything is asked for. -/
theorem missNoted_steered (i k : Nat) : d.Steered b Scribe.request (d.missNoted b i k) := by
  refine .trans ?_ (raise_steered _ _ _ _)
  exact onScr_steered (fun _ => rfl)

section
variable {i k : Nat} (hb : d.bentStill b = false) (hm : d.isMiss b ((d.bent b).scr.entry i k) = true)
  (ho : ((d.bent b).scr.entry i k).opened = none)
include hb hm ho

/-- A miss of an iteration that no RETI has left open. -/
theorem deadlineMiss_eq : d.deadlineMiss b i k
    = if ((d.bent b).scr.entry i k).safety then ((d.missNoted b i k).fastRaise b 10).raise 752 b (BitVec.ofNat 16 i)
      else (d.missNoted b i k).fastRaise b 10 := by
  simp [Dev.deadlineMiss, Dev.missNoted, hb, hm, ho]

/-- After its fast raise a miss of a safety loop is raised once more, and nothing else happens. -/
theorem deadlineMiss_fast : ((d.missNoted b i k).fastRaise b 10).Steered b (fun a => a) (d.deadlineMiss b i k) := by
  rw [deadlineMiss_eq hb hm ho]
  split
  · exact raise_steered _ _ _ _
  · exact .refl _ _ _

/-- A miss of a safety loop is a SAFETY_MISS (R446). -/
theorem deadlineMiss_safety (hs : ((d.bent b).scr.entry i k).safety = true) : (d.deadlineMiss b i k).raising 752 b := by
  rw [deadlineMiss_eq hb hm ho, if_pos hs]
  exact raise_raising _ _ _ _

/-- A miss has ten codes more than the present one asked for, where the Scribe moves the bent's code (R170). -/
theorem deadlineMiss_request : ((d.deadlineMiss b i k).bent b).scr.request.toNat
      = if d.scrLive b = true then (d.bent b).scr.asked ((d.bent b).scr.presentCode + 10) else (d.bent b).scr.request.toNat := by
  rw [(deadlineMiss_fast hb hm ho).shown, fastRaise_request, (missNoted_steered i k).scrLive, missNoted_scr]
  rfl

end

/-! ### Near misses and late arrivals (R171 to R173, R187) -/

/-- An agent's counts of near misses and late arrivals. -/
def Scribe.firings (a : Scribe) : BitVec 16 × BitVec 16 := (a.near, a.late)

theorem lengthen_firings (a : Scribe) (n : Nat) (st : Stage) : (a.lengthen n st).firings = a.firings := by cases st <;> rfl

theorem lengthen_delay (a : Scribe) (n : Nat) (st : Stage) : ((a.lengthen n st).delay st).toNat = min 15 ((a.delay st).toNat + n) := by
  cases st <;> exact Nat.mod_eq_of_lt (by omega)

/-- The number of a stage among the signals of its bent (R496). -/
def stageSignal : Stage → Nat
  | .ex => 0
  | .me => 1

/-- A near miss counted, before anything is done about it. -/
def Dev.nearNoted (d : Dev) (b p : Nat) (st : Stage) : Dev :=
  (d.onScr b (fun x => { x.noteFiring p with near := satInc x.near })).strobe (0x880 + 8 * b + stageSignal st)

/-- Whether a near miss has a code more asked for (R171, R187). -/
def Dev.nearRaises (d : Dev) (b : Nat) : Prop :=
  d.scrLive b = true ∧ (d.bent b).scr.presentCode < 100 ∧ (d.bent b).scr.request.toNat ≤ (d.bent b).scr.grant.toNat

theorem nearNoted_scr (p : Nat) (st : Stage) :
    ((d.nearNoted b p st).bent b).scr = { (d.bent b).scr.noteFiring p with near := satInc (d.bent b).scr.near } := by
  rw [Dev.nearNoted, Dev.bent_strobe, Dev.bent_onScr]

theorem nearNoted_delay (p : Nat) (st : Stage) : ((d.nearNoted b p st).bent b).scr.delay st = (d.bent b).scr.delay st := by
  rw [nearNoted_scr]
  cases st <;> rfl

theorem unjudged_delay (a : Scribe) (st : Stage) : a.unjudged.delay st = a.delay st := by cases st <;> rfl

section
variable {p : Nat} (st : Stage) (hp : p < 17) (hb : d.bentStill b = false)
include hp hb

/-- A near miss that has a code more asked for (R171). -/
theorem nearMiss_raises (h : d.nearRaises b) : d.nearMiss b p st = (d.nearNoted b p st).scrFast b 1 := by
  obtain ⟨hlive, hcode, hgrant⟩ := h
  have hp' : ¬ 17 ≤ p := by omega
  unfold Dev.nearMiss
  rw [if_neg (by simp [hp', hb])]
  dsimp only
  rw [if_pos (by simp [hlive, hcode, hgrant])]
  cases st <;> rfl

/-- A near miss that has none asked for lengthens the delay, or finds the bent unable (R187). -/
theorem nearMiss_lengthens (h : ¬ d.nearRaises b) :
    d.nearMiss b p st = if (d.bent b).scr.delay st != 15#4 then (d.nearNoted b p st).onScr b (fun x => x.lengthen 1 st)
      else if 100 ≤ (d.bent b).scr.actual.toNat then (d.nearNoted b p st).goUnable b else d.nearNoted b p st := by
  have hp' : ¬ 17 ≤ p := by omega
  unfold Dev.nearMiss
  rw [if_neg (by simp [hp', hb])]
  dsimp only
  rw [if_neg (by simpa only [Dev.nearRaises, Bool.and_eq_true, decide_eq_true_eq, and_assoc] using h)]
  cases st <;> rfl

/-- Whatever follows a near miss, its count stands, and that of late arrivals (R171). -/
theorem nearMiss_counts : (d.nearNoted b p st).Steered b Scribe.firings (d.nearMiss b p st) := by
  by_cases h : d.nearRaises b
  · rw [nearMiss_raises st hp hb h]
    exact (scrAsk_steered _).less _ (fun _ => rfl)
  · rw [nearMiss_lengthens st hp hb h]
    split
    · exact onScr_steered (fun a => lengthen_firings a 1 st)
    · split
      · exact goUnable_steered.less _ (fun _ => rfl)
      · exact .refl _ _ _

/-- A near miss has one code more than the present one asked for, and then lengthens no delay (R171). -/
theorem nearMiss_request (h : d.nearRaises b) :
    ((d.nearMiss b p st).bent b).scr.request.toNat = (d.bent b).scr.asked ((d.bent b).scr.presentCode + 1)
      ∧ ((d.nearMiss b p st).bent b).scr.delay st = (d.bent b).scr.delay st := by
  rw [nearMiss_raises st hp hb h, Dev.scrFast]
  refine ⟨(scrAsk_request _).trans (by rw [nearNoted_scr]; rfl), ?_⟩
  exact ((scrAsk_unjudged _).less (fun a => a.delay st) (fun a => unjudged_delay a st)).shown.trans (nearNoted_delay p st)

/-- A near miss for which no code is asked lengthens the stage's delay by one, unless it is at 15 (R187). -/
theorem nearMiss_delay (h : ¬ d.nearRaises b) :
    (((d.nearMiss b p st).bent b).scr.delay st).toNat = min 15 (((d.bent b).scr.delay st).toNat + 1) := by
  have hnoted := nearNoted_delay (d := d) (b := b) p st
  rw [nearMiss_lengthens st hp hb h]
  split
  · rw [Dev.bent_onScr, lengthen_delay, hnoted]
  · next hfull =>
    have h15 : (d.bent b).scr.delay st = 15#4 := by simpa using hfull
    have hmin : min 15 ((15#4).toNat + 1) = (15#4).toNat := by decide
    rw [h15, hmin, ← h15, ← hnoted]
    split
    · exact congrArg BitVec.toNat (goUnable_steered.less (fun a => a.delay st) (fun a => unjudged_delay a st)).shown
    · rfl

/-- With the delay at 15 as well a near miss finds a bent at code 100 unable (R187). -/
theorem nearMiss_unable (h : ¬ d.nearRaises b) (h15 : (d.bent b).scr.delay st = 15#4) (h100 : 100 ≤ (d.bent b).scr.actual.toNat) :
    ((d.nearMiss b p st).bent b).scr.unable = true := by
  rw [nearMiss_lengthens st hp hb h, if_neg (by simp [h15]), if_pos h100]
  exact goUnable_unable

theorem timingLate_eq : d.timingLate b p st
    = ((d.onScr b (fun x => ({ x.noteFiring p with late := satInc x.late }).lengthen 2 st)).strobe (0x882 + 8 * b)).raise 512 b 0#16 := by
  have hp' : ¬ 17 ≤ p := by omega
  simp [Dev.timingLate, hp', hb]

/-- A late arrival counts, and lengthens the stage's delay by two codes (R172). -/
theorem timingLate_scr : ((d.timingLate b p st).bent b).scr
    = ({ (d.bent b).scr.noteFiring p with late := satInc (d.bent b).scr.late }).lengthen 2 st := by
  rw [timingLate_eq st hp hb]
  refine (raise_steered (b := b) (fun a => a) _ _ _).shown.trans ?_
  rw [Dev.bent_strobe, Dev.bent_onScr]

end

/-! ### Control periods (R163, R165, R174) -/

/-- What the monitors of a bent show: the code and K. -/
def Scribe.gauge (a : Scribe) : BitVec 7 × BitVec 16 := (a.actual, a.k)

/-- The monitored code taken over at a control period. -/
def Dev.voltageRead (d : Dev) (b : Nat) (act : BitVec 7) : Dev :=
  d.onScr b (fun a => { a with actual := act, strayed := a.strayed && a.strays act.toNat })

/-- What a control period takes over from the monitors: the code, and K outside a slew (R163). -/
def Dev.gauged (d : Dev) (b : Nat) (act : BitVec 7) (count : BitVec 16) : Dev :=
  if (d.bent b).scr.slew then d.voltageRead b act else (d.voltageRead b act).scrMeasure b act.toNat count

theorem voltageRead_steered (act : BitVec 7) : d.Steered b Scribe.k (d.voltageRead b act) := onScr_steered (fun _ => rfl)

theorem voltageRead_scr (act : BitVec 7) : ((d.voltageRead b act).bent b).scr
    = { (d.bent b).scr with actual := act, strayed := (d.bent b).scr.strayed && (d.bent b).scr.strays act.toNat } := by
  rw [Dev.voltageRead, Dev.bent_onScr]

theorem scrMeasure_steered (c : Nat) (count : BitVec 16) : d.Steered b Scribe.actual (d.scrMeasure b c count) := by
  unfold Dev.scrMeasure
  split
  · exact .trans (e := d.fresh.2) ⟨rfl, rfl, rfl, rfl, List.Subset.refl _, rfl⟩ (onScr_steered (fun _ => rfl))
  · exact onScr_steered (fun _ => rfl)

/-- K is the ratio of the count to the graded count (R163). -/
theorem scrMeasure_k {c : Nat} (count : BitVec 16) (h : 0 < (d.bent b).scr.oscAt c) :
    ((d.scrMeasure b c count).bent b).scr.k.toNat = min 0xFFFF (count.toNat * 327680 / (d.bent b).scr.oscAt c) := by
  unfold Dev.scrMeasure
  split
  · next hz => omega
  · next m hm =>
    have hk : min 0xFFFF (count.toNat * 327680 / (m + 1)) < 2 ^ 16 := by omega
    rw [Dev.bent_onScr, hm, BitVec.toNat_ofNat, Nat.mod_eq_of_lt hk]

theorem scrAge_steered : d.Steered b Scribe.gauge (d.scrAge b) := by
  unfold Dev.scrAge
  extract_lets a d0 d1
  have h0 : d.Steered b Scribe.gauge d0 := onScr_steered (fun _ => rfl)
  have h1 : d.Steered b Scribe.gauge d1 := by
    refine h0.trans ?_
    unfold d1 Dev.recordSpares Dev.putRecord
    split
    · dsimp only
      split <;> exact ⟨rfl, rfl, rfl, rfl, List.Subset.refl _, rfl⟩
    · exact .refl _ _ _
  split
  · exact .refl _ _ _
  · split
    · refine (h1.trans ?_).trans (raise_steered _ _ _ _)
      exact onScr_steered (fun _ => rfl)
    · exact h1

theorem putUtil_gauge (a : Scribe) (u : Option Util) : (a.putUtil u).gauge = a.gauge := by cases u <;> rfl

theorem shorten_gauge (a : Scribe) : a.shorten.gauge = a.gauge := by
  unfold Scribe.shorten
  dsimp only
  split <;> split <;> rfl

/-- After the monitors' values are taken over a control period changes neither. -/
theorem controlPeriod_gauged {act : BitVec 7} (count : BitVec 16) (hact : act.toNat ≤ 100) (hb : d.bentStill b = false) :
    (d.gauged b act count).Steered b Scribe.gauge (d.controlPeriod b act count) := by
  unfold Dev.controlPeriod
  rw [if_neg (by simp [hb]; omega)]
  extract_lets d0 d1 u d2
  have h1 : (d.gauged b act count).Steered b Scribe.gauge d1 := by
    unfold Dev.gauged d1
    split
    · exact .refl _ _ _
    · exact scrAge_steered
  have h2 : (d.gauged b act count).Steered b Scribe.gauge d2 := by
    refine h1.trans (onScr_steered (fun a => ?_))
    rw [putUtil_gauge]
    exact shorten_gauge a
  split
  · exact h2.trans ((controlLaw_steered u).less _ (fun _ => rfl))
  · exact h2

theorem gauged_steered (act : BitVec 7) (count : BitVec 16) : (d.voltageRead b act).Steered b Scribe.actual (d.gauged b act count) := by
  unfold Dev.gauged
  split
  · exact .refl _ _ _
  · exact scrMeasure_steered _ _

/-- The monitored code stands after a control period. -/
theorem controlPeriod_actual {act : BitVec 7} (count : BitVec 16) (hact : act.toNat ≤ 100) (hb : d.bentStill b = false) :
    ((d.controlPeriod b act count).bent b).scr.actual = act := by
  refine (congrArg Prod.fst (controlPeriod_gauged count hact hb).shown).trans ?_
  exact (gauged_steered act count).shown.trans (by rw [voltageRead_scr])

/-- In a slew K stays (R163). -/
theorem controlPeriod_k_slew {act : BitVec 7} (count : BitVec 16) (hact : act.toNat ≤ 100) (hb : d.bentStill b = false)
    (hslew : (d.bent b).scr.slew = true) : ((d.controlPeriod b act count).bent b).scr.k = (d.bent b).scr.k := by
  refine (congrArg Prod.snd (controlPeriod_gauged count hact hb).shown).trans ?_
  rw [Dev.gauged, if_pos hslew]
  exact (voltageRead_steered act).shown

/-- Outside a slew K is the ratio of the process monitor's count to the graded count (R163). -/
theorem controlPeriod_k {act : BitVec 7} (count : BitVec 16) (hact : act.toNat ≤ 100) (hb : d.bentStill b = false)
    (hslew : (d.bent b).scr.slew = false) (hosc : 0 < (d.bent b).scr.oscAt act.toNat) :
    ((d.controlPeriod b act count).bent b).scr.k.toNat = min 0xFFFF (count.toNat * 327680 / (d.bent b).scr.oscAt act.toNat) := by
  have hread : ((d.voltageRead b act).bent b).scr.oscAt act.toNat = (d.bent b).scr.oscAt act.toNat := by
    rw [voltageRead_scr]
    rfl
  refine (congrArg BitVec.toNat (congrArg Prod.snd (controlPeriod_gauged count hact hb).shown)).trans ?_
  rw [Dev.gauged, if_neg (by rw [hslew]; decide), ← hread]
  exact scrMeasure_k count (hread ▸ hosc)

/-! ### A code that strays from the grant (R186) -/

/-- A straying code noted, and raised where it is new (R186, R438). -/
def Dev.strayNoted (d : Dev) (b : Nat) (code : BitVec 7) : Dev :=
  let d1 := d.onScr b (fun x => { x with actual := code, strayed := true })
  if (d.bent b).scr.strayed then d1 else d1.raise 514 b (code.setWidth 16)

theorem strayNoted_steered (code : BitVec 7) :
    (d.onScr b (fun x => { x with actual := code, strayed := true })).Steered b Scribe.actual (d.strayNoted b code) := by
  unfold Dev.strayNoted
  dsimp only
  split
  · exact .refl _ _ _
  · exact raise_steered _ _ _ _

theorem strayNoted_raising {code : BitVec 7} (h : (d.bent b).scr.strayed = false) : (d.strayNoted b code).raising 514 b := by
  simp only [Dev.strayNoted, h]
  exact raise_raising _ _ _ _

/-! ### Sensors (R165) -/

/-- Readings, one for each sensor, stand as the temperatures; of the rest of the device only the pins follow. -/
theorem putTemps_frame {r : List (Bool × BitVec 16)} (h : r.length = 32) (d : Dev) :
    ∃ ps, d.putTemps r = { d with temps := (List.range 32).zip r, plb := ps } := by
  have hstrobes : ∀ (l : List Nat) (x : Dev), ∃ ps, l.foldl (fun x n => x.strobe (0xE02 + 4 * n)) x = { x with plb := ps } := by
    intro l
    induction l with
    | nil => exact fun x => ⟨x.plb, rfl⟩
    | cons n l ih => exact fun x => ih (x.strobe (0xE02 + 4 * n))
  have hpad : r ++ List.replicate (32 - r.length) (false, 0#16) = r := by simp [h]
  rw [Dev.putTemps, hpad]
  exact hstrobes _ _

/-- From d to e there were raises alone. -/
def Dev.raisedOnly (d e : Dev) : Prop := ∃ xs ps fl, e = { d with xings := xs, plb := ps, flt := fl }

theorem Dev.raisedOnly.refl (d : Dev) : d.raisedOnly d := ⟨_, _, _, rfl⟩

theorem Dev.raisedOnly.trans {f : Dev} (h : d.raisedOnly e) (g : e.raisedOnly f) : d.raisedOnly f := by
  obtain ⟨_, _, _, rfl⟩ := h
  obtain ⟨_, _, _, rfl⟩ := g
  exact ⟨_, _, _, rfl⟩

theorem Dev.raisedOnly.foldl {α : Type} {g : Dev → α → Dev} (h : ∀ (x : Dev) a, x.raisedOnly (g x a)) (l : List α) (d : Dev) :
    d.raisedOnly (l.foldl g d) := by
  induction l generalizing d with
  | nil => exact .refl d
  | cons a l ih => exact (h d a).trans (ih _)

/-- The causes of a span that rise with a sample are raised, and nothing else is done about them here. -/
theorem senseSpan_raisedOnly (old : Tab (Bool × BitVec 16)) (n : Nat) : d.raisedOnly (d.senseSpan old n) := by
  unfold Dev.senseSpan
  extract_lets d1 rise
  have h1 : d.raisedOnly d1 := by
    unfold d1
    split
    · exact raise_frame _ _ _ _
    · exact .refl d
  have hrise : ∀ x limit src, Dev.raisedOnly x (rise x limit src) := by
    intro x limit src
    unfold rise
    split
    · exact raise_frame _ _ _ _
    · exact .refl x
  exact (h1.trans (hrise _ _ _)).trans (hrise _ _ _)

/-- Nothing wakes a part that is awake. -/
theorem wakeBy_awake {d : Dev} (code : Nat) (hp : d.pwr.pstate = 0#3) (hn : d.pwr.nego = none) : d.wakeBy code = d := by
  simp [Dev.wakeBy, Power.wakeOn, wakesFrom, hp, hn]

end Sys2Proof.Machine
end

section
/-! SUPPORT. A budget evaluation (R180 to R184): the estimates taken over, the tiers one after another, and of each bent its one grant. -/
namespace Sys2Proof.Machine

variable {d e f : Dev} {b n : Nat}

/-! ### Estimates -/

/-- Of an agent's estimate, what a list of new ones leaves: the last for its bent. -/
def estimateOf (b : Nat) (pest : List (BentId × BitVec 16)) (v : BitVec 16) : BitVec 16 :=
  pest.foldl (fun v e => if e.1.toNat = b then e.2 else v) v

/-- Estimates taken over change the agents' alone. -/
theorem estimates_taken (pest : List (BentId × BitVec 16)) (d : Dev) :
    ∃ bs, pest.foldl (fun x e => x.onScr e.1.toNat (fun a => { a with pest := e.2 })) d = { d with bents := bs } ∧
      ∀ b, (Tab.find {} bs b : Bent).scr = { (d.bent b).scr with pest := estimateOf b pest (d.bent b).scr.pest } := by
  induction pest generalizing d with
  | nil => exact ⟨d.bents, rfl, fun b => rfl⟩
  | cons x l ih =>
    obtain ⟨bs, hfold, hscr⟩ := ih (d.onScr x.1.toNat (fun a => { a with pest := x.2 }))
    refine ⟨bs, hfold, fun b => (hscr b).trans ?_⟩
    by_cases hb : b = x.1.toNat
    · subst hb
      rw [Dev.bent_onScr]
      simp [estimateOf]
    · rw [Dev.onScr, Dev.bent_onBent_other _ _ hb]
      simp [estimateOf, Ne.symm hb]

/-- The sum of the agents' estimates. -/
def Dev.estimates (d : Dev) : Nat := (List.range 128).foldl (fun n b => n + (d.bent b).scr.pest.toNat) 0

theorem estimates_congr (h : ∀ b, (e.bent b).scr.pest = (d.bent b).scr.pest) : e.estimates = d.estimates := by
  simp only [Dev.estimates, h]

/-- The device as an evaluation finds it: the estimates taken over, the requests' lines acknowledged (R182, R301). -/
def Dev.surveyed (d : Dev) (fixed : Nat) (pest : List (BentId × BitVec 16)) : Dev :=
  (d.putEstimates fixed pest).onXing domPower (fun x => { x with lines := [] })

/-- What an evaluation is to leave as it finds it. -/
structure Dev.Surveyed (d : Dev) (fixed : Nat) (pest : List (BentId × BitVec 16)) (e : Dev) : Prop where
  cores : e.cores = d.cores
  mode : e.mode = d.mode
  ks : e.ks = d.ks
  xing : ∀ b, b < 128 → e.xing b = d.xing b
  scr : ∀ b, (e.bent b).scr = { (d.bent b).scr with pest := estimateOf b pest (d.bent b).scr.pest }
  sum : e.pwr.pest = BitVec.ofNat 32 (fixed + e.estimates)

theorem surveyed_finds (d : Dev) (fixed : Nat) (pest : List (BentId × BitVec 16)) : d.Surveyed fixed pest (d.surveyed fixed pest) := by
  obtain ⟨bs, hfold, hscr⟩ := estimates_taken pest d
  unfold Dev.surveyed Dev.putEstimates
  rw [hfold]
  refine ⟨rfl, rfl, rfl, fun b hb => ?_, hscr, rfl⟩
  rw [xing_onXing_other]
  · rfl
  · rw [domPower]
    omega

/-! ### The tiers -/

/-- The bents in service of a tier. -/
def Dev.tierBents (d : Dev) (k : Nat) : List Nat := ((List.range 128).filter (fun b => !d.mode.bentOut.getLsbD b)).filter (fun b => d.tierOf b == k)

theorem mem_tierBents {k : Nat} : b ∈ d.tierBents k ↔ (b < 128 ∧ d.mode.bentOut.getLsbD b = false) ∧ d.tierOf b = k := by
  simp [Dev.tierBents, and_assoc, and_comm (a := d.tierOf b = k)]

theorem tierBents_nodup (k : Nat) : (d.tierBents k).Nodup := (List.nodup_range.filter _).filter _

theorem tierOf_cases (d : Dev) (b : Nat) : d.tierOf b = 0 ∨ d.tierOf b = 1 ∨ d.tierOf b = 2 := by
  unfold Dev.tierOf
  split
  · exact .inl rfl
  · split
    · exact .inr (.inl rfl)
    · exact .inr (.inr rfl)

/-- The tiers granted one after another, tier 0 without a cap (R182). -/
def Dev.evaluated (d : Dev) (c1 c2 : Option Nat) (o : Bool) : Dev :=
  ((d.evaluateTier (d.tierBents 0) 0 none o).evaluateTier (d.tierBents 1) 1 c1 o).evaluateTier (d.tierBents 2) 2 c2 o

/-- Outside the sleep states an evaluation takes the estimates over and then grants (R182). -/
theorem budgetEvaluation_tiers (fixed : Nat) (pest : List (BentId × BitVec 16)) (h : d.pwr.pstate.toNat < 2) :
    ∃ c1 c2 o, d.budgetEvaluation fixed pest = (d.surveyed fixed pest).evaluated c1 c2 o := by
  unfold Dev.budgetEvaluation
  rw [if_neg (by omega)]
  exact ⟨_, _, _, rfl⟩

/-! ### What the evaluation of one bent leaves of the others -/

/-- What a bent has asked for, and the estimate of its power. -/
def Scribe.demand (a : Scribe) : BitVec 16 × BitVec 7 := (a.pest, a.request)

theorem granted_demand (a : Scribe) (code : Nat) (held : Bool) : (a.granted code held).demand = a.demand := by
  unfold Scribe.granted
  split <;> rfl

theorem evaluateBent_steered (tier code : Nat) (o : Bool) : d.Steered b Scribe.demand (d.evaluateBent n tier code o) := by
  unfold Dev.evaluateBent
  extract_lets a held short d1 d2
  have h1 : d.Steered b Scribe.demand d1 := by
    refine .trans ?_ (onScr_steered (fun _ => rfl))
    split
    · exact giveGrant_steered granted_demand _ _
    · exact .refl _ _ _
  have h2 : d.Steered b Scribe.demand d2 := h1.trans (onSpan_steered _ _ _)
  split
  · exact h2.trans (raise_steered _ _ _ _)
  · exact h2

theorem evaluateTier_steered (bs : List Nat) (tier : Nat) (cap : Option Nat) (o : Bool) : d.Steered b Scribe.demand (d.evaluateTier bs tier cap o) :=
  .foldl (fun _ _ => evaluateBent_steered _ _ _) bs d

theorem evaluated_steered (c1 c2 : Option Nat) (o : Bool) : d.Steered b Scribe.demand (d.evaluated c1 c2 o) :=
  ((evaluateTier_steered _ _ _ _).trans (evaluateTier_steered _ _ _ _)).trans (evaluateTier_steered _ _ _ _)

/-- From d to e nothing came to bent b: the bent, the crossing registers in front of it and the modes stand. -/
structure Dev.Passes (d : Dev) (b : Nat) (e : Dev) : Prop where
  mode : e.mode = d.mode
  bent : e.bent b = d.bent b
  xing : e.xing b = d.xing b

theorem Dev.Passes.refl (d : Dev) (b : Nat) : d.Passes b d := ⟨rfl, rfl, rfl⟩

theorem Dev.Passes.trans (h : d.Passes b e) (g : e.Passes b f) : d.Passes b f :=
  ⟨g.mode.trans h.mode, g.bent.trans h.bent, g.xing.trans h.xing⟩

theorem onScr_passes (g : Scribe → Scribe) (h : b ≠ n) : d.Passes b (d.onScr n g) :=
  ⟨rfl, by rw [Dev.onScr, Dev.bent_onBent_other _ _ h], rfl⟩

theorem onXing_passes (g : Xing → Xing) (h : b ≠ n) : d.Passes b (d.onXing n g) := ⟨rfl, rfl, xing_onXing_other _ _ h⟩

theorem strobe_passes (k : Nat) : d.Passes b (d.strobe k) := ⟨rfl, rfl, rfl⟩

theorem eventInto_passes {dom : Nat} (k out : Nat) (h : b ≠ dom) : d.Passes b (d.eventInto dom k out).2 := by
  unfold Dev.eventInto
  dsimp only
  split
  · exact .trans (onXing_passes _ h) (strobe_passes _)
  · dsimp only
    exact onXing_passes _ h

/-- A raise goes to the collector, past every bent. -/
theorem raise_passes (src inst : Nat) (det : BitVec 16) (h : b < 128) : d.Passes b (d.raise src inst det) := by
  have hinto : d.Passes b (d.eventInto domCollector (raiseLine src inst) (d.raisesOf src inst)).2 :=
    eventInto_passes _ _ (by rw [domCollector]; omega)
  unfold Dev.raise
  split
  · next he =>
    rw [he] at hinto
    exact hinto.trans ⟨rfl, rfl, rfl⟩
  · next he =>
    rw [he] at hinto
    split
    · exact hinto.trans ⟨rfl, rfl, rfl⟩
    · exact hinto

theorem giveGrant_passes (code : Nat) (held : Bool) (h : b ≠ n) : d.Passes b (d.giveGrant n code held) := by
  unfold Dev.giveGrant
  split
  · exact onXing_passes _ h
  · exact onScr_passes _ h

theorem evaluateBent_passes (tier code : Nat) (o : Bool) (hb : b < 128) (h : b ≠ n) : d.Passes b (d.evaluateBent n tier code o) := by
  unfold Dev.evaluateBent
  extract_lets a held short d1 d2
  have h1 : d.Passes b d1 := by
    refine .trans ?_ (onScr_passes _ h)
    split
    · exact giveGrant_passes _ _ h
    · exact .refl _ _
  have h2 : d.Passes b d2 := h1.trans ⟨rfl, rfl, rfl⟩
  split
  · exact h2.trans (raise_passes _ _ _ hb)
  · exact h2

theorem foldl_evaluateBent_passes (tier : Nat) (code : Nat → Nat) (o : Bool) (hb : b < 128) (bs : List Nat) (h : b ∉ bs) (d : Dev) :
    d.Passes b (bs.foldl (fun x m => x.evaluateBent m tier (code m) o) d) := by
  induction bs generalizing d with
  | nil => exact .refl d b
  | cons m bs ih =>
    have hm : b ≠ m := List.ne_of_not_mem_cons h
    have hbs : b ∉ bs := List.not_mem_of_not_mem_cons h
    exact (evaluateBent_passes tier (code m) o hb hm).trans (ih hbs _)

theorem evaluateTier_passes {bs : List Nat} (tier : Nat) (cap : Option Nat) (o : Bool) (hb : b < 128) (h : b ∉ bs) :
    d.Passes b (d.evaluateTier bs tier cap o) := foldl_evaluateBent_passes tier _ o hb bs h d

/-! ### The grant of one bent (R182, R183) -/

/-- The bent takes grants: the Scribe moves its code, and its VALUE cell takes what comes. -/
structure Dev.TakesGrant (d : Dev) (b : Nat) : Prop where
  live : d.scrLive b = true
  hold : (d.xing b).hold = false
  frozen : (d.xing b).frozen = false

theorem Dev.Passes.takesGrant (h : d.Passes b e) (ht : d.TakesGrant b) : e.TakesGrant b := by
  obtain ⟨hlive, hhold, hfrozen⟩ := ht
  exact ⟨by simp only [Dev.scrLive, h.mode] at hlive ⊢; exact hlive, h.xing ▸ hhold, h.xing ▸ hfrozen⟩

/-- An agent granted a code, and held where that is less than it requests. -/
def Scribe.has (a : Scribe) (code : Nat) : Prop := a.grant.toNat = code ∧ a.held = decide (code < a.request.toNat)

theorem granted_has {a : Scribe} {code : Nat} (h : code < 128) : (a.granted code (decide (code < a.request.toNat))).has code := by
  unfold Scribe.granted
  split
  · next hc => exact ⟨hc.symm, rfl⟩
  · exact ⟨by rw [BitVec.toNat_ofNat, Nat.mod_eq_of_lt h], rfl⟩

/-- The grant of a bent that takes it is the code, which holds the bent where it is less than the request. -/
theorem evaluateBent_has (tier : Nat) {code : Nat} (o : Bool) (hb : b < 128) (hc : code < 128) (ht : d.TakesGrant b) :
    ((d.evaluateBent b tier code o).bent b).scr.has code := by
  obtain ⟨hlive, hhold, hfrozen⟩ := ht
  unfold Dev.evaluateBent
  extract_lets a held short d1 d2
  have h1 : (d1.bent b).scr.has code := by
    unfold d1
    rw [if_pos hlive, Dev.giveGrant, hhold, hfrozen, if_neg (by decide), Dev.bent_onScr, Dev.bent_onScr]
    exact granted_has hc
  split
  · rw [(raise_passes _ _ _ hb).bent]
    exact h1
  · exact h1

theorem capped_lt (a : Scribe) (cap : Option Nat) : a.capped cap < 128 := by
  have hfloor := a.floor.isLt
  have hrequest := a.request.isLt
  cases cap with
  | none => exact hrequest
  | some x => simp only [Scribe.capped]; omega

/-- No grant exceeds what is asked for, but for the floor. -/
theorem capped_le (a : Scribe) (cap : Option Nat) : a.capped cap ≤ max a.floor.toNat a.request.toNat := by
  cases cap with
  | none => exact Nat.le_max_right _ _
  | some x => simp only [Scribe.capped]; omega

/-- In its tier a bent is granted once: its request, under the tier's cap. -/
theorem evaluateTier_has {bs : List Nat} (tier : Nat) (cap : Option Nat) (o : Bool) (hb : b < 128) (hn : bs.Nodup) (hmem : b ∈ bs) (ht : d.TakesGrant b) :
    ((d.evaluateTier bs tier cap o).bent b).scr.has ((d.bent b).scr.capped cap) := by
  obtain ⟨l, r, rfl⟩ := List.append_of_mem hmem
  obtain ⟨-, hr, hdisj⟩ := List.nodup_append.mp hn
  have hl : b ∉ l := fun h => hdisj b h b List.mem_cons_self rfl
  rw [Dev.evaluateTier, List.foldl_append, List.foldl_cons, (foldl_evaluateBent_passes tier _ o hb r (List.nodup_cons.mp hr).1 _).bent]
  exact evaluateBent_has tier o hb (capped_lt _ _) ((foldl_evaluateBent_passes tier _ o hb l hl d).takesGrant ht)

/-- Of an evaluation a bent that takes grants has its request under a cap, which tier 0 has none of. -/
theorem evaluated_has (c1 c2 : Option Nat) (o : Bool) (hb : b < 128) (ht : d.TakesGrant b) :
    ∃ cap, ((d.evaluated c1 c2 o).bent b).scr.has ((d.bent b).scr.capped cap) ∧ (d.tierOf b = 0 → cap = none) := by
  unfold Dev.evaluated
  have hout : d.mode.bentOut.getLsbD b = false := by
    have hlive := ht.live
    simp only [Dev.scrLive, Bool.and_eq_true, Bool.not_eq_true'] at hlive
    exact hlive.2
  have hmem : ∀ {k}, d.tierOf b = k → b ∈ d.tierBents k := fun h => mem_tierBents.mpr ⟨⟨hb, hout⟩, h⟩
  have hskip : ∀ {k} (x : Dev) (cap : Option Nat), d.tierOf b ≠ k → x.Passes b (x.evaluateTier (d.tierBents k) k cap o) :=
    fun x cap h => evaluateTier_passes _ cap o hb (fun hm => h (mem_tierBents.mp hm).2)
  have hgrant : ∀ {k} {x : Dev} (cap : Option Nat), d.tierOf b = k → d.Passes b x →
      ((x.evaluateTier (d.tierBents k) k cap o).bent b).scr.has ((d.bent b).scr.capped cap) := by
    intro k x cap h hx
    have hhas := evaluateTier_has k cap o hb (tierBents_nodup k) (hmem h) (hx.takesGrant ht)
    rwa [hx.bent] at hhas
  obtain h | h | h := tierOf_cases d b
  · refine ⟨none, ?_, fun _ => rfl⟩
    rw [(hskip _ c2 (by omega)).bent, (hskip _ c1 (by omega)).bent]
    exact hgrant none h (.refl d b)
  · refine ⟨c1, ?_, by omega⟩
    rw [(hskip _ c2 (by omega)).bent]
    exact hgrant c1 h (hskip d none (by omega))
  · exact ⟨c2, hgrant c2 h ((hskip d none (by omega)).trans (hskip _ c1 (by omega))), by omega⟩

end Sys2Proof.Machine
end

section
/-! PROOFS. The statement on the timing events and the measurements of a bent's agent. -/
namespace Sys2Proof.Proofs
open Sys2Proof.Machine

variable {s : State} {b : BentId}

/-- DEADLINE_MISS of an iteration past its deadline that no RETI has left open (R169, R170). -/
theorem deadlineMiss_counted {slot : SlotId} {entry : BitVec 2} (hb : s.dev.bentStill b.toNat = false)
    (hm : s.dev.isMiss b.toNat ((s.dev.bent b.toNat).scr.entry slot.toNat entry.toNat) = true)
    (ho : ((s.dev.bent b.toNat).scr.entry slot.toNat entry.toNat).opened = none) :
    let a := (s.dev.bent b.toNat).scr
    let e := a.entry slot.toNat entry.toNat
    ∃ t, exec (.deadlineMiss b slot entry) s = .next t ∧ t.mem = s.mem ∧ t.pending = s.pending ∧ t.dev.cores = s.dev.cores
      ∧ (t.dev.bent b.toNat).scr.entry slot.toNat entry.toNat = { e with miss := satInc e.miss, missed := true }
      ∧ t.dev.raising (128 + b.toNat) b.toNat ∧ (e.safety = true → t.dev.raising 752 b.toNat)
      ∧ (t.dev.bent b.toNat).scr.request.toNat
        = if s.dev.scrLive b.toNat = true then a.asked (a.presentCode + 10) else a.request.toNat := by
  intro a e
  have hnoted := missNoted_steered (d := s.dev) (b := b.toNat) slot.toNat entry.toNat
  have hraised : (s.dev.missNoted b.toNat slot.toNat entry.toNat).raising (128 + b.toNat) b.toNat := raise_raising _ _ _ _
  have hfast := fastRaise_steered (d := s.dev.missNoted b.toNat slot.toNat entry.toNat) (b := b.toNat) (n := b.toNat) 10
  have hmiss := deadlineMiss_fast hb hm ho
  refine ⟨_, rfl, rfl, rfl, hmiss.cores.trans (hfast.cores.trans hnoted.cores), ?_, hmiss.raising (hfast.raising hraised),
    deadlineMiss_safety hb hm ho, deadlineMiss_request hb hm ho⟩
  change ((s.dev.deadlineMiss b.toNat slot.toNat entry.toNat).bent b.toNat).scr.entry _ _ = _
  rw [hmiss.shown, (hfast.less (fun a => a.entry slot.toNat entry.toNat) (fun _ => rfl)).shown, missNoted_scr, Scribe.entry_onEntry]

/-- NEAR_MISS of a physical slot (R171, R187). -/
theorem nearMiss_counted {p : BitVec 5} (st : Stage) (hb : s.dev.bentStill b.toNat = false) (hp : p.toNat < 17) :
    let a := (s.dev.bent b.toNat).scr
    ∃ t, exec (.nearMiss b p st) s = .next t ∧ t.mem = s.mem ∧ t.pending = s.pending ∧ t.dev.cores = s.dev.cores
      ∧ (t.dev.bent b.toNat).scr.near = satInc a.near ∧ (t.dev.bent b.toNat).scr.late = a.late
      ∧ (s.dev.nearRaises b.toNat →
        (t.dev.bent b.toNat).scr.request.toNat = a.asked (a.presentCode + 1) ∧ (t.dev.bent b.toNat).scr.delay st = a.delay st)
      ∧ (¬ s.dev.nearRaises b.toNat → ((t.dev.bent b.toNat).scr.delay st).toNat = min 15 ((a.delay st).toNat + 1))
      ∧ (¬ s.dev.nearRaises b.toNat → a.delay st = 15#4 → 100 ≤ a.actual.toNat → (t.dev.bent b.toNat).scr.unable = true) := by
  intro a
  have hcounts := nearMiss_counts (d := s.dev) st hp hb
  have hfirings := hcounts.shown
  rw [nearNoted_scr] at hfirings
  exact ⟨_, rfl, rfl, rfl, hcounts.cores, congrArg Prod.fst hfirings, congrArg Prod.snd hfirings, nearMiss_request st hp hb,
    nearMiss_delay st hp hb, nearMiss_unable st hp hb⟩

/-- TIMING_LATE of a physical slot (R172). -/
theorem timingLate_counted {p : BitVec 5} (st : Stage) (hb : s.dev.bentStill b.toNat = false) (hp : p.toNat < 17) :
    let a := (s.dev.bent b.toNat).scr
    ∃ t, exec (.timingLate b p st) s = .next t ∧ t.mem = s.mem ∧ t.pending = s.pending ∧ t.dev.cores = s.dev.cores
      ∧ (t.dev.bent b.toNat).scr.late = satInc a.late ∧ (t.dev.bent b.toNat).scr.near = a.near
      ∧ ((t.dev.bent b.toNat).scr.delay st).toNat = min 15 ((a.delay st).toNat + 2) ∧ t.dev.raising 512 b.toNat := by
  intro a
  have hscr := timingLate_scr (d := s.dev) st hp hb
  have hfirings := (congrArg Scribe.firings hscr).trans (lengthen_firings _ 2 st)
  have hraised := timingLate_eq (d := s.dev) st hp hb
  refine ⟨_, rfl, rfl, rfl, ?_, congrArg Prod.snd hfirings, congrArg Prod.fst hfirings, ?_, ?_⟩
  · exact hraised ▸ raise_cores _ _ _ _
  · change (((s.dev.timingLate b.toNat p.toNat st).bent b.toNat).scr.delay st).toNat = _
    rw [hscr, lengthen_delay]
    cases st <;> rfl
  · exact hraised ▸ raise_raising _ _ _ _

/-- SCRIBE_CONTROL_PERIOD (R163). -/
theorem controlPeriod_measured {act : BitVec 7} (n : BitVec 16) (hb : s.dev.bentStill b.toNat = false) (hact : act.toNat ≤ 100) :
    let a := (s.dev.bent b.toNat).scr
    ∃ t, exec (.scribeControlPeriod b act n) s = .next t ∧ t.mem = s.mem ∧ t.pending = s.pending ∧ t.dev.cores = s.dev.cores
      ∧ (t.dev.bent b.toNat).scr.actual = act ∧ (a.slew = true → (t.dev.bent b.toNat).scr.k = a.k)
      ∧ (a.slew = false → 0 < a.oscAt act.toNat → (t.dev.bent b.toNat).scr.k.toNat = min 0xFFFF (n.toNat * 327680 / a.oscAt act.toNat)) := by
  intro a
  refine ⟨_, rfl, rfl, rfl, ?_, controlPeriod_actual n hact hb, controlPeriod_k_slew n hact hb, controlPeriod_k n hact hb⟩
  exact (controlPeriod_gauged n hact hb).cores.trans ((gauged_steered act n).cores.trans (voltageRead_steered act).cores)

/-- REG_FAULT of a code that strays outside a slew (R186, R438). -/
theorem regFault_unable {code : BitVec 7} (hb : s.dev.bentStill b.toNat = false) (hslew : (s.dev.bent b.toNat).scr.slew = false)
    (hfar : (s.dev.bent b.toNat).scr.grant.toNat + 3 < code.toNat ∨ code.toNat + 3 < (s.dev.bent b.toNat).scr.grant.toNat) :
    ∃ t, exec (.regFault b code) s = .next t ∧ t.mem = s.mem ∧ t.pending = s.pending ∧ t.dev.cores = s.dev.cores
      ∧ (t.dev.bent b.toNat).scr.actual = code ∧ (t.dev.bent b.toNat).scr.unable = true
      ∧ ((s.dev.bent b.toNat).scr.strayed = false → t.dev.raising 514 b.toNat) := by
  have hstrays : (s.dev.bent b.toNat).scr.strays code.toNat = true := by simpa [Scribe.strays] using hfar
  have hrow : exec (.regFault b code) s = s.keep ((s.dev.strayNoted b.toNat code).goUnable b.toNat) := by
    change s.keep (if _ then _ else _) = _
    rw [hslew, hb, hstrays]
    rfl
  have hnoted := strayNoted_steered (d := s.dev) (b := b.toNat) code
  have hunable := goUnable_steered (d := s.dev.strayNoted b.toNat code) (b := b.toNat) (n := b.toNat)
  refine ⟨_, hrow, rfl, rfl, hunable.cores.trans hnoted.cores, ?_, goUnable_unable, fun h => hunable.raising (strayNoted_raising h)⟩
  exact (hunable.less Scribe.actual (fun _ => rfl)).shown.trans (hnoted.shown.trans (by rw [Dev.bent_onScr]))

/-- BUDGET_EVALUATION outside the sleep states (R182, R183). -/
theorem budgetEvaluation_grants (fixed : Nat) (pest : List (BentId × BitVec 16)) (hp : s.dev.pwr.pstate.toNat < 2) :
    ∃ t, exec (.budgetEvaluation fixed pest) s = .next t ∧ t.mem = s.mem ∧ t.pending = s.pending ∧ t.dev.cores = s.dev.cores
      ∧ t.dev.pwr.pest = BitVec.ofNat 32 (fixed + t.dev.estimates)
      ∧ ∀ b, b < 128 →
        let a := (s.dev.bent b).scr
        let a' := (t.dev.bent b).scr
        a'.pest = estimateOf b pest a.pest ∧ a'.request = a.request
          ∧ (s.dev.scrLive b = true → (s.dev.xing b).hold = false → (s.dev.xing b).frozen = false →
            a'.grant.toNat ≤ max a.floor.toNat a.request.toNat ∧ a'.held = decide (a'.grant.toNat < a.request.toNat)
            ∧ (s.dev.tierOf b = 0 → a'.grant = a.request)) := by
  obtain ⟨c1, c2, o, htiers⟩ := budgetEvaluation_tiers fixed pest hp
  obtain ⟨hcores, hmode, hks, hxing, hscr, hsum⟩ := surveyed_finds s.dev fixed pest
  have hrow : exec (.budgetEvaluation fixed pest) s = s.keep (s.dev.budgetEvaluation fixed pest) := rfl
  rw [htiers] at hrow
  generalize s.dev.surveyed fixed pest = d at hcores hmode hks hxing hscr hsum hrow
  have hgrants := fun {b} => evaluated_has (d := d) (b := b) c1 c2 o
  have hsteered : ∀ b, d.Steered b Scribe.demand (d.evaluated c1 c2 o) := fun b => evaluated_steered c1 c2 o
  generalize d.evaluated c1 c2 o = e at hgrants hsteered hrow
  have hpest : ∀ b, (e.bent b).scr.pest = (d.bent b).scr.pest := fun b => congrArg Prod.fst (hsteered b).shown
  have hrequest : ∀ b, (e.bent b).scr.request = (d.bent b).scr.request := fun b => congrArg Prod.snd (hsteered b).shown
  refine ⟨_, hrow, rfl, rfl, (hsteered 0).cores.trans hcores, ?_, fun b hb => ⟨?_, ?_, fun hlive hhold hfrozen => ?_⟩⟩
  · change e.pwr.pest = BitVec.ofNat 32 (fixed + e.estimates)
    rw [(hsteered 0).pwr, hsum, estimates_congr hpest]
  · rw [Dev.bent_seen, hpest, hscr]
  · rw [Dev.bent_seen, hrequest, hscr]
  · have htakes : d.TakesGrant b := ⟨by simpa only [Dev.scrLive, hmode] using hlive, hxing b hb ▸ hhold, hxing b hb ▸ hfrozen⟩
    obtain ⟨cap, ⟨hcode, hheld⟩, hzero⟩ := hgrants hb htakes
    rw [hscr] at hcode
    rw [hrequest, hscr] at hheld
    refine ⟨?_, ?_, fun h => ?_⟩
    · rw [Dev.bent_seen, hcode]
      exact capped_le _ cap
    · rw [Dev.bent_seen, hheld, hcode]
    · have hcap : cap = none := hzero (by rw [← h, Dev.tierOf, Dev.tierOf, Dev.loopsIn, hks]; rfl)
      subst hcap
      exact BitVec.eq_of_toNat_eq hcode

/-- REGULATOR_SLEW_DONE of a bent whose regulator slews (R161). -/
theorem slewDone_arrives (h : (s.dev.bent b.toNat).scr.slew = true) :
    Yields s (.regulatorSlewDone b) (s.dev.onScr b.toNat (fun a => { a with slew := false, actual := a.grant, strayed := false })) := by
  change s.keep (if _ then _ else _) = _
  rw [if_pos h]
  rfl

/-- SENSOR_SAMPLE in P0 with no sleep being negotiated (R165). -/
theorem sensorSample_put {r : List (Bool × BitVec 16)} (hr : r.length = 32) (hp : s.dev.pwr.pstate = 0#3) (hn : s.dev.pwr.nego = none) :
    ∃ t, exec (.sensorSample r) s = .next t ∧ t.mem = s.mem ∧ t.pending = s.pending ∧ t.dev.cores = s.dev.cores
      ∧ t.dev.temps = (List.range 32).zip r := by
  obtain ⟨ps, hput⟩ := putTemps_frame hr s.dev
  have hraises := Dev.raisedOnly.foldl (fun x n => senseSpan_raisedOnly (d := x) s.dev.temps n) (List.range 8) (s.dev.putTemps r)
  generalize he : (List.range 8).foldl (fun x i => x.senseSpan s.dev.temps i) (s.dev.putTemps r) = e at hraises
  obtain ⟨xs, qs, fl, hsense⟩ := hraises
  rw [hput] at hsense
  have hawake : e.wakeBy 7 = e := wakeBy_awake 7 (by rw [hsense]; exact hp) (by rw [hsense]; exact hn)
  have hrow : exec (.sensorSample r) s = s.keep e := by
    change s.keep (if _ then _ else if _ then Dev.wakeBy _ 7 else _) = _
    rw [if_neg (by rw [hp]; decide), he, hawake, ite_self]
  refine ⟨_, hrow, rfl, rfl, ?_, ?_⟩
  · change e.cores = s.dev.cores
    rw [hsense]
  · change e.temps = _
    rw [hsense]

/-- Settles O31: each event notes what it has found in the bent's agent, and what follows it (a request, a raise, the judgement of an unable bent, the
control law) leaves that alone; an evaluation grants each bent once, in its tier. -/
theorem timingEventsAndMeasurements : Obligations.TimingEventsAndMeasurements := by
  unfold Obligations.TimingEventsAndMeasurements
  refine ⟨fun s b hb => ⟨fun slot entry => deadlineMiss_counted hb, fun p st hp => ⟨nearMiss_counted st hb hp, timingLate_counted st hb hp⟩,
    fun act n => controlPeriod_measured n hb, fun code => regFault_unable hb⟩, fun s => budgetEvaluation_grants, fun s b => slewDone_arrives,
    fun s r => sensorSample_put⟩

end Sys2Proof.Proofs
end

section
/-! SUPPORT. The sources of a bent: what their levels, their enables and the comparators 0 to 23 keep while sources pend, are counted by their groups
and complete; the latches that an event, a write or a pulse of the timebase sets. -/
namespace Sys2Proof.Machine

variable {d e : Dev} {u v w : Biu} {b n : Nat}

/-! ### Entries of a bent's interrupt unit -/

@[simp] theorem Biu.source_onSource (u : Biu) (n : Nat) (f : Src → Src) : (u.onSource n f).source n = f (u.source n) := Tab.find_put_self _ _ _ _
theorem Biu.source_setSource_other {m : Nat} (x : Src) (h : m ≠ n) : (u.setSource n x).source m = u.source m := Tab.find_put_other _ _ _ h
@[simp] theorem Biu.alarm_onAlarm (u : Biu) (k : Nat) (f : Alarm → Alarm) : (u.onAlarm k f).alarm k = f (u.alarm k) := Tab.find_put_self _ _ _ _
theorem Biu.alarm_onAlarm_other {k m : Nat} (f : Alarm → Alarm) (h : m ≠ k) : (u.onAlarm k f).alarm m = u.alarm m := Tab.find_put_other _ _ _ h

@[simp] theorem Dev.source_onSource (d : Dev) (b n : Nat) (f : Src → Src) : (d.onSource b n f).source b n = f (d.source b n) := by
  simp [Dev.source, Dev.onSource]

/-- An entry of a table whose entries are changed where a test picks them: changed or not, or none. -/
theorem find_map_if {α : Type} (x : α) (t : Tab α) (p : Nat × α → Bool) (f : α → α) (k : Nat) :
    Tab.find x (t.map (fun e => if p e then (e.1, f e.2) else e)) k = Tab.find x t k
      ∨ Tab.find x (t.map (fun e => if p e then (e.1, f e.2) else e)) k = f (Tab.find x t k) := by
  induction t with
  | nil => exact .inl rfl
  | cons e t ih => cases hp : p e <;> by_cases hk : e.1 = k <;> simp [Tab.find, hp, hk, ih]

/-! ### What the states of sources leave alone -/

/-- From u to v sources changed state and groups their collections: every level and every enable stands, and none of the comparators 0 to 23 was
armed. -/
structure Biu.Stirred (u v : Biu) : Prop where
  level : ∀ n, (v.source n).level = (u.source n).level
  en : ∀ n, (v.source n).en = (u.source n).en
  armed : ∀ k, k < 24 → (u.alarm k).armed = false → (v.alarm k).armed = false

theorem Biu.Stirred.refl (u : Biu) : u.Stirred u := ⟨fun _ => rfl, fun _ => rfl, fun _ _ h => h⟩

theorem Biu.Stirred.trans (h : u.Stirred v) (g : v.Stirred w) : u.Stirred w :=
  ⟨fun n => (g.level n).trans (h.level n), fun n => (g.en n).trans (h.en n), fun k hk ha => g.armed k hk (h.armed k hk ha)⟩

theorem Biu.Stirred.setSource {x : Src} (hl : x.level = (u.source n).level) (he : x.en = (u.source n).en) : u.Stirred (u.setSource n x) := by
  have hother : ∀ m, m ≠ n → (u.setSource n x).source m = u.source m := fun m h => Biu.source_setSource_other x h
  have hself : (u.setSource n x).source n = x := Tab.find_put_self _ _ _ _
  refine ⟨fun m => ?_, fun m => ?_, fun _ _ h => h⟩
  · obtain rfl | h := Decidable.em (m = n)
    · rw [hself, hl]
    · rw [hother m h]
  · obtain rfl | h := Decidable.em (m = n)
    · rw [hself, he]
    · rw [hother m h]

theorem Biu.Stirred.onAlarm {k : Nat} {f : Alarm → Alarm} (h : k < 24 → (f (u.alarm k)).armed = false) : u.Stirred (u.onAlarm k f) := by
  refine ⟨fun _ => rfl, fun _ => rfl, fun m hm ha => ?_⟩
  obtain rfl | hk := Decidable.em (m = k)
  · rw [Biu.alarm_onAlarm]
    exact h hm
  · rw [Biu.alarm_onAlarm_other f hk]
    exact ha

theorem Biu.Stirred.disarmWatch (u : Biu) (n : Nat) : u.Stirred (u.onWatch n (fun a => { a with armed := false })) := by
  refine ⟨fun _ => rfl, fun _ => rfl, fun k _ ha => ?_⟩
  obtain h | h := find_map_if {} u.alarms (fun e => e.2.mode == 3#2 && e.2.wsrc.toNat == n) (fun a => { a with armed := false }) k
  · exact (congrArg Alarm.armed h).trans ha
  · exact congrArg Alarm.armed h

/-- From d to e bent b's interrupt unit and its slack meters moved, and nothing outside the bents. -/
structure Dev.Stirred (d : Dev) (b : Nat) (e : Dev) : Prop where
  frame : ∃ bs, e = { d with bents := bs }
  others : ∀ m, m ≠ b → e.bent m = d.bent m
  biu : (d.bent b).biu.Stirred (e.bent b).biu

theorem Dev.Stirred.refl (d : Dev) (b : Nat) : d.Stirred b d := ⟨⟨_, rfl⟩, fun _ _ => rfl, .refl _⟩

theorem Dev.Stirred.trans {f : Dev} (h : d.Stirred b e) (g : e.Stirred b f) : d.Stirred b f := by
  obtain ⟨bs, he⟩ := h.frame
  obtain ⟨cs, hf⟩ := g.frame
  exact ⟨⟨cs, by rw [hf, he]⟩, fun m hm => (g.others m hm).trans (h.others m hm), h.biu.trans g.biu⟩

theorem Dev.Stirred.foldl {α : Type} {f : Dev → α → Dev} (h : ∀ (x : Dev) a, x.Stirred b (f x a)) (l : List α) (d : Dev) : d.Stirred b (l.foldl f d) := by
  induction l generalizing d with
  | nil => exact .refl d b
  | cons a l ih => exact (h d a).trans (ih _)

theorem Dev.Stirred.cores (h : d.Stirred b e) : e.cores = d.cores := by
  obtain ⟨bs, rfl⟩ := h.frame
  rfl

theorem Dev.Stirred.ks (h : d.Stirred b e) : e.ks = d.ks := by
  obtain ⟨bs, rfl⟩ := h.frame
  rfl

theorem Dev.Stirred.level (h : d.Stirred b e) (m : Nat) : (e.source b m).level = (d.source b m).level := h.biu.level m

theorem Dev.Stirred.en (h : d.Stirred b e) (a m : Nat) : (e.source a m).en = (d.source a m).en := by
  obtain rfl | ha := Decidable.em (a = b)
  · exact h.biu.en m
  · rw [Dev.source, h.others a ha, Dev.source]

theorem onBent_stirred {f : Bent → Bent} (h : (d.bent b).biu.Stirred (f (d.bent b)).biu) : d.Stirred b (d.onBent b f) :=
  ⟨⟨_, rfl⟩, fun _ hm => Dev.bent_onBent_other d f hm, by rwa [Dev.bent_onBent]⟩

theorem onBiu_stirred {f : Biu → Biu} (h : (d.bent b).biu.Stirred (f (d.bent b).biu)) : d.Stirred b (d.onBiu b f) := onBent_stirred h

theorem onSource_stirred {f : Src → Src} (hl : ∀ x, (f x).level = x.level) (he : ∀ x, (f x).en = x.en) : d.Stirred b (d.onSource b n f) :=
  onBiu_stirred (.setSource (hl _) (he _))

theorem onScr_stirred (f : Scribe → Scribe) : d.Stirred b (d.onScr b f) := onBent_stirred (.refl _)

/-! ### Sources that pend, are counted and complete (R198, R200, R209) -/

theorem pendSrc_stirred (stamp : BitVec 64) : d.Stirred b (d.pendSrc b n stamp) := by
  unfold Dev.pendSrc
  refine .trans ?_ (onScr_stirred _)
  exact onSource_stirred (fun _ => rfl) (fun _ => rfl)

theorem releaseMember_stirred : d.Stirred b (d.releaseMember b n) := by
  unfold Dev.releaseMember
  split
  · exact pendSrc_stirred _
  · exact onSource_stirred (fun _ => rfl) (fun _ => rfl)

/-- The comparator of a group's time limit is none of 0 to 23 (R209). -/
theorem groupAlarm_stirred (u : Biu) (g : Nat) (f : Alarm → Alarm) : u.Stirred (u.onAlarm (24 + g / 2) f) := .onAlarm (fun h => by omega)

theorem onGroup_stirred (u : Biu) (g : Nat) (f : Group → Group) : u.Stirred (u.onGroup g f) := ⟨fun _ => rfl, fun _ => rfl, fun _ _ h => h⟩

theorem releaseGroup_stirred (g : Nat) (byTime : Bool) : d.Stirred b (d.releaseGroup b g byTime) := by
  unfold Dev.releaseGroup
  extract_lets members d1
  have hclosed : d.Stirred b d1 := by
    refine onBiu_stirred ?_
    dsimp only
    split
    · exact (onGroup_stirred _ g _).trans (groupAlarm_stirred _ g _)
    · exact onGroup_stirred _ g _
  exact hclosed.trans (.foldl (fun _ _ => releaseMember_stirred) _ _)

theorem groupEvent_stirred (g : Nat) : d.Stirred b (d.groupEvent b g) := by
  unfold Dev.groupEvent
  extract_lets x d1 y
  have hcounted : d.Stirred b d1 := by
    unfold d1
    split
    · exact onBiu_stirred (onGroup_stirred _ g _)
    · refine onBiu_stirred ?_
      dsimp only
      split
      · exact (onGroup_stirred _ g _).trans (groupAlarm_stirred _ g _)
      · exact onGroup_stirred _ g _
  split
  · exact hcounted.trans (releaseGroup_stirred g false)
  · exact hcounted

theorem noteOverrun_stirred : d.Stirred b (d.noteOverrun b n) := by
  unfold Dev.noteOverrun
  split
  · refine .trans ?_ (onScr_stirred _)
    exact onSource_stirred (fun _ => rfl) (fun _ => rfl)
  · exact .refl d b

theorem eventAfterClaim_stirred : d.Stirred b (d.eventAfterClaim b n) := by
  refine .trans ?_ noteOverrun_stirred
  exact onSource_stirred (fun _ => rfl) (fun _ => rfl)

theorem holdSrc_stirred : d.Stirred b (d.holdSrc b n) := onSource_stirred (fun _ => rfl) (fun _ => rfl)

theorem countEvent_stirred : d.Stirred b (d.countEvent b n) := by
  unfold Dev.countEvent
  dsimp only
  split
  · exact groupEvent_stirred _
  · split
    · exact groupEvent_stirred _
    · exact .refl d b

theorem assertSrc_stirred (counted : Bool) : d.Stirred b (d.assertSrc b n counted) := by
  unfold Dev.assertSrc
  extract_lets s d1
  have hstate : d.Stirred b d1 := by
    unfold d1
    cases s.st with
    | idle =>
      dsimp only
      split
      · exact .refl d b
      · split
        · exact holdSrc_stirred
        · exact pendSrc_stirred _
    | claimed i => exact eventAfterClaim_stirred
    | held | pending | offered i | entering i => exact .refl d b
  split
  · exact hstate.trans countEvent_stirred
  · exact hstate

theorem complete_stirred : d.Stirred b (d.complete b n) := by
  unfold Dev.complete
  extract_lets s d1 d2
  have hidle : d.Stirred b d1 := onBiu_stirred ((Biu.Stirred.disarmWatch _ n).trans (.setSource (x := { s with st := .idle, after := none }) rfl rfl))
  refine .trans ?_ (onSource_stirred (fun _ => rfl) (fun _ => rfl))
  have hheld : d.Stirred b d2 := hidle.trans holdSrc_stirred
  split
  · split
    · split
      · exact hheld
      · exact hheld.trans (groupEvent_stirred _)
    · exact hidle.trans (pendSrc_stirred _)
  · exact hidle

theorem clearStack_stirred (i : Nat) : d.Stirred b (d.clearStack b i) :=
  .trans (onBiu_stirred ⟨fun _ => rfl, fun _ => rfl, fun _ _ h => h⟩) (.foldl (fun _ _ => complete_stirred) _ _)

/-! ### Latches (R192) -/

/-- After a latch is set its source is asserted. -/
theorem setLatch_stirred (d : Dev) (b n : Nat) : (d.onSource b n (fun x => { x with level := true })).Stirred b (d.setLatch b n) :=
  assertSrc_stirred true

theorem setLatch_cores : (d.setLatch b n).cores = d.cores := (setLatch_stirred d b n).cores

theorem setLatch_level : ((d.setLatch b n).source b n).level = true := by rw [(setLatch_stirred d b n).level, Dev.source_onSource]

/-- A latch that is set stays so when another is. -/
theorem setLatch_keepsLevel {m : Nat} (h : (d.source b m).level = true) : ((d.setLatch b n).source b m).level = true := by
  obtain rfl | hm := Decidable.em (m = n)
  · exact setLatch_level
  · rw [(setLatch_stirred d b n).level, Dev.source, Dev.onSource, Dev.bent_onBiu]
    exact (congrArg Src.level (Biu.source_setSource_other _ hm)).trans h

theorem setLatch_armed {k : Nat} (hk : k < 24) (h : ((d.bent b).biu.alarm k).armed = false) :
    (((d.setLatch b n).bent b).biu.alarm k).armed = false := by
  refine (setLatch_stirred d b n).biu.armed k hk ?_
  rw [Dev.onSource, Dev.bent_onBiu]
  exact h

theorem setLatch_passes {m : Nat} (h : m ≠ b) : d.Passes m (d.setLatch b n) := by
  have hstirred := setLatch_stirred d b n
  have hbent : (d.setLatch b n).bent m = d.bent m := (hstirred.others m h).trans (Dev.bent_onBent_other d _ h)
  obtain ⟨bs, he⟩ := hstirred.frame
  rw [he] at hbent ⊢
  exact ⟨rfl, hbent, rfl⟩

/-- A comparator below 24 in ONCE whose CMP lies at or before TIME is disarmed and sets the latch of its source (R208). -/
theorem alarmMatch_eq {k : Nat} (hk : k < 24) (hmode : ((d.bent b).biu.alarm k).mode = 1#2) (harmed : ((d.bent b).biu.alarm k).armed = true)
    (hdue : before (d.timeAt b) ((d.bent b).biu.alarm k).cmp = false) :
    d.alarmMatch b k = (d.onBiu b (fun u => u.onAlarm k (fun x => { x with armed := false }))).setLatch b (64 + k) := by
  have hmatch : d.alarmMatches b k = true := by simp [Dev.alarmMatches, hmode, harmed, hdue]
  have honce : ((d.bent b).biu.alarm k).mode ≠ 2#2 := by rw [hmode]; decide
  unfold Dev.alarmMatch
  rw [hmatch, if_neg (by decide)]
  dsimp only
  rw [if_neg honce, if_pos hk]

/-! ### Software events (R192, R213) -/

/-- The latches of the software event sources js that the ones of a word name, set one after another; swSet takes all eight. -/
def Dev.swLatch (d : Dev) (b : Nat) (val : W32) (js : List Nat) : Dev :=
  js.foldl (fun x j => if bitOf val j then x.setLatch b (184 + j) else x) d

theorem swSet_eq (val : W32) : d.swSet b val = d.swLatch b val (List.range 8) := rfl

theorem swLatch_cores (val : W32) (js : List Nat) (d : Dev) : (d.swLatch b val js).cores = d.cores := by
  induction js generalizing d with
  | nil => rfl
  | cons j js ih =>
    refine (ih _).trans ?_
    dsimp only
    split
    · exact setLatch_cores
    · rfl

theorem swLatch_keepsLevel (val : W32) {m : Nat} (js : List Nat) (d : Dev) (h : (d.source b m).level = true) :
    ((d.swLatch b val js).source b m).level = true := by
  induction js generalizing d with
  | nil => exact h
  | cons j js ih =>
    refine ih _ ?_
    dsimp only
    split
    · exact setLatch_keepsLevel h
    · exact h

theorem swLatch_level {val : W32} {j : Nat} (hv : val.getLsbD j = true) (js : List Nat) (d : Dev) (hj : j ∈ js) :
    ((d.swLatch b val js).source b (184 + j)).level = true := by
  induction js generalizing d with
  | nil => cases hj
  | cons i js ih =>
    obtain rfl | hj := List.mem_cons.mp hj
    · refine swLatch_keepsLevel val js _ ?_
      dsimp only
      rw [if_pos (show bitOf val j = true from hv)]
      exact setLatch_level
    · exact ih _ hj

/-! ### Events from another domain (R299, R301, R305) -/

theorem leaveP1_passes (h : b < 128) : d.Passes b d.leaveP1 := by
  unfold Dev.leaveP1
  split
  · exact .trans (e := (d.onPwr _).onKs _) ⟨rfl, rfl, rfl⟩ (onXing_passes _ (by rw [domKeystone]; omega))
  · exact ⟨rfl, rfl, rfl⟩

theorem takeEvent_latched (hn : 64 ≤ n) : d.takeEvent b n = d.setLatch b n := by
  have hq : isQueueSrc n = false := decide_eq_false (by omega)
  simp [Dev.takeEvent, hq]

/-- What an event for a latched source of bent b leads to: it is merged and raised, kept by the cell while the bent's clock is stopped, or taken. -/
theorem biuEvent_cases (d : Dev) (b : Nat) (hn : 64 ≤ n) :
    ∃ e, e.cores = d.cores ∧ (∀ m, m ≠ b → d.Passes m e)
      ∧ (d.biuEvent b n = e.raise 641 b 0#16 ∨ d.biuEvent b n = e.leaveP1 ∨ d.biuEvent b n = e.setLatch b n) := by
  have hpass : ∀ m, m ≠ b → d.Passes m (d.eventInto b n (Tab.find 0 (d.xing b).lines n)).2 := fun m hm => eventInto_passes _ _ hm
  have hcores : (d.eventInto b n (Tab.find 0 (d.xing b).lines n)).2.cores = d.cores := by
    obtain ⟨xs, ps, h⟩ := eventInto_frame d b n (Tab.find 0 (d.xing b).lines n)
    rw [h]
  unfold Dev.biuEvent
  dsimp only
  generalize d.eventInto b n (Tab.find 0 (d.xing b).lines n) = r at hpass hcores ⊢
  obtain ⟨_ | _, e⟩ := r
  · exact ⟨e, hcores, hpass, .inl rfl⟩
  · dsimp only
    generalize hkept : (if (d.xing b).pulse || (d.xing b).hold
      then e.onXing b (fun x => { x with lines := Tab.put x.lines n (Tab.find 0 (d.xing b).lines n + 1) }) else e) = e'
    refine ⟨e', ?_, fun m hm => ?_, .inr ?_⟩
    · rw [← hkept]
      split <;> exact hcores
    · rw [← hkept]
      split
      · exact (hpass m hm).trans (onXing_passes _ hm)
      · exact hpass m hm
    · split
      · exact .inl rfl
      · exact .inr (takeEvent_latched hn)

theorem biuEvent_cores (hn : 64 ≤ n) : (d.biuEvent b n).cores = d.cores := by
  obtain ⟨e, hcores, -, h | h | h⟩ := biuEvent_cases d b hn
  · rw [h, raise_cores, hcores]
  · rw [h, leaveP1_cores, hcores]
  · rw [h, setLatch_cores, hcores]

theorem biuEvent_passes {m : Nat} (hn : 64 ≤ n) (hm : m < 128) (h : m ≠ b) : d.Passes m (d.biuEvent b n) := by
  obtain ⟨e, -, hpass, he | he | he⟩ := biuEvent_cases d b hn
  · exact he ▸ (hpass m h).trans (raise_passes _ _ _ hm)
  · exact he ▸ (hpass m h).trans (leaveP1_passes hm)
  · exact he ▸ (hpass m h).trans (setLatch_passes h)

/-- An event finds its line free and the bent's clock running: the latch is set. -/
theorem biuEvent_level (hn : 64 ≤ n) (hfree : Tab.find 0 (d.xing b).lines n = 0) (hhold : (d.xing b).hold = false) :
    ((d.biuEvent b n).source b n).level = true := by
  unfold Dev.biuEvent Dev.eventInto
  dsimp only
  rw [hfree, hhold, if_neg (by simp)]
  dsimp only
  rw [if_neg Bool.false_ne_true, takeEvent_latched hn]
  exact setLatch_level

/-! ### Pulses of the timebase (R192) -/

/-- The event for source n in each of the bents bs; a pulse of the timebase is one in every bent. -/
def Dev.eventInAll (d : Dev) (bs : List Nat) (n : Nat) : Dev := bs.foldl (fun x b => x.biuEvent b n) d

theorem eventInAll_cores (hn : 64 ≤ n) (bs : List Nat) (d : Dev) : (d.eventInAll bs n).cores = d.cores := by
  induction bs generalizing d with
  | nil => rfl
  | cons b bs ih => exact (ih _).trans (biuEvent_cores hn)

theorem eventInAll_passes (hn : 64 ≤ n) (hb : b < 128) (bs : List Nat) (h : b ∉ bs) (d : Dev) : d.Passes b (d.eventInAll bs n) := by
  induction bs generalizing d with
  | nil => exact .refl d b
  | cons m bs ih => exact (biuEvent_passes hn hb (List.ne_of_not_mem_cons h)).trans (ih (List.not_mem_of_not_mem_cons h) _)

/-- Of the events one is for the bent; those before it and after it pass the bent by. -/
theorem eventInAll_level {bs : List Nat} (hn : 64 ≤ n) (hb : b < 128) (hnodup : bs.Nodup) (hmem : b ∈ bs)
    (hfree : Tab.find 0 (d.xing b).lines n = 0) (hhold : (d.xing b).hold = false) : ((d.eventInAll bs n).source b n).level = true := by
  obtain ⟨l, r, rfl⟩ := List.append_of_mem hmem
  obtain ⟨-, hr, hdisj⟩ := List.nodup_append.mp hnodup
  have hl : b ∉ l := fun h => hdisj b h b List.mem_cons_self rfl
  have hbefore := eventInAll_passes hn hb l hl d
  have hafter := fun x : Dev => eventInAll_passes hn hb r (List.nodup_cons.mp hr).1 x
  rw [← hbefore.xing] at hfree hhold
  unfold Dev.eventInAll at hbefore hafter hfree hhold ⊢
  rw [List.foldl_append, List.foldl_cons, Dev.source, (hafter _).bent]
  exact biuEvent_level hn hfree hhold

end Sys2Proof.Machine
end

section
/-! PROOFS. The statement on alarm matches, pulses of the timebase, software events, comparators and the end of un-gating. -/
namespace Sys2Proof.Proofs
open Sys2Proof.Machine

variable {s : State} {b : BentId}

/-- ALARM_MATCH of a comparator in ONCE (R208): it is disarmed, and nothing that the latch leads to arms it again. -/
theorem alarmMatch_once {k : BitVec 5} (hk : k.toNat < 24) (hmode : ((s.dev.bent b.toNat).biu.alarm k.toNat).mode = 1#2)
    (harmed : ((s.dev.bent b.toNat).biu.alarm k.toNat).armed = true)
    (hdue : before (s.dev.timeAt b.toNat) ((s.dev.bent b.toNat).biu.alarm k.toNat).cmp = false) :
    ∃ t, exec (.alarmMatch b k) s = .next t ∧ t.mem = s.mem ∧ t.pending = s.pending ∧ t.dev.cores = s.dev.cores
      ∧ (t.dev.source b.toNat (64 + k.toNat)).level = true ∧ ((t.dev.bent b.toNat).biu.alarm k.toNat).armed = false := by
  have hmatch := alarmMatch_eq hk hmode harmed hdue
  have hcores : (s.dev.alarmMatch b.toNat k.toNat).cores = s.dev.cores := by rw [hmatch, setLatch_cores, Dev.onBiu_cores]
  have hlevel : ((s.dev.alarmMatch b.toNat k.toNat).source b.toNat (64 + k.toNat)).level = true := by rw [hmatch, setLatch_level]
  have hdisarmed : (((s.dev.alarmMatch b.toNat k.toNat).bent b.toNat).biu.alarm k.toNat).armed = false := by
    rw [hmatch, setLatch_armed hk (by rw [Dev.bent_onBiu, Biu.alarm_onAlarm])]
  exact ⟨_, rfl, rfl, rfl, hcores, hlevel, hdisarmed⟩

/-- TIMEBASE_PULSE at a multiple of its period (R192). -/
theorem timebasePulse_sets {k : BitVec 2} (hcounts : s.dev.tbCounts = true) (hdue : s.dev.tb.toNat % pulseTicks k = 0) :
    ∃ t, exec (.timebasePulse k) s = .next t ∧ t.mem = s.mem ∧ t.pending = s.pending ∧ t.dev.cores = s.dev.cores
      ∧ ∀ b, b < 128 → Tab.find 0 (s.dev.xing b).lines (176 + k.toNat) = 0 → (s.dev.xing b).hold = false → (t.dev.source b (176 + k.toNat)).level = true := by
  have hrow : exec (.timebasePulse k) s = s.keep (s.dev.eventInAll (List.range 128) (176 + k.toNat)) := by
    change s.keep (if _ then _ else _) = _
    rw [if_pos (by simp [hcounts, hdue])]
    rfl
  have hn : 64 ≤ 176 + k.toNat := by omega
  have hcores := eventInAll_cores hn (List.range 128) s.dev
  have hlevel := fun b (hb : b < 128) => eventInAll_level (d := s.dev) hn hb List.nodup_range (List.mem_range.mpr hb)
  generalize s.dev.eventInAll (List.range 128) (176 + k.toNat) = e at hrow hcores hlevel
  exact ⟨_, hrow, rfl, rfl, hcores, hlevel⟩

/-- BIU_SWSET (R213). -/
theorem biuSwset_sets (req : ReqId) (b : BentId) (v : W32) :
    ∃ t, exec (.biuSwset req b v) s = .next t ∧ t.mem = s.mem ∧ t.pending = s.pending ∧ t.dev.cores = s.dev.cores
      ∧ ∀ j, j < 8 → v.getLsbD j = true → (t.dev.source b.toNat (184 + j)).level = true := by
  have hrow : exec (.biuSwset req b v) s = s.keep (s.dev.swLatch b.toNat v (List.range 8)) := by
    change s.keep (s.dev.swSet b.toNat v) = _
    rw [swSet_eq]
  exact ⟨_, hrow, rfl, rfl, swLatch_cores v _ _, fun _ hj hv => swLatch_level hv _ _ (List.mem_range.mpr hj)⟩

/-- BIU_ALMCMP of a comparator below 24 (R208, R213). -/
theorem biuAlmcmpWrite_rearms (req : ReqId) (b : BentId) {k : BitVec 5} (v : W32) (hk : k.toNat < 24) :
    Yields s (.biuAlmcmpWrite req b k v) (s.dev.onBiu b.toNat (fun u => u.onAlarm k.toNat (fun a =>
      { a with cmp := v, armed := decide (a.mode = 1#2 ∨ a.mode = 2#2) }))) := by
  have harmed : ∀ a : Alarm, (a.mode == 1#2 || a.mode == 2#2) = decide (a.mode = 1#2 ∨ a.mode = 2#2) := fun a => by
    rw [Bool.decide_or]
    rfl
  change s.keep (s.dev.almCmp b.toNat k.toNat v) = _
  simp only [Dev.almCmp, hk, if_true, harmed]
  rfl

/-- The slot that a source has un-gated is GATED (R206). -/
theorem wantsSlot_gated {d : Dev} {b i n : Nat} (h : d.wantsSlot b i n = true) : (d.core (coreOf b i)).status = .gated := by
  simp only [Dev.wantsSlot, Bool.and_eq_true, beq_iff_eq] at h
  obtain ⟨-, hslot⟩ := h
  have hpicked := List.find?_some hslot
  simp only [Bool.and_eq_true, beq_iff_eq] at hpicked
  exact hpicked.1.2

theorem ungate_waiting {k : Core} (h : k.status = .gated) : k.ungate.status = .waiting := by simp [Core.ungate, h]

/-- CORE_UNGATE_DONE of a slot that a source wants (R206). -/
theorem coreUngateDone_waits {slot : SlotId} {n : Nat} (hn : n ∈ (s.dev.bent b.toNat).biu.src.map (·.1))
    (hwants : s.dev.wantsSlot b.toNat slot.toNat n = true) :
    ∃ t, exec (.coreUngateDone b slot) s = .next t ∧ t.mem = s.mem ∧ t.pending = s.pending ∧ t.dev.bents = s.dev.bents
      ∧ (t.dev.core (coreOf b.toNat slot.toNat)).status = .waiting
      ∧ ∀ i, i ≠ coreOf b.toNat slot.toNat → t.dev.core i = s.dev.core i := by
  have hrow : exec (.coreUngateDone b slot) s
      = s.keep (s.dev.onCore (coreOf b.toNat slot.toNat) (fun k => { k.ungate with waitSince := s.dev.clk })) := by
    obtain ⟨e, he, rfl⟩ := List.mem_map.mp hn
    change s.keep (if _ then _ else _) = _
    rw [if_pos (List.any_eq_true.mpr ⟨e, he, hwants⟩)]
  refine ⟨_, hrow, rfl, rfl, rfl, ?_, fun i hi => ?_⟩
  · rw [Dev.core_seen, Dev.core_onCore]
    exact ungate_waiting (wantsSlot_gated hwants)
  · rw [Dev.core_seen, Dev.core_onCore_other _ _ hi]

/-- Settles O30: each event sets its latch, and what the latch leads to in the bent's interrupt unit (a source pends, its group counts) clears no latch
and arms none of the comparators 0 to 23; a pulse reaches each bent once, past the others. -/
theorem latchesAndAlarms : Obligations.LatchesAndAlarms := by
  unfold Obligations.LatchesAndAlarms
  exact ⟨fun s b k => alarmMatch_once, fun s k => timebasePulse_sets, fun s => biuSwset_sets, fun s req b k v => biuAlmcmpWrite_rearms req b v,
    fun s b slot n => coreUngateDone_waits⟩

end Sys2Proof.Proofs
end

section
/-! SUPPORT. How commands that wait in Keystone end: the final result at their port, the LOOP_STOP whose loop is stopped at once, and the switches of
the bents while nothing waits. -/
namespace Sys2Proof.Machine

variable {d e : Dev} {b i n c : Nat} {j : Job} {p : Port}

/-! ### Final results at a port (R346) -/

/-- What a port shows of the final result of an ACCEPTED command. -/
def PortSt.final (t : PortSt) : Bool × Bool × W32 := (t.arun, t.adone, t.ares)

theorem vector_final (t : PortSt) (v : BitVec 11) : (t.vector v).final = t.final := by
  unfold PortSt.vector
  split <;> rfl

/-- From d to e no core, no bent and nothing of Keystone changed, as where a port is told something. -/
structure Dev.Told (d : Dev) (e : Dev) : Prop where
  cores : e.cores = d.cores
  bents : e.bents = d.bents
  ks : e.ks = d.ks

theorem Dev.Told.trans {f : Dev} (h : d.Told e) (g : e.Told f) : d.Told f := ⟨g.cores.trans h.cores, g.bents.trans h.bents, g.ks.trans h.ks⟩

theorem onPort_told (f : PortSt → PortSt) : d.Told (d.onPort p f) := by cases p <;> exact ⟨rfl, rfl, rfl⟩

theorem sendVec_told (v : BitVec 11) : d.Told (d.sendVec p v) := by
  unfold Dev.sendVec
  split
  · exact onPort_told _
  · split
    · exact onPort_told _
    · exact ⟨rfl, rfl, rfl⟩

theorem sendVec_final (v : BitVec 11) : ((d.sendVec p v).port p).final = (d.port p).final := by
  unfold Dev.sendVec
  split
  · rw [Dev.port_onPort, vector_final]
  · split
    · rw [Dev.port_onPort]
      rfl
    · rfl

theorem finalResult_told (hsrc : j.src = .port p) (st det : BitVec 16) : d.Told (d.finalResult j st det) := by
  unfold Dev.finalResult
  rw [hsrc]
  dsimp only
  split
  · exact onPort_told _
  · exact (onPort_told _).trans (sendVec_told _)

/-- A final result other than DONE stands at the port as it is given. -/
theorem finalResult_final (hsrc : j.src = .port p) {st : BitVec 16} (det : BitVec 16) (hst : st ≠ stDone) :
    ((d.finalResult j st det).port p).final = (false, true, st ++ det) := by
  unfold Dev.finalResult
  rw [hsrc, if_neg (fun h => hst h.1), if_neg (fun h => hst h.1)]
  dsimp only
  split
  · rw [Dev.port_onPort]
    rfl
  · rw [sendVec_final, Dev.port_onPort]
    rfl

/-- The device with no command waiting. -/
def Dev.jobless (d : Dev) : Dev := d.onKs (fun k => { k with jobs := [] })

theorem endJob_alone (hjobs : d.ks.jobs = [j]) (st det : BitVec 16) : d.endJob j st det = d.jobless.finalResult j st det := by
  simp [Dev.endJob, Dev.jobless, Dev.onKs, hjobs]

theorem endJobs_alone {pick : Job → Bool} (hjobs : d.ks.jobs = [j]) (hpick : pick j = true) (hundo : j.isUndo = false) (hgone : j.remains = [])
    (st det : BitVec 16) : d.endJobs pick st det = d.jobless.finalResult j st det := by
  simp [Dev.endJobs, Dev.jobless, Dev.onKs, hjobs, hpick, hundo, hgone]

/-- A command that alone waits and ends other than DONE leaves cores and bents as they are. -/
theorem finalResult_alone_ends (s : State) (hsrc : j.src = .port p) {st : BitVec 16} (det : BitVec 16) (hst : st ≠ stDone) (hd : d.cores = s.dev.cores) :
    let t : State := { s with dev := (d.jobless.finalResult j st det).seen s.dev }
    Keeps s t ∧ t.dev.bents = d.bents ∧ t.dev.ks = d.jobless.ks ∧ Ended t p st det := by
  intro t
  obtain ⟨hcores, hbents, hks⟩ := finalResult_told (d := d.jobless) hsrc st det
  have hfinal := finalResult_final (d := d.jobless) hsrc det hst
  simp only [PortSt.final, Prod.mk.injEq] at hfinal
  refine ⟨keeps_of_cores (hcores.trans hd), hbents, hks, congrArg Keystone.jobs hks, ?_⟩
  rw [Dev.port_seen]
  exact hfinal

/-! ### Nothing starts (R204, R359) -/

/-- A core that does not run: STOPPED or GATED. -/
def Core.still (k : Core) : Prop := k.status = .stopped ∨ k.status = .gated

/-- A job that is a LOOP_STOP without UNBIND, of a command that came to a port. -/
def Job.onlyStops (j : Job) : Prop := (∃ p, j.src = .port p) ∧ ∃ n, j.kind = .loopStop n false

/-- Of what waits in Keystone each job is a LOOP_STOP without UNBIND. -/
def Dev.stopsWait (d : Dev) : Prop := ∀ j ∈ d.ks.jobs, j.onlyStops

/-- From d to e nothing starts: a core that does not run does not come to run, no source is enabled, and nothing but LOOP_STOPs comes to wait. -/
structure Dev.Quieter (d e : Dev) : Prop where
  waits : e.stopsWait
  still : ∀ c, (d.core c).still → (e.core c).still
  en : ∀ b n, (d.source b n).en = false → (e.source b n).en = false

theorem Dev.Quieter.refl (h : d.stopsWait) : d.Quieter d := ⟨h, fun _ h => h, fun _ _ h => h⟩

theorem Dev.Quieter.trans {f : Dev} (h : d.Quieter e) (g : e.Quieter f) : d.Quieter f :=
  ⟨g.waits, fun c hc => g.still c (h.still c hc), fun b n hn => g.en b n (h.en b n hn)⟩

theorem Dev.Quieter.foldl {α : Type} {f : Dev → α → Dev} (hf : ∀ (x : Dev) a, x.stopsWait → x.Quieter (f x a)) (l : List α) (h : d.stopsWait) :
    d.Quieter (l.foldl f d) := by
  induction l generalizing d with
  | nil => exact .refl h
  | cons a l ih => exact (hf d a h).trans (ih (hf d a h).waits)

/-- Cores and bents stand, and no job has come. -/
theorem Dev.Quieter.of_eq (hc : e.cores = d.cores) (hb : e.bents = d.bents) (hw : e.stopsWait) : d.Quieter e := by
  refine ⟨hw, fun c => ?_, fun b n => ?_⟩
  · rw [core_congr hc]
    exact id
  · unfold Dev.source Dev.bent
    rw [hb]
    exact id

theorem Dev.Stirred.quieter (h : d.Stirred b e) (hw : d.stopsWait) : d.Quieter e := by
  refine ⟨fun j hj => hw j (h.ks ▸ hj), fun c => ?_, fun a m hm => (h.en a m).trans hm⟩
  rw [core_congr h.cores]
  exact id

theorem onCore_quieter {f : Core → Core} (hw : d.stopsWait) (hf : (d.core c).still → (f (d.core c)).still) : d.Quieter (d.onCore c f) := by
  refine ⟨hw, fun a ha => ?_, fun _ _ h => h⟩
  obtain rfl | hac := Decidable.em (a = c)
  · rw [Dev.core_onCore]
    exact hf ha
  · rw [Dev.core_onCore_other d f hac]
    exact ha

theorem onSource_quieter {f : Src → Src} (hw : d.stopsWait) (hf : ∀ x, x.en = false → (f x).en = false) : d.Quieter (d.onSource b n f) := by
  refine ⟨hw, fun _ h => h, fun a m hm => ?_⟩
  obtain rfl | ha := Decidable.em (a = b)
  · obtain rfl | hmn := Decidable.em (m = n)
    · rw [Dev.source_onSource]
      exact hf _ hm
    · rw [Dev.source, Dev.onSource, Dev.bent_onBiu]
      exact (congrArg Src.en (Biu.source_setSource_other _ hmn)).trans hm
  · rw [Dev.source, Dev.onSource, Dev.onBiu, Dev.bent_onBent_other d _ ha]
    exact hm

theorem raise_quieter (hw : d.stopsWait) (src inst : Nat) (det : BitVec 16) : d.Quieter (d.raise src inst det) := by
  obtain ⟨xs, ps, fl, h⟩ := raise_frame d src inst det
  rw [h]
  exact .of_eq rfl rfl hw

theorem disableSrc_quieter (hw : d.stopsWait) : d.Quieter (d.disableSrc b n) := onSource_quieter hw (fun _ _ => rfl)

theorem disableSrc_en : ((d.disableSrc b n).source b n).en = false := by rw [Dev.disableSrc, Dev.source_onSource]

/-! ### Switches at a stop (R468, R470) -/

theorem loadVector_quieter (hw : d.stopsWait) (line : Nat) : d.Quieter (d.loadVector c line) := by
  have hasked : d.Quieter (d.onCore c (fun x => { x with vecReq := x.vecReq ++ [(line, d.clk)] })) := onCore_quieter hw id
  unfold Dev.loadVector
  dsimp only
  split
  · exact onCore_quieter hw id
  · split
    · exact .refl hw
    · split
      · exact hasked
      · exact hasked.trans ((onBent_stirred (.refl _)).quieter hasked.waits)

theorem switchLine_quieter (hw : d.stopsWait) (old new : W32) (trig : Nat) : d.Quieter (d.switchLine c old new trig) := by
  unfold Dev.switchLine
  extract_lets used d1
  have hfreed : d.Quieter d1 := by
    unfold d1
    split
    · exact .refl hw
    · exact onCore_quieter hw id
  split
  · exact hfreed
  · exact hfreed.trans (loadVector_quieter hfreed.waits _)

/-- A migration's moment is noted in its own job alone. -/
theorem noteGap_quieter (hw : d.stopsWait) : d.Quieter (d.noteGap c n) := by
  unfold Dev.noteGap
  split
  · exact .refl hw
  · refine .of_eq rfl rfl fun j hj => ?_
    obtain ⟨i, hi, rfl⟩ := List.mem_map.mp hj
    obtain ⟨hsrc, m, hkind⟩ := hw i hi
    rw [hkind]
    exact ⟨hsrc, m, hkind⟩

theorem applySwitch_quieter (hw : d.stopsWait) : d.Quieter (d.applySwitch b i) := by
  unfold Dev.applySwitch
  extract_lets w d1 k old
  have hdisarmed : d.Quieter d1 := (onBent_stirred (.refl _)).quieter hw
  split
  · have hoff := hdisarmed.trans (disableSrc_quieter (b := b) (n := k) hdisarmed.waits)
    exact hoff.trans (noteGap_quieter hoff.waits)
  · have hwritten := hdisarmed.trans (onSource_quieter (b := b) (n := k) (f := fun x => { x with vec := w.vec }) hdisarmed.waits (fun _ h => h))
    have hcounted := hwritten.trans ((onBent_stirred (b := b) (f := fun x => { x with updates := satInc x.updates }) (.refl _)).quieter hwritten.waits)
    exact hcounted.trans (switchLine_quieter hcounted.waits _ _ _)

theorem returnPending_quieter (hw : d.stopsWait) : d.Quieter (d.returnPending b n) := by
  have hpending : d.Quieter (d.onSource b n (fun x => { x with st := .pending })) := onSource_quieter hw (fun _ h => h)
  refine hpending.trans (.foldl (fun _ _ hx => ?_) _ hpending.waits)
  dsimp only
  split
  · exact applySwitch_quieter hx
  · exact .refl hx

theorem dropOffers_quieter (hw : d.stopsWait) : d.Quieter (d.dropOffers b i) :=
  Dev.Quieter.foldl (fun _ (s : Nat × Src) hx => returnPending_quieter (n := s.1) hx) _ hw

/-- No LOOP_STOP ends with the disarming of a switch. -/
theorem switchJobOn_stop (h : j.onlyStops) : d.switchJobOn c j = false := by
  obtain ⟨-, n, hkind⟩ := h
  simp [Dev.switchJobOn, hkind]

theorem flatMap_of_singletons {α : Type} {f : α → List α} {l : List α} (h : ∀ a ∈ l, f a = [a]) : l.flatMap f = l := by
  induction l with
  | nil => rfl
  | cons a l ih =>
    have hrest : l.flatMap f = l := ih (fun x hx => h x (List.mem_cons_of_mem a hx))
    rw [List.flatMap_cons, h a List.mem_cons_self, hrest]
    rfl

/-- Where a test picks no job that waits, none ends. -/
theorem endJobs_none {pick : Job → Bool} (h : ∀ j ∈ d.ks.jobs, pick j = false) (st det : BitVec 16) : d.endJobs pick st det = d := by
  have hpicked : d.ks.jobs.filter (fun j => pick j && !j.isUndo) = [] := by
    rw [List.filter_eq_nil_iff]
    intro j hj
    simp [h j hj]
  have hstay : d.ks.jobs.flatMap (fun j => if pick j && !j.isUndo then j.remains else [j]) = d.ks.jobs := by
    have hone : ∀ j ∈ d.ks.jobs, (if pick j && !j.isUndo then j.remains else [j]) = [j] := fun j hj => by simp [h j hj]
    exact flatMap_of_singletons hone
  unfold Dev.endJobs Dev.onKs
  dsimp only
  rw [hpicked, hstay, List.foldl_nil]

theorem disarm_quieter (hw : d.stopsWait) (st det : BitVec 16) : d.Quieter (d.disarm b i st det) := by
  unfold Dev.disarm
  dsimp only
  split
  · rw [endJobs_none (d := d.onBent b _) (fun j hj => switchJobOn_stop (hw j hj))]
    exact (onBent_stirred (.refl _)).quieter hw
  · exact .refl hw

/-! ### LOOP_STOP with NOW (R204, R359) -/

theorem stopCore_stops (hw : d.stopsWait) : d.Quieter (d.stopCore c) ∧ ((d.stopCore c).core c).still := by
  unfold Dev.stopCore
  extract_lets b i d1 d2
  have hdisarmed := disarm_quieter (b := b) (i := i) hw stFaultActive (BitVec.ofNat 16 b)
  have hstopped : d.Quieter d1 := hdisarmed.trans (onCore_quieter hdisarmed.waits (fun _ => .inl rfl))
  have hstill : (d1.core c).still := by
    unfold d1
    rw [Dev.core_onCore]
    exact .inl rfl
  have hdropped : d1.Quieter d2 := dropOffers_quieter hstopped.waits
  split
  · have hraised := hdropped.trans (raise_quieter hdropped.waits 752 b (BitVec.ofNat 16 i))
    exact ⟨hstopped.trans hraised, hraised.still c hstill⟩
  · exact ⟨hstopped.trans hdropped, hdropped.still c hstill⟩

theorem haltCore_stops (hw : d.stopsWait) : d.Quieter (d.haltCore c) ∧ ((d.haltCore c).core c).still := by
  unfold Dev.haltCore
  extract_lets k d1
  split
  · next h =>
    have hcleared := (clearStack_stirred (d := d) (b := bentOf c) (slotOf c)).quieter hw
    exact ⟨hcleared, hcleared.still c (by simpa [Core.still] using h)⟩
  · next h =>
    have habandoned : d.Quieter d1 := onCore_quieter hw (fun hk => absurd hk (by simpa [Core.still] using h))
    obtain ⟨hstopped, hstill⟩ := stopCore_stops (c := c) habandoned.waits
    have hcleared := (clearStack_stirred (d := d1.stopCore c) (b := bentOf c) (slotOf c)).quieter hstopped.waits
    exact ⟨habandoned.trans (hstopped.trans hcleared), hcleared.still c hstill⟩

theorem loopsOff_quieter (hw : d.stopsWait) (ls : List Loop) : d.Quieter (ls.foldl (fun x y => x.loopOff y) d) :=
  .foldl (fun _ _ hx => disableSrc_quieter hx) ls hw

theorem loopsOff_started {l : Loop} {ls : List Loop} (hw : d.stopsWait) (hl : l ∈ ls) : (ls.foldl (fun x y => x.loopOff y) d).started l = false := by
  induction ls generalizing d with
  | nil => cases hl
  | cons y ls ih =>
    have hoff : d.Quieter (d.loopOff y) := disableSrc_quieter hw
    obtain rfl | hl := List.mem_cons.mp hl
    · exact (loopsOff_quieter hoff.waits ls).en _ _ disableSrc_en
    · exact ih hoff.waits hl

/-- A bound loop stopped with NOW: its trigger is disabled and its core does not run. -/
theorem stopNow_stops {l : Loop} (hw : d.stopsWait) (hl : l ∈ d.ks.loops) :
    d.Quieter (d.stopNow l) ∧ (d.stopNow l).started l = false ∧ ((d.stopNow l).core l.core.toNat).still := by
  have hoff := loopsOff_quieter hw (d.loopsOn l.core.toNat)
  have hstarted : ((d.loopsOn l.core.toNat).foldl (fun x y => x.loopOff y) d).started l = false :=
    loopsOff_started hw (List.mem_filter.mpr ⟨hl, by simp⟩)
  obtain ⟨hhalted, hstill⟩ := haltCore_stops (c := l.core.toNat) hoff.waits
  exact ⟨hoff.trans hhalted, hhalted.en _ _ hstarted, hstill⟩

/-! ### The end of LOOP_STOP (R359) -/

theorem endJob_quieter (hw : d.stopsWait) (hj : j.onlyStops) (st det : BitVec 16) : d.Quieter (d.endJob j st det) := by
  obtain ⟨⟨p, hsrc⟩, -⟩ := hj
  obtain ⟨hcores, hbents, hks⟩ := finalResult_told (d := d.onKs (fun k => { k with jobs := k.jobs.filter (fun x => x != j) })) hsrc st det
  refine .of_eq hcores hbents fun x hx => ?_
  rw [Dev.endJob, hks] at hx
  exact hw x (List.mem_filter.mp hx).1

theorem settleJob_quieter (m : List Host.Cell) (hw : d.stopsWait) (hj : j.onlyStops) : ∃ e, d.settleJob m j = (e, []) ∧ d.Quieter e := by
  have ⟨_, n, hkind⟩ := hj
  unfold Dev.settleJob
  rw [hkind]
  dsimp only
  split
  · next l _ =>
    split
    · exact ⟨d, rfl, .refl hw⟩
    · have hoff : d.Quieter (d.loopOff l) := disableSrc_quieter hw
      exact ⟨_, rfl, hoff.trans (endJob_quieter hoff.waits hj _ _)⟩
  · exact ⟨_, rfl, endJob_quieter hw hj _ _⟩

theorem settleAll_quieter (m : List Host.Cell) (js : List Job) (hw : d.stopsWait) (hjs : ∀ j ∈ js, j.onlyStops) :
    ∃ e, d.settleAll m js = (e, []) ∧ d.Quieter e := by
  induction js generalizing d with
  | nil => exact ⟨d, rfl, .refl hw⟩
  | cons j js ih =>
    obtain ⟨x, hx, hquiet⟩ := settleJob_quieter m hw (hjs j List.mem_cons_self)
    obtain ⟨e, he, hrest⟩ := ih hquiet.waits (fun i hi => hjs i (List.mem_cons_of_mem j hi))
    exact ⟨e, by simp [Dev.settleAll, hx, he], hquiet.trans hrest⟩

/-- While only LOOP_STOPs wait, the end of those whose moment has come changes no memory cell and starts nothing. -/
theorem settle_quieter (m : List Host.Cell) (hw : d.stopsWait) : ∃ e, d.settle m = (e, []) ∧ d.Quieter e := by
  unfold Dev.settle
  split
  · exact ⟨d, rfl, .refl hw⟩
  · exact settleAll_quieter m _ hw hw

/-! ### Switches while nothing waits (R468, R470) -/

theorem settle_calm (m : List Host.Cell) (h : d.calm) : d.settle m = (d, []) := by
  unfold Dev.settle
  rw [show d.ks.jobs = [] from h]
  split <;> rfl

/-- With no job waiting, a meaning that ends what waits is one that changes the device alone. -/
theorem commit_settle_calm (s : State) (h : d.calm) : s.commit (d.settle s.mem) = s.keep d := by rw [settle_calm s.mem h]; rfl

/-- While nothing waits, a disarming changes the entry alone, which is disarmed after it. -/
theorem disarm_calm (h : d.calm) (st det : BitVec 16) : (d.disarm b i st det).calm ∧ (d.disarm b i st det).cores = d.cores
    ∧ (Tab.find {} ((d.disarm b i st det).bent b).sw i : Switch).armed = false := by
  unfold Dev.disarm
  dsimp only
  split
  · rw [endJobs_calm (d := d.onBent b _) _ _ _ h]
    refine ⟨h, rfl, ?_⟩
    rw [Dev.bent_onBent, Tab.find_put_self]
  · next hoff => exact ⟨h, rfl, Bool.eq_false_iff.mpr hoff⟩

/-- The entry that an arming writes (R468). -/
def Dev.newSwitch (d : Dev) (b : Nat) (kind : Bool) (src : SrcId) (vec : W32) : Switch :=
  { armed := true, since := d.clk, back := (d.source b src.toNat).st.mayReturn, kind := kind, src := src, vec := vec }

/-- A switch whose source is at no switch point is armed, and waits. -/
theorem armSwitch_waits {src : SrcId} (h : (d.source b src.toNat).st.switchNow = false) (kind : Bool) (vec : W32) :
    d.armSwitch b i kind src vec = d.onBent b (fun x => { x with sw := Tab.put x.sw i (d.newSwitch b kind src vec) }) := by
  simp [Dev.armSwitch, Dev.newSwitch, h]

end Sys2Proof.Machine
end

section
/-! PROOFS. The statement on waits that end without their moment, on LIV_SWCTL and on LIV_LATCH. -/
namespace Sys2Proof.Proofs
open Sys2Proof.Machine

variable {s : State} {p : Port} {j : Job}

/-- LOOP_START_TIMEOUT after 10 ms (R358). -/
theorem loopStartTimeout_ends {n : BitVec 16} {st : W32} (hjobs : s.dev.ks.jobs = [j]) (hsrc : j.src = .port p) (hkind : j.kind = .loopStart n st)
    (hlate : j.start + 8000000 ≤ s.dev.clk) :
    ∃ t, exec (.loopStartTimeout n) s = .next t ∧ Keeps s t ∧ t.dev.bents = s.dev.bents ∧ Ended t p stBusyPort 3#16 := by
  have hrow : exec (.loopStartTimeout n) s = s.keep (s.dev.jobless.finalResult j stBusyPort 3#16) := by
    change s.keep (s.dev.endJobs _ stBusyPort 3#16) = _
    rw [endJobs_alone hjobs (by simp [Job.starts, hkind, hlate]) (by simp [Job.isUndo, hkind]) (by simp [Job.remains, hkind])]
  obtain ⟨hkeeps, hbents, -, hended⟩ := finalResult_alone_ends (d := s.dev) s hsrc 3#16 (show stBusyPort ≠ stDone by decide) rfl
  exact ⟨_, hrow, hkeeps, hbents, hended⟩

/-- LOOP_STOP_TIMEOUT after twice the period (R359). -/
theorem loopStopTimeout_stops {l : Loop} (hjobs : s.dev.ks.jobs = [j]) (hsrc : j.src = .port p) (hkind : j.kind = .loopStop l.num false)
    (hloop : s.dev.loop l.num = some l) (hiter : s.dev.iterating l = true) (hlate : j.start + 64 * l.period.toNat ≤ s.dev.clk) :
    ∃ t, exec (.loopStopTimeout l.num) s = .next t ∧ t.mem = s.mem ∧ t.pending = s.pending ∧ t.dev.started l = false
      ∧ ((t.dev.core l.core.toNat).status = .stopped ∨ (t.dev.core l.core.toNat).status = .gated) := by
  have hwaits : s.dev.stopsWait := fun i hi => by
    rw [hjobs, List.mem_singleton] at hi
    exact hi ▸ ⟨⟨p, hsrc⟩, l.num, hkind⟩
  have hacts : s.dev.stopLate l.num = s.dev.stopNow l := by
    have hdue : s.dev.ks.jobs.any (fun j => s.dev.stopWaits l j && decide (j.start + 64 * l.period.toNat ≤ s.dev.clk)) = true := by
      simp [hjobs, Dev.stopWaits, hkind, hlate]
    simp only [Dev.stopLate, hloop, hiter, hdue, Bool.and_self, if_true]
  obtain ⟨hquiet, hoff, hstill⟩ := stopNow_stops hwaits (List.mem_of_find?_eq_some hloop)
  obtain ⟨e, hsettled, hafter⟩ := settle_quieter s.mem hquiet.waits
  have hrow : exec (.loopStopTimeout l.num) s = s.keep e := by
    change s.commit (settleEff s.mem (s.dev.stopLate l.num, [])) = _
    rw [hacts, settleEff, applyAll, hsettled]
    rfl
  exact ⟨_, hrow, rfl, rfl, hafter.en _ _ hoff, hafter.still _ hstill⟩

/-- SPARE_SWAP_TIMEOUT after 100 ms (R483, R487). -/
theorem spareSwapTimeout_ends {b : BentId} {ps fr : BitVec 5} {ls : SlotId} (hjobs : s.dev.ks.jobs = [j]) (hsrc : j.src = .port p)
    (hkind : j.kind = .spareSwap b ps fr ls) (hlate : j.since + 80000000 ≤ s.dev.clk) :
    ∃ t, exec (.spareSwapTimeout b) s = .next t ∧ Keeps s t ∧ t.dev.bents = s.dev.bents ∧ Ended t p stBusyPort 3#16 ∧ t.dev.ks.swapResult = 2#3 := by
  have hrow : exec (.spareSwapTimeout b) s = s.keep ((s.dev.noteSwap 2#3 b ps ls).jobless.finalResult j stBusyPort 3#16) := by
    have hfound : s.dev.ks.jobs.find? (fun j => j.swapsIn b && decide (j.since + 80000000 ≤ s.dev.clk)) = some j := by
      simp [hjobs, Job.swapsIn, hkind, hlate]
    change execSpareSwapTimeout b s = _
    unfold execSpareSwapTimeout
    dsimp only
    rw [hfound]
    dsimp only
    rw [hkind]
    dsimp only
    rw [endJob_alone (by exact hjobs)]
  obtain ⟨hkeeps, hbents, hks, hended⟩ := finalResult_alone_ends (d := s.dev.noteSwap 2#3 b ps ls) s hsrc 3#16 (show stBusyPort ≠ stDone by decide) rfl
  exact ⟨_, hrow, hkeeps, hbents, hended, congrArg Keystone.swapResult hks⟩

section
variable {b : BentId} {slot : SlotId}

/-- A row that disarms a switch while nothing waits in Keystone. -/
theorem disarms_of_row {i : Instr} {st det : BitVec 16} (hc : s.dev.calm)
    (hrow : exec i s = s.commit ((s.dev.disarm b.toNat slot.toNat st det).settle s.mem)) :
    ∃ t, exec i s = .next t ∧ Keeps s t ∧ (Tab.find {} (t.dev.bent b.toNat).sw slot.toNat : Switch).armed = false := by
  obtain ⟨hcalm, hcores, hdisarmed⟩ := disarm_calm (b := b.toNat) (i := slot.toNat) hc st det
  rw [commit_settle_calm s hcalm] at hrow
  exact ⟨_, hrow, keeps_of_cores hcores, hdisarmed⟩

/-- SWITCH_TIMEOUT (R470). -/
theorem switchTimeout_disarms (hc : s.dev.calm) (hlate : s.dev.switchLate b.toNat slot.toNat = true) :
    ∃ t, exec (.switchTimeout b slot) s = .next t ∧ Keeps s t ∧ (Tab.find {} (t.dev.bent b.toNat).sw slot.toNat : Switch).armed = false := by
  refine disarms_of_row (st := stBusyPort) (det := 3#16) hc ?_
  change s.commit ((if _ then _ else _ : Dev).settle s.mem) = _
  rw [if_pos hlate]

/-- LIV_SWCTL with ARMED 0 by Keystone (R470). -/
theorem livSwctlDisarm_disarms (hc : s.dev.calm) :
    ∃ t, exec (.livSwctlDisarm ksReq b slot) s = .next t ∧ Keeps s t ∧ (Tab.find {} (t.dev.bent b.toNat).sw slot.toNat : Switch).armed = false :=
  disarms_of_row hc rfl

/-- LIV_SWCTL with ARMED 1 by Keystone, at no switch point (R468). -/
theorem livSwctlArm_arms (hc : s.dev.calm) (kind : Bool) {src : SrcId} (vec : W32) (hst : (s.dev.source b.toNat src.toNat).st.switchNow = false) :
    ∃ t, exec (.livSwctlArm ksReq b slot kind src vec) s = .next t ∧ Keeps s t
      ∧ (Tab.find {} (t.dev.bent b.toNat).sw slot.toNat : Switch)
        = { armed := true, since := s.dev.clk, back := (s.dev.source b.toNat src.toNat).st.mayReturn, kind := kind, src := src, vec := vec } := by
  have harmed := armSwitch_waits (i := slot.toNat) hst kind vec
  have hcalm : (s.dev.armSwitch b.toNat slot.toNat kind src vec).calm := by
    rw [harmed]
    exact hc
  have hrow : exec (.livSwctlArm ksReq b slot kind src vec) s = s.keep (s.dev.armSwitch b.toNat slot.toNat kind src vec) := commit_settle_calm s hcalm
  rw [harmed] at hrow
  refine ⟨_, hrow, keeps_of_cores rfl, ?_⟩
  rw [Dev.bent_seen, Dev.bent_onBent, Tab.find_put_self]
  rfl

/-- LIV_LATCH by Keystone of a latched source that may be asserted (R207, R476). -/
theorem livLatch_sets {src : SrcId} (hlatched : isLatchedSrc src.toNat = true) (hout : src.toNat < 88 ∨ 96 ≤ src.toNat) :
    ∃ t, exec (.livLatch ksReq b src) s = .next t ∧ Keeps s t ∧ (t.dev.source b.toNat src.toNat).level = true := by
  have hrow : exec (.livLatch ksReq b src) s = s.keep (s.dev.setLatch b.toNat src.toNat) := by
    have hasserted : (decide (88 ≤ src.toNat) && decide (src.toNat < 96)) = false := by
      rw [← Bool.decide_and]
      exact decide_eq_false (by omega)
    change s.keep (s.dev.livLatch b.toNat src.toNat) = _
    rw [Dev.livLatch, hlatched, hasserted]
    rfl
  have hcores := setLatch_cores (d := s.dev) (b := b.toNat) (n := src.toNat)
  have hlevel := setLatch_level (d := s.dev) (b := b.toNat) (n := src.toNat)
  generalize s.dev.setLatch b.toNat src.toNat = e at hrow hcores hlevel
  exact ⟨_, hrow, keeps_of_cores hcores, hlevel⟩

/-- LIV_LATCH of sources 88 to 95, which are never asserted (R207). -/
theorem livLatch_neverAsserted {src : SrcId} (hlo : 88 ≤ src.toNat) (hhi : src.toNat < 96) : Yields s (.livLatch ksReq b src) s.dev := by
  change s.keep (s.dev.livLatch b.toNat src.toNat) = _
  rw [Dev.livLatch, decide_eq_true hlo, decide_eq_true hhi, Bool.and_self, Bool.not_true, Bool.and_false, if_neg (by decide)]
  rfl

/-- Another requester than Keystone changes no switch and sets no latch there (R486). -/
theorem living_keystoneOnly {req : ReqId} (hc : s.dev.calm) (hreq : req ≠ ksReq) (kind : Bool) (src : SrcId) (vec : W32) :
    Yields s (.livSwctlArm req b slot kind src vec) s.dev ∧ Yields s (.livSwctlDisarm req b slot) s.dev ∧ Yields s (.livLatch req b src) s.dev := by
  refine ⟨?_, ?_, ?_⟩
  · change s.commit ((if _ then _ else _ : Dev).settle s.mem) = _
    rw [if_neg hreq, commit_settle_calm s hc]
    rfl
  · change s.commit ((if _ then _ else _ : Dev).settle s.mem) = _
    rw [if_neg hreq, commit_settle_calm s hc]
    rfl
  · change s.keep (if _ then _ else _) = _
    rw [if_neg hreq]
    rfl

end

/-- Settles O38: a command that alone waits ends with its final result and nothing else; a loop stopped at once has its trigger disabled and its core
not running, and nothing that follows starts them; while nothing waits, a row of a switch changes its entry alone. -/
theorem waitsEnd : Obligations.WaitsEnd := by
  unfold Obligations.WaitsEnd
  exact ⟨fun s p j n st => loopStartTimeout_ends, fun s p j l => loopStopTimeout_stops, fun s p j b ps fr ls => spareSwapTimeout_ends,
    fun s b slot hc => ⟨switchTimeout_disarms hc, livSwctlDisarm_disarms hc, fun kind src vec _ => livSwctlArm_arms hc kind vec,
      fun src hl => ⟨livLatch_sets hl, livLatch_neverAsserted⟩, fun req kind src vec hreq => living_keystoneOnly hc hreq kind src vec⟩⟩

end Sys2Proof.Proofs
end

section
/-! SUPPORT. The byte at any key after a write of some lanes of a word and of its tag. -/
namespace Sys2Proof.Machine

/-- A conditional write is read back at its own key alone. -/
theorem Memory.get_setIf {m : List Host.Cell} (c : Bool) (k : Nat) (v : Byte) (n : Nat) (h : Memory.wf m = true) :
    Memory.get (Memory.setIf m c k v) n = if n = k ∧ c = true then v else Memory.get m n := by
  cases c with
  | false => simp [Memory.setIf]
  | true =>
    by_cases hn : n = k
    · subst hn
      simp [Memory.setIf, Memory.get_set_self m n v h]
    · simp [Memory.setIf, Memory.get_set_other m v h hn, hn]

/-- A write of a word takes the keys of its five bytes one after another. -/
theorem MemOp.get_word {m : List Host.Cell} (w : Nat) (lanes : BitVec 4) (tagWr : Bool) (x : Word) (k : Nat) (h : Memory.wf m = true) :
    Memory.get ((MemOp.word w lanes tagWr x).apply m) k =
      if k = 8 * w + 4 ∧ tagWr = true then x.tag
      else if k = 8 * w + 3 ∧ lanes.getLsbD 3 = true then laneOf x.pay 3
      else if k = 8 * w + 2 ∧ lanes.getLsbD 2 = true then laneOf x.pay 2
      else if k = 8 * w + 1 ∧ lanes.getLsbD 1 = true then laneOf x.pay 1
      else if k = 8 * w ∧ lanes.getLsbD 0 = true then laneOf x.pay 0
      else Memory.get m k := by
  have h0 := Memory.setIf_wf (lanes.getLsbD 0) (8 * w) (laneOf x.pay 0) h
  have h1 := Memory.setIf_wf (lanes.getLsbD 1) (8 * w + 1) (laneOf x.pay 1) h0
  have h2 := Memory.setIf_wf (lanes.getLsbD 2) (8 * w + 2) (laneOf x.pay 2) h1
  have h3 := Memory.setIf_wf (lanes.getLsbD 3) (8 * w + 3) (laneOf x.pay 3) h2
  unfold MemOp.apply
  dsimp only
  rw [Memory.get_setIf _ _ _ _ h3, Memory.get_setIf _ _ _ _ h2, Memory.get_setIf _ _ _ _ h1, Memory.get_setIf _ _ _ _ h0,
    Memory.get_setIf _ _ _ _ h]

end Sys2Proof.Machine
end

section
/-! PROOFS. The statement on the write of a word. -/
namespace Sys2Proof.Proofs
open Sys2Proof.Machine

variable {m : List Host.Cell} (w : Nat) (lanes : BitVec 4) (tagWr : Bool) (x : Word)

/-- A lane of the word written reads as the mask says (R217). -/
theorem wordWrite_lane (h : Memory.wf m = true) {i : Nat} (hi : i < 4) :
    Memory.get ((MemOp.word w lanes tagWr x).apply m) (8 * w + i) = if lanes.getLsbD i then laneOf x.pay i else Memory.get m (8 * w + i) := by
  rw [MemOp.get_word w lanes tagWr x _ h]
  obtain rfl | rfl | rfl | rfl : i = 0 ∨ i = 1 ∨ i = 2 ∨ i = 3 := by omega
  all_goals simp

/-- The tag of the word written is changed where the write says so (R217). -/
theorem wordWrite_tag (h : Memory.wf m = true) :
    Memory.get ((MemOp.word w lanes tagWr x).apply m) (8 * w + 4) = if tagWr then x.tag else Memory.get m (8 * w + 4) := by
  rw [MemOp.get_word w lanes tagWr x _ h]
  simp

/-- A byte outside the word written reads as before (R244). -/
theorem wordWrite_frame (h : Memory.wf m = true) {k : Nat} (hk : k < 8 * w ∨ 8 * w + 5 ≤ k) :
    Memory.get ((MemOp.word w lanes tagWr x).apply m) k = Memory.get m k := by
  rw [MemOp.get_word w lanes tagWr x _ h]
  repeat rw [if_neg (fun hc => by omega)]

/-- Settles O6, by what each of the five bytes of the word and every other byte read after the write. -/
theorem wordWriteFrame : Obligations.WordWriteFrame := by
  unfold Obligations.WordWriteFrame
  exact fun m w lanes tagWr x h => ⟨fun _ => wordWrite_lane w lanes tagWr x h, wordWrite_tag w lanes tagWr x h, fun _ => wordWrite_frame w lanes tagWr x h⟩

end Sys2Proof.Proofs
end

section
/-! SUPPORT. What a target's answer to a transaction leaves behind, for one that is granted (R217, R224) and for one that is turned away (R229); and
what the words of Deck SRAM and the sources of a bent make of it. -/
namespace Sys2Proof.Machine

variable {d e : Dev} {id : Nat} {t : Txn}

/-! ### Transactions answered (R218, R227) -/

/-- From d to e transaction id is answered with r: besides the transactions, only what waits at the bents' banks, the cells, the spans' counts and the
PLUMB pins changed. -/
structure Dev.Answered (d : Dev) (id : Nat) (r : Resp) (e : Dev) : Prop where
  frame : ∃ ts ns cs ss ps, e = { d with txns := ts, near := ns, chans := cs, spans := ss, plb := ps }
  resp : (e.txn id).map (·.st) = some (.answered r)

theorem foldl_chans {α : Type} {f : Dev → α → Dev} (h : ∀ (x : Dev) a, ∃ cs, f x a = { x with chans := cs }) (l : List α) (d : Dev) :
    ∃ cs, l.foldl f d = { d with chans := cs } := by
  induction l generalizing d with
  | nil => exact ⟨_, rfl⟩
  | cons a l ih =>
    obtain ⟨cs, ha⟩ := h d a
    obtain ⟨cs', hl⟩ := ih (f d a)
    exact ⟨cs', by rw [List.foldl_cons, hl, ha]⟩

/-- A response on its way back passes the cells of its path alone. -/
theorem crossBack_frame (t : Txn) : ∃ cs, d.crossBack t = { d with chans := cs } := by
  refine foldl_chans (fun x i => ?_) _ d
  unfold Dev.onChan
  split <;> exact ⟨_, rfl⟩

/-- Where nothing waits on its way, an answer moves no other transaction. -/
theorem answer_still (hs : d.wayStill) (ht : d.txn id = some t) (r : Resp) :
    ∃ cs, d.answer id r = { d.onTxn id (fun u => { u with st := .answered r }) with chans := cs } := by
  obtain ⟨cs, hcs⟩ := crossBack_frame (d := d) t
  have hstill : ({ d.onTxn id (fun u => { u with st := .answered r }) with chans := cs } : Dev).wayStill := by
    intro u hu
    obtain ⟨v, hv, rfl⟩ := List.mem_map.mp hu
    dsimp only
    split
    · exact ⟨rfl, by simp⟩
    · exact hs v hv
  refine ⟨cs, ?_⟩
  unfold Dev.answer
  rw [ht]
  dsimp only
  rw [hcs]
  exact flow_still hstill

theorem answer_answered (hs : d.wayStill) (ht : d.txn id = some t) (r : Resp) : d.Answered id r (d.answer id r) := by
  obtain ⟨cs, h⟩ := answer_still hs ht r
  have hst := txn_onTxn d ht (f := fun u => { u with st := .answered r }) (fun _ => rfl)
  rw [h]
  exact ⟨⟨_, _, _, _, _, rfl⟩, congrArg (Option.map (·.st)) hst⟩

/-- A grant to a transaction leaves it as it is. -/
theorem granted_txn (ht : d.txn id = some t) : (d.granted t).txn id = some t := by
  have hpassed : ∀ (f : Txn → Txn), (∀ u, (f u).id = u.id) → f t = t → (d.txns.map f).find? (fun u => u.id == id) = some t := by
    intro f hf hfix
    have hsame : (fun u : Txn => u.id == id) ∘ f = fun u => u.id == id := funext fun u => by rw [Function.comp, hf]
    rw [List.find?_map, hsame, show d.txns.find? (fun u => u.id == id) = some t from ht, Option.map_some, hfix]
  have htxns : (d.granted t).txns
      = d.txns.map (fun u => if u.buffered && u.sameArb t && u.id != t.id then u.overtaken t u.req t.req else u) := by
    unfold Dev.granted Dev.passRivals
    dsimp only
    split
    · split
      · rw [onTarget_txns]
      · rfl
    · rfl
  unfold Dev.txn
  rw [htxns]
  refine hpassed _ (fun u => ?_) (by simp)
  split
  · exact (congrArg Txn.id (u.overtaken_unpassed t u.req t.req) :)
  · rfl

/-- A granted transaction is answered. -/
theorem granted_answered (hs : d.wayStill) (ht : d.txn id = some t) (r : Resp) : d.Answered id r ((d.granted t).answer id r) := by
  have harb : d.arbitrated (d.granted t) := passRivals_arbitrated d t _
  obtain ⟨⟨ts, ns, cs, ss, ps, he⟩, hresp⟩ := answer_answered (harb.still hs) (granted_txn ht) r
  obtain ⟨_, _, _, hg, -⟩ := harb
  exact ⟨⟨ts, ns, cs, ss, ps, by rw [he, hg]⟩, hresp⟩

/-- What a transaction of a device with other counts is answered, it is answered in the device itself. -/
theorem Dev.Answered.of_counts {r : Resp} {ss : Tab Span} {ps : Tab PlbPin} (h : ({ d with spans := ss, plb := ps } : Dev).Answered id r e) :
    d.Answered id r e := by
  obtain ⟨⟨ts, ns, cs, ss', ps', he⟩, hresp⟩ := h
  exact ⟨⟨ts, ns, cs, ss', ps', he⟩, hresp⟩

theorem Dev.Answered.calm {r : Resp} (h : d.Answered id r e) (hc : d.calm) : e.calm := by
  obtain ⟨_, _, _, _, _, rfl⟩ := h.frame
  exact hc

/-- A transaction turned away for its target's fill is answered RETRY (R229). -/
theorem turnAway_answered (hs : d.wayStill) (ht : d.txn id = some t) : d.Answered id .retry (d.turnAway t) := by
  unfold Dev.turnAway
  rw [txn_id d ht]
  cases t.target with
  | none => exact answer_answered hs ht .retry
  | some g =>
    obtain ⟨ss, h⟩ := onTarget_frame d g (fun x => { x with refs := satInc x.refs })
    dsimp only
    rw [h]
    exact .of_counts (answer_answered (d := ({ d with spans := ss } : Dev).strobe (0xDC3 + 8 * g.1)) hs ht .retry)

/-- The target of a span counts what it turns away (R229, R239). -/
theorem turnAway_refs (hs : d.wayStill) (ht : d.txn id = some t) {g : Nat × Nat} (hg : t.target = some g) (h8 : g.1 ≠ 8) :
    (Tab.find {} ((d.turnAway t).span g.1).targets g.2 : Target).refs = satInc (Tab.find {} (d.span g.1).targets g.2 : Target).refs := by
  have hon : d.onTarget g (fun x => { x with refs := satInc x.refs })
      = d.onSpan g.1 (fun s => { s with targets := Tab.modify {} s.targets g.2 (fun x => { x with refs := satInc x.refs }) }) := if_neg h8
  obtain ⟨cs, ha⟩ := answer_still (d := (d.onTarget g (fun x => { x with refs := satInc x.refs })).strobe (0xDC3 + 8 * g.1)) (id := id) (t := t)
    (by rw [hon]; exact hs) (by rw [hon]; exact ht) .retry
  have hspan : (d.turnAway t).span g.1 = (d.onTarget g (fun x => { x with refs := satInc x.refs })).span g.1 := by
    unfold Dev.turnAway
    rw [hg]
    dsimp only
    rw [txn_id d ht, ha]
    rfl
  rw [hspan, hon, Dev.span_onSpan, Tab.find_modify, if_pos rfl]

/-! ### Grants (R217, R224, R229) -/

/-- The row that serves a transaction answers it where its target grants it and has a response for it. -/
theorem grant_serves {ok : Txn → Bool} {f : Txn → Option (Resp × Eff)} {r : Resp} {x : Eff} (hg : d.grants id t = true) (hok : ok t = true)
    (hf : f t = some (r, x)) : d.grant id ok f = ((x.1.granted t).answer id r, x.2) := by
  simp only [Dev.grants, Bool.and_eq_true, beq_iff_eq, Bool.not_eq_true'] at hg
  obtain ⟨⟨⟨⟨ht, hwaits⟩, hfull⟩, -⟩, hmay⟩ := hg
  simp [Dev.grant, ht, hok, hwaits, hfull, hmay, hf]

/-- The row that serves a transaction turns it away where it met its target too full (R229). -/
theorem grant_turnsAway {ok : Txn → Bool} {f : Txn → Option (Resp × Eff)} (ht : d.txn id = some t) (hok : ok t = true) (hw : t.waits = true)
    (hfull : t.overfull = true) : d.grant id ok f = (d.turnAway t, []) := by
  simp [Dev.grant, ht, hok, hw, hfull]

theorem grants_txn (h : d.grants id t = true) : d.txn id = some t := by
  simp only [Dev.grants, Bool.and_eq_true, beq_iff_eq] at h
  exact h.1.1.1.1

theorem grants_byKeystone (h : d.grants id t = true) : t.byKeystone = false := by
  simp only [Dev.grants, Bool.and_eq_true, Bool.not_eq_true'] at h
  exact h.1.2

/-! ### Words of Deck SRAM (R217, R243, R244) -/

theorem sramOf_deck {w : Nat} (h : isDeck w = true) : ∃ m off, sramOf w = some (m, off) := by
  unfold sramOf
  rw [if_pos h]
  split <;> exact ⟨_, _, rfl⟩

theorem isCode_deck {w : Nat} (h : isDeck w = true) : isCode w = false := by
  simp only [isDeck, isCode, Bool.and_eq_true, Bool.and_eq_false_iff, decide_eq_true_eq, decide_eq_false_iff_not] at *
  omega

/-- A good word of an awake span is read as it is stored. -/
theorem wordRead_deck {m : List Host.Cell} {w : Nat} {f : Found} (req : ReqId) (hd : isDeck w = true) (ha : d.wordAsleep w = false)
    (hp : w ∉ d.poison) (hf : f = .good) : d.wordRead m w f req = (.word (Memory.word m w), d) := by
  obtain ⟨r, off, hs⟩ := sramOf_deck hd
  simp [Dev.wordRead, ha, isCode_deck hd, hd, Dev.sramRead, hs, foundAt_good d hp hf]

/-- A part of a word of an awake span is applied, where the word's stored bits are good. -/
theorem wordWrite_deck {p : WordPart} {f : Found} (req : ReqId) (hd : isDeck p.addr.toNat = true) (ha : d.wordAsleep p.addr.toNat = false)
    (hp : p.addr.toNat ∉ d.poison) (hf : f = .good) :
    ∃ x, d.wordWrite p f req = (.word wordZero, ({ d with poison := x }, [.word p.addr.toNat p.lanes p.tagWr p.word])) := by
  obtain ⟨r, off, hs⟩ := sramOf_deck hd
  have hwrite : ∃ x, d.sramWrite p f req = (true, { d with poison := x }, [.word p.addr.toNat p.lanes p.tagWr p.word]) := by
    unfold Dev.sramWrite
    simp only [hs, foundAt_good d hp hf]
    split <;> exact ⟨_, rfl⟩
  obtain ⟨x, hw⟩ := hwrite
  exact ⟨x, by simp [Dev.wordWrite, ha, isCode_deck hd, hd, hw]⟩

/-- No line of code store is read for a word of Deck SRAM. -/
theorem codeOpen_deck {w : Nat} (hd : isDeck w = true) (f : Finds) (req : ReqId) : d.codeOpen [w] f req = d := by
  simp [Dev.codeOpen, Dev.readsLine, isCode_deck hd]

/-- An RD of a good word of Deck SRAM is answered with the word. -/
theorem serveRead_deck {m : List Host.Cell} {f : Finds} (hddr : t.ddr = none) (hcount : t.count = 1) (hparts : t.parts = [])
    (hd : isDeck t.addr.toNat = true) (ha : d.wordAsleep t.addr.toNat = false) (hp : t.addr.toNat ∉ d.poison) (hf : foundIn f 0 = .good) :
    d.serveRead m f t = some (.data t.dBit [Memory.word m t.addr.toNat], (d, [])) := by
  have hsize : t.size = 1 := by simp [Txn.size, hparts, hcount]
  have haddr : t.addrAt 0 = t.addr := by simp [Txn.addrAt, hparts]
  simp [Dev.serveRead, hsize, hddr, haddr, codeOpen_deck hd, Served.read, wordRead_deck t.req hd ha hp hf, Served.answer]

/-- A write of one part of a word of Deck SRAM whose stored bits are good is acknowledged. -/
theorem serveWrite_deck {f : Finds} {p : WordPart} (hddr : t.ddr = none) (hparts : t.parts = [p]) (hno : t.noWrite = false)
    (hd : isDeck p.addr.toNat = true) (ha : d.wordAsleep p.addr.toNat = false) (hp : p.addr.toNat ∉ d.poison) (hf : foundIn f 0 = .good) :
    ∃ x, d.serveWrite f t = some (.ack t.dBit, ({ d with poison := x }, [.word p.addr.toNat p.lanes p.tagWr p.word])) := by
  obtain ⟨x, hw⟩ := wordWrite_deck (d := d) t.req hd ha hp hf
  exact ⟨x, by simp [Dev.serveWrite, hno, hddr, hparts, Served.write, hw, Served.answer]⟩

/-! ### Events (R192, R217, R301) -/

/-- An event that finds its line free and the bent's clock running is taken: outside the bents only the cell and the PLUMB pins know of it. -/
theorem biuEvent_frame {b n : Nat} (hn : 64 ≤ n) (hfree : Tab.find 0 (d.xing b).lines n = 0) (hhold : (d.xing b).hold = false) :
    ∃ bs xs ps, d.biuEvent b n = { d with bents := bs, xings := xs, plb := ps } := by
  have hpassed : (d.eventInto b n 0).1 = true := by simp [Dev.eventInto]
  obtain ⟨xs, ps, he⟩ := eventInto_frame d b n 0
  unfold Dev.biuEvent
  dsimp only
  rw [hfree, hhold]
  generalize d.eventInto b n 0 = r at hpassed he
  obtain ⟨taken, x⟩ := r
  subst hpassed he
  dsimp only
  have hlatched : ∀ y : Dev, (∃ xs, y = { d with xings := xs, plb := ps }) → ∃ bs xs ps, y.takeEvent b n = { d with bents := bs, xings := xs, plb := ps } := by
    rintro y ⟨xs, rfl⟩
    rw [takeEvent_latched hn]
    obtain ⟨bs, h⟩ := (setLatch_stirred ({ d with xings := xs, plb := ps } : Dev) b n).frame
    rw [h]
    exact ⟨_, _, _, rfl⟩
  rw [if_neg Bool.false_ne_true]
  refine hlatched _ ?_
  split <;> exact ⟨_, rfl⟩

/-- Every latched source is numbered above the queue sources (R192). -/
theorem latched_ge {n : Nat} (h : isLatchedSrc n = true) : 64 ≤ n := by
  simp only [isLatchedSrc, Bool.or_eq_true, Bool.and_eq_true, decide_eq_true_eq] at h
  omega

/-- An EVT for a latched source of a bent that runs is taken there and acknowledged. -/
theorem serveEvent_latched {b : BentId} {n : SrcId} (hev : t.ev = some (b, n)) (hkind : t.evKind = .event) (hl : isLatchedSrc n.toNat = true)
    (ha : d.wordAsleep (0x08200000 + 0x1000 * b.toNat) = false) :
    d.serveEvent t = some (.ack t.dBit, (d.biuEvent b.toNat n.toNat, [])) := by
  simp [Dev.serveEvent, hev, hkind, hl, ha]

end Sys2Proof.Machine
end

section
/-! PROOFS. The statement on what targets answer. -/
namespace Sys2Proof.Proofs
open Sys2Proof.Machine

variable {s : State} {id : Nat} {t : Txn}

/-- What an answer leaves of the units, where what it rests on differs from the state in poisoned words alone. -/
theorem sameUnits_of_answered {e : Dev} {r : Resp} {x : List Nat} {m : List Host.Cell} (h : ({ s.dev with poison := x } : Dev).Answered id r e) :
    SameUnits s { s with dev := e.seen s.dev, mem := m } := by
  obtain ⟨_, _, _, _, _, rfl⟩ := h.frame
  exact ⟨rfl, rfl, rfl, rfl, rfl, rfl, rfl, rfl⟩

section
variable (hcalm : s.dev.calm) (hg : s.dev.grants id t = true) (hway : s.dev.freeWay)
include hcalm hg hway

omit hcalm in
/-- A row whose target has a response, once nothing waits in Keystone. -/
theorem exec_grant {i : Instr} {ok : Txn → Bool} {f : Txn → Option (Resp × Eff)} {r : Resp} {x : Eff}
    (hi : exec i s = s.commit (settleEff s.mem (s.dev.grant id ok f))) (hok : ok t = true) (hf : f t = some (r, x))
    (hx : x.1.txns = s.dev.txns) (hxc : x.1.calm) :
    ∃ e, exec i s = .next { s with dev := e.seen s.dev, mem := applyAll s.mem x.2 } ∧ x.1.Answered id r e := by
  have hstill : x.1.wayStill := by
    unfold Dev.wayStill
    rw [hx]
    exact hway.still
  have htxn : x.1.txn id = some t := by
    unfold Dev.txn
    rw [hx]
    exact grants_txn hg
  have hans := granted_answered hstill htxn r
  refine ⟨_, ?_, hans⟩
  rw [hi, grant_serves hg hok hf, settleEff_of_calm s.mem (hans.calm hxc)]
  rfl

/-- RD of a good word of Deck SRAM (R217, R218). -/
theorem deckRd_answers {f : Finds} (hddr : t.ddr = none) (hcount : t.count = 1) (hty : t.ty = .rd) (hparts : t.parts = [])
    (hd : isDeck t.addr.toNat = true) (ha : s.dev.wordAsleep t.addr.toNat = false) (hp : t.addr.toNat ∉ s.dev.poison) (hf : foundIn f 0 = .good) :
    ∃ u, exec (.deckRd id f) s = .next u ∧ u.mem = s.mem ∧ SameUnits s u
      ∧ (u.dev.txn id).map (·.st) = some (.answered (.data t.dBit [Memory.word s.mem t.addr.toNat])) := by
  have hok : t.isRd = true := by simp [Txn.isRd, grants_byKeystone hg, hty]
  obtain ⟨e, he, hans⟩ := exec_grant hg hway (i := .deckRd id f) rfl hok (serveRead_deck hddr hcount hparts hd ha hp hf) rfl hcalm
  exact ⟨_, he, rfl, sameUnits_of_answered (x := s.dev.poison) hans, hans.resp⟩

/-- A row that serves writes applies the one part of a word of Deck SRAM and acknowledges it (R217, R218). -/
theorem deckWrite_applies {i : Instr} {ok : Txn → Bool} {f : Finds} {p : WordPart}
    (hi : exec i s = s.commit (settleEff s.mem (s.dev.grant id ok (s.dev.serveWrite f)))) (hok : ok t = true) (hddr : t.ddr = none)
    (hparts : t.parts = [p]) (hno : t.noWrite = false) (hd : isDeck p.addr.toNat = true) (ha : s.dev.wordAsleep p.addr.toNat = false)
    (hp : p.addr.toNat ∉ s.dev.poison) (hf : foundIn f 0 = .good) :
    ∃ u, exec i s = .next u ∧ u.mem = (MemOp.word p.addr.toNat p.lanes p.tagWr p.word).apply s.mem ∧ SameUnits s u
      ∧ (u.dev.txn id).map (·.st) = some (.answered (.ack t.dBit)) := by
  obtain ⟨x, hserve⟩ := serveWrite_deck (d := s.dev) hddr hparts hno hd ha hp hf
  obtain ⟨e, he, hans⟩ := exec_grant hg hway hi hok hserve rfl hcalm
  exact ⟨_, he, rfl, sameUnits_of_answered hans, hans.resp⟩

/-- EVT for a latched source (R192, R217, R218). -/
theorem deckEvt_latches {b : BentId} {n : SrcId} (hty : t.ty = .evt) (hev : t.ev = some (b, n)) (hkind : t.evKind = .event)
    (hl : isLatchedSrc n.toNat = true) (ha : s.dev.wordAsleep (0x08200000 + 0x1000 * b.toNat) = false) (hhold : (s.dev.xing b.toNat).hold = false)
    (hfree : Tab.find 0 (s.dev.xing b.toNat).lines n.toNat = 0) :
    ∃ u, exec (.deckEvt id) s = .next u ∧ u.mem = s.mem ∧ u.pending = s.pending ∧ u.dev.cores = s.dev.cores
      ∧ (u.dev.source b.toNat n.toNat).level = true ∧ (u.dev.txn id).map (·.st) = some (.answered (.ack t.dBit)) := by
  have hok : t.isEvt = true := by simp [Txn.isEvt, hty]
  have hlevel := biuEvent_level (d := s.dev) (latched_ge hl) hfree hhold
  obtain ⟨bs, xs, ps, hframe⟩ := biuEvent_frame (d := s.dev) (latched_ge hl) hfree hhold
  have hserve := serveEvent_latched hev hkind hl ha
  rw [hframe] at hlevel hserve
  obtain ⟨e, he, hans⟩ := exec_grant hg hway (i := .deckEvt id) rfl hok hserve rfl hcalm
  obtain ⟨_, _, _, _, _, hleft⟩ := hans.frame
  refine ⟨_, he, rfl, rfl, ?_, ?_, hans.resp⟩
  · rw [hleft]
    rfl
  · rw [hleft]
    exact hlevel

end

/-- A row turns a C2 transaction away (R229). -/
theorem refused_retries {i : Instr} {ok : Txn → Bool} {f : Txn → Option (Resp × Eff)}
    (hi : exec i s = s.commit (settleEff s.mem (s.dev.grant id ok f))) (hok : ok t = true) (hcalm : s.dev.calm) (ht : s.dev.txn id = some t)
    (hway : s.dev.freeWay) (hw : t.waits = true) (hfull : t.overfull = true) :
    ∃ u, exec i s = .next u ∧ u.mem = s.mem ∧ SameUnits s u ∧ (u.dev.txn id).map (·.st) = some (.answered .retry)
      ∧ ∀ g, t.target = some g → g.1 ≠ 8 →
        (Tab.find {} (u.dev.span g.1).targets g.2 : Target).refs = satInc (Tab.find {} (s.dev.span g.1).targets g.2 : Target).refs := by
  have hans := turnAway_answered hway.still ht
  rw [grant_turnsAway ht hok hw hfull, settleEff_calm s.mem (hans.calm hcalm)] at hi
  exact ⟨_, hi, rfl, sameUnits_of_answered (x := s.dev.poison) hans, hans.resp, fun g hg h8 => turnAway_refs hway.still ht hg h8⟩

/-- Settles O24, row by row: a target that grants a transaction does what the transaction says and answers it, and one that turns it away answers
RETRY, all in the same way. -/
theorem targetsAnswer : Obligations.TargetsAnswer := by
  unfold Obligations.TargetsAnswer
  refine ⟨fun s id t f hcalm hg hway hddr hcount => ⟨?_, fun p hparts hno hd ha hp hf => ⟨fun hty => ?_, fun hty => ?_⟩, ?_⟩, ?_⟩
  · exact deckRd_answers hcalm hg hway hddr hcount
  · have hok : t.isWr = true := by simp [Txn.isWr, grants_byKeystone hg, hty]
    exact deckWrite_applies hcalm hg hway rfl hok hddr hparts hno hd ha hp hf
  · have hok : t.isTw = true := by simp [Txn.isTw, hty]
    exact deckWrite_applies hcalm hg hway rfl hok hddr hparts hno hd ha hp hf
  · exact fun b n => deckEvt_latches hcalm hg hway
  · intro s id t f e he hcalm ht hway hks hty hw hfull _
    simp only [List.mem_cons, List.not_mem_nil, or_false] at he
    obtain rfl | rfl | rfl | rfl := he
    · exact refused_retries rfl (show t.isRd = true by simp [Txn.isRd, hks, hty]) hcalm ht hway hw hfull
    · exact refused_retries rfl (show t.isWr = true by simp [Txn.isWr, hks, hty]) hcalm ht hway hw hfull
    · exact refused_retries rfl (show t.isTw = true by simp [Txn.isTw, hty]) hcalm ht hway hw hfull
    · exact refused_retries rfl (show t.isEvt = true by simp [Txn.isEvt, hty]) hcalm ht hway hw hfull

end Sys2Proof.Proofs
end

section
/-! SUPPORT. What the operations behind sleep and wake leave alone: cores, the power controller, time, Keystone's waiting commands, the links that are
down (R236, R305, R419); and the bents that stay awake. -/
namespace Sys2Proof.Machine

variable {d e : Dev} {b n : Nat} {p : ViaPort}

/-! ### Cores, the power controller and links -/

/-- From d to e no core changed, nothing of the power controller, and not the time; no command came to wait, and no link that is DOWN came up. -/
structure Dev.Rested (d e : Dev) : Prop where
  cores : e.cores = d.cores
  pwr : e.pwr = d.pwr
  clk : e.clk = d.clk
  calm : d.calm → e.calm
  down : ∀ p, (d.via p).st = .down → (e.via p).st = .down

theorem Dev.Rested.trans {f : Dev} (h : d.Rested e) (g : e.Rested f) : d.Rested f :=
  ⟨g.cores.trans h.cores, g.pwr.trans h.pwr, g.clk.trans h.clk, fun hc => g.calm (h.calm hc), fun p hp => g.down p (h.down p hp)⟩

/-- Nothing of what rests is named where something else of the device is changed. -/
theorem Dev.Rested.of_eq (hc : e.cores = d.cores) (hp : e.pwr = d.pwr) (ht : e.clk = d.clk) (hj : e.ks.jobs = d.ks.jobs)
    (hv : e.chain = d.chain) : d.Rested e := by
  refine ⟨hc, hp, ht, fun h => hj.trans h, fun p h => ?_⟩
  cases p <;> simpa only [Dev.via, hv] using h

theorem Dev.Rested.refl (d : Dev) : d.Rested d := .of_eq rfl rfl rfl rfl rfl

theorem Dev.Rested.foldl {α : Type} {f : Dev → α → Dev} (h : d.Rested e) (hf : ∀ (x : Dev) a, x.Rested (f x a)) (l : List α) :
    d.Rested (l.foldl f e) := by
  induction l generalizing e with
  | nil => exact h
  | cons a l ih => exact ih (h.trans (hf e a))

theorem Dev.Stirred.rested (h : d.Stirred b e) : d.Rested e := by
  obtain ⟨bs, rfl⟩ := h.frame
  exact .of_eq rfl rfl rfl rfl rfl

theorem raise_rested (src inst : Nat) (det : BitVec 16) : d.Rested (d.raise src inst det) := by
  obtain ⟨xs, ps, fl, h⟩ := raise_frame d src inst det
  rw [h]
  exact .of_eq rfl rfl rfl rfl rfl

theorem onPort_rested (p : Port) (f : PortSt → PortSt) : d.Rested (d.onPort p f) := by cases p <;> exact .of_eq rfl rfl rfl rfl rfl

theorem sendVec_rested (p : Port) (v : BitVec 11) : d.Rested (d.sendVec p v) := by
  unfold Dev.sendVec
  split
  · exact onPort_rested _ _
  · split
    · exact onPort_rested _ _
    · exact .refl d

theorem bothVec_rested (v : BitVec 11) : d.Rested (d.bothVec v) := (sendVec_rested .a v).trans (sendVec_rested .b v)

theorem Dev.Rested.endJobs (h : d.Rested e) (hc : d.calm) (pick : Job → Bool) (st det : BitVec 16) : d.Rested (e.endJobs pick st det) := by
  rw [endJobs_calm pick st det (h.calm hc)]
  exact h

/-! ### The Viaduct (R377, R384, R388) -/

/-- What a port does that changes its state at most to DOWN. -/
theorem onVia_rested {f : Via → Via} (h : (d.via p).st = .down → (f (d.via p)).st = .down) : d.Rested (d.onVia p f) := by
  cases p with
  | up =>
    refine ⟨rfl, rfl, rfl, id, fun q hq => ?_⟩
    cases q
    · exact h hq
    · exact hq
  | dn =>
    refine ⟨rfl, rfl, rfl, id, fun q hq => ?_⟩
    cases q
    · exact hq
    · exact h hq

theorem viaFree_rested (cls : BitVec 2) (n : Nat) : d.Rested (d.viaFree p cls n) := onVia_rested (f := fun v => { v with owed := _ }) id

theorem passOne_rested (f : OutFlit) : d.Rested (d.passOne p f).2 := by
  unfold Dev.passOne
  dsimp only
  split
  · exact viaFree_rested f.cls 1
  · split
    · exact (onVia_rested (f := fun v => v.enterCell f) id).trans (viaFree_rested f.cls 1)
    · exact .refl d

/-- A walk that carries something beside the device. -/
theorem Dev.Rested.foldl_snd {α β : Type} {f : α × Dev → β → α × Dev} (hf : ∀ (x : α × Dev) a, x.2.Rested (f x a).2) (l : List β) (x : α × Dev) :
    x.2.Rested (l.foldl f x).2 := by
  induction l generalizing x with
  | nil => exact .refl _
  | cons a l ih => exact (hf x a).trans (ih _)

theorem passIn_rested (p : ViaPort) : d.Rested (d.passIn p) := by
  unfold Dev.passIn
  refine (Dev.Rested.foldl_snd (fun x f => ?_) _ ([], d)).trans (onVia_rested id)
  have hpass := passOne_rested (d := x.2) (p := p) f
  split
  · exact .refl _
  · generalize x.2.passOne p f = r at hpass
    obtain ⟨_ | _, e⟩ := r <;> exact hpass

theorem viaSendOne_rested (h : d.viaSendOne p = some e) : d.Rested e := by
  obtain ⟨f, -, rfl⟩ := Option.map_eq_some_iff.mp h
  exact onVia_rested id

theorem viaMove_rested (k : Nat) (d : Dev) : d.Rested (Dev.viaMove k d) := by
  induction k generalizing d with
  | zero => exact .refl d
  | succ k ih =>
    have hpassed : d.Rested ((d.passIn .up).passIn .dn) := (passIn_rested .up).trans (passIn_rested .dn)
    unfold Dev.viaMove
    dsimp only
    split
    · next h => exact (hpassed.trans (viaSendOne_rested h)).trans (ih _)
    · split
      · next h => exact (hpassed.trans (viaSendOne_rested h)).trans (ih _)
      · exact hpassed

theorem viaSend_rested (p : ViaPort) (cls : BitVec 2) (dest src : BitVec 4) (body : FlitBody) : d.Rested (d.viaSend p cls dest src body) := by
  unfold Dev.viaSend
  split
  · exact .refl d
  · exact (onVia_rested id).trans (viaMove_rested _ _)

theorem sendCreply_rested (u : BitVec 4) (o : Port) (final : Bool) (st det : BitVec 16) (seq el : W32) (ws : List W32) :
    d.Rested (d.sendCreply u o final st det seq el ws) := .foldl (.refl d) (fun _ _ => viaSend_rested _ _ _ _ _) _

theorem reply_rested (src : CmdSrc) (st det : BitVec 16) (ws : List W32) : d.Rested (d.reply src st det ws) := by
  cases src with
  | port p =>
    unfold Dev.reply
    dsimp only
    split
    · exact onPort_rested _ _
    · exact (onPort_rested _ _).trans (sendVec_rested _ _)
  | fwd u o =>
    exact Dev.Rested.trans (e := d.onKs (fun k => { k with fwd := k.fwd.filter (fun f => !(f.unit == u && f.port == o)) }))
      (.of_eq rfl rfl rfl rfl rfl) (sendCreply_rested _ _ _ _ _ _ _ _)

theorem sendReach_rested (p : ViaPort) : d.Rested (d.sendReach p) := by
  unfold Dev.sendReach
  split
  · exact viaSend_rested _ _ _ _ _
  · exact .refl d

theorem tellReach_rested (old : Dev) : d.Rested (d.tellReach old) := by
  have hone : ∀ (x : Dev) (p : ViaPort), x.Rested (if d.reachSent p != old.reachSent p then x.sendReach p else x) := by
    intro x p
    split
    · exact sendReach_rested p
    · exact .refl x
  exact (hone d .up).trans (hone _ .dn)

theorem reachChanged_rested (hc : d.calm) (old : Dev) : d.Rested (d.reachChanged old) := by
  have htold := tellReach_rested (d := d) old
  unfold Dev.reachChanged
  dsimp only
  refine Dev.Rested.endJobs ?_ hc _ _ _
  exact htold.trans (.of_eq rfl rfl rfl rfl rfl)

/-! ### Modes (R303, R398, R406) -/

theorem setCells_rested (pulse : Bool) : d.Rested (d.setCells pulse) := by
  unfold Dev.setCells
  dsimp only
  split
  · split <;> exact .of_eq rfl rfl rfl rfl rfl
  · exact .of_eq rfl rfl rfl rfl rfl

theorem setMode_rested (m reason : BitVec 3) : d.Rested (d.setMode m reason) := by
  unfold Dev.setMode
  extract_lets d1 d2
  have hmode : d.Rested d2 := by
    unfold d2
    split <;> exact .of_eq rfl rfl rfl rfl rfl
  exact (hmode.trans (setCells_rested _)).trans (bothVec_rested _)

theorem modeCheck_rested (hc : d.calm) : d.Rested d.modeCheck := by
  unfold Dev.modeCheck
  split
  · exact (setMode_rested mDegraded 1#3).endJobs hc _ _ _
  · split
    · exact setMode_rested _ _
    · exact .refl d

/-! ### Links that go DOWN (R377, R388, R419) -/

theorem linkDown_rested (hc : d.calm) (p : ViaPort) (loud : Bool) : d.Rested (d.linkDown p loud) := by
  unfold Dev.linkDown
  split
  · exact onVia_rested (fun _ => rfl)
  · extract_lets d1 d2
    have hfree : d.Rested (d.runFree p) := by
      unfold Dev.runFree
      split <;> exact .of_eq rfl rfl rfl rfl rfl
    have hdown : d.Rested d1 := hfree.trans (onVia_rested (fun _ => rfl))
    have hraised : d.Rested d2 := by
      unfold d2
      split
      · exact hdown.trans (raise_rested _ _ _)
      · exact hdown
    have hreach := hraised.trans (reachChanged_rested (hraised.calm hc) d)
    exact hreach.trans (modeCheck_rested (hreach.calm hc))

theorem linkDown_down (hc : d.calm) (p : ViaPort) (loud : Bool) : ((d.linkDown p loud).via p).st = .down := by
  unfold Dev.linkDown
  split
  · rw [Dev.via_onVia]
    rfl
  · extract_lets d1 d2
    have hdown : (d1.via p).st = .down := by
      unfold d1
      rw [Dev.via_onVia]
      rfl
    have hcalm : d1.calm := by
      unfold d1 Dev.runFree
      split <;> cases p <;> exact hc
    have hraised : d1.Rested d2 := by
      unfold d2
      split
      · exact raise_rested _ _ _
      · exact .refl _
    have hreach := hraised.trans (reachChanged_rested (hraised.calm hcalm) d)
    exact (hreach.trans (modeCheck_rested (hreach.calm hcalm))).down p hdown

theorem viaSleep_rested (hc : d.calm) (p : ViaPort) : d.Rested (d.viaSleep p) ∧ ((d.viaSleep p).via p).st = .down := by
  have hnoted : d.Rested (d.onVia p (fun v => { v with wasUp := false })) := onVia_rested id
  exact ⟨hnoted.trans (linkDown_rested (hnoted.calm hc) p false), linkDown_down (hnoted.calm hc) p false⟩

/-! ### Cells of domains that stop and run again (R300, R305) -/

theorem setLatch_rested : d.Rested (d.setLatch b n) :=
  Dev.Rested.trans (e := d.onSource b n (fun x => { x with level := true })) (.of_eq rfl rfl rfl rfl rfl) (setLatch_stirred d b n).rested

theorem raiseLevel_rested : d.Rested (d.raiseLevel b n) := by
  unfold Dev.raiseLevel
  split
  · exact .refl d
  · exact Dev.Rested.trans (e := d.onSource b n (fun x => { x with level := true })) (.of_eq rfl rfl rfl rfl rfl) (assertSrc_stirred _).rested

theorem setLevel_rested (v : Bool) : d.Rested (d.setLevel b n v) := by
  unfold Dev.setLevel
  split
  · exact raiseLevel_rested
  · exact .of_eq rfl rfl rfl rfl rfl

theorem queueItem_stirred : d.Stirred b (d.queueItem b n) := by
  unfold Dev.queueItem
  extract_lets d1
  have hafter : d.Stirred b d1 := by
    unfold d1
    cases (d.source b n).st with
    | claimed i => exact eventAfterClaim_stirred
    | idle | held | pending | offered i | entering i => exact .refl d b
  split
  · exact hafter.trans countEvent_stirred
  · exact hafter

theorem takeEvent_rested : d.Rested (d.takeEvent b n) := by
  unfold Dev.takeEvent
  split
  · exact queueItem_stirred.rested
  · exact setLatch_rested

theorem takeLevels_rested (b : Nat) : d.Rested (d.takeLevels b) := by
  unfold Dev.takeLevels
  extract_lets x d1
  have hlevels : d.Rested d1 := by
    refine .foldl ?_ (fun _ _ => setLevel_rested _) _
    exact .of_eq rfl rfl rfl rfl rfl
  split
  · exact hlevels.trans (.of_eq rfl rfl rfl rfl rfl)
  · exact hlevels

theorem takeEvents_rested (b : Nat) : d.Rested (d.takeEvents b) := by
  refine .foldl ?_ (fun x _ => .foldl (.refl x) (fun _ _ => takeEvent_rested) _) _
  exact .of_eq rfl rfl rfl rfl rfl

theorem setAsleep_rested (dom : Nat) (v : Bool) : d.Rested (d.setAsleep dom v) := by
  unfold Dev.setAsleep
  extract_lets d1 d2
  have hheld : d.Rested d1 := .of_eq rfl rfl rfl rfl rfl
  split
  · have hbent : d.Rested d2 := hheld.trans (.of_eq rfl rfl rfl rfl rfl)
    split
    · exact hbent
    · exact (hbent.trans (takeLevels_rested dom)).trans (takeEvents_rested dom)
  · split
    · exact hheld.trans (.of_eq rfl rfl rfl rfl rfl)
    · split
      · exact hheld.trans (.of_eq rfl rfl rfl rfl rfl)
      · exact hheld

theorem awake_rested (p : Nat → Bool) : d.Rested (d.awake p) := by
  unfold Dev.awake
  extract_lets held kept
  refine .foldl ?_ (fun _ b => (takeLevels_rested b).trans (takeEvents_rested b)) _
  exact .of_eq rfl rfl rfl rfl rfl

/-! ### Bents that run (R305, R434) -/

/-- A bent without its interrupt unit and its Scribe agent. -/
def Bent.agentless (x : Bent) : Bent := { x with biu := {}, scr := {} }

/-- From d to e the bents changed in their interrupt units and their Scribe agents alone. -/
def Dev.AgentsMoved (d e : Dev) : Prop := ∀ m, (e.bent m).agentless = (d.bent m).agentless

theorem Dev.AgentsMoved.refl (d : Dev) : d.AgentsMoved d := fun _ => rfl

theorem Dev.AgentsMoved.trans {f : Dev} (h : d.AgentsMoved e) (g : e.AgentsMoved f) : d.AgentsMoved f := fun m => (g m).trans (h m)

theorem Dev.AgentsMoved.foldl {α : Type} {f : Dev → α → Dev} (h : d.AgentsMoved e) (hf : ∀ (x : Dev) a, x.AgentsMoved (f x a)) (l : List α) :
    d.AgentsMoved (l.foldl f e) := by
  induction l generalizing e with
  | nil => exact h
  | cons a l ih => exact ih (h.trans (hf e a))

theorem onBent_agents {f : Bent → Bent} (h : ∀ x, (f x).agentless = x.agentless) : d.AgentsMoved (d.onBent b f) := by
  intro m
  obtain rfl | hm := Decidable.em (m = b)
  · rw [Dev.bent_onBent, h]
  · rw [Dev.bent_onBent_other d f hm]

theorem onBiu_agents (f : Biu → Biu) : d.AgentsMoved (d.onBiu b f) := onBent_agents fun _ => rfl

theorem onScr_agents (f : Scribe → Scribe) : d.AgentsMoved (d.onScr b f) := onBent_agents fun _ => rfl

theorem onSource_agents (f : Src → Src) : d.AgentsMoved (d.onSource b n f) := onBiu_agents _

theorem pendSrc_agents (stamp : BitVec 64) : d.AgentsMoved (d.pendSrc b n stamp) := (onSource_agents _).trans (onScr_agents _)

theorem releaseMember_agents : d.AgentsMoved (d.releaseMember b n) := by
  unfold Dev.releaseMember
  split
  · exact pendSrc_agents _
  · exact onSource_agents _

theorem releaseGroup_agents (g : Nat) (byTime : Bool) : d.AgentsMoved (d.releaseGroup b g byTime) :=
  .foldl (onBiu_agents _) (fun _ _ => releaseMember_agents) _

theorem groupEvent_agents (g : Nat) : d.AgentsMoved (d.groupEvent b g) := by
  unfold Dev.groupEvent
  extract_lets x d1 y
  have hcounted : d.AgentsMoved d1 := by
    unfold d1
    split <;> exact onBiu_agents _
  split
  · exact hcounted.trans (releaseGroup_agents g false)
  · exact hcounted

theorem countEvent_agents : d.AgentsMoved (d.countEvent b n) := by
  unfold Dev.countEvent
  dsimp only
  split
  · exact groupEvent_agents _
  · split
    · exact groupEvent_agents _
    · exact .refl d

theorem eventAfterClaim_agents : d.AgentsMoved (d.eventAfterClaim b n) := by
  unfold Dev.eventAfterClaim Dev.noteOverrun
  split
  · exact ((onSource_agents _).trans (onSource_agents _)).trans (onScr_agents _)
  · exact onSource_agents _

theorem assertSrc_agents (counted : Bool) : d.AgentsMoved (d.assertSrc b n counted) := by
  unfold Dev.assertSrc
  extract_lets s d1
  have hstate : d.AgentsMoved d1 := by
    unfold d1
    cases s.st with
    | idle =>
      dsimp only
      split
      · exact .refl d
      · split
        · exact onSource_agents _
        · exact pendSrc_agents _
    | claimed i => exact eventAfterClaim_agents
    | held | pending | offered i | entering i => exact .refl d
  split
  · exact hstate.trans countEvent_agents
  · exact hstate

theorem setLevel_agents (v : Bool) : d.AgentsMoved (d.setLevel b n v) := by
  unfold Dev.setLevel Dev.raiseLevel
  split
  · split
    · exact .refl d
    · exact (onSource_agents _).trans (assertSrc_agents _)
  · exact onSource_agents _

theorem takeEvent_agents : d.AgentsMoved (d.takeEvent b n) := by
  unfold Dev.takeEvent
  split
  · unfold Dev.queueItem
    extract_lets d1
    have hafter : d.AgentsMoved d1 := by
      unfold d1
      cases (d.source b n).st with
      | claimed i => exact eventAfterClaim_agents
      | idle | held | pending | offered i | entering i => exact .refl d
    split
    · exact hafter.trans countEvent_agents
    · exact hafter
  · exact (onSource_agents _).trans (assertSrc_agents _)

theorem takeLevels_agents (b : Nat) : d.AgentsMoved (d.takeLevels b) := by
  unfold Dev.takeLevels
  extract_lets x d1
  have hlevels : d.AgentsMoved d1 := by
    refine .foldl ?_ (fun _ _ => setLevel_agents _) _
    exact fun _ => rfl
  split
  · exact hlevels.trans (onScr_agents _)
  · exact hlevels

theorem takeEvents_agents (b : Nat) : d.AgentsMoved (d.takeEvents b) := by
  refine .foldl ?_ (fun x _ => .foldl (.refl x) (fun _ _ => takeEvent_agents) _) _
  exact fun _ => rfl

/-- An entry of a table whose entries are all changed alike, where the default is one that the change leaves. -/
theorem find_map_all {α : Type} {x : α} {f : α → α} (hx : f x = x) (t : Tab α) (k : Nat) :
    Tab.find x (t.map (fun e => (e.1, f e.2))) k = f (Tab.find x t k) := by
  induction t with
  | nil => exact hx.symm
  | cons e t ih => by_cases hk : e.1 = k <;> simp [Tab.find, hk, ih]

/-- Where every domain runs again, every bent's clock does (R434). -/
theorem awake_bents (b : Nat) : ((d.awake (fun _ => true)).bent b).asleep = false := by
  unfold Dev.awake
  extract_lets held kept
  generalize hrun : ({ d with bents := _, spans := _, ddrs := _, xings := _ } : Dev) = x
  have hx : (x.bent b).asleep = false := by
    rw [← hrun]
    exact congrArg Bent.asleep (find_map_all (x := ({} : Bent)) (f := fun y => { y with asleep := false }) rfl d.bents b)
  have hmoved : x.AgentsMoved (kept.foldl (fun x b => (x.takeLevels b).takeEvents b) x) :=
    .foldl (.refl x) (fun _ b => (takeLevels_agents b).trans (takeEvents_agents b)) _
  exact (congrArg Bent.asleep (hmoved b) :).trans hx

end Sys2Proof.Machine
end


section
/-! SUPPORT. What ends a sleep negotiation: a refusal, the next domain, or the sleep state; and what a wake from P2 or P3 comes to. -/
namespace Sys2Proof.Machine

variable {d e : Dev} {n : Nego}

/-! ### Refusals (R236, R428, R429) -/

/-- The power controller after a domain has refused to sleep. -/
def Power.refused (p : Power) (dom reason : Nat) : Power :=
  { p with nego := none, refValid := true, refReason := BitVec.ofNat 8 reason, refDomain := BitVec.ofNat 8 dom }

/-- The domains that were stopped run again, the reason is recorded, and the command is answered. -/
theorem refuseSleep_rested (hc : d.calm) (hn : d.pwr.nego = some n) (dom reason : Nat) :
    (d.onPwr (·.refused dom reason)).Rested (d.refuseSleep dom reason) := by
  have hrun : d.Rested (n.stopped.foldl (fun x k => x.setAsleep k false) d) := .foldl (.refl d) (fun _ _ => setAsleep_rested _ _) _
  have hnoted : (d.onPwr (·.refused dom reason)).Rested ((n.stopped.foldl (fun x k => x.setAsleep k false) d).onPwr (·.refused dom reason)) :=
    ⟨hrun.cores, congrArg (·.refused dom reason) hrun.pwr, hrun.clk, hrun.calm, hrun.down⟩
  unfold Dev.refuseSleep
  rw [hn]
  dsimp only
  split
  · exact hnoted.endJobs hc _ _ _
  · split
    · exact hnoted.trans (reply_rested _ _ _ _)
    · exact hnoted

/-! ### Acknowledgements (R428, R431) -/

/-- From d to e no core changed, not the time and not the power state; no command came to wait. -/
structure Dev.Agreed (d e : Dev) : Prop where
  cores : e.cores = d.cores
  clk : e.clk = d.clk
  pstate : e.pwr.pstate = d.pwr.pstate
  calm : d.calm → e.calm

theorem Dev.Rested.agreed (h : d.Rested e) : d.Agreed e := ⟨h.cores, h.clk, congrArg Power.pstate h.pwr, h.calm⟩

theorem Dev.Agreed.trans {f : Dev} (h : d.Agreed e) (g : e.Agreed f) : d.Agreed f :=
  ⟨g.cores.trans h.cores, g.clk.trans h.clk, g.pstate.trans h.pstate, fun hc => g.calm (h.calm hc)⟩

/-- Keystone's reply before it acknowledges sets the ceiling that the command asked for, and nothing else of the power controller (R431). -/
theorem sleepReply_agreed (hc : d.calm) (n : Nego) : d.Agreed (d.sleepReply n) := by
  unfold Dev.sleepReply
  extract_lets d1
  have hceil : d.Agreed d1 := by
    unfold d1
    split <;> exact ⟨rfl, rfl, rfl, id⟩
  split
  · exact hceil.trans ((Dev.Rested.refl d1).endJobs (hceil.calm hc) _ _ _).agreed
  · split
    · exact hceil.trans (reply_rested _ _ _ _).agreed
    · exact hceil

/-- A domain that acknowledges is followed by the next one to be asked. -/
theorem acknowledge_next (hc : d.calm) {k : Nat} (hk : nextAsked n.target n.asked = some k) :
    ∃ e, d.acknowledge n = (e, []) ∧ d.Agreed e ∧ e.pwr.nego.map (·.asked) = some k := by
  unfold Dev.acknowledge
  extract_lets d1 n1
  have hd1 : d.Agreed d1 := by
    unfold d1
    split
    · exact sleepReply_agreed hc n
    · exact (Dev.Rested.refl d).agreed
  rw [hk]
  have hasleep := setAsleep_rested (d := d1.onPwr (fun p => { p with nego := some { n1 with asked := k, stopped := k :: n1.stopped } })) k true
  have hasked : d1.Agreed (d1.onPwr (fun p => { p with nego := some { n1 with asked := k, stopped := k :: n1.stopped } })) := ⟨rfl, rfl, rfl, id⟩
  refine ⟨_, rfl, (hd1.trans hasked).trans hasleep.agreed, ?_⟩
  rw [hasleep.pwr]
  rfl

/-- After the last domain the part sleeps. -/
theorem acknowledge_last (hc : d.calm) (hk : nextAsked n.target n.asked = none) : ∃ e, d.acknowledge n = e.enterSleep n.target ∧ d.Agreed e := by
  unfold Dev.acknowledge
  rw [hk]
  refine ⟨_, rfl, ?_⟩
  split
  · exact sleepReply_agreed hc n
  · exact (Dev.Rested.refl d).agreed

/-! ### P2, P3 and P4 (R419 to R422) -/

/-- The power controller after the timebase has stopped. -/
def Power.stopped (p : Power) (target : BitVec 3) (now : Nat) : Power := { p with pstate := target, nego := none, sleepClk := now, wakeStep := 0 }

/-- From d to e the part came to sleep, as P2 and P3 do: the cores stand, nothing waits in Keystone, and both links are DOWN. -/
structure Dev.Slept (d : Dev) (target : BitVec 3) (e : Dev) : Prop where
  cores : e.cores = d.cores
  pwr : e.pwr = d.pwr.stopped target d.clk
  calm : e.calm
  down : ∀ p, (e.via p).st = .down

theorem Dev.Slept.trans {target : BitVec 3} {f : Dev} (h : d.Slept target e) (g : e.Rested f) : d.Slept target f :=
  ⟨g.cores.trans h.cores, g.pwr.trans h.pwr, g.calm h.calm, fun p => g.down p (h.down p)⟩

theorem watchdog_rested : d.Rested d.watchdog := by
  unfold Dev.watchdog
  split
  · exact Dev.Rested.trans (e := d.onKs (fun k => { k with stopped := true, graceEnd := none })) (.of_eq rfl rfl rfl rfl rfl) (raise_rested _ _ _)
  · exact .refl d

theorem viaSleep_both (hc : d.calm) :
    d.Rested ((d.viaSleep .up).viaSleep .dn) ∧ ∀ p, (((d.viaSleep .up).viaSleep .dn).via p).st = .down := by
  obtain ⟨hup, hupDown⟩ := viaSleep_rested hc .up
  obtain ⟨hdn, hdnDown⟩ := viaSleep_rested (hup.calm hc) .dn
  refine ⟨hup.trans hdn, fun p => ?_⟩
  cases p with
  | up => exact hdn.down .up hupDown
  | dn => exact hdnDown

/-- The channels that run are told something one after another. -/
theorem readyDdrs_rested (f : Ddr → Ddr) (l : List Nat) (d : Dev) : d.Rested (l.foldl (fun x n => if (x.ddr n).ready then x.onDdr n f else x) d) := by
  refine .foldl (.refl d) (fun x k => ?_) l
  split
  · exact .of_eq rfl rfl rfl rfl rfl
  · exact .refl x

theorem powerDown_rested : d.Rested d.powerDown := readyDdrs_rested _ _ d

theorem stopClocks_slept (hc : d.calm) (target : BitVec 3) : d.Slept target (d.stopClocks target) := by
  have hwatched := watchdog_rested (d := d)
  obtain ⟨hlinks, hdown⟩ := viaSleep_both (hwatched.calm hc)
  unfold Dev.stopClocks
  extract_lets d1 d2 d3
  have hrefresh : d1.Rested d2 := readyDdrs_rested _ _ d1
  have hd1 : d.Rested d1 := hwatched.trans hlinks
  replace hdown : ∀ p, (d1.via p).st = .down := hdown
  clear_value d1 d2
  obtain ⟨hcores, hpwr, -, hcalm, -⟩ := hd1.trans hrefresh
  refine ⟨hcores, ?_, hcalm hc, fun p => ?_⟩
  · exact congrArg (·.stopped target d.clk) hpwr
  · have := hrefresh.down p (hdown p)
    cases p <;> exact this

/-- A device that is to sleep once something has been told to the hosts. -/
theorem Dev.Rested.sleeps (h : d.Rested e) (hc : d.calm) (target : BitVec 3) : d.Slept target (e.stopClocks target) := by
  obtain ⟨hcores, hpwr, hcalm, hdown⟩ := stopClocks_slept (h.calm hc) target
  rw [h.pwr, h.clk] at hpwr
  exact ⟨hcores.trans h.cores, hpwr, hcalm, hdown⟩

theorem enterP2_slept (hc : d.calm) : d.Slept 2#3 d.enterP2 := by
  have hslept := (bothVec_rested (d := d) 3#11).sleeps hc 2#3
  unfold Dev.enterP2
  exact (hslept.trans (onPort_rested .a _)).trans (onPort_rested .b _)

theorem tellFreed_rested : d.Rested d.tellFreed := by
  unfold Dev.tellFreed
  split
  · exact bothVec_rested _
  · exact .refl d

/-- P3 also takes the core rails off; what the part loses with them is nothing of Keystone. -/
theorem enterP3_slept (hc : d.calm) : d.enterP3.calm ∧ d.enterP3.pwr.nego = none ∧ d.enterP3.pwr.pstate = 3#3 ∧ d.enterP3.pwr.enCore = false
    ∧ d.enterP3.pwr.sleepClk = d.clk := by
  obtain ⟨-, hpwr, hcalm, -⟩ := ((tellFreed_rested (d := d)).trans (bothVec_rested 3#11)).sleeps hc 3#3
  unfold Dev.enterP3
  generalize (d.tellFreed.bothVec 3#11).stopClocks 3#3 = x at hpwr hcalm
  exact ⟨hcalm, (congrArg Power.nego hpwr :), (congrArg Power.pstate hpwr :), rfl, (congrArg Power.sleepClk hpwr :)⟩

/-! ### Wake (R434) -/

/-- The power controller after step 2 of a wake: what was slept is counted, once. -/
def Power.resumed (p : Power) (now : Nat) : Power :=
  if 2 ≤ p.wakeStep then p else { p with wakeStep := 2, slept := p.slept + BitVec.ofNat 64 (crystalTicks (now - p.sleepClk)) }

theorem resumeTb_eq : d.resumeTb.cores = d.cores ∧ d.resumeTb.pwr = d.pwr.resumed d.clk ∧ (d.calm → d.resumeTb.calm) := by
  unfold Dev.resumeTb Power.resumed Dev.onPwr
  dsimp only
  generalize BitVec.ofNat 64 (crystalTicks (d.clk - d.pwr.sleepClk)) = k
  split <;> exact ⟨rfl, rfl, id⟩

theorem resumed_wakeSafe (p : Power) (now : Nat) : (p.resumed now).wakeSafe = p.wakeSafe := by unfold Power.resumed; split <;> rfl

theorem resumed_slept (p : Power) (now : Nat) :
    (p.resumed now).slept = if 2 ≤ p.wakeStep then p.slept else p.slept + BitVec.ofNat 64 (crystalTicks (now - p.sleepClk)) := by
  unfold Power.resumed
  split <;> rfl

/-- What a wake that SAFE_N did not cause comes to: P0, with Keystone and every bent running, and so long slept. -/
structure Dev.Woken (d : Dev) (slept : BitVec 64) (e : Dev) : Prop where
  cores : e.cores = d.cores
  calm : e.calm
  pstate : e.pwr.pstate = 0#3
  waking : e.pwr.waking = false
  slept : e.pwr.slept = slept
  gated : e.ks.gated = false
  bents : ∀ b, (e.bent b).asleep = false

theorem wakeDone_woken (hc : d.calm) (hs : d.pwr.wakeSafe = false) :
    ∃ e, d.wakeDone = (e, []) ∧ d.Woken (d.pwr.resumed d.clk).slept e := by
  obtain ⟨hcores, hpwr, hcalm⟩ := resumeTb_eq (d := d)
  have hawake := awake_rested (d := d.resumeTb) (fun _ => true)
  have hbents := awake_bents (d := d.resumeTb)
  have hoff := resumed_wakeSafe d.pwr d.clk
  rw [hs] at hoff
  generalize d.pwr.resumed d.clk = p at hpwr hoff
  unfold Dev.wakeDone
  generalize d.resumeTb.awake (fun _ => true) = x at hawake hbents
  generalize d.resumeTb = y at hcores hpwr hcalm hawake
  extract_lets d1 e d2
  have hsafe : e = (d1, []) := by
    have hsafe : d1.pwr.wakeSafe = false := (congrArg Power.wakeSafe (hawake.pwr.trans hpwr) :).trans hoff
    unfold e Dev.wakeToSafe
    rw [hsafe, Bool.false_and, if_neg Bool.false_ne_true]
  have hd1 : d1.cores = d.cores ∧ d1.pwr.slept = p.slept ∧ d1.calm ∧ ∀ b, (d1.bent b).asleep = false :=
    ⟨hawake.cores.trans hcores, (congrArg Power.slept (hawake.pwr.trans hpwr) :), hawake.calm (hcalm hc), hbents⟩
  clear_value d1
  have hd2 : d.Woken p.slept d2 := by
    unfold d2
    rw [hsafe]
    obtain ⟨hcores, hslept, hcalm, hbents⟩ := hd1
    exact ⟨hcores, hcalm, rfl, rfl, hslept, rfl, hbents⟩
  have htold := (sendVec_told (d := d2) (p := .a) 3#11).trans (sendVec_told (p := .b) 3#11)
  have hrested := bothVec_rested (d := d2) 3#11
  refine ⟨_, congrArg (d2.bothVec 3#11, ·) (congrArg Prod.snd hsafe), ?_⟩
  refine ⟨hrested.cores.trans hd2.cores, hrested.calm hd2.calm, ?_, ?_, ?_, ?_, fun b => ?_⟩
  · rw [hrested.pwr, hd2.pstate]
  · rw [hrested.pwr, hd2.waking]
  · rw [hrested.pwr, hd2.slept]
  · rw [Dev.bothVec, htold.ks, hd2.gated]
  · rw [Dev.bent, Dev.bothVec, htold.bents]
    exact hd2.bents b

end Sys2Proof.Machine
end


section
/-! PROOFS. The statement on P1, sleep negotiation, gating and wakes. -/
namespace Sys2Proof.Proofs
open Sys2Proof.Machine

variable {s : State}

/-! ### P1 and the gating of slots (R424, R425, R427) -/

/-- P1_ENTRY once the dwell is over (R424). -/
theorem p1Entry_enters (h : s.dev.p1Due = true) :
    ∃ t, exec .p1Entry s = .next t ∧ Keeps s t ∧ t.dev.pwr = { s.dev.pwr with pstate := 1#3, p1cnt := satInc s.dev.pwr.p1cnt } ∧ t.dev.ks.gated = true := by
  have hlinks : s.dev.Rested ((s.dev.inL1 .a).inL1 .b) := (onPort_rested .a _).trans (onPort_rested .b _)
  have hrest := hlinks.trans powerDown_rested
  have hrow : exec .p1Entry s = execP1Entry s := rfl
  unfold execP1Entry at hrow
  dsimp only at hrow
  rw [if_pos h] at hrow
  generalize ((s.dev.inL1 .a).inL1 .b).powerDown = e at hrow hrest
  refine ⟨_, hrow, keeps_of_cores hrest.cores, ?_, rfl⟩
  exact congrArg (fun p : Power => { p with pstate := 1#3, p1cnt := satInc p.p1cnt }) hrest.pwr

/-- P1_EXIT in P1, whatever its cause (R425). -/
theorem p1Exit_leaves (h : s.dev.pwr.pstate = 1#3) (cause : P1Cause) :
    ∃ t, exec (.p1Exit cause) s = .next t ∧ Keeps s t ∧ t.dev.pwr = { s.dev.pwr with pstate := 0#3, busyAt := s.dev.clk } ∧ t.dev.ks.gated = false := by
  have hleft : s.dev.leaveP1.pwr = { s.dev.pwr with pstate := 0#3, busyAt := s.dev.clk } ∧ s.dev.leaveP1.ks.gated = false := by
    unfold Dev.leaveP1
    rw [if_pos h]
    exact ⟨rfl, rfl⟩
  have hcores := leaveP1_cores s.dev
  have hrow : exec (.p1Exit cause) s = execP1Exit cause s := rfl
  unfold execP1Exit at hrow
  dsimp only at hrow
  rw [if_pos h] at hrow
  generalize s.dev.leaveP1 = e at hrow hleft hcores
  cases cause with
  | l1Exit p =>
    refine ⟨_, hrow, keeps_of_cores ((onPort_rested p _).cores.trans hcores), ?_, ?_⟩
    · cases p <;> exact hleft.1
    · cases p <;> exact hleft.2
  | delivery | deck | doorbell | i3c | raise => exact ⟨_, hrow, keeps_of_cores hcores, hleft⟩

/-- CORE_GATE of a slot that can be gated (R427). -/
theorem coreGate_gates {c : CoreId} (h : s.dev.mayGate c.toNat = true) :
    ∃ t, exec (.coreGate c) s = .next t ∧ t.mem = s.mem ∧ t.pending = s.pending
      ∧ t.dev.core c.toNat = { s.dev.core c.toNat with status := .gated } ∧ ∀ i, i ≠ c.toNat → t.dev.core i = s.dev.core i := by
  have hrow : exec (.coreGate c) s = s.keep (if s.dev.mayGate c.toNat then _ else s.dev) := rfl
  rw [if_pos h] at hrow
  refine ⟨_, hrow, rfl, rfl, ?_, fun i hi => ?_⟩
  · rw [Dev.core_seen, Dev.core_onCore]
  · rw [Dev.core_seen, Dev.core_onCore_other _ _ hi]

/-! ### Sleep negotiation (R236, R428, R429) -/

section
variable {n : Nego} {l12 : Bool} (hn : s.dev.pwr.nego = some n) (hc : s.dev.calm)
include hn hc

/-- A refusal, by whichever row, where nothing waits in Keystone. -/
theorem refuseSleep_refuses {i : Instr} (reason : Nat) (hrow : exec i s = s.commit (settleEff s.mem (s.dev.refuseSleep n.asked reason, []))) :
    ∃ t, exec i s = .next t ∧ Keeps s t ∧ t.dev.pwr = { s.dev.pwr with
      nego := none, refValid := true, refReason := BitVec.ofNat 8 reason, refDomain := BitVec.ofNat 8 n.asked } := by
  have hrest := refuseSleep_rested hc hn n.asked reason
  rw [settleEff_calm s.mem (hrest.calm hc)] at hrow
  exact ⟨_, hrow, keeps_of_cores hrest.cores, hrest.pwr⟩

omit hc in
/-- What SLEEP_DOMAIN_ANSWER does of a domain that has no reason to refuse and has drained. -/
theorem sleepDomainAnswer_acknowledges (hr : s.dev.refusal n l12 = none) (hd : s.dev.drainedAt n.asked = true) :
    exec (.sleepDomainAnswer l12) s = s.commit (settleEff s.mem (s.dev.acknowledge n)) := by
  change execSleepDomainAnswer l12 s = _
  simp only [execSleepDomainAnswer, hn, hr, hd, if_true]

/-- SLEEP_DOMAIN_ANSWER of a domain that refuses (R428). -/
theorem sleepDomainAnswer_refuses {r : Nat} (hr : s.dev.refusal n l12 = some r) :
    ∃ t, exec (.sleepDomainAnswer l12) s = .next t ∧ Keeps s t ∧ t.dev.pwr = { s.dev.pwr with
      nego := none, refValid := true, refReason := BitVec.ofNat 8 r, refDomain := BitVec.ofNat 8 n.asked } := by
  refine refuseSleep_refuses hn hc r ?_
  change execSleepDomainAnswer l12 s = _
  simp only [execSleepDomainAnswer, hn, hr]

/-- DRAIN_TIMEOUT of a domain that has not drained (R236). -/
theorem drainTimeout_refuses (hd : s.dev.drainedAt n.asked = false) :
    ∃ t, exec .drainTimeout s = .next t ∧ Keeps s t ∧ t.dev.pwr = { s.dev.pwr with
      nego := none, refValid := true, refReason := 1#8, refDomain := BitVec.ofNat 8 n.asked } := by
  refine refuseSleep_refuses hn hc 1 ?_
  change execDrainTimeout s = _
  simp only [execDrainTimeout, hn, hd, Bool.false_eq_true, if_false]

section
variable (hr : s.dev.refusal n l12 = none) (hd : s.dev.drainedAt n.asked = true)
include hr hd

/-- A domain that acknowledges, with another to follow (R428). -/
theorem sleepDomainAnswer_asksNext {k : Nat} (hk : nextAsked n.target n.asked = some k) :
    ∃ t, exec (.sleepDomainAnswer l12) s = .next t ∧ Keeps s t ∧ t.dev.pwr.nego.map (·.asked) = some k ∧ t.dev.pwr.pstate = s.dev.pwr.pstate := by
  obtain ⟨e, hack, hagreed, hasked⟩ := acknowledge_next hc hk
  have hrow := sleepDomainAnswer_acknowledges hn hr hd
  rw [hack, settleEff_calm s.mem (hagreed.calm hc)] at hrow
  exact ⟨_, hrow, keeps_of_cores hagreed.cores, hasked, hagreed.pstate⟩

/-- After the last domain P2 is entered (R419). -/
theorem sleepDomainAnswer_entersP2 (hk : nextAsked n.target n.asked = none) (ht : n.target = 2#3) :
    ∃ t, exec (.sleepDomainAnswer l12) s = .next t ∧ Keeps s t ∧ t.dev.pwr.nego = none ∧ t.dev.pwr.pstate = 2#3 ∧ t.dev.pwr.sleepClk = s.dev.clk
      ∧ (t.dev.via .up).st = .down ∧ (t.dev.via .dn).st = .down := by
  obtain ⟨e, hack, hagreed⟩ := acknowledge_last hc hk
  obtain ⟨hcores, hpwr, hcalm, hdown⟩ := enterP2_slept (hagreed.calm hc)
  have hrow := sleepDomainAnswer_acknowledges hn hr hd
  rw [hack, ht, show e.enterSleep 2#3 = (e.enterP2, []) from rfl, settleEff_calm s.mem hcalm] at hrow
  generalize e.enterP2 = x at hrow hcores hpwr hdown
  refine ⟨_, hrow, keeps_of_cores (hcores.trans hagreed.cores), (congrArg Power.nego hpwr :), (congrArg Power.pstate hpwr :), ?_, hdown .up, hdown .dn⟩
  exact (congrArg Power.sleepClk hpwr :).trans hagreed.clk

/-- After the last domain P3 is entered (R419, R512). -/
theorem sleepDomainAnswer_entersP3 (hk : nextAsked n.target n.asked = none) (ht : n.target = 3#3) :
    ∃ t, exec (.sleepDomainAnswer l12) s = .next t ∧ t.pending = s.pending ∧ t.dev.pwr.nego = none ∧ t.dev.pwr.pstate = 3#3
      ∧ t.dev.pwr.enCore = false ∧ t.dev.pwr.sleepClk = s.dev.clk := by
  obtain ⟨e, hack, hagreed⟩ := acknowledge_last hc hk
  obtain ⟨hcalm, hnego, hstate, hcore, hclk⟩ := enterP3_slept (hagreed.calm hc)
  have hrow := sleepDomainAnswer_acknowledges hn hr hd
  rw [hack, ht, Dev.enterSleep, if_neg (by decide), if_pos rfl] at hrow
  generalize e.enterP3 = x at hrow hcalm hnego hstate hcore hclk
  rw [settleEff_of_calm s.mem (e := (x, _)) hcalm] at hrow
  exact ⟨_, hrow, rfl, hnego, hstate, hcore, hclk.trans hagreed.clk⟩

/-- After the last domain P4 is entered, which is mode OFF (R397, R419, R512). -/
theorem sleepDomainAnswer_entersP4 (hk : nextAsked n.target n.asked = none) (ht : n.target = 4#3) :
    ∃ t, exec (.sleepDomainAnswer l12) s = .next t ∧ t.pending = s.pending ∧ t.dev.pwr.nego = none ∧ t.dev.pwr.pstate = 4#3
      ∧ t.dev.pwr.enRet = false ∧ t.dev.pwr.enCore = false ∧ t.dev.mode.mode = mOff := by
  obtain ⟨e, hack, -⟩ := acknowledge_last hc hk
  have hrow := sleepDomainAnswer_acknowledges hn hr hd
  rw [hack, ht, show e.enterSleep 4#3 = (e.enterP4, coldClears) from rfl, settleEff_of_calm s.mem (show e.enterP4.calm from rfl)] at hrow
  exact ⟨_, hrow, rfl, rfl, rfl, rfl, rfl, rfl⟩

end

end

/-! ### Wakes (R422, R432 to R434) -/

/-- A source that is enabled in a sleep state starts the wake and is recorded (R432). -/
theorem wakeBy_wakes {code : Nat} {i : Instr} (hn : s.dev.pwr.nego = none) (hw : s.dev.pwr.waking = false)
    (hon : s.dev.pwr.wakeOn code s.dev.pwr.pstate.toNat = true) (hrow : exec i s = s.keep (s.dev.wakeBy code)) :
    ∃ t, exec i s = .next t ∧ Keeps s t ∧ t.dev.pwr.waking = true ∧ t.dev.pwr.wakeSrc = BitVec.ofNat 8 code
      ∧ t.dev.pwr.wakeFrom = s.dev.pwr.pstate ∧ t.dev.pwr.pstate = s.dev.pwr.pstate := by
  have hstart : s.dev.wakeBy code = s.dev.onPwr (fun p => p.startWake code) := by simp [Dev.wakeBy, hn, hon, hw]
  rw [hstart] at hrow
  exact ⟨_, hrow, keeps_of_cores rfl, rfl, rfl, rfl, rfl⟩

/-- WAKE_COMPLETE once every rail is good (R434). -/
theorem wakeComplete_runs (hw : s.dev.pwr.waking = true) (hst : s.dev.pwr.pstate = 2#3 ∨ s.dev.pwr.pstate = 3#3)
    (hrails : s.dev.pwr.railsUp = 0x1FFFF#17) (hsafe : s.dev.pwr.wakeSafe = false) (hc : s.dev.calm) :
    ∃ t, exec .wakeComplete s = .next t ∧ Keeps s t ∧ t.dev.pwr.pstate = 0#3 ∧ t.dev.pwr.waking = false ∧ t.dev.ks.gated = false
      ∧ t.dev.pwr.slept = (if 2 ≤ s.dev.pwr.wakeStep then s.dev.pwr.slept
        else s.dev.pwr.slept + BitVec.ofNat 64 (crystalTicks (s.dev.clk - s.dev.pwr.sleepClk)))
      ∧ ∀ b, b < 128 → (t.dev.bent b).asleep = false := by
  obtain ⟨e, hdone, hcores, hcalm, hstate, hwaking, hslept, hgated, hbents⟩ := wakeDone_woken hc hsafe
  have hready : (s.dev.pwr.waking && (s.dev.pwr.pstate == 2#3 || s.dev.pwr.pstate == 3#3) && s.dev.pwr.railsUp == 0x1FFFF#17) = true := by
    simp [hw, hrails, hst]
  have hrow : exec .wakeComplete s = s.keep e := by
    change execWakeComplete s = _
    unfold execWakeComplete
    dsimp only
    rw [if_pos hready, hdone, settleEff_calm s.mem hcalm]
    rfl
  exact ⟨_, hrow, keeps_of_cores hcores, hstate, hwaking, hgated, hslept.trans (resumed_slept _ _), fun b _ => hbents b⟩

/-- Settles O49, row by row: what the rows of P1, of the negotiation and of a wake do besides leaves the cores, the power controller and Keystone's
waiting commands as they are. -/
theorem powerStatesAndWakes : Obligations.PowerStatesAndWakes := by
  unfold Obligations.PowerStatesAndWakes
  refine ⟨fun s => ⟨p1Entry_enters, p1Exit_leaves, fun c => coreGate_gates, fun n hn hc => ⟨fun l12 r => sleepDomainAnswer_refuses hn hc, ?_,
    drainTimeout_refuses hn hc⟩⟩, fun s => ⟨fun hn hw => ⟨?_, ?_, ?_⟩, wakeComplete_runs⟩⟩
  · exact fun l12 hr hd => ⟨fun k => sleepDomainAnswer_asksNext hn hc hr hd, sleepDomainAnswer_entersP2 hn hc hr hd,
      sleepDomainAnswer_entersP3 hn hc hr hd, sleepDomainAnswer_entersP4 hn hc hr hd⟩
  · exact fun hon => wakeBy_wakes hn hw hon rfl
  · exact fun hon hdue => wakeBy_wakes hn hw hon (congrArg s.keep (if_pos hdue))
  · exact fun p hon hcan => wakeBy_wakes hn hw hon (congrArg s.keep (if_pos hcan))

end Sys2Proof.Proofs
end

section
/-! PROOFS. The statement on the semaphore, which fails at a tick at which words of an I3C write transfer flow that R321 has held: they reach from
CMD_DB round the end of the layout to SEM_REL, nothing holds it any more, and the word in SEM_REL releases the semaphore of port B in that very tick,
where the statement has every tick before the end of the lease leave the semaphore as it was. -/
namespace Sys2Proof.Proofs
open Sys2Proof.Machine

/-- Port B, the I3C target, holds the semaphore with a lease of 10 ms; of a write transfer the word 1 for SEM_REL (byte offset 1008h) is still to be
written. -/
def releaseHeldBack : State :=
  { State.reset with dev := { sem := { holder := some .b, lease := 10#16, expiry := 8000000 }, portB := { i3cRest := [(0x1008, 1#32)] } } }

/-- Whether the semaphore is free after a step. -/
def freeAfterStep (s : State) : Bool :=
  match step s with
  | .next t => t.dev.sem.holder.isNone
  | .fault _ | .refused _ => false

/-- The tick writes the word, and the semaphore is free long before its lease ends. -/
theorem releaseHeldBack_frees : freeAfterStep releaseHeldBack = true := by decide +kernel

/-- Refutes O54: in the tick in which a held I3C write transfer reaches SEM_REL the semaphore is released, though the lease has not ended. -/
theorem not_semaphoreActs : ¬ Obligations.SemaphoreActs := by
  unfold Obligations.SemaphoreActs
  intro h
  obtain ⟨-, -, -, hlease⟩ := h releaseHeldBack .b 0#16 0#32
  obtain ⟨-, -, htick⟩ := hlease rfl rfl
  obtain ⟨t, ht, hsem⟩ := htick rfl rfl
  rw [if_neg (by decide +kernel)] at hsem
  have hheld : freeAfterStep releaseHeldBack = false := by
    unfold freeAfterStep
    rw [ht]
    exact congrArg (fun m : Sem => m.holder.isNone) hsem
  rw [releaseHeldBack_frees] at hheld
  cases hheld

end Sys2Proof.Proofs
end

section
/-! PROOFS. The statement on a host's accesses, which fails where a transaction under way already bears the number that the part gives out next: the
event of a doorbell takes the same number and waits behind it; the grant that moves the other transaction on takes every entry of that number off the
list and puts back the other alone (Dev.pass), and the event is lost. -/
namespace Sys2Proof.Proofs
open Sys2Proof.Machine

/-- A part that has given out no number yet, with the stray read under way; the link of port A is up. -/
def doorbellClash : State := { State.reset with dev := { txns := [strayRead], portA := { linkUp := true } } }

/-- Port A's host rings doorbell 0 of bent 0. -/
def ringZero : Instr := .pciHdb .a 0#16 0#7 1#32

/-- Whether an event is among the transactions after an instruction. -/
def eventSent (i : Instr) (s : State) : Bool :=
  match exec i s with
  | .next t => t.dev.txns.any (fun x => x.ty == .evt)
  | .fault _ | .refused _ => true

/-- No event is left of the doorbell. -/
theorem doorbellClash_loses : eventSent ringZero doorbellClash = false := by decide +kernel

/-- Refutes O52: where a transaction under way bears the next number to be given out, a doorbell that the port takes leaves no EVT behind. -/
theorem not_hostAccessesAreSent : ¬ Obligations.HostAccessesAreSent := by
  unfold Obligations.HostAccessesAreSent
  intro h
  obtain ⟨hbell, -⟩ := h doorbellClash .a 0#28 0#36 0#8 0#8 0#8 0#8
  obtain ⟨hrung, -⟩ := hbell 0#16 0#7 1#32 (by decide +kernel) (by decide +kernel) (by decide +kernel)
  obtain ⟨t, ht, -, hevents⟩ := hrung (by decide +kernel)
  obtain ⟨x, hx, hty, -⟩ := hevents 0 (by decide) (by decide)
  have hsent : eventSent ringZero doorbellClash = true := by
    unfold eventSent ringZero
    rw [ht]
    exact List.any_eq_true.mpr ⟨x, hx, by simp [hty]⟩
  rw [doorbellClash_loses] at hsent
  cases hsent

end Sys2Proof.Proofs
end

section
/-! SUPPORT. What a port is told (vectors, In-Band Interrupts), what the semaphore's forced release leaves alone, and what an endpoint's reset clears. -/
namespace Sys2Proof.Machine

variable {d : Dev} {p q : Port}

/-! ### Vectors (R326, R327, R329) -/

/-- From t to u a port was told something: the pending bits and what it has sent its host may differ, and nothing else. -/
def PortSt.Notified (t u : PortSt) : Prop :=
  ∃ pba vec sent ibi, u = { t with pba := pba, lastMsix := vec, msixSent := sent, lastIbi := ibi }

theorem PortSt.Notified.refl (t : PortSt) : t.Notified t := ⟨_, _, _, _, rfl⟩

theorem PortSt.Notified.trans {t u v : PortSt} (h : t.Notified u) (g : u.Notified v) : t.Notified v := by
  obtain ⟨_, _, _, _, rfl⟩ := h
  obtain ⟨pba, vec, sent, ibi, rfl⟩ := g
  exact ⟨pba, vec, sent, ibi, rfl⟩

theorem vector_notified (t : PortSt) (v : BitVec 11) : t.Notified (t.vector v) := by
  unfold PortSt.vector
  split <;> exact ⟨_, _, _, _, rfl⟩

/-- A change of one port seen from any port. -/
theorem onPort_notified {f : PortSt → PortSt} (hf : ∀ t : PortSt, t.Notified (f t)) : (d.port q).Notified ((d.onPort p f).port q) := by
  cases p <;> cases q
  · exact hf _
  · exact .refl _
  · exact .refl _
  · exact hf _

theorem sendVec_notified (v : BitVec 11) : (d.port q).Notified ((d.sendVec p v).port q) := by
  unfold Dev.sendVec
  split
  · exact onPort_notified (fun t => vector_notified t v)
  · split
    · exact onPort_notified (fun t => ⟨_, _, _, _, rfl⟩)
    · exact .refl _

/-- A vector on both ports tells a port that stands as t. -/
theorem PortSt.Notified.bothVec {t : PortSt} (h : d.port q = t) (v : BitVec 11) : t.Notified ((d.bothVec v).port q) :=
  h ▸ (sendVec_notified v).trans (sendVec_notified v)

@[simp] theorem sendVec_cores (v : BitVec 11) : (d.sendVec p v).cores = d.cores := (sendVec_told v).cores

@[simp] theorem sendVec_sem (v : BitVec 11) : (d.sendVec p v).sem = d.sem := by
  unfold Dev.sendVec
  split
  · simp
  · split <;> simp

@[simp] theorem bothVec_cores (v : BitVec 11) : (d.bothVec v).cores = d.cores := by simp [Dev.bothVec]
@[simp] theorem bothVec_sem (v : BitVec 11) : (d.bothVec v).sem = d.sem := by simp [Dev.bothVec]

/-! ### The semaphore released by force (R332, R333) -/

@[simp] theorem onSem_cores (f : Sem → Sem) : (d.onSem f).cores = d.cores := rfl
@[simp] theorem onSem_sem (f : Sem → Sem) : (d.onSem f).sem = f d.sem := rfl
@[simp] theorem onSem_port (f : Sem → Sem) : (d.onSem f).port p = d.port p := by cases p <;> rfl

@[simp] theorem stat_onStat (m : Sem) (f : SemStat → SemStat) : (m.onStat p f).stat p = f (m.stat p) := by cases p <;> rfl
@[simp] theorem holder_onStat (m : Sem) (f : SemStat → SemStat) : (m.onStat p f).holder = m.holder := by cases p <;> rfl
@[simp] theorem lateAcq_onStat (m : Sem) (f : SemStat → SemStat) : (m.onStat p f).lateAcq = m.lateAcq := by cases p <;> rfl

theorem semLate_none (h : d.sem.lateAcq = none) : d.semLate = d := by simp [Dev.semLate, h]

theorem semGrant_frame (lease : BitVec 16) : (d.semGrant p lease).cores = d.cores ∧ (d.port q).Notified ((d.semGrant p lease).port q) := by
  unfold Dev.semGrant Dev.semHold
  exact ⟨bothVec_cores _, .bothVec (by simp) _⟩

/-- A late acquisition granted changes no core, and tells the ports. -/
theorem semLate_frame : d.semLate.cores = d.cores ∧ (d.port q).Notified (d.semLate.port q) := by
  unfold Dev.semLate
  split
  · split
    · obtain ⟨hcores, hport⟩ := semGrant_frame (d := d.onSem _) (q := q) _
      exact ⟨hcores, onSem_port (d := d) _ ▸ hport⟩
    · exact ⟨rfl, .refl _⟩
  · exact ⟨rfl, .refl _⟩

/-- The device at a forced release, before an acquisition of the same tick is granted. -/
def Dev.semTaken (d : Dev) (p : Port) (why : BitVec 2) : Dev :=
  ((d.onSem (fun m => m.freed.onStat p (fun x => { x with forced := true, why := why }))).bothVec 2#11).raise 706 (Port.num p) (why.setWidth 16)

theorem semForce_eq (why : BitVec 2) : d.semForce p why = (d.semTaken p why).semLate := rfl

/-- A forced release changes no core, and tells the ports. -/
theorem semForce_frame (why : BitVec 2) : (d.semForce p why).cores = d.cores ∧ (d.port q).Notified ((d.semForce p why).port q) := by
  obtain ⟨hcores, hport⟩ := semLate_frame (d := d.semTaken p why) (q := q)
  rw [semForce_eq]
  refine ⟨hcores.trans (by simp [Dev.semTaken]), .trans ?_ hport⟩
  rw [Dev.semTaken, raise_port]
  exact .bothVec (onSem_port _) _

/-- A forced release for which no acquisition of the same tick waits leaves the semaphore free, says why, and is raised (R333). -/
theorem semForce_frees (why : BitVec 2) (h : d.sem.lateAcq = none) :
    (d.semForce p why).sem.holder = none ∧ ((d.semForce p why).sem.stat p).forced = true ∧ ((d.semForce p why).sem.stat p).why = why
      ∧ (d.semForce p why).raising 706 (Port.num p) := by
  have hsem : (d.semTaken p why).sem = d.sem.freed.onStat p (fun x => { x with forced := true, why := why }) := by simp [Dev.semTaken]
  rw [semForce_eq, semLate_none (by rw [hsem, lateAcq_onStat]; exact h), hsem, holder_onStat, stat_onStat]
  exact ⟨rfl, rfl, rfl, raise_raising _ _ _ _⟩

/-! ### Configuration writes (R310) -/

/-- Whatever else a word of configuration space does, the bits of it that a host may set are stored. -/
theorem cfgWrite_cfg (t : PortSt) (reg : Nat) (v : W32) : (t.cfgWrite reg v).cfg = Tab.put t.cfg reg (v &&& cfgMask reg) := by
  unfold PortSt.cfgWrite
  dsimp only
  split
  · rfl
  · split <;> rfl

/-! ### An endpoint reset (R308, R310, R322, R328) -/

/-- In e, where d was before, the endpoint of port p has been reset, and the semaphore that it held released by force. -/
structure Dev.EndpointCleared (d : Dev) (p : Port) (e : Dev) : Prop where
  cores : e.cores = d.cores
  port : (d.port p).endpointReset.Notified (e.port p)
  kept : d.sem.holder ≠ some p → e.sem = d.sem ∧ e.port p = (d.port p).endpointReset
  freed : d.sem.holder = some p → d.sem.lateAcq = none → e.sem.holder = none ∧ (e.sem.stat p).forced = true ∧ (e.sem.stat p).why = 2#2
    ∧ e.raising 706 (Port.num p)

/-- The device at an endpoint reset, before its port loses the semaphore. -/
def Dev.endpointBare (d : Dev) (p : Port) : Dev :=
  let d1 := { d.onPort p PortSt.endpointReset with txns := d.txns.map (fun t => t.orphan p) }
  if d1.tbPort = some p then { d1 with tbSlew := 0, tbLock := false } else d1

theorem endpointBare_frame : (d.endpointBare p).cores = d.cores ∧ (d.endpointBare p).sem = d.sem
    ∧ (d.endpointBare p).port p = (d.port p).endpointReset := by
  unfold Dev.endpointBare
  extract_lets d1
  have hport : d1.port p = (d.port p).endpointReset := by cases p <;> rfl
  split
  · exact ⟨Dev.onPort_cores _ _ _, Dev.onPort_sem _ _ _, by cases p <;> exact hport⟩
  · exact ⟨Dev.onPort_cores _ _ _, Dev.onPort_sem _ _ _, hport⟩

theorem endpointReset_eq : d.endpointReset p = if (d.endpointBare p).sem.holder = some p then (d.endpointBare p).semForce p 2#2 else d.endpointBare p := rfl

theorem endpointReset_cleared (d : Dev) (p : Port) : d.EndpointCleared p (d.endpointReset p) := by
  obtain ⟨hcores, hsem, hport⟩ := endpointBare_frame (d := d) (p := p)
  rw [endpointReset_eq]
  by_cases hh : d.sem.holder = some p
  · rw [hsem, if_pos hh]
    obtain ⟨hc, hn⟩ := semForce_frame (d := d.endpointBare p) (p := p) (q := p) 2#2
    exact ⟨hc.trans hcores, hport ▸ hn, fun h => absurd hh h, fun _ hl => semForce_frees _ (hsem ▸ hl)⟩
  · rw [hsem, if_neg hh]
    exact ⟨hcores, hport ▸ .refl _, fun _ => ⟨hsem, hport⟩, fun h => absurd h hh⟩

/-- A link lost is down; no core and nothing of the semaphore changes (R308). -/
theorem linkLost_frame (d : Dev) (p : Port) : (d.linkLost p).cores = d.cores ∧ (d.linkLost p).sem = d.sem ∧ ((d.linkLost p).port p).linkUp = false := by
  unfold Dev.linkLost
  split
  · simp
  · next h => exact ⟨rfl, rfl, by simpa using h⟩

end Sys2Proof.Machine
end

section
/-! PROOFS. The statement on the endpoints. -/
namespace Sys2Proof.Proofs
open Sys2Proof.Machine

variable {s : State} {p : Port}

/-- A configuration write keeps the bits that a host may set, and notes the first requester (R310, R322). -/
theorem pciConfigWrite_kept (rid : BitVec 16) (reg : BitVec 10) (v : W32) (he : s.dev.isPcie p = true) (hs : s.dev.portServes p = true) :
    ∃ t, exec (.pciConfigWrite p rid reg v) s = .next t ∧ Keeps s t ∧ Tab.find 0#32 (t.dev.port p).cfg reg.toNat = v &&& cfgMask reg.toNat
      ∧ (t.dev.port p).hostRid = some ((s.dev.port p).hostRid.getD rid) := by
  have hrow : exec (.pciConfigWrite p rid reg v) s = s.keep ((s.dev.portTouched p).onPort p (fun t =>
      { t.cfgWrite reg.toNat v with hostRid := some (t.hostRid.getD rid) })) := congrArg s.keep (if_pos (by simp [he, hs]))
  refine ⟨_, hrow, keeps_of_cores (by simp), ?_, by simp⟩
  simp [cfgWrite_cfg]

/-- What the statement asks of an endpoint's reset, for a row that makes one after a frame of its own (R308, R333). -/
theorem endpointReset_rows {i : Instr} {d : Dev} (hrow : exec i s = s.keep (d.endpointReset p)) (hcores : d.cores = s.dev.cores)
    (hsem : d.sem = s.dev.sem) :
    ∃ t, exec i s = .next t ∧ Keeps s t
      ∧ ((t.dev.port p).cfg = [] ∧ (s.dev.sem.holder ≠ some p → (t.dev.port p).pba = 0#2048) ∧ (t.dev.port p).msixTab = []
        ∧ (t.dev.port p).hostRid = none ∧ (t.dev.port p).ptmOfs = none ∧ (t.dev.port p).ptmEn = false ∧ (t.dev.port p).ptmInt = 0x000A#16
        ∧ (s.dev.sem.holder ≠ some p → t.dev.sem = s.dev.sem)
        ∧ (s.dev.sem.holder = some p → s.dev.sem.lateAcq = none → t.dev.sem.holder = none ∧ (t.dev.sem.stat p).forced = true
          ∧ (t.dev.sem.stat p).why = 2#2 ∧ t.dev.raising 706 (Port.num p)))
      ∧ (t.dev.port p).linkUp = (d.port p).linkUp := by
  obtain ⟨hc, ⟨_, _, _, _, hport⟩, hkept, hfreed⟩ := endpointReset_cleared d p
  rw [hsem] at hkept hfreed
  refine ⟨_, hrow, keeps_of_cores (hc.trans hcores), ⟨?_, fun h => ?_, ?_, ?_, ?_, ?_, ?_, fun h => (hkept h).1, hfreed⟩, ?_⟩
  case refine_2 => rw [Dev.port_seen, (hkept h).2]; rfl
  all_goals rw [Dev.port_seen, hport]; rfl

/-- A link comes up with its speed and width (R310). -/
theorem dlUp_raises (sp : BitVec 4) (wd : BitVec 5) (he : s.dev.endpointOn p = true) (hdown : (s.dev.port p).linkUp = false) (hlo : 1 ≤ sp.toNat)
    (hhi : sp.toNat ≤ 4) (hw : wd ∈ [1#5, 4#5, 8#5] ∨ (wd = 16#5 ∧ s.dev.bifurc = false)) :
    ∃ t, exec (.dlUp p sp wd) s = .next t ∧ Keeps s t ∧ (t.dev.port p).linkUp = true ∧ (t.dev.port p).speed = sp ∧ (t.dev.port p).width = wd := by
  have hgood : (wd == 1#5 || wd == 4#5 || wd == 8#5 || (wd == 16#5 && !s.dev.bifurc)) = true := by
    simpa [or_assoc] using hw
  have hrow : exec (.dlUp p sp wd) s = s.keep (s.dev.onPort p (fun t =>
      { t with linkUp := true, l1 := false, l12 := false, speed := sp, width := wd })) :=
    congrArg s.keep (if_pos (by rw [he, hdown, hgood]; simp [hlo, hhi]))
  exact ⟨_, hrow, keeps_of_cores (by simp), by simp, by simp, by simp⟩

/-- A pending vector that can be sent is sent (R327). -/
theorem msixPendingSend_sends (v : BitVec 11) (he : s.dev.endpointOn p = true) (hpend : (s.dev.port p).pba.getLsbD v.toNat = true)
    (hcan : (s.dev.port p).canSend v.toNat = true) :
    ∃ t, exec (.msixPendingSend p v) s = .next t ∧ Keeps s t ∧ (t.dev.port p).lastMsix = some v ∧ (t.dev.port p).pba.getLsbD v.toNat = false := by
  have hrow : exec (.msixPendingSend p v) s = s.keep (s.dev.onPort p (fun t =>
      { t with pba := setBit t.pba v.toNat false, lastMsix := some v, msixSent := t.msixSent + 1 })) :=
    congrArg s.keep (if_pos (by rw [he, hpend, hcan]; rfl))
  exact ⟨_, hrow, keeps_of_cores (by simp), by simp, by simp [setBit]⟩

section
variable (hgo : (s.dev.isPcie p && s.dev.portServes p && (s.dev.port p).ptmEn && (s.dev.port p).pmState != 3#2) = true)
include hgo

/-- PTM's first dialogue gives the offset (R328). -/
theorem ptmDialogue_first (h : BitVec 64) (hofs : (s.dev.port p).ptmOfs = none) :
    ∃ t, exec (.ptmDialogue p (some h)) s = .next t ∧ Keeps s t ∧ (t.dev.port p).ptmOfs = some (h - (s.dev.tb + s.dev.pwr.slept))
      ∧ (t.dev.port p).ptmFails = 0 := by
  have hrow : exec (.ptmDialogue p (some h)) s = s.keep (s.dev.ptmValid p h) := congrArg s.keep (if_pos hgo)
  have hfirst : s.dev.ptmValid p h = (s.dev.onPort p (fun t => { t with ptmFails := 0 })).onPort p (fun t =>
      { t with ptmOfs := some (h - (s.dev.tb + s.dev.pwr.slept)) }) := by
    unfold Dev.ptmValid
    rw [hofs]
  rw [hfirst] at hrow
  exact ⟨_, hrow, keeps_of_cores (by simp), by simp, by simp⟩

/-- A failed dialogue is counted, and the third in a row takes the lock of the timebase that the port disciplines (R328). -/
theorem ptmDialogue_failed :
    ∃ t, exec (.ptmDialogue p none) s = .next t ∧ Keeps s t ∧ (t.dev.port p).ptmFails = (s.dev.port p).ptmFails + 1
      ∧ (s.dev.tbPort = some p → 2 ≤ (s.dev.port p).ptmFails → t.dev.tbLock = false) := by
  have hrow : exec (.ptmDialogue p none) s = s.keep (s.dev.ptmFailed p) := congrArg s.keep (if_pos hgo)
  refine ⟨_, hrow, keeps_of_cores ?_, ?_, fun ht hn => ?_⟩
  · unfold Dev.ptmFailed
    dsimp only
    split <;> simp
  · unfold Dev.ptmFailed
    dsimp only
    split <;> cases p <;> rfl
  · unfold Dev.ptmFailed
    rw [if_pos ⟨ht, by omega⟩]
    rfl

end

/-- Settles O53, row by row: PERST#, a lost link and a function-level reset end in the same endpoint reset, which differs in the link alone. -/
theorem endpointsFollowTheLink : Obligations.EndpointsFollowTheLink := by
  unfold Obligations.EndpointsFollowTheLink
  refine fun s p => ⟨fun rid reg v => pciConfigWrite_kept rid reg v, fun he => ⟨?_, fun hup => ?_, fun hup => ?_,
    fun sp wd => dlUp_raises sp wd he, fun v => msixPendingSend_sends v he⟩, fun hp hs hen hpm => ⟨fun hofs h => ?_, ?_⟩⟩
  · obtain ⟨hcores, hsem, hdown⟩ := linkLost_frame s.dev p
    simpa only [hdown] using endpointReset_rows (i := .perst p) (congrArg s.keep (if_pos he)) hcores hsem
  · obtain ⟨hcores, hsem, hdown⟩ := linkLost_frame s.dev p
    simpa only [hdown] using endpointReset_rows (i := .dlDown p) (congrArg s.keep (if_pos (by simp [he, hup]))) hcores hsem
  · simpa only [hup] using endpointReset_rows (i := .flr p) (congrArg s.keep (if_pos (by simp [he, hup]))) rfl rfl
  · exact ptmDialogue_first (by simp [hp, hs, hen, hpm]) h hofs
  · exact ptmDialogue_failed (by simp [hp, hs, hen, hpm])

end Sys2Proof.Proofs
end

section
/-! SUPPORT. Command ports: what a write of CMD_DB does, and what a reply leaves in the reply buffer. -/
namespace Sys2Proof.Machine

variable {d e : Dev} {p : Port} {rid : BitVec 16} {st det : BitVec 16} {seq el : W32} {ws : List W32}

/-! ### Tables filled from a number on -/

/-- A list put at the numbers from k on is read there, and the table as before elsewhere. -/
theorem find_putAll_range' {α : Type} (z : α) (l : List α) (t : Tab α) (k n : Nat) :
    Tab.find z (Tab.putAll t ((List.range' k l.length).zip l)) n = if k ≤ n then l.getD (n - k) (Tab.find z t n) else Tab.find z t n := by
  induction l generalizing t k with
  | nil => simp [Tab.putAll]
  | cons a l ih =>
    simp only [List.length_cons, List.range'_succ, List.zip_cons_cons, Tab.putAll, ih, Tab.find_put]
    rcases Nat.lt_trichotomy n k with hlt | rfl | hgt
    · rw [if_neg (by omega), if_neg (by omega), if_neg (by omega)]
    · rw [if_neg (by omega), if_pos rfl, if_pos (by omega), Nat.sub_self, List.getD_cons_zero]
    · rw [if_pos (by omega), if_neg (by omega), if_pos (by omega), show n - k = n - (k + 1) + 1 by omega, List.getD_cons_succ]

/-! ### Replies (R338, R339) -/

/-- A port's command is answered: BUSY is clear, and the reply buffer holds the header and the payload. -/
def PortSt.Answered (x : PortSt) (st det : BitVec 16) (seq : W32) (ws : List W32) : Prop :=
  x.busy = false ∧ x.done = true ∧ Tab.find 0#32 x.repBuf 0 = (det ++ st : BitVec 32) ∧ Tab.find 0#32 x.repBuf 1 = seq
    ∧ Tab.find 0#32 x.repBuf 2 = BitVec.ofNat 32 (4 * ws.length) ∧ ∀ i, i < ws.length → Tab.find 0#32 x.repBuf (4 + i) = ws.getD i 0#32

theorem replied_iff {s t : State} : Replied s t (.port p) st det ws ↔ (t.dev.port p).Answered st det (s.dev.seqWord (.port p)) ws := Iff.rfl

/-- A reply whose status admits its payload answers the port's command. -/
theorem putReply_answered (x : PortSt) (seq el : W32) (h : hasPayload st = true ∨ ws = []) : (x.putReply st det seq el ws).Answered st det seq ws := by
  have hbody : (if hasPayload st then ws else []) = ws := by
    rcases h with h | rfl
    · rw [if_pos h]
    · exact ite_self _
  have hbuf : ∀ n, Tab.find 0#32 (x.putReply st det seq el ws).repBuf n =
      ([det ++ st, seq, BitVec.ofNat 32 (4 * ws.length), el] ++ ws : List W32).getD n (Tab.find 0#32 x.repBuf n) := by
    intro n
    simp only [PortSt.putReply, hbody]
    rw [List.range_eq_range', find_putAll_range', if_pos (Nat.zero_le n), Nat.sub_zero]
  refine ⟨rfl, rfl, hbuf 0, hbuf 1, hbuf 2, fun i hi => ?_⟩
  rw [hbuf, Nat.add_comm 4 i]
  simp [hi]

theorem PortSt.Notified.answered {x y : PortSt} (h : x.Notified y) (ha : x.Answered st det seq ws) : y.Answered st det seq ws := by
  obtain ⟨_, _, _, _, rfl⟩ := h
  exact ha

/-- A port that has been told something at most. -/
theorem unlessNoVec_frame (c : Bool) (v : BitVec 11) : (if c then d else d.sendVec p v).cores = d.cores
    ∧ (d.port p).Notified ((if c then d else d.sendVec p v).port p) := by
  cases c
  · exact ⟨sendVec_cores v, sendVec_notified v⟩
  · exact ⟨rfl, .refl _⟩

/-- The reply to a command of a port changes no core, and of the port what the reply brings and the notice of it (R339). -/
theorem reply_frame (st det : BitVec 16) (ws : List W32) : (d.reply (.port p) st det ws).cores = d.cores
    ∧ ((d.port p).putReply st det (d.seqWord (.port p)) (elapsedUs (d.port p).dbAt d.clk) ws).Notified ((d.reply (.port p) st det ws).port p) := by
  obtain ⟨hcores, hport⟩ := unlessNoVec_frame (d := d.onPort p (fun t => t.putReply st det (d.seqWord (.port p)) (elapsedUs t.dbAt d.clk) ws)) (p := p)
    (d.noVec (.port p)) 0#11
  rw [Dev.onPort_cores] at hcores
  rw [Dev.port_onPort] at hport
  exact ⟨hcores, hport⟩

/-- A busy port answers BUSY_PORT 0001h itself while Keystone takes no commands (R340). -/
theorem answerBusy_answers (h : (d.port p).busy = true) : (d.answerBusy p).cores = d.cores
    ∧ ((d.answerBusy p).port p).Answered stBusyPort 1#16 (d.seqWord (.port p)) [] := by
  obtain ⟨hcores, hport⟩ := unlessNoVec_frame (d := d.onPort p (fun t => t.putReply stBusyPort 1#16 (Tab.find 0#32 t.reqBuf 1) 0#32 [])) (p := p)
    (d.noVec (.port p)) 0#11
  rw [Dev.onPort_cores] at hcores
  rw [Dev.port_onPort] at hport
  unfold Dev.answerBusy
  rw [if_pos h]
  exact ⟨hcores, hport.answered (putReply_answered _ _ _ (.inr rfl))⟩

/-! ### The doorbell (R322, R339 to R341) -/

@[simp] theorem leaveP1_clk (d : Dev) : d.leaveP1.clk = d.clk := by unfold Dev.leaveP1; split <;> rfl
@[simp] theorem leaveP1_keystoneUp (d : Dev) : d.leaveP1.keystoneUp = d.keystoneUp := by unfold Dev.leaveP1; split <;> rfl
@[simp] theorem onPort_keystoneUp (f : PortSt → PortSt) : (d.onPort p f).keystoneUp = d.keystoneUp := by simp [Dev.keystoneUp]
@[simp] theorem portTouched_clk : (d.portTouched p).clk = d.clk := by unfold Dev.portTouched; split <;> simp
@[simp] theorem portTouched_keystoneUp : (d.portTouched p).keystoneUp = d.keystoneUp := by unfold Dev.portTouched; split <;> simp

/-- SEQ of a port's request stands in its request buffer (R337). -/
theorem seqWord_congr (h : (d.port p).reqBuf = (e.port p).reqBuf) : d.seqWord (.port p) = e.seqWord (.port p) := congrArg (Tab.find 0#32 · 1) h

/-- The device whose port p has taken a doorbell and is busy (R339). -/
def Dev.rung (d : Dev) (p : Port) : Dev :=
  (d.portTouched p).onPort p (fun t => { t with busy := true, done := false, dbAt := d.clk, fwdTo := none })

theorem rung_cores : (d.rung p).cores = d.cores := by simp [Dev.rung]

theorem rung_port : (d.rung p).port p = { d.port p with l1 := false, l12 := false, busy := true, done := false, dbAt := d.clk, fwdTo := none } := by
  simp [Dev.rung]

/-- A write that B0HOST drops is counted and raised, and leaves of its port all but the errors noted (R322). -/
theorem fromHost_dropped {f : Dev → Dev} (h : d.hostMay p rid = false) :
    (d.fromHost p rid f).cores = d.cores ∧ (d.fromHost p rid f).raising 704 (Port.num p)
      ∧ ∃ hdr, (d.fromHost p rid f).port p = { d.port p with aerHdr := hdr, errDrop := satInc (d.port p).errDrop, aerUr := true } := by
  have hdrop : d.fromHost p rid f = ((d.aerLog p).onPort p (fun x => { x with errDrop := satInc x.errDrop, aerUr := true })).raise 704 (Port.num p) 0#16 :=
    if_pos (by simpa [Dev.hostMay] using h)
  rw [hdrop]
  refine ⟨by simp, raise_raising _ _ _ _, ?_⟩
  rw [raise_port, Dev.port_onPort]
  unfold Dev.aerLog
  split
  · exact ⟨_, rfl⟩
  · exact ⟨some d.freeCtr, by cases p <;> rfl⟩

end Sys2Proof.Machine
end

section
/-! SUPPORT. A flit for the own unit: what taking it leaves alone before its content is served. -/
namespace Sys2Proof.Machine

variable {d e : Dev} {p : ViaPort}

/-- From d to e flits moved at the Viaduct's ports: the ports, the crossing registers, the pins and the collector changed, and nothing else; no port
found addresses to mismatch. -/
structure Dev.FlitsMoved (d e : Dev) : Prop where
  frame : ∃ xs ps fl up dn, e = { d with xings := xs, plb := ps, flt := fl, chain := { d.chain with up := up, dn := dn } }
  topo : ∀ q, (e.via q).topo = (d.via q).topo

theorem Dev.FlitsMoved.refl (d : Dev) : d.FlitsMoved d := ⟨⟨_, _, _, _, _, rfl⟩, fun _ => rfl⟩

theorem Dev.FlitsMoved.trans {f : Dev} (h : d.FlitsMoved e) (g : e.FlitsMoved f) : d.FlitsMoved f := by
  obtain ⟨⟨_, _, _, _, _, rfl⟩, htopo⟩ := h
  obtain ⟨⟨xs, ps, fl, up, dn, rfl⟩, gtopo⟩ := g
  exact ⟨⟨xs, ps, fl, up, dn, rfl⟩, fun q => (gtopo q).trans (htopo q)⟩

/-- The rest of the device stands as it was. -/
theorem Dev.FlitsMoved.rest (h : d.FlitsMoved e) : e.cores = d.cores ∧ (∀ q, e.port q = d.port q) ∧ e.chain.unit = d.chain.unit
    ∧ ∀ q, e.viaServes q = d.viaServes q := by
  obtain ⟨⟨xs, ps, fl, up, dn, rfl⟩, htopo⟩ := h
  exact ⟨rfl, fun q => by cases q <;> rfl, rfl, fun q => congrArg (fun b => d.chain.uvalid && !b) (htopo q)⟩

theorem onVia_moved {f : Via → Via} (h : (f (d.via p)).topo = (d.via p).topo) : d.FlitsMoved (d.onVia p f) := by
  cases p with
  | up =>
    refine ⟨⟨_, _, _, _, _, rfl⟩, fun q => ?_⟩
    cases q
    · exact h
    · rfl
  | dn =>
    refine ⟨⟨_, _, _, _, _, rfl⟩, fun q => ?_⟩
    cases q
    · rfl
    · exact h

theorem viaFree_moved (cls : BitVec 2) (n : Nat) : d.FlitsMoved (d.viaFree p cls n) := onVia_moved rfl

/-! ### Flits passed on and sent (R384, R385) -/

theorem passOne_moved (f : OutFlit) : d.FlitsMoved (d.passOne p f).2 := by
  unfold Dev.passOne
  dsimp only
  split
  · exact viaFree_moved f.cls 1
  · split
    · exact (onVia_moved rfl).trans (viaFree_moved f.cls 1)
    · exact .refl d

/-- A walk that carries something beside the device. -/
theorem Dev.FlitsMoved.foldl_snd {α β : Type} {f : α × Dev → β → α × Dev} (hf : ∀ (x : α × Dev) a, x.2.FlitsMoved (f x a).2) (l : List β)
    (x : α × Dev) : x.2.FlitsMoved (l.foldl f x).2 := by
  induction l generalizing x with
  | nil => exact .refl _
  | cons a l ih => exact (hf x a).trans (ih _)

theorem passIn_moved (p : ViaPort) : d.FlitsMoved (d.passIn p) := by
  unfold Dev.passIn
  refine (Dev.FlitsMoved.foldl_snd (fun x f => ?_) _ ([], d)).trans (onVia_moved rfl)
  have hpass := passOne_moved (d := x.2) (p := p) f
  split
  · exact .refl _
  · generalize x.2.passOne p f = r at hpass
    obtain ⟨_ | _, e⟩ := r <;> exact hpass

theorem viaSendOne_moved (h : d.viaSendOne p = some e) : d.FlitsMoved e := by
  obtain ⟨f, -, rfl⟩ := Option.map_eq_some_iff.mp h
  exact onVia_moved rfl

theorem viaMove_moved (k : Nat) (d : Dev) : d.FlitsMoved (Dev.viaMove k d) := by
  induction k generalizing d with
  | zero => exact .refl d
  | succ k ih =>
    have hpassed : d.FlitsMoved ((d.passIn .up).passIn .dn) := (passIn_moved .up).trans (passIn_moved .dn)
    unfold Dev.viaMove
    dsimp only
    split
    · next h => exact (hpassed.trans (viaSendOne_moved h)).trans (ih _)
    · split
      · next h => exact (hpassed.trans (viaSendOne_moved h)).trans (ih _)
      · exact hpassed

/-! ### A flit received (R379, R383, R385) -/

/-- What a good flit's header does finds no addresses to mismatch. -/
theorem header_topo (v : Via) (now : Nat) (cf : Bool) (h : FlitHdr) : (v.header now cf h).topo = v.topo := by
  have hacked : (v.acked h.ack).topo = v.topo := by
    unfold Via.acked
    split <;> rfl
  have hreplay : ∀ u : Via, (u.replay now cf).topo = u.topo := by
    intro u
    unfold Via.replay
    split <;> rfl
  unfold Via.header
  dsimp only
  split
  · exact (hreplay _).trans hacked
  · exact hacked

theorem viaStalled_moved : d.FlitsMoved (d.viaStalled p) := by
  unfold Dev.viaStalled Dev.viaRetrain
  split
  · split
    · exact onVia_moved rfl
    · exact .refl d
  · exact .refl d

theorem raise_moved (src inst : Nat) (det : BitVec 16) : d.FlitsMoved (d.raise src inst det) := by
  obtain ⟨xs, ps, fl, h⟩ := raise_frame d src inst det
  rw [h]
  exact ⟨⟨xs, ps, fl, _, _, rfl⟩, fun q => by cases q <;> rfl⟩

theorem cfRise_moved (old : Dev) : d.FlitsMoved (d.cfRise old p) := by
  unfold Dev.cfRise
  split
  · exact raise_moved _ _ _
  · exact .refl d

theorem viaHeader_moved (h : FlitHdr) : d.FlitsMoved (d.viaHeader p h) :=
  (((onVia_moved (header_topo _ _ _ _)).trans viaStalled_moved).trans (viaMove_moved _ _)).trans (cfRise_moved _)

/-- A flit in sequence for the own unit, at a port that serves, is served once flits have moved (R383, R385). -/
theorem viaTake_own {h : FlitHdr} (hord : d.inOrder p h) (hserve : d.viaServes p = true) (hdest : h.dest = d.chain.unit) (n : Nat)
    (bodies : List FlitBody) (f : Dev → Dev) : ∃ e, d.FlitsMoved e ∧ d.viaTake p h n (fun x => x.viaRoute p h bodies f) = f e := by
  obtain ⟨hup, hseq⟩ := hord
  let x := (d.onVia p (fun v => { v with nextRx := v.nextRx + BitVec.ofNat 12 n, nakSent := false })).viaHeader p h
  have hx : d.FlitsMoved x := (onVia_moved rfl).trans (viaHeader_moved h)
  obtain ⟨-, -, hunit, hserves⟩ := hx.rest
  refine ⟨x.viaFree p h.cls bodies.length, hx.trans (viaFree_moved _ _), ?_⟩
  have htake : d.viaTake p h n (fun x => x.viaRoute p h bodies f) = x.viaRoute p h bodies f := by simp [Dev.viaTake, hup, hseq, x]
  rw [htake, Dev.viaRoute, hserves, hserve, hunit, if_pos hdest]
  rfl

end Sys2Proof.Machine
end

section
/-! PROOFS. The statement on requests at the command ports. -/
namespace Sys2Proof.Proofs
open Sys2Proof.Machine

variable {s : State} {p : Port} {rid : BitVec 16} {v : W32}

/-! ### CMD_DB (R321, R322, R339 to R341) -/

section
variable (hs : s.dev.portServes p = true) (hd : s.dev.portDrained p = true)
include hs hd

/-- A write of CMD_DB that the port does not hold. -/
theorem cmdDb_row : exec (.cmdDb p rid v) s = s.keep ((s.dev.portTouched p).fromHost p rid (fun x => x.doorbell p v)) :=
  congrArg s.keep (if_pos (by rw [hs, hd]; rfl))

/-- One that B0HOST drops (R322). -/
theorem cmdDb_drops (hm : s.dev.hostMay p rid = false) :
    ∃ t, exec (.cmdDb p rid v) s = .next t ∧ Keeps s t ∧ (t.dev.port p).busy = (s.dev.port p).busy ∧ (t.dev.port p).reqBuf = (s.dev.port p).reqBuf
      ∧ (t.dev.port p).errDrop = satInc (s.dev.port p).errDrop ∧ t.dev.raising 704 (Port.num p) := by
  obtain ⟨hcores, hraised, hdr, hport⟩ := fromHost_dropped (d := s.dev.portTouched p) (f := fun x => x.doorbell p v)
    ((portTouched_hostMay s.dev p rid).trans hm)
  rw [portTouched_port] at hport
  refine ⟨_, cmdDb_row hs hd, keeps_of_cores (hcores.trans (portTouched_cores _ _)), ?_, ?_, ?_, hraised⟩
  all_goals rw [Dev.port_seen, hport]

variable (hm : s.dev.hostMay p rid = true)
include hm

/-- One that B0HOST lets through. -/
theorem cmdDb_rings : exec (.cmdDb p rid v) s = s.keep ((s.dev.portTouched p).doorbell p v) := by
  rw [cmdDb_row hs hd, fromHost_of_hostMay _ ((portTouched_hostMay s.dev p rid).trans hm)]

/-- With SUBMIT 0 it does nothing. -/
theorem cmdDb_noSubmit (h0 : bitOf v 0 = false) : Yields s (.cmdDb p rid v) (s.dev.portTouched p) := by
  have hnone : (s.dev.portTouched p).doorbell p v = s.dev.portTouched p := by simp [Dev.doorbell, h0]
  unfold Yields
  rw [cmdDb_rings hs hd hm, hnone, State.keep_eq]

/-- At a busy port it counts a drop (R341). -/
theorem cmdDb_busy (h1 : bitOf v 0 = true) (hbusy : (s.dev.port p).busy = true) :
    ∃ t, exec (.cmdDb p rid v) s = .next t ∧ Keeps s t ∧ (t.dev.port p).busy = true ∧ (t.dev.port p).drops = satInc (s.dev.port p).drops := by
  have hdrop : (s.dev.portTouched p).doorbell p v = (s.dev.portTouched p).onPort p (fun t => { t with drops := satInc t.drops }) := by
    simp [Dev.doorbell, h1, hbusy]
  have hrow := cmdDb_rings hs hd hm (v := v)
  rw [hdrop] at hrow
  exact ⟨_, hrow, keeps_of_cores (by simp), by simp [hbusy], by simp⟩

variable (h1 : bitOf v 0 = true) (hfree : (s.dev.port p).busy = false)
include h1 hfree

/-- A free port that takes a doorbell is busy; it goes to Keystone, or the port answers it at once (R339, R340). -/
theorem cmdDb_free : exec (.cmdDb p rid v) s = s.keep (if s.dev.keystoneUp then (s.dev.rung p).leaveP1 else (s.dev.rung p).answerBusy p) := by
  rw [cmdDb_rings hs hd hm]
  simp [Dev.doorbell, h1, hfree, Dev.rung]

theorem cmdDb_submits (hup : s.dev.keystoneUp = true) :
    ∃ t, exec (.cmdDb p rid v) s = .next t ∧ Keeps s t ∧ (t.dev.port p).busy = true ∧ (t.dev.port p).done = false ∧ (t.dev.port p).dbAt = s.dev.clk
      ∧ (t.dev.port p).reqBuf = (s.dev.port p).reqBuf := by
  have hrow := cmdDb_free hs hd hm h1 hfree
  rw [if_pos hup] at hrow
  refine ⟨_, hrow, keeps_of_cores ?_, ?_⟩
  · rw [leaveP1_cores, rung_cores]
  · rw [Dev.port_seen, leaveP1_port, rung_port]
    exact ⟨rfl, rfl, rfl, rfl⟩

theorem cmdDb_refused (hup : s.dev.keystoneUp = false) :
    ∃ t, exec (.cmdDb p rid v) s = .next t ∧ Keeps s t ∧ Replied s t (.port p) stBusyPort 1#16 [] := by
  have hrow := cmdDb_free hs hd hm h1 hfree
  rw [if_neg (by simp [hup])] at hrow
  have hport := rung_port (d := s.dev) (p := p)
  obtain ⟨hcores, hanswer⟩ := answerBusy_answers (d := s.dev.rung p) (p := p) (by rw [hport])
  refine ⟨_, hrow, keeps_of_cores (hcores.trans rung_cores), ?_⟩
  rw [replied_iff, Dev.port_seen]
  rwa [seqWord_congr (e := s.dev) (by rw [hport])] at hanswer

end

/-! ### Forwarded commands (R372) -/

/-- A forwarded command without an answer in time ends, and what is still to come of it is noted as stale. -/
theorem cmdForwardTimeout_ends (u : BitVec 4) (hbusy : (s.dev.port p).busy = true) (hto : (s.dev.port p).fwdTo = some u)
    (hlate : (s.dev.port p).fwdAt + 80000000 ≤ s.dev.clk) :
    ∃ t, exec (.cmdForwardTimeout p) s = .next t ∧ Keeps s t ∧ Replied s t (.port p) stUnitAbsent 2#16 []
      ∧ (t.dev.port p).stale = (s.dev.port p).stale ++ [(u, s.dev.seqWord (.port p), false)] := by
  let d := s.dev.onPort p (fun x => { x with stale := x.stale ++ [(u, s.dev.seqWord (.port p), false)] })
  have hport : d.port p = { s.dev.port p with stale := (s.dev.port p).stale ++ [(u, s.dev.seqWord (.port p), false)] } := Dev.port_onPort _ _ _
  have hrow : exec (.cmdForwardTimeout p) s = s.keep (d.reply (.port p) stUnitAbsent 2#16 []) := by
    refine (congrArg s.keep (if_pos (by simp [hbusy, hto, hlate]))).trans ?_
    rw [hto]
    rfl
  obtain ⟨hcores, hnote⟩ := reply_frame (d := d) (p := p) stUnitAbsent 2#16 []
  rw [seqWord_congr (e := s.dev) (by rw [hport])] at hnote
  refine ⟨_, hrow, keeps_of_cores (hcores.trans (Dev.onPort_cores _ _ _)), ?_, ?_⟩
  · rw [replied_iff, Dev.port_seen]
    exact hnote.answered (putReply_answered _ _ _ (.inr rfl))
  · obtain ⟨_, _, _, _, hstale⟩ := hnote
    rw [Dev.port_seen, hstale, hport]
    rfl

section
variable {x : ViaPort} {h : FlitHdr} {st det : BitVec 16} {el : W32} {pay : List W32} (hord : s.dev.inOrder x h) (hserve : s.dev.viaServes x = true)
  (hdest : h.dest = s.dev.chain.unit)
include hord hserve hdest

/-- A CREPLY for the own unit in sequence comes to its port. -/
theorem creplyReceive_row : ∃ e, s.dev.FlitsMoved e ∧ exec (.creplyReceive x h p false st det (s.dev.seqWord (.port p)) el pay) s =
    s.keep (e.takeCreply h.src p false st det (s.dev.seqWord (.port p)) pay) := by
  obtain ⟨e, hmoved, htake⟩ := viaTake_own hord hserve hdest _ _ (fun y => y.takeCreply h.src p false st det (s.dev.seqWord (.port p)) pay)
  exact ⟨e, hmoved, congrArg s.keep htake⟩

/-- The first answer of a forwarded command is its reply. -/
theorem creplyReceive_answers (hto : (s.dev.port p).fwdTo = some h.src)
    (hnew : (s.dev.port p).stale.contains (h.src, s.dev.seqWord (.port p), false) = false) (hst : st ≠ stAccepted)
    (hpay : hasPayload st = true ∨ pay = []) :
    ∃ t, exec (.creplyReceive x h p false st det (s.dev.seqWord (.port p)) el pay) s = .next t ∧ Keeps s t ∧ Replied s t (.port p) st det pay := by
  obtain ⟨e, hmoved, hrow⟩ := creplyReceive_row (p := p) (st := st) (det := det) (el := el) (pay := pay) hord hserve hdest
  obtain ⟨hcores, hports, -, -⟩ := hmoved.rest
  have hseq : e.seqWord (.port p) = s.dev.seqWord (.port p) := seqWord_congr (by rw [hports])
  have hreply : e.takeCreply h.src p false st det (s.dev.seqWord (.port p)) pay = e.reply (.port p) st det pay := by
    unfold Dev.takeCreply
    rw [hports, hnew]
    simp [hto, hseq, hst]
  rw [hreply] at hrow
  obtain ⟨hrest, hnote⟩ := reply_frame (d := e) (p := p) st det pay
  rw [hseq] at hnote
  refine ⟨_, hrow, keeps_of_cores (hrest.trans hcores), ?_⟩
  rw [replied_iff, Dev.port_seen]
  exact hnote.answered (putReply_answered _ _ _ hpay)

/-- A reply to a command that the port has answered itself is discarded. -/
theorem creplyReceive_discards (hold : (s.dev.port p).stale.contains (h.src, s.dev.seqWord (.port p), false) = true) :
    ∃ t, exec (.creplyReceive x h p false st det (s.dev.seqWord (.port p)) el pay) s = .next t ∧ Keeps s t
      ∧ (t.dev.port p).busy = (s.dev.port p).busy ∧ (t.dev.port p).repBuf = (s.dev.port p).repBuf
      ∧ (t.dev.port p).fwdTo = (s.dev.port p).fwdTo := by
  obtain ⟨e, hmoved, hrow⟩ := creplyReceive_row (p := p) (st := st) (det := det) (el := el) (pay := pay) hord hserve hdest
  obtain ⟨hcores, hports, -, -⟩ := hmoved.rest
  have hdiscard : e.takeCreply h.src p false st det (s.dev.seqWord (.port p)) pay =
      e.onPort p (fun t => t.discardStale h.src (s.dev.seqWord (.port p)) false st) := if_pos (by rw [hports]; exact hold)
  rw [hdiscard] at hrow
  refine ⟨_, hrow, keeps_of_cores ((Dev.onPort_cores _ _ _).trans hcores), ?_⟩
  rw [Dev.port_seen, Dev.port_onPort, hports]
  exact ⟨rfl, rfl, rfl⟩

end

/-- Settles O45, row by row: a doorbell is taken by a free port, counted by a busy one; each answer, the port's own or a unit's, is a reply in the
port's buffer under the SEQ of its request. -/
theorem portsTakeRequests : Obligations.PortsTakeRequests := by
  unfold Obligations.PortsTakeRequests
  exact fun s p => ⟨fun rid v hs hd => ⟨fun hm => ⟨cmdDb_noSubmit hs hd hm, cmdDb_submits hs hd hm, cmdDb_refused hs hd hm, cmdDb_busy hs hd hm⟩,
      cmdDb_drops hs hd⟩, cmdForwardTimeout_ends,
    fun v h st det el pay hord hserve hdest hto => ⟨creplyReceive_answers hord hserve hdest hto, creplyReceive_discards hord hserve hdest⟩⟩

end Sys2Proof.Proofs
end

section
/-! PROOFS. The statements on the queue of commands: a step takes its front, and no meaning touches it. -/
namespace Sys2Proof.Proofs
open Sys2Proof.Machine

/-- Every meaning ends in one of the two outcomes of a meaning, which leave the queue alone: a case for each command. -/
theorem exec_next (i : Instr) (s : State) : ∃ d m, exec i s = .next { s with dev := d, mem := m } := by
  cases i <;> exact ⟨_, _, rfl⟩

/-- Settles O1: it is how a step is defined on a queue with a front. -/
theorem stepTakesFront : Obligations.StepTakesFront := fun _ _ _ => rfl

/-- Settles O2. -/
theorem commandsLeaveTheQueue : Obligations.CommandsLeaveTheQueue := by
  unfold Obligations.CommandsLeaveTheQueue
  intro i s
  obtain ⟨d, m, h⟩ := exec_next i s
  exact ⟨_, h, rfl⟩

end Sys2Proof.Proofs
end

section
/-! SUPPORT. What sending over the Viaduct leaves alone: the state of the links, and every flit on its way (R383, R384). -/
namespace Sys2Proof.Machine

variable {d e : Dev} {p q : ViaPort} {v w : Via}

/-- From v to w a port has sent, queued or freed flits: what it says of its link stands, and every body on its way still is. -/
structure Via.Sends (v w : Via) : Prop where
  frame : ∃ waiting cells ledger nextTx credits owed tx nakDue rx entered, w =
    { v with waiting := waiting, cells := cells, ledger := ledger, nextTx := nextTx, credits := credits, owed := owed, tx := tx, nakDue := nakDue, rx := rx, entered := entered }
  kept : ∀ body, v.carries body → w.carries body

theorem Via.Sends.refl (v : Via) : v.Sends v := ⟨⟨_, _, _, _, _, _, _, _, _, _, rfl⟩, fun _ => id⟩

theorem Via.Sends.trans {u : Via} (h : v.Sends w) (g : w.Sends u) : v.Sends u := by
  obtain ⟨⟨_, _, _, _, _, _, _, _, _, _, rfl⟩, hk⟩ := h
  obtain ⟨⟨a, b, c, d, e, f, g, h, i, j, rfl⟩, gk⟩ := g
  exact ⟨⟨a, b, c, d, e, f, g, h, i, j, rfl⟩, fun x hx => gk x (hk x hx)⟩

/-- A body on its way: it waits, stands in a cell, or is in the ledger. -/
theorem Via.carries_iff {body : FlitBody} :
    v.carries body ↔ ∃ f : OutFlit, f.body = body ∧ (f ∈ v.waiting ∨ (∃ c < 3, f ∈ v.cell c) ∨ f ∈ v.ledger) := by
  simp only [Via.carries, Via.queued, List.mem_append, List.mem_flatMap]
  constructor
  · rintro ⟨f, (hw | ⟨c, hc, hf⟩) | hl, hb⟩
    · exact ⟨f, hb, .inl hw⟩
    · exact ⟨f, hb, .inr (.inl ⟨c, by simp at hc; omega, hf⟩)⟩
    · exact ⟨f, hb, .inr (.inr hl)⟩
  · rintro ⟨f, hb, hw | ⟨c, hc, hf⟩ | hl⟩
    · exact ⟨f, .inl (.inl hw), hb⟩
    · exact ⟨f, .inl (.inr ⟨c, by simp; omega, hf⟩), hb⟩
    · exact ⟨f, .inr hl, hb⟩

theorem enter_sends (f : OutFlit) : v.Sends (v.enter f) := by
  refine ⟨⟨_, _, _, _, _, _, _, _, _, _, rfl⟩, fun b hb => ?_⟩
  rw [Via.carries_iff] at hb ⊢
  obtain ⟨g, hg, hw | hr⟩ := hb
  · exact ⟨g, hg, .inl (List.mem_append_left _ hw)⟩
  · exact ⟨g, hg, .inr hr⟩

theorem enter_carries (f : OutFlit) : (v.enter f).carries f.body :=
  Via.carries_iff.mpr ⟨{ f with entered := v.entered }, rfl, .inl (by simp [Via.enter])⟩

theorem enterCell_sends (f : OutFlit) : v.Sends (v.enterCell f) := by
  refine ⟨⟨_, _, _, _, _, _, _, _, _, _, rfl⟩, fun b hb => ?_⟩
  rw [Via.carries_iff] at hb ⊢
  obtain ⟨g, hg, hw | ⟨c, hc, hf⟩ | hl⟩ := hb
  · exact ⟨g, hg, .inl hw⟩
  · refine ⟨g, hg, .inr (.inl ⟨c, hc, ?_⟩)⟩
    simp only [Via.enterCell, Via.cell, Tab.find_put]
    split
    · next h => subst h; exact List.mem_append_left _ hf
    · exact hf
  · exact ⟨g, hg, .inr (.inr hl)⟩

/-- The flit sent goes from where it stood into the ledger. -/
theorem sendOne_sends (now : Nat) (cf : Bool) (f : OutFlit) : v.Sends (v.sendOne now cf f) := by
  refine ⟨⟨_, _, _, _, _, _, _, _, _, _, rfl⟩, fun b hb => ?_⟩
  rw [Via.carries_iff] at hb ⊢
  obtain ⟨g, hg, hin⟩ := hb
  by_cases hgf : g = f
  · exact ⟨{ v.stamp cf f with seq := v.nextTx, sentAt := now }, by rw [← hg, hgf]; rfl, .inr (.inr (by simp [Via.sendOne, Via.emit]))⟩
  · refine ⟨g, hg, ?_⟩
    rcases hin with hw | ⟨c, hc, hf⟩ | hl
    · exact .inl ((List.mem_erase_of_ne hgf).mpr hw)
    · refine .inr (.inl ⟨c, hc, ?_⟩)
      have hcell : (v.sendOne now cf f).cell c = (v.cell c).erase f := find_map_all (x := []) (f := fun l : List OutFlit => l.erase f) rfl v.cells c
      rw [hcell]
      exact (List.mem_erase_of_ne hgf).mpr hf
    · exact .inr (.inr (List.mem_append_left _ hl))

/-- From d to e flits were queued, passed on and sent at the Viaduct's ports, and nothing else was done. -/
structure Dev.Sends (d e : Dev) : Prop where
  frame : ∃ up dn, e = { d with chain := { d.chain with up := up, dn := dn } }
  port : ∀ q, (d.via q).Sends (e.via q)

theorem Dev.Sends.refl (d : Dev) : d.Sends d := ⟨⟨_, _, rfl⟩, fun _ => .refl _⟩

theorem Dev.Sends.trans {f : Dev} (h : d.Sends e) (g : e.Sends f) : d.Sends f := by
  obtain ⟨⟨_, _, rfl⟩, hp⟩ := h
  obtain ⟨⟨u, w, rfl⟩, gp⟩ := g
  exact ⟨⟨u, w, rfl⟩, fun q => (hp q).trans (gp q)⟩

theorem Dev.Sends.foldl {α : Type} {f : Dev → α → Dev} (hf : ∀ (x : Dev) a, x.Sends (f x a)) (l : List α) (d : Dev) : d.Sends (l.foldl f d) := by
  induction l generalizing d with
  | nil => exact .refl d
  | cons a l ih => exact (hf d a).trans (ih _)

theorem onVia_sends {f : Via → Via} (h : (d.via p).Sends (f (d.via p))) : d.Sends (d.onVia p f) := by
  cases p with
  | up =>
    refine ⟨⟨_, _, rfl⟩, fun q => ?_⟩
    cases q
    · exact h
    · exact .refl _
  | dn =>
    refine ⟨⟨_, _, rfl⟩, fun q => ?_⟩
    cases q
    · exact .refl _
    · exact h

theorem viaFree_sends (cls : BitVec 2) (n : Nat) : d.Sends (d.viaFree p cls n) :=
  onVia_sends ⟨⟨_, _, _, _, _, _, _, _, _, _, rfl⟩, fun _ => id⟩

theorem passOne_sends (f : OutFlit) : d.Sends (d.passOne p f).2 := by
  unfold Dev.passOne
  dsimp only
  split
  · exact viaFree_sends f.cls 1
  · split
    · exact (onVia_sends (enterCell_sends f)).trans (viaFree_sends f.cls 1)
    · exact .refl d

/-- A walk over the received flits that carries those which stay. -/
theorem Dev.Sends.foldl_snd {α β : Type} {f : α × Dev → β → α × Dev} (hf : ∀ (x : α × Dev) a, x.2.Sends (f x a).2) (l : List β) (x : α × Dev) :
    x.2.Sends (l.foldl f x).2 := by
  induction l generalizing x with
  | nil => exact .refl _
  | cons a l ih => exact (hf x a).trans (ih _)

theorem passIn_sends (p : ViaPort) : d.Sends (d.passIn p) := by
  unfold Dev.passIn
  refine (Dev.Sends.foldl_snd (fun x f => ?_) _ ([], d)).trans (onVia_sends ⟨⟨_, _, _, _, _, _, _, _, _, _, rfl⟩, fun _ => id⟩)
  have hpass := passOne_sends (d := x.2) (p := p) f
  split
  · exact .refl _
  · generalize x.2.passOne p f = r at hpass
    obtain ⟨_ | _, e⟩ := r <;> exact hpass

theorem viaSendOne_sends (h : d.viaSendOne p = some e) : d.Sends e := by
  obtain ⟨f, -, rfl⟩ := Option.map_eq_some_iff.mp h
  exact onVia_sends (sendOne_sends _ _ _)

theorem viaMove_sends (k : Nat) (d : Dev) : d.Sends (Dev.viaMove k d) := by
  induction k generalizing d with
  | zero => exact .refl d
  | succ k ih =>
    have hpassed : d.Sends ((d.passIn .up).passIn .dn) := (passIn_sends .up).trans (passIn_sends .dn)
    unfold Dev.viaMove
    dsimp only
    split
    · next h => exact (hpassed.trans (viaSendOne_sends h)).trans (ih _)
    · split
      · next h => exact (hpassed.trans (viaSendOne_sends h)).trans (ih _)
      · exact hpassed

variable {cls : BitVec 2} {dest src : BitVec 4} {body : FlitBody}

theorem viaSend_sends : d.Sends (d.viaSend p cls dest src body) := by
  unfold Dev.viaSend
  split
  · exact .refl d
  · exact (onVia_sends (enter_sends _)).trans (viaMove_sends _ _)

theorem viaSendAll_sends (bodies : List FlitBody) : d.Sends (d.viaSendAll p cls dest src bodies) := .foldl (fun _ _ => viaSend_sends) bodies d

/-- What is entered for sending at a port that is not DOWN is on its way (R384, R388). -/
theorem viaSend_carries (h : (d.via p).lost = false) : ((d.viaSend p cls dest src body).via p).carries body := by
  unfold Dev.viaSend
  rw [if_neg (by simp [h])]
  refine ((viaMove_sends _ _).port p).kept _ ?_
  rw [Dev.via_onVia]
  exact enter_carries _

/-- What a port says of its link stands while flits are sent. -/
theorem Dev.Sends.st (h : d.Sends e) (q : ViaPort) : (e.via q).st = (d.via q).st := by
  obtain ⟨_, _, _, _, _, _, _, _, _, _, hq⟩ := (h.port q).frame
  rw [hq]

theorem Dev.Sends.lost (h : d.Sends e) (q : ViaPort) : (e.via q).lost = (d.via q).lost := by
  obtain ⟨_, _, _, _, _, _, _, _, _, _, hq⟩ := (h.port q).frame
  rw [hq]
  rfl

end Sys2Proof.Machine
end

section
/-! SUPPORT. A command taken from its source: what a reply changes, and what is left to do once a command is admitted (R338 to R345). -/
namespace Sys2Proof.Machine

variable {d e : Dev} {src : CmdSrc} {p : Port} {c : CmdSpec} {body : Dev → Eff} {st det : BitVec 16} {ws : List W32}

/-! ### Replies to any source (R339, R392) -/

/-- From d to e a host was answered: its port, or the flits toward its unit and the slots of forwarded requests, may differ, and nothing else. -/
structure Dev.Talks (d e : Dev) : Prop where
  frame : ∃ a b up dn fw, e = { d with portA := a, portB := b, chain := { d.chain with up := up, dn := dn }, ks := { d.ks with fwd := fw } }
  via : ∀ q, (d.via q).Sends (e.via q)

theorem Dev.Talks.refl (d : Dev) : d.Talks d := ⟨⟨_, _, _, _, _, rfl⟩, fun _ => .refl _⟩

theorem Dev.Talks.trans {f : Dev} (h : d.Talks e) (g : e.Talks f) : d.Talks f := by
  obtain ⟨⟨_, _, _, _, _, rfl⟩, hv⟩ := h
  obtain ⟨⟨a, b, up, dn, fw, rfl⟩, gv⟩ := g
  exact ⟨⟨a, b, up, dn, fw, rfl⟩, fun q => (hv q).trans (gv q)⟩

theorem Dev.Sends.talks (h : d.Sends e) : d.Talks e := by
  obtain ⟨⟨up, dn, rfl⟩, hv⟩ := h
  exact ⟨⟨_, _, up, dn, _, rfl⟩, hv⟩

theorem onPort_talks (f : PortSt → PortSt) : d.Talks (d.onPort p f) := by
  cases p <;> exact ⟨⟨_, _, _, _, _, rfl⟩, fun q => by cases q <;> exact .refl _⟩

theorem sendVec_talks (v : BitVec 11) : d.Talks (d.sendVec p v) := by
  unfold Dev.sendVec
  split
  · exact onPort_talks _
  · split
    · exact onPort_talks _
    · exact .refl d

theorem bothVec_talks (v : BitVec 11) : d.Talks (d.bothVec v) := (sendVec_talks v).trans (sendVec_talks v)

theorem sendCreply_sends (u : BitVec 4) (o : Port) (final : Bool) (seq el : W32) : d.Sends (d.sendCreply u o final st det seq el ws) :=
  viaSendAll_sends _

theorem reply_talks (src : CmdSrc) (st det : BitVec 16) (ws : List W32) : d.Talks (d.reply src st det ws) := by
  cases src with
  | port p =>
    unfold Dev.reply
    dsimp only
    split
    · exact onPort_talks _
    · exact (onPort_talks _).trans (sendVec_talks _)
  | fwd u o =>
    exact Dev.Talks.trans (e := d.onKs (fun k => { k with fwd := k.fwd.filter (fun f => !(f.unit == u && f.port == o)) }))
      ⟨⟨_, _, _, _, _, rfl⟩, fun q => by cases q <;> exact .refl _⟩ (sendCreply_sends u o false _ _).talks

/-- In e the command of a source is answered. -/
def Dev.answered (e : Dev) (src : CmdSrc) (st det : BitVec 16) (seq : W32) (ws : List W32) : Prop :=
  match src with
  | .port p => (e.port p).Answered st det seq ws
  | .fwd u p => ∀ f ∈ e.ks.fwd, ¬ (f.unit = u ∧ f.port = p)

/-- The statements' word for it. -/
theorem Dev.answered.replied {s t : State} (h : t.dev.answered src st det (s.dev.seqWord src) ws) : Replied s t src st det ws := by
  cases src <;> exact h

/-- An answer stands where the ports and the forwarded requests do. -/
theorem Dev.answered.of_eq {f : Dev} {seq : W32} (h : d.answered src st det seq ws) (hp : ∀ q, f.port q = d.port q) (hf : f.ks.fwd = d.ks.fwd) :
    f.answered src st det seq ws := by
  cases src with
  | port p => simpa only [Dev.answered, hp] using h
  | fwd u p => simpa only [Dev.answered, hf] using h

/-- A source that is answered waits no more. -/
theorem Dev.answered.waiting {seq : W32} (h : d.answered src st det seq ws) : d.waiting src = false := by
  cases src with
  | port p =>
    obtain ⟨hbusy, -⟩ := h
    simp [Dev.waiting, hbusy]
  | fwd u p =>
    have hnone : d.ks.fwd.any (fun f => f.unit == u && f.port == p) = false := by
      rw [List.any_eq_false]
      intro f hf hx
      exact h f hf (by simpa using hx)
    simp [Dev.waiting, hnone]

/-- A reply answers its source. -/
theorem reply_answered (h : hasPayload st = true ∨ ws = []) : (d.reply src st det ws).answered src st det (d.seqWord src) ws := by
  cases src with
  | port p => exact (reply_frame st det ws).2.answered (putReply_answered _ _ _ h)
  | fwd u o =>
    obtain ⟨⟨up, dn, hfr⟩, -⟩ := sendCreply_sends (d := d.onKs (fun k => { k with fwd := k.fwd.filter (fun f => !(f.unit == u && f.port == o)) }))
      (st := st) (det := det) (ws := if hasPayload st then ws else []) u o false (d.seqWord (.fwd u o)) 0#32
    unfold Dev.answered Dev.reply
    dsimp only
    rw [hfr]
    intro f hf hx
    simp [Dev.onKs] at hf
    exact hf.2.elim (fun h => h hx.1) (fun h => h hx.2)

/-- Whatever its status, a reply leaves nothing waiting. -/
theorem reply_waiting : (d.reply src st det ws).waiting src = false := by
  by_cases h : hasPayload st = true
  · exact (reply_answered (.inl h)).waiting
  · have hsame : d.reply src st det ws = d.reply src st det [] := by cases src <;> simp [Dev.reply, PortSt.putReply, h]
    rw [hsame]
    exact (reply_answered (.inr rfl)).waiting

/-- Requests stand while hosts are answered elsewhere. -/
theorem seqWord_of_request (h : d.request src = e.request src) : d.seqWord src = e.seqWord src := congrArg (Tab.find 0#32 · 1) h

/-! ### Commands taken (R342 to R345) -/

/-- What a source that Keystone takes has not begun, nor another, nor is any transaction for a command. -/
theorem Dev.takes.fresh (h : d.takes src) : d.begun src = false ∧ d.begunOther src = false ∧ ∀ t ∈ d.txns, t.ofCmd src = false ∧ t.ofOther src = false := by
  obtain ⟨-, -, -, -, -, -, htx, -, hprog⟩ := h
  refine ⟨by simp [Dev.begun, hprog], by simp [Dev.begunOther, hprog], fun t ht => ?_⟩
  have hk := htx t ht
  unfold Txn.byKeystone at hk
  unfold Txn.ofCmd Txn.ofOther
  cases ho : t.origin with
  | keystone x => rw [ho] at hk; cases hk
  | _ => exact ⟨rfl, rfl⟩

/-- A command that Keystone takes is served, and nothing holds it up. -/
theorem Dev.takes.takeCmd (h : d.takes src) (hop : d.opcode src = c.op ∨ d.opcode src ∉ opcodes) : d.takeCmd src c body =
    (if (d.serveCmd src c body).1.waiting src then (d.serveCmd src c body).1 else ((d.serveCmd src c body).1.dropCmd src).taken src,
      (d.serveCmd src c body).2) := by
  obtain ⟨-, hother, htx⟩ := h.fresh
  obtain ⟨-, hnego, hup, hps, hwait, hturn, -, hhalt, -⟩ := h
  have hnoOther : d.txns.any (fun t => t.ofOther src) = false := by
    rw [List.any_eq_false]
    exact fun t ht => by simp [(htx t ht).2]
  have hcan : d.canTake src c.op = true := by simp [Dev.canTake, hup, hhalt, hps, hwait, hturn, hother, hnoOther, hop]
  unfold Dev.takeCmd
  rw [hcan, hnego]
  rfl

/-- A command that is answered leaves no transaction of its own behind it to drop. -/
theorem dropCmd_none (h : ∀ t ∈ d.txns, t.ofCmd src = false) : d.dropCmd src = d := by
  have hnone : d.txns.any (fun t => t.ofCmd src) = false := by
    rw [List.any_eq_false]
    exact fun t ht => by simp [h t ht]
  simp [Dev.dropCmd, hnone]

/-- A command taken that is served without a wait is done: the next turn begins behind its place (R342). -/
theorem Dev.takes.serves (h : d.takes src) (hop : d.opcode src = c.op ∨ d.opcode src ∉ opcodes) {ms : List MemOp}
    (hs : d.serveCmd src c body = (e, ms)) (hw : e.waiting src = false) (htx : ∀ t ∈ e.txns, t.ofCmd src = false) :
    d.takeCmd src c body = (e.taken src, ms) := by
  rw [h.takeCmd hop, hs]
  dsimp only
  rw [if_neg (by simp [hw]), dropCmd_none htx]

/-- One that R343 refuses has its reply and no other effect. -/
theorem Dev.takes.refused (h : d.takes src) (hop : d.opcode src = c.op ∨ d.opcode src ∉ opcodes)
    (hs : d.serveCmd src c body = (d.reply src st det ws, [])) : d.takeCmd src c body = ((d.reply src st det ws).taken src, []) := by
  refine h.serves hop hs reply_waiting ?_
  obtain ⟨⟨_, _, _, _, _, hr⟩, -⟩ := reply_talks (d := d) src st det ws
  rw [hr]
  exact fun t ht => (h.fresh.2.2 t ht).1

theorem Dev.Talks.calm (h : d.Talks e) (hc : d.calm) : e.calm := by
  obtain ⟨⟨_, _, _, _, _, rfl⟩, -⟩ := h
  exact hc

/-- An answer of a command behind which nothing waits is the whole effect of its row. -/
theorem commit_reply {s : State} (hc : s.dev.calm) : s.commit (settleEff s.mem ((s.dev.reply src st det ws).taken src, []))
    = s.keep ((s.dev.reply src st det ws).taken src) := by
  have hcalm : ((s.dev.reply src st det ws).taken src).calm := (reply_talks src st det ws).calm hc
  rw [settleEff_calm _ hcalm]
  rfl

end Sys2Proof.Machine
end

section
/-! PROOFS. The statement on the checks of a request and on replies. -/
namespace Sys2Proof.Proofs
open Sys2Proof.Machine

variable {s : State} {d : Dev} {p : Port} {st det : BitVec 16}

/-- What R351 states of QUE_CREATE. -/
def queCreateSpec : CmdSpec := { op := 0x0501, len := exact 8, modes := modesCSRD, changes := true }

/-- A QUE_CREATE that a check of R343 refuses is answered, and that is all. -/
theorem queCreate_refused (ht : s.dev.takes (.port p)) (hop : s.dev.opcode (.port p) = 0x0501 ∨ s.dev.opcode (.port p) ∉ opcodes)
    (hs : s.dev.serveCmd (.port p) queCreateSpec (fun d => d.queCreate (.port p)) = (s.dev.reply (.port p) st det [], [])) :
    Yields s (.queCreate (.port p)) ((s.dev.reply (.port p) st det []).taken (.port p)) := by
  have hrow : exec (.queCreate (.port p)) s =
      s.commit (settleEff s.mem (s.dev.takeCmd (.port p) queCreateSpec (fun d => d.queCreate (.port p)))) := rfl
  rw [Yields, hrow, ht.refused hop hs, commit_reply ht.1, State.keep_eq]

section
variable (hb : d.begun (.port p) = false)
include hb

theorem serve_badHeader {c : CmdSpec} {body : Dev → Eff} (h : d.badHeader (.port p) = true) :
    d.serveCmd (.port p) c body = (d.reply (.port p) stBadLength 1#16 [], []) := by simp [Dev.serveCmd, hb, h]

theorem serve_badUnit {c : CmdSpec} {body : Dev → Eff} (h : d.badHeader (.port p) = false) (h16 : 16 ≤ d.unitByte (.port p))
    (hff : d.unitByte (.port p) ≠ 0xFF) : d.serveCmd (.port p) c body = (d.reply (.port p) stBadParam 0xFFFF#16 [], []) := by
  have hunit : d.isOwn (.port p) = false := by
    have hlt := d.chain.unit.isLt
    simp [Dev.isOwn, hff]
    omega
  simp [Dev.serveCmd, hb, h, hunit, h16]

theorem serve_fails {c : CmdSpec} {body : Dev → Eff} (h : d.badHeader (.port p) = false) (hff : d.unitByte (.port p) = 0xFF)
    (hf : d.firstFailure (.port p) c = some (st, det)) : d.serveCmd (.port p) c body = (d.reply (.port p) st det [], []) := by
  have hown : d.isOwn (.port p) = true := by simp [Dev.isOwn, hff]
  simp [Dev.serveCmd, hb, h, hown, hf]

end

theorem badHeader_iff {src : CmdSrc} : d.badHeader src = false ↔ d.reqWord src 3 = 0#32 ∧ d.lenWord src % 4 = 0 ∧ d.lenWord src ≤ 4080 := by
  simp [Dev.badHeader, and_assoc]

/-- A reply at a port changes that port alone: what putReply writes, and the vector. -/
theorem reply_port_eq (ws : List W32) : ∃ x, ((d.port p).putReply st det (d.seqWord (.port p)) (elapsedUs (d.port p).dbAt d.clk) ws).Notified x
    ∧ d.reply (.port p) st det ws = d.onPort p (fun _ => x) := by
  refine ⟨(d.reply (.port p) st det ws).port p, (reply_frame st det ws).2, ?_⟩
  unfold Dev.reply Dev.sendVec
  dsimp only
  split
  · cases p <;> rfl
  · split
    · cases p <;> rfl
    · split <;> cases p <;> rfl

/-- The checks of R343 from the opcode's own up to the reaction of a STOP latch, each answered with its own status, over one QUE_CREATE. -/
theorem queCreate_checked (s : State) (p : Port) :
    let d := s.dev
    let src : CmdSrc := .port p
    let answers := fun (st det : BitVec 16) => Yields s (.queCreate src) ((d.reply src st det []).taken src)
    d.takes src → d.opcode src = 0x0501 → d.badHeader src = false → d.unitByte src = 0xFF →
       (d.lenWord src ≠ 8 → answers 0x0201#16 2#16)
       ∧ (d.lenWord src = 8 → (4 ≤ d.flagsByte src ∨ d.flagsByte src % 2 = 1) → answers 0x0202#16 0xFFFD#16)
       ∧ (d.lenWord src = 8 → d.flagsByte src < 4 → d.flagsByte src % 2 = 0 →
         (d.mode.mode ∉ modesCSRD → answers 0x0203#16 (d.mode.mode.setWidth 16))
         ∧ (d.mode.mode ∈ modesCSRD →
           (d.sem.holder = none → answers 0x0103#16 0x00FF#16)
           ∧ (d.sem.holder = some (otherPort p) → answers 0x0103#16 (if p = .a then 1#16 else 0#16))
           ∧ (d.sem.holder = some p → d.flt.atLeast 4 = true → answers 0x0400#16 (BitVec.ofNat 16 d.flt.source)))) := by
  intro d src answers ht hop hhead hunit
  have answer : ∀ st det, d.firstFailure src queCreateSpec = some (st, det) → answers st det := fun st det hf =>
    queCreate_refused ht (.inl hop) (serve_fails ht.fresh.1 hhead hunit hf)
  refine ⟨fun hlen => ?_, fun hlen hfl => ?_, fun hlen hfl heven => ⟨fun hm => ?_, fun hm => ⟨fun hsem => ?_, fun hsem => ?_, fun hsem hstop => ?_⟩⟩⟩
  · exact answer _ _ (by simp [Dev.firstFailure, hop, queCreateSpec, exact, hlen, stBadLength])
  · exact answer _ _ (by simp [Dev.firstFailure, hop, queCreateSpec, exact, hlen, hfl, stBadParam])
  · exact answer _ _ (by simp [Dev.firstFailure, hop, queCreateSpec, exact, hlen, hfl, heven, hm, stWrongMode])
  · exact answer _ _ (by simp [Dev.firstFailure, hop, queCreateSpec, exact, hlen, hfl, heven, hm, hsem, stRefHeld, semDetail, src])
  · exact answer _ _ (by cases p <;> simp [Dev.firstFailure, hop, queCreateSpec, exact, hlen, hfl, heven, hm, hsem, stRefHeld, semDetail, src, otherPort])
  · exact answer _ _ (by simp [Dev.firstFailure, hop, queCreateSpec, exact, hlen, hfl, heven, hm, hsem, hstop, stFaultActive, src])

/-- What a reply writes at its port, NOVEC or not (R338, R339). -/
theorem putReply_words (x : PortSt) (seq el : W32) (ws : List W32) :
    let body := if st = stDone ∨ st = stDelayed ∨ st = stAccepted ∨ st = stRefCap then ws else []
    let y := x.putReply st det seq el ws
    y.Answered st det seq body ∧ Tab.find 0#32 y.repBuf 3 = el := by
  intro body y
  have hbody : x.putReply st det seq el ws = x.putReply st det seq el body := by
    by_cases h : st = stDone ∨ st = stDelayed ∨ st = stAccepted ∨ st = stRefCap
    · rw [show body = ws from if_pos h]
    · have hp : hasPayload st = false := by simpa [hasPayload, not_or, and_assoc] using h
      simp [PortSt.putReply, hp]
  refine ⟨?_, ?_⟩
  · rw [show y = _ from hbody]
    refine putReply_answered x seq el ?_
    by_cases h : st = stDone ∨ st = stDelayed ∨ st = stAccepted ∨ st = stRefCap
    · exact .inl (by simpa [hasPayload, or_assoc] using h)
    · exact .inr (if_neg h)
  · simp only [y, PortSt.putReply]
    rw [List.range_eq_range', find_putAll_range']
    rfl

/-- The vector of a reply: none with NOVEC, and else vector 0, where the port can send it and it is not pending (R327, R339). -/
theorem reply_vector (ws : List W32) :
    let x := (d.reply (.port p) st det ws).port p
    (d.noVec (.port p) = true → x.msixSent = (d.port p).msixSent ∧ x.pba = (d.port p).pba)
    ∧ (d.noVec (.port p) = false → d.isPcie p = true → (d.port p).pba.getLsbD 0 = false → (d.port p).canSend 0 = true → x.lastMsix = some 0#11) := by
  unfold Dev.reply
  dsimp only
  refine ⟨fun hnv => ?_, fun hnv hpcie hpend hcan => ?_⟩
  · rw [if_pos hnv, Dev.port_onPort]
    exact ⟨rfl, rfl⟩
  · have hpcie' : ∀ f : PortSt → PortSt, (d.onPort p f).isPcie p = true := by cases p <;> exact fun _ => hpcie
    rw [if_neg (by simp [hnv]), Dev.sendVec, if_pos (hpcie' _), Dev.port_onPort, Dev.port_onPort]
    exact congrArg PortSt.lastMsix (if_pos (Bool.and_eq_true_iff.mpr ⟨(Bool.not_eq_true' _).mpr hpend, hcan⟩))

/-- Settles O34: each check of R343 that fails answers its status before any later one is looked at, and leaves the command without effect; a reply
touches its port alone. -/
theorem requestsAreCheckedAndAnswered : Obligations.RequestsAreCheckedAndAnswered := by
  unfold Obligations.RequestsAreCheckedAndAnswered
  refine ⟨fun s p => ?_, fun d p st det ws => ?_⟩
  · intro d src answers header ht hop
    have hfresh := ht.fresh.1
    refine ⟨fun hh => ?_, fun hh h16 hff => ?_, fun hh hff hno => ?_, fun hh hff hq => ?_⟩
    · exact queCreate_refused ht hop (serve_badHeader hfresh (by rwa [← Bool.not_eq_false, badHeader_iff]))
    · exact queCreate_refused ht hop (serve_badUnit hfresh (badHeader_iff.mpr hh) h16 hff)
    · refine queCreate_refused ht hop (serve_fails hfresh (badHeader_iff.mpr hh) hff ?_)
      have hne : d.opcode src ≠ 0x0501 := fun h => hno (h ▸ by decide)
      exact if_pos (by simpa [queCreateSpec] using hne)
    · exact queCreate_checked s p ht hq (badHeader_iff.mpr hh) hff
  · intro body r x
    obtain ⟨y, hnote, hr⟩ := reply_port_eq (d := d) (p := p) (st := st) (det := det) ws
    obtain ⟨hans, hel⟩ := putReply_words (st := st) (det := det) (d.port p) (d.seqWord (.port p)) (elapsedUs (d.port p).dbAt d.clk) ws
    have hx : x = y := by
      have hport : (d.onPort p (fun _ => y)).port p = y := Dev.port_onPort _ _ _
      exact (congrArg (·.port p) hr).trans hport
    obtain ⟨hbusy, hdone, h0, h1, h2, hws⟩ := hnote.answered hans
    obtain ⟨hnv, hvec⟩ := reply_vector (d := d) (p := p) (st := st) (det := det) ws
    refine ⟨by rw [hx, hbusy], by rw [hx, hdone], by rw [hx, h0], by rw [hx, h1], by rw [hx, h2], ?_, by rw [hx]; exact hws, hnv, hvec, ?_⟩
    · obtain ⟨_, _, _, _, rfl⟩ := hnote
      rw [hx]
      exact hel
    · rw [show r = _ from hr]
      exact ⟨Dev.onPort_cores _ _ _, Dev.onPort_bents _ _ _, Dev.onPort_ks _ _ _⟩

end Sys2Proof.Proofs
end

section
/-! SUPPORT. What goes on around a link that changes its state: hosts and neighbours are told, jobs end, the mode follows R406; the links, the cores and
the fault collector stand meanwhile (R372, R381, R406). -/
namespace Sys2Proof.Machine

variable {d e : Dev} {p : ViaPort}

/-- From d to e hosts, neighbours and the mode were told: no core, nothing of the fault collector and nothing that a port of the Viaduct says of its
link changed, nor the place in the chain. -/
structure Dev.Linked (d e : Dev) : Prop where
  cores : e.cores = d.cores
  flt : e.flt = d.flt
  chain : ∃ up dn, e.chain = { d.chain with up := up, dn := dn }
  via : ∀ q, (d.via q).Sends (e.via q)

theorem Dev.Linked.refl (d : Dev) : d.Linked d := ⟨rfl, rfl, ⟨_, _, rfl⟩, fun _ => .refl _⟩

theorem Dev.Linked.trans {f : Dev} (h : d.Linked e) (g : e.Linked f) : d.Linked f := by
  obtain ⟨_, _, hc⟩ := h.chain
  obtain ⟨up, dn, gc⟩ := g.chain
  rw [hc] at gc
  exact ⟨g.cores.trans h.cores, g.flt.trans h.flt, ⟨up, dn, gc⟩, fun q => (h.via q).trans (g.via q)⟩

theorem Dev.Linked.foldl {α : Type} {f : Dev → α → Dev} (hf : ∀ (x : Dev) a, x.Linked (f x a)) (l : List α) (d : Dev) : d.Linked (l.foldl f d) := by
  induction l generalizing d with
  | nil => exact .refl d
  | cons a l ih => exact (hf d a).trans (ih _)

/-- What names none of it. -/
theorem Dev.Linked.of_eq (hc : e.cores = d.cores) (hf : e.flt = d.flt) (hv : e.chain = d.chain) : d.Linked e :=
  ⟨hc, hf, ⟨_, _, hv⟩, fun q => by cases q <;> simp only [Dev.via, hv] <;> exact .refl _⟩

theorem Dev.Talks.linked (h : d.Talks e) : d.Linked e := by
  obtain ⟨⟨_, _, up, dn, _, rfl⟩, hv⟩ := h
  exact ⟨rfl, rfl, ⟨up, dn, rfl⟩, hv⟩

theorem Dev.Linked.raising (h : d.Linked e) {src inst : Nat} (hr : d.raising src inst) : e.raising src inst := by
  unfold Dev.raising at hr ⊢
  rwa [h.flt]

theorem Dev.Linked.st (h : d.Linked e) (q : ViaPort) : (e.via q).st = (d.via q).st := by
  obtain ⟨_, _, _, _, _, _, _, _, _, _, hq⟩ := (h.via q).frame
  rw [hq]

theorem finalResult_talks (j : Job) (st det : BitVec 16) : d.Talks (d.finalResult j st det) := by
  unfold Dev.finalResult
  dsimp only
  split
  · split
    · exact onPort_talks _
    · exact (onPort_talks _).trans (sendVec_talks _)
  · exact (sendCreply_sends _ _ _ _ _).talks

theorem endJobs_linked (pick : Job → Bool) (st det : BitVec 16) : d.Linked (d.endJobs pick st det) :=
  Dev.Linked.trans (e := d.onKs _) (.of_eq rfl rfl rfl) (.foldl (fun _ j => (finalResult_talks j st det).linked) _ _)

theorem sendReach_sends (p : ViaPort) : d.Sends (d.sendReach p) := by
  unfold Dev.sendReach
  split
  · exact viaSend_sends
  · exact .refl d

theorem tellReach_sends (old : Dev) : d.Sends (d.tellReach old) := by
  have hone : ∀ (x : Dev) (p : ViaPort), x.Sends (if d.reachSent p != old.reachSent p then x.sendReach p else x) := by
    intro x p
    split
    · exact sendReach_sends p
    · exact .refl x
  exact (hone d .up).trans (hone _ .dn)

theorem reachChanged_linked (old : Dev) : d.Linked (d.reachChanged old) := by
  unfold Dev.reachChanged
  dsimp only
  refine Dev.Linked.trans ?_ (endJobs_linked _ _ _)
  exact (tellReach_sends old).talks.linked.trans (.of_eq rfl rfl rfl)

/-- The cells in counter mode leave the raises as they are (R303). -/
theorem setCells_counter_linked : d.Linked (d.setCells false) := .of_eq rfl rfl rfl

/-- A mode entered whose cells run in counter mode. -/
theorem setMode_linked {m : BitVec 3} (hm : counterMode m = true) (reason : BitVec 3) : d.Linked (d.setMode m reason) := by
  unfold Dev.setMode
  extract_lets d1 d2
  have hmode : d.Linked d2 := by
    unfold d2
    split <;> exact .of_eq rfl rfl rfl
  rw [hm]
  exact (hmode.trans setCells_counter_linked).trans (bothVec_talks _).linked

theorem modeCheck_linked : d.Linked d.modeCheck := by
  unfold Dev.modeCheck
  split
  · exact (setMode_linked (by decide) _).trans (endJobs_linked _ _ _)
  · split
    · exact setMode_linked (by decide) _
    · exact .refl d

/-! ### Raises -/

/-- A raise adds to the collector's list, and changes of the rest the crossing registers and the pins alone. -/
theorem raise_extends (d : Dev) (src inst : Nat) (det : BitVec 16) :
    ∃ x l rs, d.raise src inst det = { d with xings := x, plb := l, flt := { d.flt with raises := d.flt.raises ++ rs } } := by
  obtain ⟨x, l, he⟩ := eventInto_frame d domCollector (raiseLine src inst) (d.raisesOf src inst)
  unfold Dev.raise
  split
  · next h => rw [h] at he; subst he; exact ⟨x, l, _, rfl⟩
  · next h =>
    rw [h] at he
    subst he
    split
    · exact ⟨x, l, _, rfl⟩
    · exact ⟨x, l, [], by rw [List.append_nil]⟩

@[simp] theorem raise_via (src inst : Nat) (det : BitVec 16) (q : ViaPort) : (d.raise src inst det).via q = d.via q := by
  obtain ⟨_, _, _, h⟩ := raise_extends d src inst det
  rw [h]
  cases q <;> rfl

@[simp] theorem raise_chain (src inst : Nat) (det : BitVec 16) : (d.raise src inst det).chain = d.chain := by
  obtain ⟨_, _, _, h⟩ := raise_extends d src inst det
  rw [h]

/-- What was on its way to the collector still is after another raise. -/
theorem raising_raise {src inst : Nat} (s i : Nat) (det : BitVec 16) (h : d.raising src inst) : (d.raise s i det).raising src inst := by
  obtain ⟨_, _, _, hr⟩ := raise_extends d s i det
  obtain ⟨r, hm, hs⟩ := h
  rw [hr]
  exact ⟨r, List.mem_append_left _ hm, hs⟩

/-! ### A link that goes DOWN (R377, R388) -/

@[simp] theorem onVia_cores (f : Via → Via) : (d.onVia p f).cores = d.cores := by cases p <;> rfl
@[simp] theorem onVia_flt (f : Via → Via) : (d.onVia p f).flt = d.flt := by cases p <;> rfl

/-- A port that has lost its link, or never had one, is DOWN; a loss is counted and, where the table says so, raised. -/
theorem linkDown_lost (d : Dev) (p : ViaPort) (loud : Bool) : (d.linkDown p loud).cores = d.cores ∧ ((d.linkDown p loud).via p).st = .down
    ∧ ((d.via p).lost = false → ((d.linkDown p loud).via p).downs = satInc (d.via p).downs
      ∧ (loud = true → (d.linkDown p loud).raising 674 (viaInst p))) := by
  unfold Dev.linkDown
  split
  · next h =>
    refine ⟨onVia_cores _, by rw [Dev.via_onVia]; rfl, fun h' => ?_⟩
    rw [h] at h'
    cases h'
  · extract_lets d1 d2
    have hfree : (d.runFree p).cores = d.cores ∧ (d.runFree p).via p = d.via p := by
      unfold Dev.runFree
      split
      · exact ⟨rfl, by cases p <;> rfl⟩
      · exact ⟨rfl, rfl⟩
    have hvia : d2.via p = { (d.via p).down with downs := satInc (d.via p).downs } := by
      have h1 : d1.via p = { (d.via p).down with downs := satInc (d.via p).downs } := by rw [← hfree.2]; exact Dev.via_onVia _ _ _
      unfold d2
      split
      · rw [raise_via, h1]
      · exact h1
    have hcores : d2.cores = d.cores := by
      unfold d2 d1
      split <;> simp [hfree.1]
    have htold : d2.Linked ((d2.reachChanged d).modeCheck) := (reachChanged_linked d).trans modeCheck_linked
    obtain ⟨_, _, _, _, _, _, _, _, _, _, hq⟩ := (htold.via p).frame
    refine ⟨htold.cores.trans hcores, by rw [hq, hvia]; rfl, fun _ => ⟨by rw [hq, hvia], fun hl => htold.raising ?_⟩⟩
    unfold d2
    rw [if_pos hl]
    exact raise_raising _ _ _ _

end Sys2Proof.Machine
end

section
/-! SUPPORT. How a Viaduct port ends its training and enters UP (R377). -/
namespace Sys2Proof.Machine

variable {d e : Dev} {p : ViaPort}

@[simp] theorem sendCheck_cores : (d.sendCheck p).cores = d.cores := onVia_cores _
theorem sendCheck_st : ((d.sendCheck p).via p).st = (d.via p).st := by rw [Dev.sendCheck, Dev.via_onVia]
theorem sendCheck_half : ((d.sendCheck p).via p).half = (d.via p).half := by rw [Dev.sendCheck, Dev.via_onVia]

/-! ### Training (R377) -/

theorem trainEnd_four {m : BitVec 5} (h : 4 ≤ lanesIn m) :
    (d.trainEnd p m).cores = d.cores ∧ ((d.trainEnd p m).via p).st = .check ∧ ((d.trainEnd p m).via p).half = false := by
  unfold Dev.trainEnd
  extract_lets v spare d1
  rw [if_neg (by omega), if_pos h]
  have h1 : d1.cores = d.cores ∧ (d1.via p).st = .check ∧ (d1.via p).half = false := by
    refine ⟨sendCheck_cores.trans (onVia_cores _), sendCheck_st.trans ?_, sendCheck_half.trans ?_⟩ <;> rw [Dev.via_onVia]
  split
  · simpa using h1
  · exact h1

theorem trainEnd_two {m : BitVec 5} (h : lanesIn m = 2 ∨ lanesIn m = 3) :
    (d.trainEnd p m).cores = d.cores ∧ ((d.trainEnd p m).via p).st = .check ∧ ((d.trainEnd p m).via p).half = true
      ∧ (d.trainEnd p m).raising 673 (viaInst p) := by
  unfold Dev.trainEnd
  extract_lets v _ _ spare d1
  rw [if_neg (by omega), if_neg (by omega)]
  have h1 : d1.cores = d.cores ∧ (d1.via p).st = .check ∧ (d1.via p).half = true ∧ d1.raising 673 (viaInst p) := by
    refine ⟨(raise_cores _ _ _ _).trans (sendCheck_cores.trans (onVia_cores _)), ?_, ?_, raise_raising _ _ _ _⟩
    · rw [raise_via, sendCheck_st, Dev.via_onVia]
    · rw [raise_via, sendCheck_half, Dev.via_onVia]
  split
  · simpa using ⟨h1.1, h1.2.1, h1.2.2.1, raising_raise _ _ _ h1.2.2.2⟩
  · exact h1

theorem trainEnd_few {m : BitVec 5} (h : lanesIn m < 2) : (d.trainEnd p m).cores = d.cores ∧ ((d.trainEnd p m).via p).st = .down := by
  unfold Dev.trainEnd
  dsimp only
  rw [if_pos h]
  split
  · obtain ⟨hc, hs, -⟩ := linkDown_lost d p true
    exact ⟨hc, hs⟩
  · exact ⟨onVia_cores _, by rw [Dev.via_onVia]⟩

/-! ### A link that enters UP (R377, R378, R381) -/

/-- From v to w no more than the ledger was sent again. -/
theorem replay_frame (v : Via) (now : Nat) (cf : Bool) :
    ∃ ledger tx retry stalled, v.replay now cf = { v with ledger := ledger, tx := tx, retry := retry, stalled := stalled } := by
  unfold Via.replay
  split <;> exact ⟨_, _, _, _, rfl⟩

theorem passToken_via (n : BitVec 5) (q : ViaPort) : (d.via q).Sends ((d.passToken n).via q) := by
  unfold Dev.passToken
  split
  · exact Via.Sends.trans (by cases q <;> exact .refl _) (viaSend_sends.port q)
  · cases q <;> exact .refl _

theorem passToken_cores (n : BitVec 5) : (d.passToken n).cores = d.cores := by
  unfold Dev.passToken
  split
  · obtain ⟨⟨_, _, h⟩, -⟩ := viaSend_sends (d := d.onChain (fun c => { c with enumWait := none })) (p := .dn) (cls := 1#2) (dest := 0#4)
      (src := d.chain.unit) (body := .enum n)
    rw [h]
    rfl
  · rfl

/-- A link that passed its check is UP, and the neighbour's address is recorded. -/
theorem enterUp_up (a : Option (BitVec 4)) : (d.enterUp p a).cores = d.cores ∧ ((d.enterUp p a).via p).st = .up
    ∧ ((d.enterUp p a).via p).nvalid = a.isSome ∧ ((d.enterUp p a).via p).retraining = false := by
  unfold Dev.enterUp
  extract_lets wrong d1 d2 d3 d4
  have h1 : d1.cores = d.cores ∧ (d1.via p).st = .up ∧ (d1.via p).nvalid = a.isSome ∧ (d1.via p).retraining = false := by
    refine ⟨onVia_cores _, ?_⟩
    unfold d1
    rw [Dev.via_onVia]
    dsimp only
    split
    · obtain ⟨_, _, _, _, h⟩ := replay_frame { d.via p with st := .up, retraining := false, wasUp := true, nvalid := a.isSome, nunit := a.getD 0#4, topo := wrong }
        d.clk (d.cfSent p)
      rw [h]
      exact ⟨rfl, rfl, rfl⟩
    · exact ⟨rfl, rfl, rfl⟩
  have h2 : d2.cores = d1.cores ∧ d2.via p = d1.via p := by
    unfold d2
    split
    · exact ⟨rfl, by cases p <;> rfl⟩
    · exact ⟨rfl, rfl⟩
  have h3 : d3.cores = d2.cores ∧ d3.via p = d2.via p := by
    unfold d3
    split
    · exact ⟨raise_cores _ _ _ _, raise_via _ _ _ _⟩
    · exact ⟨rfl, rfl⟩
  have hsent : d3.Sends d4 := (sendReach_sends p).trans (viaMove_sends _ _)
  have h4 : d4.cores = d3.cores := by
    obtain ⟨⟨_, _, h⟩, -⟩ := hsent
    rw [h]
  have htoken : ∀ e : Dev, e.cores = d4.cores → (d4.via p).Sends (e.via p) →
      e.cores = d.cores ∧ (e.via p).st = .up ∧ (e.via p).nvalid = a.isSome ∧ (e.via p).retraining = false := by
    intro e hc hs
    obtain ⟨_, _, _, _, _, _, _, _, _, _, hq⟩ := ((hsent.port p).trans hs).frame
    rw [hq, h3.2, h2.2]
    exact ⟨by rw [hc, h4, h3.1, h2.1, h1.1], h1.2⟩
  split
  · exact htoken _ (passToken_cores _) (passToken_via _ _)
  · exact htoken _ rfl (.refl _)

end Sys2Proof.Machine
end

section
/-! PROOFS. The statement on the states of a Viaduct port. -/
namespace Sys2Proof.Proofs
open Sys2Proof.Machine

variable {s : State} {p : ViaPort}

/-- A row that answers a device with the cores as they were: the memory and the queue stand with them. -/
theorem keep_keeps {i : Instr} {e : Dev} (hrow : exec i s = s.keep e) (hc : e.cores = s.dev.cores) :
    ∃ t, exec i s = .next t ∧ Keeps s t ∧ (∀ q, t.dev.via q = e.via q) ∧ (∀ src inst, e.raising src inst → t.dev.raising src inst) :=
  ⟨_, hrow, keeps_of_cores hc, Dev.via_seen e s.dev, fun _ _ => id⟩

/-! ### From DOWN to UP (R377) -/

theorem farEndDetect_trains (m : BitVec 5) (hst : (s.dev.via p).st = .down) (hps : s.dev.pwr.pstate.toNat < 2) (hmay : s.dev.viaMayTrain p = true)
    (hm : 2 ≤ lanesIn m) : ∃ t, exec (.viaFarEndDetect p m) s = .next t ∧ Keeps s t ∧ (t.dev.via p).st = .train ∧ (t.dev.via p).trainAt = s.dev.clk := by
  have hrow : exec (.viaFarEndDetect p m) s = s.keep (s.dev.onVia p (fun v => { v with st := .train, retraining := false, trainAt := s.dev.clk })) :=
    congrArg s.keep (if_pos (by simp [hst, hps, hmay, hm]))
  obtain ⟨t, ht, hk, hv, -⟩ := keep_keeps hrow (onVia_cores _)
  refine ⟨t, ht, hk, ?_⟩
  rw [hv, Dev.via_onVia]
  exact ⟨rfl, rfl⟩

/-- Training ends as the good lanes say, and the mode follows. -/
theorem trainEnd_row (m : BitVec 5) (hst : (s.dev.via p).st = .train) :
    exec (.viaTrainEnd p m) s = s.keep (s.dev.trainEnd p (m &&& ~~~ (s.dev.via p).bad)).modeCheck := congrArg s.keep (if_pos (by simp [hst]))

theorem trainEnd_ends (m : BitVec 5) (hst : (s.dev.via p).st = .train) :
    let good := m &&& ~~~ (s.dev.via p).bad
    (4 ≤ lanesIn good → ∃ t, exec (.viaTrainEnd p m) s = .next t ∧ Keeps s t ∧ (t.dev.via p).st = .check ∧ (t.dev.via p).half = false)
    ∧ (lanesIn good = 2 ∨ lanesIn good = 3 → ∃ t, exec (.viaTrainEnd p m) s = .next t ∧ Keeps s t ∧ (t.dev.via p).st = .check
      ∧ (t.dev.via p).half = true ∧ t.dev.raising 673 (viaInst p))
    ∧ (lanesIn good < 2 → ∃ t, exec (.viaTrainEnd p m) s = .next t ∧ Keeps s t ∧ (t.dev.via p).st = .down) := by
  intro good
  have hmode : (s.dev.trainEnd p good).Linked (s.dev.trainEnd p good).modeCheck := modeCheck_linked
  obtain ⟨_, _, _, _, _, _, _, _, _, _, hq⟩ := (hmode.via p).frame
  have hends : (s.dev.trainEnd p good).cores = s.dev.cores → ∃ t, exec (.viaTrainEnd p m) s = .next t ∧ Keeps s t
      ∧ (t.dev.via p).st = ((s.dev.trainEnd p good).via p).st ∧ (t.dev.via p).half = ((s.dev.trainEnd p good).via p).half
      ∧ ((s.dev.trainEnd p good).raising 673 (viaInst p) → t.dev.raising 673 (viaInst p)) := by
    intro hc
    obtain ⟨t, ht, hk, hv, hr⟩ := keep_keeps (trainEnd_row m hst) (hmode.cores.trans hc)
    exact ⟨t, ht, hk, by rw [hv, hq], by rw [hv, hq], fun h => hr _ _ (hmode.raising h)⟩
  refine ⟨fun h => ?_, fun h => ?_, fun h => ?_⟩
  · obtain ⟨hc, hs, hh⟩ := trainEnd_four (d := s.dev) (p := p) h
    obtain ⟨t, ht, hk, h1, h2, -⟩ := hends hc
    exact ⟨t, ht, hk, h1.trans hs, h2.trans hh⟩
  · obtain ⟨hc, hs, hh, hr⟩ := trainEnd_two (d := s.dev) (p := p) h
    obtain ⟨t, ht, hk, h1, h2, h3⟩ := hends hc
    exact ⟨t, ht, hk, h1.trans hs, h2.trans hh, h3 hr⟩
  · obtain ⟨hc, hs⟩ := trainEnd_few (d := s.dev) (p := p) h
    obtain ⟨t, ht, hk, h1, -⟩ := hends hc
    exact ⟨t, ht, hk, h1.trans hs⟩

theorem checkEnd_up (hd : Bool) (a : Option (BitVec 4)) (len : BitVec 5) (hst : (s.dev.via p).st = .check) (htwo : (hd && s.dev.chain.head) = false) :
    ∃ t, exec (.viaCheckEnd p true hd a len) s = .next t ∧ Keeps s t ∧ (t.dev.via p).st = .up ∧ (t.dev.via p).nvalid = a.isSome
      ∧ (t.dev.via p).retraining = false := by
  have hrow : exec (.viaCheckEnd p true hd a len) s = s.keep (s.dev.enterUp p a).modeCheck :=
    congrArg s.keep ((if_neg (by simp [hst])).trans (if_neg (by simp [htwo])))
  obtain ⟨hc, hup, hn, hr⟩ := enterUp_up (d := s.dev) (p := p) a
  have hmode : (s.dev.enterUp p a).Linked (s.dev.enterUp p a).modeCheck := modeCheck_linked
  obtain ⟨_, _, _, _, _, _, _, _, _, _, hq⟩ := (hmode.via p).frame
  obtain ⟨t, ht, hk, hv, -⟩ := keep_keeps hrow (hmode.cores.trans hc)
  exact ⟨t, ht, hk, by rw [hv, hq]; exact hup, by rw [hv, hq]; exact hn, by rw [hv, hq]; exact hr⟩

theorem checkEnd_down (hd : Bool) (a : Option (BitVec 4)) (len : BitVec 5) (hst : (s.dev.via p).st = .check) :
    ∃ t, exec (.viaCheckEnd p false hd a len) s = .next t ∧ Keeps s t ∧ (t.dev.via p).st = .down := by
  let d := if hd && s.dev.chain.head then s.dev.raise 672 (viaInst p) 0#16 else s.dev
  have hrow : exec (.viaCheckEnd p false hd a len) s = s.keep (d.linkDown p true) := congrArg s.keep ((if_neg (by simp [hst])).trans (if_pos rfl))
  have hd : d.cores = s.dev.cores := by unfold d; split <;> simp
  obtain ⟨hc, hs, -⟩ := linkDown_lost d p true
  obtain ⟨t, ht, hk, hv, -⟩ := keep_keeps hrow (hc.trans hd)
  exact ⟨t, ht, hk, by rw [hv]; exact hs⟩

/-! ### A link that is UP (R377, R383) -/

theorem viaRetrain_up (bad : BitVec 5) (hst : (s.dev.via p).st = .up) : (s.dev.viaRetrain p bad).cores = s.dev.cores
    ∧ (s.dev.viaRetrain p bad).via p =
      { s.dev.via p with st := .train, retraining := true, trainAt := s.dev.clk, stalled := 0, bad := (s.dev.via p).bad ||| bad } := by
  unfold Dev.viaRetrain
  rw [if_pos (by simp [hst])]
  exact ⟨onVia_cores _, Dev.via_onVia _ _ _⟩

/-- A retrain begins from UP at most, and leaves the ledger and the counts alone. -/
theorem viaRetrain_counts (d : Dev) (bad : BitVec 5) : (d.viaRetrain p bad).cores = d.cores ∧ ((d.viaRetrain p bad).via p).ledger = (d.via p).ledger
    ∧ ((d.viaRetrain p bad).via p).retry = (d.via p).retry ∧ ((d.viaRetrain p bad).via p).lerr = (d.via p).lerr := by
  unfold Dev.viaRetrain
  split
  · rw [Dev.via_onVia]
    exact ⟨onVia_cores _, rfl, rfl, rfl⟩
  · exact ⟨rfl, rfl, rfl, rfl⟩

section
variable (hst : (s.dev.via p).st = .up)
include hst

theorem retrain_trains (req : ReqId) : ∃ t, exec (.viaRetrain req p) s = .next t ∧ Keeps s t ∧ (t.dev.via p).st = .train
    ∧ (t.dev.via p).retraining = true ∧ (t.dev.via p).ledger = (s.dev.via p).ledger := by
  obtain ⟨hc, hvia⟩ := viaRetrain_up 0#5 hst
  obtain ⟨t, ht, hk, hv, -⟩ := keep_keeps (i := .viaRetrain req p) rfl hc
  refine ⟨t, ht, hk, ?_⟩
  rw [hv, hvia]
  exact ⟨rfl, rfl, rfl⟩

theorem laneError_lostLock (l : BitVec 3) (hl : l.toNat < 5) : ∃ t, exec (.viaLaneError p l true) s = .next t ∧ Keeps s t
    ∧ (t.dev.via p).st = .train ∧ (t.dev.via p).bad = (s.dev.via p).bad ||| (1#5 <<< l.toNat) := by
  have hrow : exec (.viaLaneError p l true) s = s.keep (s.dev.viaRetrain p (1#5 <<< l.toNat)) :=
    congrArg s.keep ((if_neg (by simp [hst, hl])).trans (if_pos rfl))
  obtain ⟨hc, hvia⟩ := viaRetrain_up (1#5 <<< l.toNat) hst
  obtain ⟨t, ht, hk, hv, -⟩ := keep_keeps hrow hc
  refine ⟨t, ht, hk, ?_⟩
  rw [hv, hvia]
  exact ⟨rfl, rfl⟩

theorem laneError_counts (l : BitVec 3) (hl : l.toNat < 5) : ∃ t, exec (.viaLaneError p l false) s = .next t ∧ Keeps s t
    ∧ Tab.find 0 (t.dev.via p).lerr l.toNat = min 63 (Tab.find 0 (s.dev.via p).lerr l.toNat + 1) := by
  have hrow : exec (.viaLaneError p l false) s = s.keep (s.dev.laneError p l.toNat) :=
    congrArg s.keep ((if_neg (by simp [hst, hl])).trans (if_neg (by simp)))
  have herr : (s.dev.laneError p l.toNat).cores = s.dev.cores
      ∧ ((s.dev.laneError p l.toNat).via p).lerr = Tab.put (s.dev.via p).lerr l.toNat (min 63 (Tab.find 0 (s.dev.via p).lerr l.toNat + 1)) := by
    unfold Dev.laneError
    extract_lets recent d1
    have h1 : d1.cores = s.dev.cores ∧ (d1.via p).lerr = Tab.put (s.dev.via p).lerr l.toNat (min 63 (Tab.find 0 (s.dev.via p).lerr l.toNat + 1)) :=
      ⟨onVia_cores _, by unfold d1; rw [Dev.via_onVia]⟩
    split
    · obtain ⟨hc, -, -, hlerr⟩ := viaRetrain_counts (p := p) d1 (1#5 <<< l.toNat)
      exact ⟨hc.trans h1.1, hlerr.trans h1.2⟩
    · exact h1
  obtain ⟨t, ht, hk, hv, -⟩ := keep_keeps hrow herr.1
  exact ⟨t, ht, hk, by rw [hv, herr.2, Tab.find_put_self]⟩

theorem flitError_naks : ∃ t, exec (.viaFlitError p) s = .next t ∧ Keeps s t ∧ (t.dev.via p).nakSent = true
    ∧ (t.dev.via p).nakDue = ((s.dev.via p).nakDue || !(s.dev.via p).nakSent) ∧ (t.dev.via p).st = .up := by
  have hrow : exec (.viaFlitError p) s = s.keep (s.dev.onVia p Via.gap) := congrArg s.keep (if_pos (by simp [hst]))
  obtain ⟨t, ht, hk, hv, -⟩ := keep_keeps hrow (onVia_cores _)
  refine ⟨t, ht, hk, ?_⟩
  rw [hv, Dev.via_onVia, Via.gap]
  split
  · next h => exact ⟨h, by simp [h], hst⟩
  · next h => exact ⟨rfl, by simp [h], hst⟩

theorem replayTimeout_replays (f : OutFlit) (r : List OutFlit) (hled : (s.dev.via p).ledger = f :: r) (hlate : f.sentAt + 1600 ≤ s.dev.clk) :
    ∃ t, exec (.viaReplayTimeout p) s = .next t ∧ Keeps s t
      ∧ (t.dev.via p).ledger = (s.dev.via p).ledger.map (fun x => { x with sentAt := s.dev.clk, ack := (s.dev.via p).nextRx - 1#12, cf := s.dev.cfSent p })
      ∧ (t.dev.via p).retry = satAdd (s.dev.via p).retry (s.dev.via p).ledger.length := by
  let d := s.dev.onVia p (fun v => v.replay s.dev.clk (s.dev.cfSent p))
  have hrow : exec (.viaReplayTimeout p) s = s.keep (d.viaStalled p) := by
    refine congrArg s.keep ?_
    rw [hled]
    exact if_pos (by simp [hst, hlate])
  have hd : d.via p = (s.dev.via p).replay s.dev.clk (s.dev.cfSent p) := Dev.via_onVia _ _ _
  have hstalled : (d.viaStalled p).cores = d.cores ∧ ((d.viaStalled p).via p).ledger = (d.via p).ledger
      ∧ ((d.viaStalled p).via p).retry = (d.via p).retry := by
    unfold Dev.viaStalled
    split
    · obtain ⟨hc, hl, hr, -⟩ := viaRetrain_counts (p := p) d 0#5
      exact ⟨hc, hl, hr⟩
    · exact ⟨rfl, rfl, rfl⟩
  obtain ⟨t, ht, hk, hv, -⟩ := keep_keeps hrow (hstalled.1.trans (onVia_cores _))
  have hagain : (s.dev.via p).replay s.dev.clk (s.dev.cfSent p) = _ := if_neg (by simp [hled])
  refine ⟨t, ht, hk, ?_, ?_⟩
  · rw [hv, hstalled.2.1, hd, hagain]
  · rw [hv, hstalled.2.2, hd, hagain]

end

/-- A link lost, one that was UP or in a retrain, is counted and raised (R377). -/
theorem linkDown_counted {i : Instr} (hrow : exec i s = s.keep (s.dev.linkDown p true)) (hl : (s.dev.via p).lost = false) :
    ∃ t, exec i s = .next t ∧ Keeps s t ∧ (t.dev.via p).st = .down ∧ (t.dev.via p).downs = satInc (s.dev.via p).downs
      ∧ t.dev.raising 674 (viaInst p) := by
  obtain ⟨hc, hst, hlost⟩ := linkDown_lost s.dev p true
  obtain ⟨t, ht, hk, hv, hr⟩ := keep_keeps hrow hc
  exact ⟨t, ht, hk, by rw [hv]; exact hst, by rw [hv]; exact (hlost hl).1, hr _ _ ((hlost hl).2 rfl)⟩

/-! ### Sidebands (R376, R390) -/

theorem cfRise_told (d old : Dev) : (d.cfRise old p).cores = d.cores ∧ ∀ q, (d.cfRise old p).via q = d.via q := by
  unfold Dev.cfRise
  split
  · exact ⟨raise_cores _ _ _ _, fun q => raise_via _ _ _ _⟩
  · exact ⟨rfl, fun _ => rfl⟩

theorem chainSideband_kept (b : Bool) : ∃ t, exec (.viaChainSideband p b) s = .next t ∧ Keeps s t ∧ (t.dev.via p).sbIn = b
    ∧ t.dev.cfReceived p = ((!(s.dev.via p).lost && (s.dev.via p).cfIn) || (b && (p == .up || (s.dev.via p).sbEn))) := by
  obtain ⟨hc, hvia⟩ := cfRise_told (p := p) (s.dev.onVia p (fun v => { v with sbIn := b })) s.dev
  obtain ⟨t, ht, hk, hv, -⟩ := keep_keeps (i := .viaChainSideband p b) rfl (hc.trans (onVia_cores _))
  have hp : t.dev.via p = { s.dev.via p with sbIn := b } := by rw [hv, hvia, Dev.via_onVia]
  refine ⟨t, ht, hk, by rw [hp], ?_⟩
  unfold Dev.cfReceived
  dsimp only
  rw [hp]
  rfl

/-- Settles O60, event by event: the states in the order of R377, a link that is UP, a loss, the sideband. -/
theorem linksChangeState : Obligations.LinksChangeState := by
  unfold Obligations.LinksChangeState
  intro s p
  refine ⟨fun m => farEndDetect_trains m, trainEnd_ends, fun hd a len hst => ⟨checkEnd_up hd a len hst, checkEnd_down hd a len hst⟩,
    fun hst => ⟨retrain_trains hst, laneError_lostLock hst, laneError_counts hst, flitError_naks hst, replayTimeout_replays hst, ?_⟩,
    fun hst hre hlate => ?_, chainSideband_kept⟩
  · exact linkDown_counted (congrArg s.keep (if_pos (by simp [hst]))) (by simp [Via.lost, hst])
  · exact linkDown_counted (congrArg s.keep (if_pos (by simp [hre, hlate]))) (by simp [Via.lost, hre])

end Sys2Proof.Proofs
end

section
/-! SUPPORT. The steps of an enumeration: the flit taken, the chain's length recorded, the VIA_ENUM that ends (R391). -/
namespace Sys2Proof.Machine

variable {d e : Dev} {p q : ViaPort} {h : FlitHdr}

/-! ### A flit in sequence (R383) -/

theorem via_onVia_other (f : Via → Via) (hq : q ≠ p) : (d.onVia p f).via q = d.via q := by
  cases p <;> cases q
  · exact absurd rfl hq
  · rfl
  · rfl
  · exact absurd rfl hq

/-- What a flit's header does at one port, the other sees as flits sent at most. -/
theorem viaHeader_other (hq : q ≠ p) : (d.via q).Sends ((d.viaHeader p h).via q) := by
  have hstalled : ∀ x : Dev, (x.viaStalled p).via q = x.via q := by
    intro x
    unfold Dev.viaStalled Dev.viaRetrain
    split
    · split
      · exact via_onVia_other _ hq
      · rfl
    · rfl
  have hrise : ∀ x old : Dev, (x.cfRise old p).via q = x.via q := by
    intro x old
    unfold Dev.cfRise
    split
    · exact raise_via _ _ _ _
    · rfl
  let x := (d.onVia p (fun v => v.header d.clk (d.cfSent p) h)).viaStalled p
  have hx : x.via q = d.via q := by rw [hstalled, via_onVia_other _ hq]
  have hpump : (x.via q).Sends (x.viaPump.via q) := (viaMove_sends _ _).port q
  unfold Dev.viaHeader
  rw [hrise, ← hx]
  exact hpump

/-- A flit in sequence is taken once flits have moved; the other port has sent at most. -/
theorem viaTake_inOrder (hord : d.inOrder p h) :
    ∃ x, d.FlitsMoved x ∧ (∀ q, q ≠ p → (d.via q).Sends (x.via q)) ∧ ∀ f, d.viaTake p h 1 f = f x := by
  obtain ⟨hup, hseq⟩ := hord
  refine ⟨(d.onVia p (fun v => { v with nextRx := v.nextRx + BitVec.ofNat 12 1, nakSent := false })).viaHeader p h,
    (onVia_moved rfl).trans (viaHeader_moved h), fun q hq => ?_, fun f => by simp [Dev.viaTake, hup, hseq]⟩
  have h1 := viaHeader_other (d := d.onVia p (fun v => { v with nextRx := v.nextRx + BitVec.ofNat 12 1, nakSent := false })) (h := h) hq
  rwa [via_onVia_other _ hq] at h1

/-- What flits that moved leave of the chain, the cores and Keystone. -/
theorem Dev.FlitsMoved.place (hm : d.FlitsMoved e) : e.cores = d.cores ∧ e.ks = d.ks ∧ (∀ r, e.port r = d.port r) ∧ e.clk = d.clk
    ∧ ∃ up dn, e.chain = { d.chain with up := up, dn := dn } := by
  obtain ⟨⟨_, _, _, up, dn, rfl⟩, -⟩ := hm
  exact ⟨rfl, rfl, fun r => by cases r <;> rfl, rfl, up, dn, rfl⟩

/-! ### Jobs that end alone (R346) -/

/-- Jobs none of which is picked stay. -/
theorem endJobs_unpicked {pick : Job → Bool} (st det : BitVec 16) (hn : ∀ j ∈ d.ks.jobs, pick j = false) : d.endJobs pick st det = d := by
  have hf : d.ks.jobs.filter (fun j => pick j && !j.isUndo) = [] := by
    rw [List.filter_eq_nil_iff]
    exact fun j hj => by simp [hn j hj]
  have hk : d.ks.jobs.flatMap (fun j => if pick j && !j.isUndo then j.remains else [j]) = d.ks.jobs := by
    have hone : ∀ l : List Job, (∀ j ∈ l, pick j = false) → l.flatMap (fun j => if pick j && !j.isUndo then j.remains else [j]) = l := by
      intro l
      induction l with
      | nil => exact fun _ => rfl
      | cons a l ih =>
        intro ha
        rw [List.flatMap_cons, ih (fun j hj => ha j (List.mem_cons_of_mem _ hj)), ha a List.mem_cons_self]
        rfl
    exact hone _ hn
  unfold Dev.endJobs
  dsimp only
  rw [hf]
  exact congrArg (fun js => ({ d with ks := { d.ks with jobs := js } } : Dev)) hk

/-- A final result of a command none of whose transactions was late stands at the port as it is given. -/
theorem finalResult_prompt {j : Job} {r : Port} (hsrc : j.src = .port r) (hlate : j.late = 0) (st det : BitVec 16) :
    ((d.finalResult j st det).port r).final = (false, true, st ++ det) := by
  unfold Dev.finalResult
  rw [hsrc, hlate, if_neg (by simp), if_neg (by simp)]
  dsimp only
  split
  · rw [Dev.port_onPort]
    rfl
  · rw [sendVec_final, Dev.port_onPort]
    rfl

/-- The only command that waits ends with its result: nothing waits after it. -/
theorem endJobs_ends {pick : Job → Bool} {j : Job} {r : Port} (hjobs : d.ks.jobs = [j]) (hpick : pick j = true) (hundo : j.isUndo = false)
    (hgone : j.remains = []) (hsrc : j.src = .port r) (hlate : j.late = 0) (st det : BitVec 16) :
    (d.endJobs pick st det).ks.jobs = [] ∧ ((d.endJobs pick st det).port r).final = (false, true, st ++ det) := by
  rw [endJobs_alone hjobs hpick hundo hgone]
  obtain ⟨-, -, hks⟩ := finalResult_told (d := d.jobless) hsrc st det
  exact ⟨congrArg Keystone.jobs hks, finalResult_prompt hsrc hlate st det⟩

/-! ### The chain's length (R391 step 5) -/

/-- With the length recorded the unit keeps its place, its cores and what waits in it. -/
theorem setLength_sets (n : BitVec 5) : (d.setLength n).cores = d.cores ∧ (d.setLength n).chain.chainLen = n
    ∧ (d.setLength n).chain.enumWait = d.chain.enumWait ∧ (d.setLength n).chain.unit = d.chain.unit := by
  unfold Dev.setLength
  extract_lets u len d1
  have htold : d1.Linked (d1.reachChanged d) := reachChanged_linked d
  obtain ⟨_, _, hc⟩ := htold.chain
  exact ⟨htold.cores, by rw [hc]; rfl, by rw [hc]; rfl, by rw [hc]; rfl⟩

theorem reachChanged_jobs {old : Dev} (hn : ∀ j ∈ d.ks.jobs, ∀ x : Dev, x.jobCutOff j = false) : (d.reachChanged old).ks.jobs = d.ks.jobs := by
  obtain ⟨⟨up, dn, hs⟩, -⟩ := tellReach_sends (d := d) old
  unfold Dev.reachChanged
  dsimp only
  rw [hs, endJobs_unpicked]
  exact fun j hj => hn j hj _

/-- A VIA_ENUM is cut off by no unit. -/
theorem jobCutOff_viaEnum {j : Job} (hk : j.kind = .viaEnum) (x : Dev) : x.jobCutOff j = false := by
  unfold Dev.jobCutOff
  rw [hk]

/-- The HEAD records the length, and its VIA_ENUM ends with it. -/
theorem headLength_sets (n : BitVec 5) : (d.headLength n).cores = d.cores ∧ (d.headLength n).chain.chainLen = n
    ∧ (d.headLength n).chain.enumWait = d.chain.enumWait := by
  unfold Dev.headLength
  extract_lets d1
  have hset : (d.setLength n).Linked d1 := viaSend_sends.talks.linked
  have htold : d1.Linked (d1.endJobs (fun j => j.kind == .viaEnum) stDone (n.setWidth 16)) := endJobs_linked _ _ _
  obtain ⟨_, _, hc⟩ := (hset.trans htold).chain
  obtain ⟨hcores, hlen, hwait, -⟩ := setLength_sets (d := d) n
  exact ⟨(hset.trans htold).cores.trans hcores, by rw [hc]; exact hlen, by rw [hc]; exact hwait⟩

theorem headLength_ends {j : Job} {r : Port} (n : BitVec 5) (hjobs : d.ks.jobs = [j]) (hsrc : j.src = .port r) (hkind : j.kind = .viaEnum)
    (hlate : j.late = 0) : (d.headLength n).ks.jobs = [] ∧ ((d.headLength n).port r).final = (false, true, stDone ++ n.setWidth 16) := by
  unfold Dev.headLength
  extract_lets d1
  have hset : (d.setLength n).ks.jobs = [j] := by
    unfold Dev.setLength
    extract_lets u len d2
    have h2 : d2.ks.jobs = [j] := hjobs
    rw [reachChanged_jobs, h2]
    intro k hk
    rw [h2, List.mem_singleton] at hk
    rw [hk]
    exact jobCutOff_viaEnum hkind
  have h1 : d1.ks.jobs = [j] := by
    obtain ⟨⟨_, _, hs⟩, -⟩ := viaSend_sends (d := d.setLength n) (p := .dn) (cls := 1#2) (dest := 0#4) (src := d.chain.unit) (body := .length n)
    rw [show d1 = _ from hs]
    exact hset
  exact endJobs_ends h1 (by simp [hkind]) (by simp [Job.isUndo, hkind]) (by simp [Job.remains, hkind]) hsrc hlate _ _

/-! ### The token (R391 steps 2 and 3) -/

theorem passToken_chain (n : BitVec 5) : (d.passToken n).cores = d.cores ∧ (d.passToken n).chain.uvalid = d.chain.uvalid
    ∧ (d.passToken n).chain.unit = d.chain.unit := by
  refine ⟨passToken_cores n, ?_⟩
  unfold Dev.passToken
  split
  · obtain ⟨⟨_, _, h⟩, -⟩ := viaSend_sends (d := d.onChain (fun c => { c with enumWait := none })) (p := .dn) (cls := 1#2) (dest := 0#4)
      (src := d.chain.unit) (body := .enum n)
    rw [h]
    exact ⟨rfl, rfl⟩
  · exact ⟨rfl, rfl⟩

/-- A unit below the HEAD takes the address of a token of 0 to 15. -/
theorem takeEnum_numbered {n : BitVec 5} (hhead : d.chain.head = false) (hn : n.toNat < 16) :
    (d.takeEnum n).cores = d.cores ∧ (d.takeEnum n).chain.uvalid = true ∧ (d.takeEnum n).chain.unit = n.setWidth 4 := by
  let x := (d.onChain Chain.freed).onChain (fun c => { c with uvalid := true, unit := BitVec.ofNat 4 n.toNat })
  have htake : d.takeEnum n = (x.tellReach d).passToken (n + 1#5) := by
    unfold Dev.takeEnum
    dsimp only
    rw [if_neg (by simp [hhead]), if_neg (by omega)]
  obtain ⟨⟨_, _, hs⟩, -⟩ := tellReach_sends (d := x) d
  obtain ⟨hc, hv, hu⟩ := passToken_chain (d := x.tellReach d) (n + 1#5)
  rw [htake, hc, hv, hu, hs]
  refine ⟨rfl, rfl, BitVec.eq_of_toNat_eq ?_⟩
  simp [x, Dev.onChain]

/-- A seventeenth unit takes no address. -/
theorem takeEnum_unnumbered {n : BitVec 5} (hhead : d.chain.head = false) (hn : 16 ≤ n.toNat) :
    (d.takeEnum n).cores = d.cores ∧ (d.takeEnum n).chain.uvalid = false ∧ (d.takeEnum n).raising 672 0 := by
  let x := (d.onChain Chain.freed).onChain (fun c => { c with uvalid := false, unit := 0#4 })
  have htake : d.takeEnum n = ((x.tellReach d).raise 672 0 0#16).sendEnd 16#5 := by
    unfold Dev.takeEnum
    dsimp only
    rw [if_neg (by simp [hhead]), if_pos hn]
  obtain ⟨⟨_, _, hs⟩, -⟩ := tellReach_sends (d := x) d
  have hend : ((x.tellReach d).raise 672 0 0#16).Linked (d.takeEnum n) := htake ▸ viaSend_sends.talks.linked
  obtain ⟨_, _, hc⟩ := hend.chain
  refine ⟨hend.cores.trans ?_, ?_, hend.raising (raise_raising _ _ _ _)⟩
  · rw [raise_cores, hs]
    rfl
  · rw [hc, raise_chain, hs]
    rfl

/-- Nor does the HEAD. -/
theorem takeEnum_head {n : BitVec 5} (hhead : d.chain.head = true) :
    (d.takeEnum n).cores = d.cores ∧ (d.takeEnum n).chain.unit = d.chain.unit ∧ (d.takeEnum n).raising 672 0 := by
  have htake : d.takeEnum n = ((d.onChain Chain.freed).raise 672 0 0#16).sendEnd n := by
    unfold Dev.takeEnum
    dsimp only
    rw [if_pos hhead]
  have hend : ((d.onChain Chain.freed).raise 672 0 0#16).Linked (d.takeEnum n) := htake ▸ viaSend_sends.talks.linked
  obtain ⟨_, _, hc⟩ := hend.chain
  refine ⟨hend.cores.trans (raise_cores _ _ _ _), ?_, hend.raising (raise_raising _ _ _ _)⟩
  rw [hc, raise_chain]
  rfl

theorem sendEnd_cores (n : BitVec 5) : (d.sendEnd n).cores = d.cores := by
  obtain ⟨⟨_, _, h⟩, -⟩ := viaSend_sends (d := d) (p := .up) (cls := 1#2) (dest := 0#4) (src := d.chain.unit) (body := .endf n)
  rw [Dev.sendEnd, h]

theorem sendEnd_chain (n : BitVec 5) : ∃ up dn, (d.sendEnd n).chain = { d.chain with up := up, dn := dn } := by
  obtain ⟨⟨up, dn, h⟩, -⟩ := viaSend_sends (d := d) (p := .up) (cls := 1#2) (dest := 0#4) (src := d.chain.unit) (body := .endf n)
  exact ⟨up, dn, congrArg Dev.chain h⟩

end Sys2Proof.Machine
end

section
/-! PROOFS. The statement on the enumeration of the chain. -/
namespace Sys2Proof.Proofs
open Sys2Proof.Machine

variable {s : State} {h : FlitHdr} {n : BitVec 5}

/-! ### From above: the token and the length -/

section
variable (hord : s.dev.inOrder .up h)
include hord

/-- A token from above in sequence is taken where flits have moved. -/
theorem enumReceive_row : ∃ x, s.dev.FlitsMoved x ∧ exec (.viaEnumReceive .up h n) s = s.keep (x.takeEnum n) := by
  obtain ⟨x, hm, -, htake⟩ := viaTake_inOrder hord
  exact ⟨x, hm, congrArg s.keep ((htake _).trans (if_pos rfl))⟩

theorem enumReceive_numbered (hhead : s.dev.chain.head = false) (hn : n.toNat < 16) :
    ∃ t, exec (.viaEnumReceive .up h n) s = .next t ∧ Keeps s t ∧ t.dev.chain.uvalid = true ∧ t.dev.chain.unit = n.setWidth 4 := by
  obtain ⟨x, hm, hrow⟩ := enumReceive_row (n := n) hord
  obtain ⟨hcores, -, -, -, _, _, hchain⟩ := hm.place
  obtain ⟨hc, hv, hu⟩ := takeEnum_numbered (d := x) (by rw [hchain]; exact hhead) hn
  exact ⟨_, hrow, keeps_of_cores (hc.trans hcores), hv, hu⟩

theorem enumReceive_unnumbered (hhead : s.dev.chain.head = false) (hn : 16 ≤ n.toNat) :
    ∃ t, exec (.viaEnumReceive .up h n) s = .next t ∧ Keeps s t ∧ t.dev.chain.uvalid = false ∧ t.dev.raising 672 0 := by
  obtain ⟨x, hm, hrow⟩ := enumReceive_row (n := n) hord
  obtain ⟨hcores, -, -, -, _, _, hchain⟩ := hm.place
  obtain ⟨hc, hv, hr⟩ := takeEnum_unnumbered (d := x) (by rw [hchain]; exact hhead) hn
  exact ⟨_, hrow, keeps_of_cores (hc.trans hcores), hv, hr⟩

theorem enumReceive_head (hhead : s.dev.chain.head = true) :
    ∃ t, exec (.viaEnumReceive .up h n) s = .next t ∧ Keeps s t ∧ t.dev.raising 672 0 ∧ t.dev.chain.unit = s.dev.chain.unit := by
  obtain ⟨x, hm, hrow⟩ := enumReceive_row (n := n) hord
  obtain ⟨hcores, -, -, -, _, _, hchain⟩ := hm.place
  obtain ⟨hc, hu, hr⟩ := takeEnum_head (d := x) (n := n) (by rw [hchain]; exact hhead)
  exact ⟨_, hrow, keeps_of_cores (hc.trans hcores), hr, hu.trans (by rw [hchain])⟩

theorem lengthReceive_records (hu : s.dev.chain.uvalid = true) :
    ∃ t, exec (.viaLengthReceive .up h n) s = .next t ∧ Keeps s t ∧ t.dev.chain.chainLen = n := by
  obtain ⟨x, hm, -, htake⟩ := viaTake_inOrder hord
  obtain ⟨hcores, -, -, -, _, _, hchain⟩ := hm.place
  have hrow : exec (.viaLengthReceive .up h n) s = s.keep ((x.setLength n).viaSend .dn 1#2 0#4 x.chain.unit (.length n)) :=
    congrArg s.keep ((htake _).trans (if_neg (by simp [hchain, hu])))
  obtain ⟨hc, hlen, -⟩ := setLength_sets (d := x) n
  obtain ⟨⟨_, _, hs⟩, -⟩ := viaSend_sends (d := x.setLength n) (p := .dn) (cls := 1#2) (dest := 0#4) (src := x.chain.unit) (body := .length n)
  rw [hs] at hrow
  exact ⟨_, hrow, keeps_of_cores (hc.trans hcores), hlen⟩

end

/-! ### From below: END -/

section
variable (hord : s.dev.inOrder .dn h) (hu : s.dev.chain.uvalid = true)
include hord hu

theorem endReceive_head (hhead : s.dev.chain.head = true) :
    ∃ t, exec (.viaEndReceive .dn h n) s = .next t ∧ Keeps s t ∧ t.dev.chain.chainLen = n
      ∧ ∀ p j, s.dev.ks.jobs = [j] → j.src = .port p → j.kind = .viaEnum → j.late = 0 → Ended t p stDone (n.setWidth 16) := by
  obtain ⟨x, hm, -, htake⟩ := viaTake_inOrder hord
  obtain ⟨hcores, hks, -, -, _, _, hchain⟩ := hm.place
  have hrow : exec (.viaEndReceive .dn h n) s = s.keep (x.headLength n) :=
    congrArg s.keep ((htake _).trans ((if_neg (by simp [hchain, hu])).trans (if_pos (by rw [hchain]; exact hhead))))
  obtain ⟨hc, hlen, -⟩ := headLength_sets (d := x) n
  refine ⟨_, hrow, keeps_of_cores (hc.trans hcores), hlen, fun p j hjobs hsrc hkind hlate => ?_⟩
  obtain ⟨hnone, hfinal⟩ := headLength_ends n (by rw [hks]; exact hjobs) hsrc hkind hlate
  simp only [PortSt.final, Prod.mk.injEq] at hfinal
  refine ⟨hnone, ?_⟩
  rw [Dev.port_seen]
  exact hfinal

theorem endReceive_passes (hhead : s.dev.chain.head = false) (hup : (s.dev.via .up).lost = false) :
    ∃ t, exec (.viaEndReceive .dn h n) s = .next t ∧ Keeps s t ∧ (t.dev.via .up).carries (.endf n) := by
  obtain ⟨x, hm, hother, htake⟩ := viaTake_inOrder hord
  obtain ⟨hcores, -, -, -, _, _, hchain⟩ := hm.place
  have hrow : exec (.viaEndReceive .dn h n) s = s.keep (x.sendEnd n) :=
    congrArg s.keep ((htake _).trans ((if_neg (by simp [hchain, hu])).trans (if_neg (by simp [hchain, hhead]))))
  have hlost : (x.via .up).lost = false := by
    obtain ⟨_, _, _, _, _, _, _, _, _, _, hq⟩ := (hother .up (by decide)).frame
    rw [hq]
    exact hup
  refine ⟨_, hrow, keeps_of_cores ((sendEnd_cores n).trans hcores), ?_⟩
  rw [Dev.via_seen]
  exact viaSend_carries hlost

end

/-! ### The last unit (R391 step 3) -/

/-- The end of the wait for the DOWN port. -/
theorem enumTimeout_row {w : Nat} (hw : s.dev.chain.enumWait = some w) (hlate : w + 2400000 ≤ s.dev.clk) : exec .viaEnumTimeout s =
    s.keep (if s.dev.chain.head then (s.dev.onChain (fun c => { c with enumWait := none })).headLength (s.dev.chain.unit.setWidth 5 + 1#5)
      else (s.dev.onChain (fun c => { c with enumWait := none })).sendEnd (s.dev.chain.unit.setWidth 5 + 1#5)) := by
  refine congrArg s.keep ?_
  rw [hw]
  exact if_pos hlate

theorem enumTimeout_head {w : Nat} (hw : s.dev.chain.enumWait = some w) (hlate : w + 2400000 ≤ s.dev.clk) (hhead : s.dev.chain.head = true) :
    ∃ t, exec .viaEnumTimeout s = .next t ∧ Keeps s t ∧ t.dev.chain.chainLen = s.dev.chain.unit.setWidth 5 + 1#5 ∧ t.dev.chain.enumWait = none := by
  have hrow := enumTimeout_row hw hlate
  rw [if_pos hhead] at hrow
  obtain ⟨hc, hlen, hwait⟩ := headLength_sets (d := s.dev.onChain (fun c => { c with enumWait := none })) (s.dev.chain.unit.setWidth 5 + 1#5)
  exact ⟨_, hrow, keeps_of_cores hc, hlen, hwait⟩

theorem enumTimeout_passes {w : Nat} (hw : s.dev.chain.enumWait = some w) (hlate : w + 2400000 ≤ s.dev.clk) (hhead : s.dev.chain.head = false)
    (hup : (s.dev.via .up).lost = false) : ∃ t, exec .viaEnumTimeout s = .next t ∧ Keeps s t ∧ t.dev.chain.enumWait = none
      ∧ (t.dev.via .up).carries (.endf (s.dev.chain.unit.setWidth 5 + 1#5)) := by
  have hrow := enumTimeout_row hw hlate
  rw [if_neg (by simp [hhead])] at hrow
  obtain ⟨_, _, hchain⟩ := sendEnd_chain (d := s.dev.onChain (fun c => { c with enumWait := none })) (s.dev.chain.unit.setWidth 5 + 1#5)
  refine ⟨_, hrow, keeps_of_cores (sendEnd_cores _), congrArg Chain.enumWait hchain, ?_⟩
  rw [Dev.via_seen]
  exact viaSend_carries hup

/-- Settles O59, flit by flit: from above the token and the length, from below END, and the time that the last unit waits. -/
theorem theChainIsEnumerated : Obligations.TheChainIsEnumerated := by
  unfold Obligations.TheChainIsEnumerated
  exact fun s h n => ⟨fun hord => ⟨enumReceive_numbered hord, enumReceive_unnumbered hord, enumReceive_head hord, lengthReceive_records hord⟩,
    endReceive_head, endReceive_passes, fun w hw hlate => ⟨enumTimeout_head hw hlate, enumTimeout_passes hw hlate⟩⟩

end Sys2Proof.Proofs
end

section
/-! SUPPORT. Commands that Keystone takes and admits, and their accesses over an idle Deck: each is granted at once, and nothing is left of it
(R224, R231, R342 to R345). -/
namespace Sys2Proof.Machine

variable {d e : Dev} {src : CmdSrc} {c : CmdSpec} {body : Dev → Eff} {st det : BitVec 16} {ws : List W32}

/-! ### Admitted commands (R343) -/

/-- A command that passes the checks is served by its own meaning. -/
theorem Dev.admits.serveCmd (h : d.admits src c) : d.serveCmd src c body = body d := by
  obtain ⟨ht, h3, h4, hlen, hown, hop, hfit, hfl, hbulk, hmode, howns, hstop⟩ := h
  have hhead : d.badHeader src = false := by simp [Dev.badHeader, h3, h4, hlen]
  have hflags : ¬ (4 ≤ d.flagsByte src ∨ (d.flagsByte src % 2 = 1 ∧ c.bulk = false)) := by
    rintro (h | ⟨hodd, hb⟩)
    · omega
    · rw [hbulk hodd] at hb
      cases hb
  have hnone : d.firstFailure src c = none := by
    unfold Dev.firstFailure
    dsimp only
    rw [if_neg (by simp [hop]), if_neg (by simp [hfit]), if_neg hflags, if_neg (by simp [hmode])]
    cases hc : c.changes
    · simp
    · have hstopped : (!c.excepted && d.flt.atLeast 4) = false := by
        cases he : c.excepted
        · simp [hstop hc he]
        · rfl
      have ho := howns hc
      cases src <;> simp_all [Dev.owns]
  unfold Dev.serveCmd
  rw [if_neg (by simp [ht.fresh.1]), hhead, hown, hnone]
  rfl

/-- An admitted command whose meaning answers it at once: the next turn begins behind its place. -/
theorem Dev.admits.takeCmd (h : d.admits src c) {ms : List MemOp} (hb : body d = (e, ms)) (hw : e.waiting src = false)
    (htx : ∀ t ∈ e.txns, t.ofCmd src = false) : d.takeCmd src c body = (e.taken src, ms) :=
  h.1.serves (.inl h.2.2.2.2.2.1) (h.serveCmd.trans hb) hw htx

/-- One that is answered by a reply, its meaning having no other effect. -/
theorem Dev.admits.fresh (h : d.admits src c) : d.ks.prog = none ∧ d.calm ∧ d.pwr.nego = none := by
  obtain ⟨⟨hj, hn, -, -, -, -, -, -, hp⟩, -⟩ := h
  exact ⟨hp, hj, hn⟩

/-! ### What an access of Keystone leaves behind (R224, R231, R238) -/

/-- From d to e accesses of Keystone came and went over an idle Deck: P1 ended, and numbers, counts and pins may differ; nothing else does. -/
structure Dev.Accessed (d e : Dev) : Prop where
  frame : ∃ ps ba gt lk xs id cs cr ss pl, e =
    { d with pwr := { d.pwr with pstate := ps, busyAt := ba }, ks := { d.ks with gated := gt, lastKick := lk }, xings := xs, nextId := id, chans := cs,
             creqs := cr, spans := ss, plb := pl }
  asleep : ∀ n, (e.span n).asleep = (d.span n).asleep
  hold : ∀ n, (d.xing n).hold = false → (e.xing n).hold = false
  high : ∀ g, e.highAt g = d.highAt g

theorem Dev.Accessed.refl (d : Dev) : d.Accessed d := ⟨⟨_, _, _, _, _, _, _, _, _, _, rfl⟩, fun _ => rfl, fun _ => id, fun _ => rfl⟩

theorem Dev.Accessed.trans {f : Dev} (h : d.Accessed e) (g : e.Accessed f) : d.Accessed f := by
  obtain ⟨⟨_, _, _, _, _, _, _, _, _, _, rfl⟩, ha, hh, hg⟩ := h
  obtain ⟨⟨a, b, c, x, e', f', g', h', i, j, rfl⟩, ga, gh, gg⟩ := g
  exact ⟨⟨a, b, c, x, e', f', g', h', i, j, rfl⟩, fun n => (ga n).trans (ha n), fun n hn => gh n (hh n hn), fun g => (gg g).trans (hg g)⟩

/-- An idle Deck is idle again. -/
theorem Dev.Accessed.idle (h : d.Accessed e) (hi : d.deckIdle) : e.deckIdle := by
  obtain ⟨htx, hnear, habt, hhigh⟩ := hi
  have hdown : e.abutmentDown = false := h.hold _ habt
  refine ⟨?_, ?_, hdown, fun g => by rw [h.high]; exact hhigh g⟩
  · obtain ⟨⟨_, _, _, _, _, _, _, _, _, _, rfl⟩, -⟩ := h
    exact htx
  · obtain ⟨⟨_, _, _, _, _, _, _, _, _, _, rfl⟩, -⟩ := h
    exact hnear

/-- A choice whose last branch alone differs. -/
theorem ite_else_imp {p : Prop} [Decidable p] {a x y : Bool} (h : x = false → y = false) : (if p then a else x) = false → (if p then a else y) = false := by
  split
  · exact id
  · exact h

/-- What is awake stays awake. -/
theorem Dev.Accessed.wordAsleep (h : d.Accessed e) {w : Nat} (hw : d.wordAsleep w = false) : e.wordAsleep w = false := by
  have hstill : ∀ b, e.bentStill b = d.bentStill b := by
    obtain ⟨⟨_, _, _, _, _, _, _, _, _, _, rfl⟩, -⟩ := h
    exact fun _ => rfl
  unfold Dev.wordAsleep at hw ⊢
  simp only [h.asleep, hstill]
  refine ite_else_imp (ite_else_imp (ite_else_imp (ite_else_imp (ite_else_imp ?_)))) hw
  cases centreDomain w with
  | none => exact id
  | some n => exact h.hold n

/-! ### One access (R216, R224, R227) -/

theorem leaveP1_accessed (d : Dev) : d.Accessed d.leaveP1 := by
  unfold Dev.leaveP1
  split
  · refine ⟨⟨_, _, _, _, _, _, _, _, _, _, rfl⟩, fun _ => rfl, fun n hn => ?_, fun _ => rfl⟩
    by_cases hk : n = domKeystone
    · simp [Dev.xing, Dev.onXing, hk]
    · simpa [Dev.xing, Dev.onXing, hk, Dev.onPwr, Dev.onKs] using hn
  · exact ⟨⟨_, _, _, _, _, _, _, _, _, _, rfl⟩, fun _ => rfl, fun _ => id, fun _ => rfl⟩

/-- A target's own registers say nothing of the spans' sleep. -/
theorem onTarget_accessed (g : Nat × Nat) {f : Target → Target} (hf : ∀ t, (f t).high = t.high) : d.Accessed (d.onTarget g f) := by
  unfold Dev.onTarget
  split
  · exact .refl d
  · have hspan : ∀ k, (d.onSpan g.1 (fun s => { s with targets := Tab.modify {} s.targets g.2 f })).span k =
        if k = g.1 then { d.span g.1 with targets := Tab.modify {} (d.span g.1).targets g.2 f } else d.span k := fun k => Tab.find_put _ _ _ _ _
    refine ⟨⟨_, _, _, _, _, _, _, _, _, _, rfl⟩, fun k => ?_, fun _ => id, fun k => ?_⟩
    · rw [hspan]
      split
      · next h => rw [h]
      · rfl
    · unfold Dev.highAt
      rw [hspan]
      split
      · rfl
      · split
        · next h =>
          rw [h, Tab.find_modify]
          split
          · next h2 => rw [h2, hf]
          · rfl
        · rfl

theorem notePeak_accessed (g : Nat × Nat) : d.Accessed (d.notePeak g) :=
  onTarget_accessed g (fun t => by split <;> rfl)

theorem strobe_accessed (n : Nat) : d.Accessed (d.strobe n) := ⟨⟨_, _, _, _, _, _, _, _, _, _, rfl⟩, fun _ => rfl, fun _ => id, fun _ => rfl⟩

theorem Dev.Accessed.foldl {α : Type} {f : Dev → α → Dev} (hf : ∀ (x : Dev) a, x.Accessed (f x a)) (l : List α) (d : Dev) : d.Accessed (l.foldl f d) := by
  induction l generalizing d with
  | nil => exact .refl d
  | cons a l ih => exact (hf d a).trans (ih _)

theorem cross_accessed (t : Txn) (i : Nat) : d.Accessed (d.cross t i) := by
  unfold Dev.cross Dev.onChan
  split
  · split
    · exact .refl d
    · exact ⟨⟨_, _, _, _, _, _, _, _, _, _, rfl⟩, fun _ => rfl, fun _ => id, fun _ => rfl⟩
  · exact .refl d

theorem gateSeen_accessed (t : Txn) (g : Gate) : d.Accessed (d.gateSeen t g) := by
  have hhub : ∀ (x : Dev) (s : Nat), x.Accessed (if s < 8 then (x.strobe (0xDC4 + 8 * s)).strobe (0xDC5 + 8 * s) else x) := by
    intro x s
    split
    · exact (strobe_accessed _).trans (strobe_accessed _)
    · exact .refl x
  cases g with
  | link b => exact (strobe_accessed _).trans (strobe_accessed _)
  | hub s => exact strobe_accessed _
  | centre => exact .refl d
  | port p =>
    unfold Dev.gateSeen
    cases hubOf t.req with
    | none => exact hhub d p
    | some s => exact (hhub d s).trans (hhub _ p)

/-- A C1 access that reaches a target of an idle Deck stands there alone, not delayed. -/
theorem land_idle {t : Txn} {g : Nat × Nat} (hi : d.deckIdle) (hg : t.target = some g) (hd : t.delayed = false) (hcls : t.cls = 1#2) :
    ∃ e, d.Accessed e ∧ d.land t = { e with txns := [{ t with st := .sent, overfull := false, since := d.clk }] } := by
  obtain ⟨htx, -, -, hhigh⟩ := hi
  have hlow : decide (d.highAt g ≤ d.fillAt g) = false := by
    have h := hhigh g
    simp [Dev.fillAt, htx]
    omega
  let t' : Txn := { t with st := .sent, overfull := false, since := d.clk }
  have hland : d.land t = ({ d with txns := [t'] } : Dev).notePeak g := by
    unfold Dev.land
    simp only [hg, hlow, hcls, hd, htx]
    simp [t', hd, hcls]
  have hpeak := notePeak_accessed (d := ({ d with txns := [t'] } : Dev)) g
  rw [hland]
  obtain ⟨⟨ps, ba, gt, lk, xs, id, cs, cr, ss, pl, hfr⟩, ha, hh, hg'⟩ := hpeak
  refine ⟨{ ({ d with txns := [t'] } : Dev).notePeak g with txns := d.txns }, ⟨⟨ps, ba, gt, lk, xs, id, cs, cr, ss, pl, by rw [hfr]⟩, ha, hh, hg'⟩, ?_⟩
  rw [hfr]

/-- An access put on an idle Deck stands at its target. -/
theorem arrive_idle {t : Txn} {g : Nat × Nat} (hi : d.deckIdle) (hg : t.target = some g) (hd : t.delayed = false) (hcls : t.cls = 1#2) :
    ∃ e, d.Accessed e ∧ d.arrive t = { e with txns := [{ t with st := .sent, overfull := false, since := d.clk }] } := by
  have hway : d.freeWay := by
    obtain ⟨htx, -, habt, -⟩ := hi
    exact ⟨by simp [htx], fun g => by simp [Dev.fillAt, htx], habt⟩
  let y := t.route.foldl (fun x g => x.gateSeen t g) ((List.range t.domains.length).foldl (fun x i => x.cross t i) d)
  have hy : d.Accessed y := (Dev.Accessed.foldl (fun x i => cross_accessed t i) _ d).trans (.foldl (fun x g => gateSeen_accessed t g) _ _)
  obtain ⟨e, he, hland⟩ := land_idle (hy.idle hi) hg hd hcls
  have hclk : y.clk = d.clk := by
    obtain ⟨⟨_, _, _, _, _, _, _, _, _, _, h⟩, -⟩ := hy
    rw [h]
  refine ⟨e, hy.trans he, ?_⟩
  simp only [Dev.arrive, clearWay_of_freeWay d hway hg, if_true, hway.2.2, Bool.false_and, Bool.false_eq_true, if_false]
  rw [← hclk]
  exact hland

/-- A transaction issued over an idle Deck takes the next number and stands at its target alone. -/
theorem issueTxn_idle {f : Nat → Txn} {g : Nat × Nat} (hi : d.deckIdle) (hg : (f d.nextId).target = some g) (hd : (f d.nextId).delayed = false)
    (hcls : (f d.nextId).cls = 1#2) (hroom : entryLimit (f d.nextId).req = some 16) :
    ∃ e since, d.Accessed e ∧ d.issueTxn f = { e with txns := [{ f d.nextId with st := .sent, overfull := false, since := since }] } := by
  let x := ({ d with nextId := d.nextId + 1 } : Dev).leaveP1
  have hx : d.Accessed x := Dev.Accessed.trans (e := { d with nextId := d.nextId + 1 })
    ⟨⟨_, _, _, _, _, _, _, _, _, _, rfl⟩, fun _ => rfl, fun _ => id, fun _ => rfl⟩ (leaveP1_accessed _)
  have hxi := hx.idle hi
  have hfree : x.entryFree (f d.nextId).req = true := by simp [Dev.entryFree, hroom, Dev.entriesUsed, hxi.1]
  obtain ⟨e, he, harr⟩ := arrive_idle hxi hg hd hcls
  refine ⟨e, x.clk, hx.trans he, ?_⟩
  unfold Dev.issueTxn Dev.send
  rw [if_pos hfree]
  exact harr

/-- A transaction of Keystone that stands at its target alone is granted, and leaves nothing behind it. -/
theorem alone_granted {t : Txn} {g : Nat × Nat} (hi : e.deckIdle) (hst : t.st = .sent) (hg : t.target = some g) (hd : t.delayed = false) (hcls : t.cls = 1#2) :
    let x : Dev := { e with txns := [t] }
    x.mayGrant t = true ∧ ((x.granted t).countLate t).leave t = e := by
  intro x
  obtain ⟨htx, hnear, -, -⟩ := hi
  have hrivals : x.rivals t = [] := by simp [Dev.rivals, x, hnear]
  have holder : x.behindOlder t = false := by simp [Dev.behindOlder, x]
  refine ⟨by simp [Dev.mayGrant, Txn.waits, hst, hg, holder, hrivals, Txn.goesFirst], ?_⟩
  have hgranted : x.granted t = x := by
    simp [Dev.granted, Dev.passRivals, x, hcls, hnear]
  have hlate : x.countLate t = x := by simp [Dev.countLate, hd]
  have hstill : x.wayStill := fun u hu => by
    rw [List.mem_singleton.mp hu]
    simp [Txn.onWay, hst]
  have hgone : x.dropTxn t.id = { e with txns := [] } := by simp [Dev.dropTxn, x]
  rw [hgranted, hlate, leave_still hstill, hgone, ← htx]

/-- An access of Keystone over an idle Deck is let through at once (R224, R235). -/
theorem ksSend_idle {t : Txn} {g : Nat × Nat} (hi : d.deckIdle) (hg : t.target = some g) (hd : t.delayed = false) (hcls : t.cls = 1#2) (hreq : t.req = ksReq) :
    ∃ e, d.Accessed e ∧ d.ksSend src t = .through false e := by
  have hnone : d.ksWaiting src t = none := by simp [Dev.ksWaiting, hi.1]
  obtain ⟨e, since, he, hissue⟩ := issueTxn_idle (f := fun id => { t with id := id, origin := .keystone src }) hi hg hd hcls (by rw [hreq]; rfl)
  let u : Txn := { t with id := d.nextId, origin := .keystone src, st := .sent, overfull := false, since := since }
  have hks : d.ksIssue src t = (d.nextId, { e with txns := [u] }) := by
    unfold Dev.ksIssue
    rw [hnone]
    exact congrArg (Prod.mk d.nextId) hissue
  have htxn : ({ e with txns := [u] } : Dev).txn d.nextId = some u := by simp [Dev.txn, u]
  obtain ⟨hmay, hleave⟩ := alone_granted (t := u) (he.idle hi) rfl hg hd hcls
  refine ⟨e, he, ?_⟩
  unfold Dev.ksSend
  dsimp only
  rw [hks]
  dsimp only
  rw [htxn]
  dsimp only
  rw [if_neg (by simp [u]), if_neg (by simp [u]), if_pos hmay, hleave]
  simp [u, hd]

/-! ### All of a command's accesses (R231) -/

/-- An access as Keystone makes it for a command. -/
def Txn.ksPlain (t : Txn) : Prop := t.target.isSome = true ∧ t.delayed = false ∧ t.cls = 1#2 ∧ t.req = ksReq

/-- Over an idle Deck a command's accesses to words that are awake are granted one after another, none delayed; then it does what it is for. -/
theorem ksAll_idle {go : Nat → Dev → Eff} {ts : List Txn} {p : KsProg} (hi : d.deckIdle) (hts : ∀ t ∈ ts, t.ksPlain ∧ d.wordAsleep t.addr.toNat = false) :
    ∃ e, d.Accessed e ∧ Dev.ksAll src go ts p d = go p.late e := by
  induction ts generalizing d p with
  | nil => exact ⟨d, .refl d, rfl⟩
  | cons t ts ih =>
    obtain ⟨⟨htgt, hd, hcls, hreq⟩, hawake⟩ := hts t List.mem_cons_self
    obtain ⟨g, hg⟩ := Option.isSome_iff_exists.mp htgt
    obtain ⟨x, hx, hsend⟩ := ksSend_idle (src := src) hi hg hd hcls hreq
    obtain ⟨e, he, hall⟩ := ih (p := { p with done := p.done + 1, late := p.late + 0 }) (hx.idle hi)
      (fun u hu => ⟨(hts u (List.mem_cons_of_mem _ hu)).1, hx.wordAsleep (hts u (List.mem_cons_of_mem _ hu)).2⟩)
    refine ⟨e, hx.trans he, ?_⟩
    unfold Dev.ksAll
    rw [hsend]
    dsimp only
    rw [if_neg (by simp [hx.wordAsleep hawake])]
    exact hall

theorem ksDone_idle {go : Nat → Dev → Eff} {ts : List Txn} (hp : d.ks.prog = none) (hi : d.deckIdle)
    (hts : ∀ t ∈ ts, t.ksPlain ∧ d.wordAsleep t.addr.toNat = false) : ∃ e, d.Accessed e ∧ d.ksDone src ts go = go 0 e := by
  have hprog : d.progOf src = { src := src } := by simp [Dev.progOf, hp]
  obtain ⟨e, he, hall⟩ := ksAll_idle (src := src) (go := go) (p := { src := src }) hi hts
  refine ⟨e, he, ?_⟩
  unfold Dev.ksDone
  rw [hprog]
  exact hall

/-- What does not leave over the Viaduct has its target inside the part (R216). -/
theorem target_isSome {t : Txn} (h : t.dest = none) : t.target.isSome = true := by
  unfold Txn.target
  dsimp only
  rw [if_neg (by simp [h])]
  (repeat' split) <;> rfl

theorem ksAccess_plain (w : Nat) : (ksAccess w).ksPlain := ⟨target_isSome rfl, rfl, rfl, rfl⟩

end Sys2Proof.Machine
end

section
/-! SUPPORT. Commands that answer ACCEPTED: the answer, the job behind it, and its end in the same step (R346, R347). -/
namespace Sys2Proof.Machine

variable {d e : Dev} {src : CmdSrc} {p : Port} {k : JobKind} {j : Job} {ws : List W32} {st det : BitVec 16}

/-- From d to e hosts were answered and commands began or ended to wait: the ports, the flits toward other units, the slots of forwarded requests and
the list of jobs may differ, and nothing else. -/
def Dev.Speaks (d e : Dev) : Prop :=
  ∃ a b up dn fw js, e = { d with portA := a, portB := b, chain := { d.chain with up := up, dn := dn }, ks := { d.ks with fwd := fw, jobs := js } }

theorem Dev.Speaks.trans {f : Dev} (h : d.Speaks e) (g : e.Speaks f) : d.Speaks f := by
  obtain ⟨_, _, _, _, _, _, rfl⟩ := h
  obtain ⟨a, b, up, dn, fw, js, rfl⟩ := g
  exact ⟨a, b, up, dn, fw, js, rfl⟩

theorem Dev.Talks.speaks (h : d.Talks e) : d.Speaks e := by
  obtain ⟨⟨a, b, up, dn, fw, rfl⟩, -⟩ := h
  exact ⟨a, b, up, dn, fw, _, rfl⟩

theorem Dev.Talks.jobs (h : d.Talks e) : e.ks.jobs = d.ks.jobs := by obtain ⟨⟨_, _, _, _, _, rfl⟩, -⟩ := h; rfl

theorem Dev.Speaks.cores (h : d.Speaks e) : e.cores = d.cores := by obtain ⟨_, _, _, _, _, _, rfl⟩ := h; rfl
theorem Dev.Speaks.bents (h : d.Speaks e) : e.bents = d.bents := by obtain ⟨_, _, _, _, _, _, rfl⟩ := h; rfl
theorem Dev.Speaks.txns (h : d.Speaks e) : e.txns = d.txns := by obtain ⟨_, _, _, _, _, _, rfl⟩ := h; rfl
theorem Dev.Speaks.clk (h : d.Speaks e) : e.clk = d.clk := by obtain ⟨_, _, _, _, _, _, rfl⟩ := h; rfl
theorem Dev.Speaks.pwr (h : d.Speaks e) : e.pwr = d.pwr := by obtain ⟨_, _, _, _, _, _, rfl⟩ := h; rfl
theorem Dev.Speaks.mode (h : d.Speaks e) : e.mode = d.mode := by obtain ⟨_, _, _, _, _, _, rfl⟩ := h; rfl
theorem Dev.Speaks.flt (h : d.Speaks e) : e.flt = d.flt := by obtain ⟨_, _, _, _, _, _, rfl⟩ := h; rfl
theorem Dev.Speaks.sec (h : d.Speaks e) : e.sec = d.sec := by obtain ⟨_, _, _, _, _, _, rfl⟩ := h; rfl
theorem Dev.Speaks.plb (h : d.Speaks e) : e.plb = d.plb := by obtain ⟨_, _, _, _, _, _, rfl⟩ := h; rfl
theorem Dev.Speaks.sequencer (h : d.Speaks e) : e.ws = d.ws := by obtain ⟨_, _, _, _, _, _, rfl⟩ := h; rfl
theorem Dev.Speaks.poison (h : d.Speaks e) : e.poison = d.poison := by obtain ⟨_, _, _, _, _, _, rfl⟩ := h; rfl
theorem Dev.Speaks.loops (h : d.Speaks e) : e.ks.loops = d.ks.loops := by obtain ⟨_, _, _, _, _, _, rfl⟩ := h; rfl
theorem Dev.Speaks.images (h : d.Speaks e) : e.ks.images = d.ks.images := by obtain ⟨_, _, _, _, _, _, rfl⟩ := h; rfl
theorem Dev.Speaks.copies (h : d.Speaks e) : e.ks.copies = d.ks.copies := by obtain ⟨_, _, _, _, _, _, rfl⟩ := h; rfl
theorem Dev.Speaks.halted (h : d.Speaks e) : e.ks.halted = d.ks.halted := by obtain ⟨_, _, _, _, _, _, rfl⟩ := h; rfl
theorem Dev.Speaks.prog (h : d.Speaks e) : e.ks.prog = d.ks.prog := by obtain ⟨_, _, _, _, _, _, rfl⟩ := h; rfl
theorem Dev.Speaks.swapResult (h : d.Speaks e) : e.ks.swapResult = d.ks.swapResult := by obtain ⟨_, _, _, _, _, _, rfl⟩ := h; rfl

/-- What has a bent, a core or a source has it after answers. -/
theorem Dev.Speaks.bent (h : d.Speaks e) (n : Nat) : e.bent n = d.bent n := by unfold Dev.bent; rw [h.bents]

theorem Dev.Speaks.core (h : d.Speaks e) (n : Nat) : e.core n = d.core n := core_congr h.cores n

/-- A list of jobs put in place of Keystone's. -/
theorem onJobs_speaks (f : List Job → List Job) : d.Speaks (d.onKs (fun k => { k with jobs := f k.jobs })) := ⟨_, _, _, _, _, _, rfl⟩

/-- The device with the job of an ACCEPTED command, before its answer. -/
theorem setArun_talks (src : CmdSrc) : d.Talks (d.setArun src) := by
  cases src with
  | port p => exact onPort_talks (p := p) (fun t => { t with arun := true })
  | fwd u p => exact .refl _

/-- An ACCEPTED answer leaves a job behind it, and changes beside it what an answer changes. -/
theorem accept_speaks (d : Dev) (src : CmdSrc) (k : JobKind) (ws : List W32) (late : Nat) : d.Speaks (d.accept src k ws late) :=
  ((onJobs_speaks (fun js => js ++ [d.jobFor src k late])).trans (setArun_talks src).speaks).trans (reply_talks src stAccepted 0#16 ws).speaks

theorem accept_jobs (d : Dev) (src : CmdSrc) (k : JobKind) (ws : List W32) (late : Nat) :
    (d.accept src k ws late).ks.jobs = d.ks.jobs ++ [d.jobFor src k late] :=
  (reply_talks src stAccepted 0#16 ws).jobs.trans (setArun_talks src).jobs

theorem accept_linked (d : Dev) (src : CmdSrc) (k : JobKind) (ws : List W32) (late : Nat) : d.Linked (d.accept src k ws late) :=
  Dev.Linked.trans (e := d.onKs (fun x => { x with jobs := x.jobs ++ [d.jobFor src k late] })) (.of_eq rfl rfl rfl)
    (Dev.Linked.trans (setArun_talks src).linked (reply_talks src stAccepted 0#16 ws).linked)

theorem accept_answered (d : Dev) (src : CmdSrc) (k : JobKind) (ws : List W32) (late : Nat) :
    (d.accept src k ws late).answered src stAccepted 0#16 (d.seqWord src) ws := by
  have hseq : ((d.onKs (fun x => { x with jobs := x.jobs ++ [d.jobFor src k late] })).setArun src).seqWord src = d.seqWord src := by
    refine seqWord_of_request ?_
    cases src with
    | port p => cases p <;> rfl
    | fwd u p => rfl
  have hans := reply_answered (d := (d.onKs (fun x => { x with jobs := x.jobs ++ [d.jobFor src k late] })).setArun src) (src := src) (st := stAccepted)
    (det := 0#16) (ws := ws) (.inl rfl)
  rw [hseq] at hans
  exact hans

/-- What a port shows of its reply. -/
def PortSt.shown (t : PortSt) : Bool × Bool × Tab W32 := (t.busy, t.done, t.repBuf)

theorem PortSt.Answered.of_shown {x y : PortSt} {seq : W32} (h : x.Answered st det seq ws) (hs : y.shown = x.shown) : y.Answered st det seq ws := by
  simp only [PortSt.shown, Prod.mk.injEq] at hs
  unfold PortSt.Answered at h ⊢
  rwa [hs.1, hs.2.1, hs.2.2]

theorem onPort_shown {f : PortSt → PortSt} (hf : ∀ t : PortSt, (f t).shown = t.shown) (q : Port) : ((d.onPort p f).port q).shown = (d.port q).shown := by
  cases p <;> cases q
  · exact hf _
  · rfl
  · rfl
  · exact hf _

theorem sendVec_shown (v : BitVec 11) (q : Port) : ((d.sendVec p v).port q).shown = (d.port q).shown := by
  obtain ⟨_, _, _, _, h⟩ := sendVec_notified (d := d) (p := p) (q := q) v
  rw [h]
  rfl

/-- A final result leaves the reply as it is (R346). -/
theorem finalResult_answered {seq : W32} (j : Job) (st' det' : BitVec 16) (h : d.answered src st det seq ws) :
    (d.finalResult j st' det').answered src st det seq ws := by
  unfold Dev.finalResult
  extract_lets s0 d0
  split
  · next p _ =>
    extract_lets d1
    have h1 : ∀ q, (d1.port q).shown = (d.port q).shown := onPort_shown (fun _ => rfl)
    have hks : d1.ks = d.ks := Dev.onPort_ks _ _ _
    have hfin : ∀ q, ((if j.noVec then d1 else d1.sendVec p 0#11).port q).shown = (d.port q).shown := by
      intro q
      split
      · exact h1 q
      · exact (sendVec_shown _ q).trans (h1 q)
    have hfk : (if j.noVec then d1 else d1.sendVec p 0#11).ks = d.ks := by
      split
      · exact hks
      · exact (sendVec_told _).ks.trans hks
    cases src with
    | port r => exact PortSt.Answered.of_shown h (hfin r)
    | fwd u r =>
      unfold Dev.answered at h ⊢
      rwa [hfk]
  · obtain ⟨⟨_, _, hs⟩, -⟩ := sendCreply_sends (d := d) (st := s0) (det := d0) (ws := []) _ _ true j.seq (elapsedUs j.start d.clk)
    rw [hs]
    exact h.of_eq (fun q => by cases q <;> rfl) rfl

/-! ### Jobs that end (R346) -/

/-- A job that alone waits ends at its port; nothing waits after it. -/
theorem endJob_ends (hjobs : d.ks.jobs = [j]) (hsrc : j.src = .port p) (hlate : j.late = 0) (st det : BitVec 16) :
    (d.endJob j st det).ks.jobs = [] ∧ ((d.endJob j st det).port p).final = (false, true, st ++ det) := by
  rw [endJob_alone hjobs]
  obtain ⟨-, -, hks⟩ := finalResult_told (d := d.jobless) hsrc st det
  exact ⟨congrArg Keystone.jobs hks, finalResult_prompt hsrc hlate st det⟩

/-- What ends a job changes what an answer changes. -/
theorem endJob_speaks (d : Dev) (j : Job) (st det : BitVec 16) : d.Speaks (d.endJob j st det) :=
  (onJobs_speaks (fun js => js.filter (fun x => x != j))).trans (finalResult_talks j st det).speaks

/-- The only job that waits is looked at, while no debugger has halted Keystone. -/
theorem settle_one (m : List Host.Cell) (hhalt : d.ks.halted = false) (hjobs : d.ks.jobs = [j]) (hms : (d.settleJob m j).2 = []) :
    d.settle m = ((d.settleJob m j).1, []) := by
  unfold Dev.settle
  rw [hhalt, hjobs]
  simp [Dev.settleAll, hms]

/-- A job of a command stands in the part that answered it, under the port's own name. -/
theorem jobFor_port (d : Dev) (p : Port) (k : JobKind) (late : Nat) :
    (d.jobFor (.port p) k late).src = .port p ∧ (d.jobFor (.port p) k late).late = late ∧ (d.jobFor (.port p) k late).kind = k := ⟨rfl, rfl, rfl⟩

/-! ### What accesses over an idle Deck leave alone -/

theorem Dev.Accessed.cores (h : d.Accessed e) : e.cores = d.cores := by obtain ⟨⟨_, _, _, _, _, _, _, _, _, _, rfl⟩, -⟩ := h; rfl
theorem Dev.Accessed.bents (h : d.Accessed e) : e.bents = d.bents := by obtain ⟨⟨_, _, _, _, _, _, _, _, _, _, rfl⟩, -⟩ := h; rfl
theorem Dev.Accessed.txns (h : d.Accessed e) : e.txns = d.txns := by obtain ⟨⟨_, _, _, _, _, _, _, _, _, _, rfl⟩, -⟩ := h; rfl
theorem Dev.Accessed.clk (h : d.Accessed e) : e.clk = d.clk := by obtain ⟨⟨_, _, _, _, _, _, _, _, _, _, rfl⟩, -⟩ := h; rfl
theorem Dev.Accessed.mode (h : d.Accessed e) : e.mode = d.mode := by obtain ⟨⟨_, _, _, _, _, _, _, _, _, _, rfl⟩, -⟩ := h; rfl
theorem Dev.Accessed.flt (h : d.Accessed e) : e.flt = d.flt := by obtain ⟨⟨_, _, _, _, _, _, _, _, _, _, rfl⟩, -⟩ := h; rfl
theorem Dev.Accessed.sec (h : d.Accessed e) : e.sec = d.sec := by obtain ⟨⟨_, _, _, _, _, _, _, _, _, _, rfl⟩, -⟩ := h; rfl
theorem Dev.Accessed.chain (h : d.Accessed e) : e.chain = d.chain := by obtain ⟨⟨_, _, _, _, _, _, _, _, _, _, rfl⟩, -⟩ := h; rfl
theorem Dev.Accessed.sequencer (h : d.Accessed e) : e.ws = d.ws := by obtain ⟨⟨_, _, _, _, _, _, _, _, _, _, rfl⟩, -⟩ := h; rfl
theorem Dev.Accessed.poison (h : d.Accessed e) : e.poison = d.poison := by obtain ⟨⟨_, _, _, _, _, _, _, _, _, _, rfl⟩, -⟩ := h; rfl
theorem Dev.Accessed.queues (h : d.Accessed e) : e.queues = d.queues := by obtain ⟨⟨_, _, _, _, _, _, _, _, _, _, rfl⟩, -⟩ := h; rfl
theorem Dev.Accessed.jobs (h : d.Accessed e) : e.ks.jobs = d.ks.jobs := by obtain ⟨⟨_, _, _, _, _, _, _, _, _, _, rfl⟩, -⟩ := h; rfl
theorem Dev.Accessed.loops (h : d.Accessed e) : e.ks.loops = d.ks.loops := by obtain ⟨⟨_, _, _, _, _, _, _, _, _, _, rfl⟩, -⟩ := h; rfl
theorem Dev.Accessed.images (h : d.Accessed e) : e.ks.images = d.ks.images := by obtain ⟨⟨_, _, _, _, _, _, _, _, _, _, rfl⟩, -⟩ := h; rfl
theorem Dev.Accessed.copies (h : d.Accessed e) : e.ks.copies = d.ks.copies := by obtain ⟨⟨_, _, _, _, _, _, _, _, _, _, rfl⟩, -⟩ := h; rfl
theorem Dev.Accessed.halted (h : d.Accessed e) : e.ks.halted = d.ks.halted := by obtain ⟨⟨_, _, _, _, _, _, _, _, _, _, rfl⟩, -⟩ := h; rfl
theorem Dev.Accessed.prog (h : d.Accessed e) : e.ks.prog = d.ks.prog := by obtain ⟨⟨_, _, _, _, _, _, _, _, _, _, rfl⟩, -⟩ := h; rfl
theorem Dev.Accessed.fwd (h : d.Accessed e) : e.ks.fwd = d.ks.fwd := by obtain ⟨⟨_, _, _, _, _, _, _, _, _, _, rfl⟩, -⟩ := h; rfl

theorem Dev.Accessed.port (h : d.Accessed e) (q : Port) : e.port q = d.port q := by
  obtain ⟨⟨_, _, _, _, _, _, _, _, _, _, rfl⟩, -⟩ := h
  cases q <;> rfl

theorem Dev.Accessed.bent (h : d.Accessed e) (n : Nat) : e.bent n = d.bent n := by unfold Dev.bent; rw [h.bents]

theorem Dev.Accessed.core (h : d.Accessed e) (n : Nat) : e.core n = d.core n := core_congr h.cores n

theorem Dev.Accessed.request (h : d.Accessed e) (src : CmdSrc) : e.request src = d.request src := by
  cases src with
  | port p => exact congrArg PortSt.reqBuf (h.port p)
  | fwd u p => unfold Dev.request; rw [h.fwd]

theorem Dev.Accessed.seqWord (h : d.Accessed e) (src : CmdSrc) : e.seqWord src = d.seqWord src := seqWord_of_request (h.request src)

end Sys2Proof.Machine
end

section
/-! SUPPORT. The spare record and a slot that is swapped (R261, R483, R484). -/
namespace Sys2Proof.Machine

variable {d : Dev} {m : List Host.Cell} {j : Job}

theorem recordSpares_frame (d : Dev) : ∃ a b l, d.recordSpares = { d with spareA := a, spareB := b, recLines := l } := by
  unfold Dev.recordSpares Dev.putRecord
  dsimp only
  split <;> exact ⟨_, _, _, rfl⟩

/-- A bent without its Scribe, which alone says whether it is unable. -/
theorem clearUnable_frame (d : Dev) (b : Nat) : (∃ bs ss, d.clearUnable b = { d with bents := bs, spans := ss })
    ∧ ∀ n, ∃ a, (d.clearUnable b).bent n = { d.bent n with scr := a } := by
  unfold Dev.clearUnable
  split
  · refine ⟨⟨_, _, rfl⟩, fun n => ?_⟩
    have hb : ∀ (f : Scribe → Scribe), (d.onScr b f).bent n = if n = b then { d.bent b with scr := f (d.bent b).scr } else d.bent n :=
      fun f => Tab.find_put _ _ _ _ _
    have hm : ∀ (x : Dev) v, (x.markUnable b v).bent n = x.bent n := fun _ _ => rfl
    rw [hm, hb]
    split
    · next h => exact ⟨_, by rw [h]⟩
    · exact ⟨_, rfl⟩
  · exact ⟨⟨_, _, rfl⟩, fun n => ⟨_, rfl⟩⟩

theorem recordSpares_stands (d : Dev) : d.recordSpares.cores = d.cores ∧ d.recordSpares.bents = d.bents ∧ d.recordSpares.ks = d.ks
    ∧ d.recordSpares.txns = d.txns ∧ ∀ q, d.recordSpares.port q = d.port q := by
  obtain ⟨_, _, _, h⟩ := recordSpares_frame d
  rw [h]
  exact ⟨rfl, rfl, rfl, rfl, fun q => by cases q <;> rfl⟩

/-- A swap changes of the cores the one of its logical slot, and of the bent the map, the spare and the Scribe. -/
theorem swapSlot_frame (d : Dev) (b ps free l : Nat) : (d.swapSlot b ps free l).ks = d.ks
    ∧ (∀ i, i ≠ coreOf b l → (d.swapSlot b ps free l).core i = d.core i)
    ∧ ∃ a, (d.swapSlot b ps free l).bent b = { d.bent b with
        phys := Tab.put (d.bent b).phys l (BitVec.ofNat 5 free), seq := (d.bent b).seq + 1#8, spareFree := false,
        retired := setBit (d.bent b).retired ps true, scr := a } := by
  unfold Dev.swapSlot
  extract_lets d1 d2
  obtain ⟨⟨bs, ss, hc⟩, hscr⟩ := clearUnable_frame d2 b
  obtain ⟨hcores, hbents, hks, -⟩ := recordSpares_stands (d2.clearUnable b)
  have hbent : d2.bent b = { d1.bent b with
      phys := Tab.put (d1.bent b).phys l (BitVec.ofNat 5 free), seq := (d1.bent b).seq + 1#8, spareFree := false,
      retired := setBit (d1.bent b).retired ps true } := Dev.bent_onBent _ _ _
  refine ⟨hks.trans (by rw [hc]; rfl), fun i hi => ?_, ?_⟩
  · rw [core_congr hcores, hc]
    exact Dev.core_onCore_other _ _ hi
  · obtain ⟨a, ha⟩ := hscr b
    refine ⟨a, ?_⟩
    unfold Dev.bent at ha hbent ⊢
    rw [hbents, ha, hbent]
    rfl

/-- A slot retired after its self-test leaves all but its bent and the record. -/
theorem retireFree_frame (d : Dev) (b : Nat) : (d.retireFree b).cores = d.cores ∧ (d.retireFree b).ks = d.ks ∧ (d.retireFree b).txns = d.txns
    ∧ (∀ q, (d.retireFree b).port q = d.port q)
    ∧ (d.retireFree b).bent b = { d.bent b with retired := setBit (d.bent b).retired (d.bent b).freeSlot true, spareFree := false } := by
  obtain ⟨hcores, hbents, hks, htx, hport⟩ := recordSpares_stands (d.onBent b (fun x => { x with retired := setBit x.retired x.freeSlot true, spareFree := false }))
  refine ⟨hcores, hks, htx, fun q => (hport q).trans (by cases q <;> rfl), ?_⟩
  unfold Dev.retireFree
  unfold Dev.bent
  rw [hbents]
  exact Dev.bent_onBent _ _ _

/-- After a command behind which one job is left, and nothing changed in memory, that job is looked at. -/
theorem settleEff_one (hhalt : d.ks.halted = false) (hjobs : d.ks.jobs = [j]) (hms : (d.settleJob m j).2 = []) :
    settleEff m (d, []) = ((d.settleJob m j).1, []) := by
  have hs : d.settle (applyAll m []) = ((d.settleJob m j).1, []) := settle_one m hhalt hjobs hms
  unfold settleEff
  dsimp only
  rw [hs]
  rfl

end Sys2Proof.Machine
end

section
/-! PROOFS. The statement on SPARE_SWAP and VIA_ENUM. -/
namespace Sys2Proof.Proofs
open Sys2Proof.Machine

variable {s : State} {p : Port} {b : BentId} {ps : BitVec 5} {l : SlotId}

/-- The job of a SPARE_SWAP. -/
def swapKind (d : Dev) (b : BentId) (ps : BitVec 5) (l : SlotId) : JobKind := .spareSwap b ps (BitVec.ofNat 5 (d.bent b.toNat).freeSlot) l

/-- What R351 states of SPARE_SWAP. -/
def spareSwapSpec : CmdSpec := { op := 0x0B01, len := exact 4, modes := modesCSRD, changes := true }

/-- A SPARE_SWAP that passes its checks is accepted once its access has come back; one whose slot fails the test ends at once. -/
theorem spareSwapCmd_accepts {d : Dev} (selfTest : Bool) (hprog : d.ks.prog = none) (hcalm : d.calm)
    (h0 : d.pay8 (.port p) 0 = b.setWidth 8) (h1 : d.pay8 (.port p) 1 = ps.setWidth 8) (hz : d.payZero (.port p) 2 4 = true) (hps : ps.toNat < 17)
    (hret : (d.bent b.toNat).retired.getLsbD ps.toNat = false) (hlog : (d.bent b.toNat).logicalOf ps.toNat = some l.toNat)
    (hfree : (d.bent b.toNat).spareFree = true) (hrun : d.running (.port p) = false) (hi : d.deckIdle)
    (hawake : d.wordAsleep (0x08200000 + 0x1000 * b.toNat) = false) :
    ∃ e, d.Accessed e ∧ d.spareSwapCmd (.port p) selfTest =
      (if selfTest then (e.accept (.port p) (swapKind d b ps l) [], [])
       else (((e.accept (.port p) (swapKind d b ps l) []).retireFree b.toNat |>.noteSwap 1#3 b ps l).endJob
         (e.jobFor (.port p) (swapKind d b ps l)) stRefCap 6#16, [])) := by
  have hb : (b.setWidth 8 : Byte).toNat = b.toNat := by simp; have := b.isLt; omega
  have hp : (ps.setWidth 8 : Byte).toNat = ps.toNat := by simp; have := ps.isLt; omega
  have hbl : b.toNat < 128 := b.isLt
  have hnoswap : d.swapping b.toNat = false := by simp [Dev.swapping, show d.ks.jobs = [] from hcalm]
  have hword : (bentAccess b.toNat).addr.toNat = 0x08200000 + 0x1000 * b.toNat := by
    simp [bentAccess, ksAccess, newTxn]
    omega
  obtain ⟨e, he, hdone⟩ := ksDone_idle (src := .port p) (ts := [bentAccess b.toNat]) (go := fun late y =>
      let k : JobKind := swapKind d b ps l
      let j := y.jobFor (.port p) k late
      let z := y.accept (.port p) k [] late
      if selfTest then (z, []) else (((z.retireFree b.toNat).noteSwap 1#3 b ps l).endJob j stRefCap 6#16, [])) hprog hi (by
    intro t ht
    rw [List.mem_singleton.mp ht, hword]
    exact ⟨ksAccess_plain _, hawake⟩)
  refine ⟨e, he, ?_⟩
  unfold Dev.spareSwapCmd Dev.acceptOr
  simp only [h0, h1, hb, hp, hps, hret, hlog, hz, hfree, hnoswap, hrun, firstBad]
  simp only [show ¬ 127 < b.toNat by omega, and_self, if_true, Option.isNone_some, Option.getD_some, BitVec.ofNat_toNat, BitVec.setWidth_eq]
  exact hdone

/-- The part that has accepted a SPARE_SWAP: its job alone waits, and nothing that the swap looks at has changed. -/
theorem spareSwap_accepted {e : Dev} (ha : s.dev.admits (.port p) spareSwapSpec) (he : s.dev.Accessed e) :
    let z := (e.accept (.port p) (swapKind s.dev b ps l) []).taken (.port p)
    z.ks.jobs = [e.jobFor (.port p) (swapKind s.dev b ps l)] ∧ z.ks.halted = false ∧ z.cores = s.dev.cores ∧ z.bents = s.dev.bents := by
  intro z
  obtain ⟨⟨hcalm, -, -, -, -, -, -, hhalt, -⟩, -⟩ := ha
  have hacc := accept_speaks e (.port p) (swapKind s.dev b ps l) [] 0
  have hjobs : z.ks.jobs = e.ks.jobs ++ [e.jobFor (.port p) (swapKind s.dev b ps l)] := accept_jobs e (.port p) (swapKind s.dev b ps l) [] 0
  exact ⟨hjobs.trans (by rw [he.jobs, hcalm]; rfl), (hacc.halted.trans he.halted).trans hhalt, hacc.cores.trans he.cores, hacc.bents.trans he.bents⟩

section
variable (ha : s.dev.admits (.port p) spareSwapSpec) (h0 : s.dev.pay8 (.port p) 0 = b.setWidth 8) (h1 : s.dev.pay8 (.port p) 1 = ps.setWidth 8)
  (hz : s.dev.payZero (.port p) 2 4 = true) (hps : ps.toNat < 17) (hret : (s.dev.bent b.toNat).retired.getLsbD ps.toNat = false)
  (hlog : (s.dev.bent b.toNat).logicalOf ps.toNat = some l.toNat) (hfree : (s.dev.bent b.toNat).spareFree = true)
  (hrun : s.dev.running (.port p) = false) (hi : s.dev.deckIdle) (hawake : s.dev.wordAsleep (0x08200000 + 0x1000 * b.toNat) = false)
include ha h0 h1 hz hps hret hlog hfree hrun hi hawake

/-- With the self-test passed the swap is made at the idle moment that is there already (R483 steps 3 to 7). -/
theorem spareSwap_swaps (hidle : (s.dev.core (coreOf b.toNat l.toNat)).idleMoment = true) (hoff : s.dev.offeredTo b.toNat l.toNat = none) :
    ∃ t, exec (.spareSwap (.port p) true) s = .next t ∧ t.mem = s.mem ∧ t.pending = s.pending
      ∧ (t.dev.bent b.toNat).physOf l.toNat = BitVec.ofNat 5 (s.dev.bent b.toNat).freeSlot
      ∧ (t.dev.bent b.toNat).retired = setBit (s.dev.bent b.toNat).retired ps.toNat true ∧ (t.dev.bent b.toNat).spareFree = false
      ∧ (t.dev.bent b.toNat).seq = (s.dev.bent b.toNat).seq + 1#8 ∧ t.dev.ks.swapResult = 0#3 ∧ Ended t p stDone 0#16
      ∧ ∀ i, i ≠ coreOf b.toNat l.toNat → t.dev.core i = s.dev.core i := by
  obtain ⟨hprog, hcalm, -⟩ := ha.fresh
  obtain ⟨e, he, hbody⟩ := spareSwapCmd_accepts true hprog hcalm h0 h1 hz hps hret hlog hfree hrun hi hawake
  rw [if_pos rfl] at hbody
  obtain ⟨hjobs, hhalt, hcores, hbents⟩ := spareSwap_accepted (b := b) (ps := ps) (l := l) ha he
  have htake := ha.takeCmd (body := fun d => d.spareSwapCmd (.port p) true) hbody (accept_answered _ _ _ _ _).waiting (by
    rw [(accept_speaks _ _ _ _ _).txns, he.txns, hi.1]
    exact fun _ h => absurd h List.not_mem_nil)
  generalize hj : e.jobFor (.port p) (swapKind s.dev b ps l) = j at *
  generalize hz' : (e.accept (.port p) (swapKind s.dev b ps l) []).taken (.port p) = z at *
  let f := (BitVec.ofNat 5 (s.dev.bent b.toNat).freeSlot).toNat
  let w := (z.swapSlot b.toNat ps.toNat f l.toNat).noteSwap 0#3 b ps l
  have hzb : z.bent b.toNat = s.dev.bent b.toNat := by unfold Dev.bent; rw [hbents]
  have hjob : z.settleJob s.mem j = (w.endJob j stDone 0#16, []) := by
    have hmoment : ((z.core (coreOf b.toNat l.toNat)).idleMoment && (z.offeredTo b.toNat l.toNat).isNone) = true := by
      rw [core_congr hcores, hidle, Dev.offeredTo, hzb]
      exact Option.isNone_iff_eq_none.mpr hoff
    subst hj
    exact if_pos hmoment
  have hrow : exec (.spareSwap (.port p) true) s =
      s.commit (settleEff s.mem (s.dev.takeCmd (.port p) spareSwapSpec (fun d => d.spareSwapCmd (.port p) true))) := rfl
  rw [htake, settleEff_one hhalt hjobs (by rw [hjob]), hjob, State.commit_eq] at hrow
  obtain ⟨hks, hother, a, hbent⟩ := swapSlot_frame z b.toNat ps.toNat f l.toNat
  have hend := endJob_speaks w j stDone 0#16
  have hwjobs : w.ks.jobs = [j] := (congrArg Keystone.jobs hks).trans hjobs
  obtain ⟨hnone, hfinal⟩ := endJob_ends hwjobs (p := p) (by subst hj; rfl) (by subst hj; rfl) stDone 0#16
  have hbw : (w.endJob j stDone 0#16).bent b.toNat = _ := (hend.bent b.toNat).trans hbent
  rw [hzb] at hbw
  simp only [PortSt.final, Prod.mk.injEq] at hfinal
  refine ⟨_, hrow, rfl, rfl, ?_, ?_, ?_, ?_, hend.swapResult, ⟨hnone, ?_⟩, fun i hi => ?_⟩
  · rw [Dev.bent_seen, hbw]
    simp only [Bent.physOf, Tab.find_put_self, f, BitVec.ofNat_toNat, BitVec.setWidth_eq]
  · rw [Dev.bent_seen, hbw]
  · rw [Dev.bent_seen, hbw]
  · rw [Dev.bent_seen, hbw]
  · rw [Dev.port_seen]
    exact hfinal
  · rw [Dev.core_seen, hend.core]
    exact (hother i hi).trans (core_congr hcores i)

/-- With the self-test failed the free slot is retired, and the command ends so (R483 step 2). -/
theorem spareSwap_fails : ∃ t, exec (.spareSwap (.port p) false) s = .next t ∧ Keeps s t
    ∧ (t.dev.bent b.toNat).retired = setBit (s.dev.bent b.toNat).retired (s.dev.bent b.toNat).freeSlot true ∧ (t.dev.bent b.toNat).spareFree = false
    ∧ (t.dev.bent b.toNat).phys = (s.dev.bent b.toNat).phys ∧ t.dev.ks.swapResult = 1#3 ∧ Ended t p stRefCap 6#16 := by
  obtain ⟨hprog, hcalm, -⟩ := ha.fresh
  obtain ⟨e, he, hbody⟩ := spareSwapCmd_accepts false hprog hcalm h0 h1 hz hps hret hlog hfree hrun hi hawake
  rw [if_neg (by simp)] at hbody
  obtain ⟨hjobs, -, hcores, hbents⟩ := spareSwap_accepted (b := b) (ps := ps) (l := l) ha he
  have hacc := accept_speaks e (.port p) (swapKind s.dev b ps l) [] 0
  have hans := accept_answered e (.port p) (swapKind s.dev b ps l) [] 0
  generalize hj : e.jobFor (.port p) (swapKind s.dev b ps l) = j at *
  generalize e.accept (.port p) (swapKind s.dev b ps l) [] = z at *
  let w := (z.retireFree b.toNat).noteSwap 1#3 b ps l
  obtain ⟨hrc, hrk, hrt, hrp, hrb⟩ := retireFree_frame z b.toNat
  have hwjobs : w.ks.jobs = [j] := (congrArg Keystone.jobs hrk).trans hjobs
  have hend := endJob_speaks w j stRefCap 6#16
  have hendans : (w.endJob j stRefCap 6#16).answered (.port p) stAccepted 0#16 (e.seqWord (.port p)) [] := by
    have hw : w.answered (.port p) stAccepted 0#16 (e.seqWord (.port p)) [] :=
      hans.of_eq (fun q => Eq.trans (by cases q <;> rfl) (hrp q)) (congrArg Keystone.fwd hrk :)
    rw [endJob_alone hwjobs]
    exact finalResult_answered j _ _ (hw.of_eq (fun q => by cases q <;> rfl) rfl)
  have htake := ha.takeCmd (body := fun d => d.spareSwapCmd (.port p) false) hbody hendans.waiting (by
    rw [hend.txns, show w.txns = _ from hrt, hacc.txns, he.txns, hi.1]
    exact fun _ h => absurd h List.not_mem_nil)
  obtain ⟨hnone, hfinal⟩ := endJob_ends hwjobs (p := p) (by subst hj; rfl) (by subst hj; rfl) stRefCap 6#16
  have hrow : exec (.spareSwap (.port p) false) s =
      s.commit (settleEff s.mem (s.dev.takeCmd (.port p) spareSwapSpec (fun d => d.spareSwapCmd (.port p) false))) := rfl
  have hcalm' : ((w.endJob j stRefCap 6#16).taken (.port p)).calm := hnone
  rw [htake, settleEff_calm _ hcalm', State.commit_eq] at hrow
  have hzb : z.bent b.toNat = s.dev.bent b.toNat := by unfold Dev.bent; exact congrArg (Tab.find {} · b.toNat) hbents
  have hbw : (w.endJob j stRefCap 6#16).bent b.toNat = _ := (hend.bent b.toNat).trans hrb
  rw [hzb] at hbw
  simp only [PortSt.final, Prod.mk.injEq] at hfinal
  refine ⟨_, hrow, keeps_of_cores ((hend.cores.trans hrc).trans hcores), ?_, ?_, ?_, hend.swapResult, hnone, ?_⟩
  · exact (congrArg Bent.retired hbw :)
  · exact (congrArg Bent.spareFree hbw :)
  · exact (congrArg Bent.phys hbw :)
  · rw [Dev.port_seen]
    exact hfinal

end

/-- The token goes to the DOWN port, or waits for it (R391 step 1). -/
theorem passToken_goes (d : Dev) (n : BitVec 5) : (∃ c, d.passToken n = { d with chain := c }) ∧
    (if (d.via .dn).st = .up then ((d.passToken n).via .dn).carries (.enum n) else (d.passToken n).chain.enumWait = some d.clk) := by
  unfold Dev.passToken
  by_cases h : (d.via .dn).st = .up
  · obtain ⟨⟨_, _, hs⟩, -⟩ := viaSend_sends (d := d.onChain (fun c => { c with enumWait := none })) (p := .dn) (cls := 1#2) (dest := 0#4)
      (src := d.chain.unit) (body := .enum n)
    have hup : ((d.onChain (fun c => { c with enumWait := none })).via .dn).st = .up := h
    rw [if_pos h, if_pos (by simp [h])]
    exact ⟨⟨_, hs⟩, viaSend_carries (by simp [Via.lost, hup])⟩
  · rw [if_neg h, if_neg (by simp [h])]
    exact ⟨⟨_, rfl⟩, rfl⟩

/-- VIA_ENUM at the HEAD: the answer, and the token on its way or waited with (R391 step 1). -/
theorem viaEnum_begins (ha : s.dev.admits (.port p) { op := 0x0901, len := exact 0, modes := [mCommission, mStandby], changes := true })
    (hhead : s.dev.chain.head = true) (hrun : s.dev.running (.port p) = false) :
    ∃ t, exec (.viaEnum (.port p)) s = .next t ∧ Keeps s t ∧ Replied s t (.port p) stAccepted 0#16 [] ∧ t.dev.ks.jobs.map (·.kind) = [.viaEnum]
      ∧ (if (s.dev.via .dn).st = .up then (t.dev.via .dn).carries (.enum 1#5) else t.dev.chain.enumWait = some s.dev.clk) := by
  obtain ⟨hcalm, -, -, -, -, -, -, hhalt, -⟩ := ha.1
  have hacc := accept_speaks (s.dev.onChain Chain.freed) (.port p) .viaEnum [] 0
  have hst := (accept_linked (s.dev.onChain Chain.freed) (.port p) .viaEnum [] 0).st .dn
  have hans := accept_answered (s.dev.onChain Chain.freed) (.port p) .viaEnum [] 0
  have hjobs := accept_jobs (s.dev.onChain Chain.freed) (.port p) .viaEnum [] 0
  have hbody : s.dev.viaEnumCmd (.port p) = (((s.dev.onChain Chain.freed).accept (.port p) .viaEnum []).passToken 1#5, []) := by
    unfold Dev.viaEnumCmd Dev.acceptOr
    rw [hhead, hrun]
    rfl
  generalize (s.dev.onChain Chain.freed).accept (.port p) .viaEnum [] = z at *
  obtain ⟨⟨c, hz⟩, htoken⟩ := passToken_goes z 1#5
  have hzans : (z.passToken 1#5).answered (.port p) stAccepted 0#16 (s.dev.seqWord (.port p)) [] := by
    rw [hz]
    exact hans.of_eq (fun q => by cases q <;> rfl) rfl
  have htake := ha.takeCmd (body := fun d => d.viaEnumCmd (.port p)) hbody hzans.waiting (by
    rw [hz]
    show ∀ t ∈ z.txns, t.ofCmd (.port p) = false
    rw [hacc.txns]
    exact fun t ht => (ha.1.fresh.2.2 t ht).1)
  have hkind : (((z.passToken 1#5).taken (.port p)).settleJob s.mem ((s.dev.onChain Chain.freed).jobFor (.port p) .viaEnum)) =
    ((z.passToken 1#5).taken (.port p), []) := rfl
  have hzjobs : ((z.passToken 1#5).taken (.port p)).ks.jobs = [(s.dev.onChain Chain.freed).jobFor (.port p) .viaEnum] := by
    rw [hz]
    refine hjobs.trans ?_
    rw [show (s.dev.onChain Chain.freed).ks.jobs = [] from hcalm]
    rfl
  have hzhalt : ((z.passToken 1#5).taken (.port p)).ks.halted = false := by
    rw [hz]
    exact hacc.halted.trans hhalt
  have hrow : exec (.viaEnum (.port p)) s = s.commit (settleEff s.mem (s.dev.takeCmd (.port p)
    { op := 0x0901, len := exact 0, modes := [mCommission, mStandby], changes := true } (fun d => d.viaEnumCmd (.port p)))) := rfl
  rw [htake, settleEff_one hzhalt hzjobs (by rw [hkind]), hkind, State.commit_eq] at hrow
  refine ⟨_, hrow, keeps_of_cores ?_, Dev.answered.replied (hzans.of_eq (Dev.port_seen _ _) rfl), congrArg (List.map (·.kind)) hzjobs, ?_⟩
  · rw [hz]
    exact hacc.cores
  · have hsd : (z.via .dn).st = (s.dev.via .dn).st := hst
    rw [hsd, hacc.clk] at htoken
    split
    · next h =>
      rw [if_pos h] at htoken
      rw [Dev.via_seen]
      exact htoken
    · next h =>
      rw [if_neg h] at htoken
      exact htoken

/-- Settles O43, command by command. -/
theorem sparesAndEnumeration : Obligations.SparesAndEnumeration := by
  unfold Obligations.SparesAndEnumeration
  exact fun s p b ps l => ⟨fun ha h0 h1 hz hps hret hlog hfree hrun hi hawake =>
    ⟨spareSwap_swaps ha h0 h1 hz hps hret hlog hfree hrun hi hawake, spareSwap_fails ha h0 h1 hz hps hret hlog hfree hrun hi hawake⟩, viaEnum_begins⟩

end Sys2Proof.Proofs
end

section
/-! SUPPORT. Transactions on a Deck in any state: what is sent, and what moves on, changes nothing outside the Deck and the chain (R216, R224, R304). -/
namespace Sys2Proof.Machine

variable {d e : Dev} {t : Txn} {P : Origin → Prop}

/-- Every transaction of the part has an origin of the kind P. -/
def Dev.origins (P : Origin → Prop) (d : Dev) : Prop := ∀ x ∈ d.txns, P x.origin

/-- From d to e transactions of origins of the kind P came to the Deck or moved on: numbers, cells, counts, pins and flits may differ, P1 may have ended,
and nothing else. -/
structure Dev.Traffics (P : Origin → Prop) (d e : Dev) : Prop where
  frame : ∃ ps ba gt lk xs id cs cr ss pl ts ch, e =
    { d with pwr := { d.pwr with pstate := ps, busyAt := ba }, ks := { d.ks with gated := gt, lastKick := lk }, xings := xs, nextId := id, chans := cs,
             creqs := cr, spans := ss, plb := pl, txns := ts, chain := ch }
  origin : e.origins P

theorem Dev.Traffics.refl (h : d.origins P) : Dev.Traffics P d d := ⟨⟨_, _, _, _, _, _, _, _, _, _, _, _, rfl⟩, h⟩

theorem Dev.Traffics.trans {f : Dev} (h : Dev.Traffics P d e) (g : Dev.Traffics P e f) : Dev.Traffics P d f := by
  obtain ⟨⟨_, _, _, _, _, _, _, _, _, _, _, _, rfl⟩, -⟩ := h
  obtain ⟨⟨a, b, c, x, e', f', g', h', i, j, k, l, rfl⟩, go⟩ := g
  exact ⟨⟨a, b, c, x, e', f', g', h', i, j, k, l, rfl⟩, go⟩

theorem Dev.Accessed.traffics (h : d.Accessed e) (ho : d.origins P) : Dev.Traffics P d e := by
  obtain ⟨⟨_, _, _, _, _, _, _, _, _, _, rfl⟩, -⟩ := h
  exact ⟨⟨_, _, _, _, _, _, _, _, _, _, _, _, rfl⟩, ho⟩

theorem Dev.Sends.traffics (h : d.Sends e) (ho : d.origins P) : Dev.Traffics P d e := by
  obtain ⟨⟨_, _, rfl⟩, -⟩ := h
  exact ⟨⟨_, _, _, _, _, _, _, _, _, _, _, _, rfl⟩, ho⟩

/-- Other transactions in the place of those that are there. -/
theorem txns_traffics {ts : List Txn} (h : ∀ x ∈ ts, P x.origin) : Dev.Traffics P d { d with txns := ts } :=
  ⟨⟨_, _, _, _, _, _, _, _, _, _, _, _, rfl⟩, h⟩

/-- A transaction that joins the ones that are there. -/
theorem joins_traffics (ho : d.origins P) (ht : P t.origin) : Dev.Traffics P d { d with txns := d.txns ++ [t] } := by
  refine txns_traffics fun x hx => ?_
  obtain hx | hx := List.mem_append.mp hx
  · exact ho x hx
  · rw [List.mem_singleton.mp hx]
    exact ht

theorem onChan_traffics (ho : d.origins P) (a b : Nat) (f : Channel → Channel) : Dev.Traffics P d (d.onChan a b f) := by
  unfold Dev.onChan
  split
  · exact .refl ho
  · exact ⟨⟨_, _, _, _, _, _, _, _, _, _, _, _, rfl⟩, ho⟩

/-- A transaction reaches its target, or leaves over the Viaduct. -/
theorem land_traffics (ho : d.origins P) (ht : P t.origin) : Dev.Traffics P d (d.land t) := by
  unfold Dev.land
  split
  · split
    · split
      · have hjoined : Dev.Traffics P d { d with txns := d.txns ++ [{ t with st := .remote }] } := joins_traffics ho ht
        exact hjoined.trans (viaSend_sends.traffics hjoined.origin)
      · exact joins_traffics ho ht
    · exact joins_traffics ho ht
  · next g _ =>
    extract_lets high late d1
    have h1 : Dev.Traffics P d d1 := joins_traffics ho ht
    clear_value d1
    refine h1.trans (Dev.Accessed.traffics ?_ h1.origin)
    split
    · exact (onTarget_accessed g (f := fun x => { x with dlys := satInc x.dlys }) (fun _ => rfl)).trans (notePeak_accessed g)
    · exact notePeak_accessed g

theorem turn_origin (u : Txn) (iu it : ReqId) : (u.turn t iu it).origin = u.origin := by
  unfold Txn.turn
  split
  · rfl
  · split <;> rfl

theorem overtaken_origin (u : Txn) (iu it : ReqId) : (u.overtaken t iu it).origin = u.origin := by
  unfold Txn.overtaken
  rw [turn_origin]
  split
  · split <;> rfl
  · split <;> rfl

/-- A grant on the way. -/
theorem pass_traffics (ho : d.origins P) (ht : P t.origin) (k : Nat) : Dev.Traffics P d (d.pass t k) := by
  unfold Dev.pass
  extract_lets ds d1 d0 d2 t1
  have h1 : Dev.Traffics P d d1 := by
    refine txns_traffics fun x hx => ?_
    obtain ⟨u, hu, rfl⟩ := List.mem_map.mp hx
    have hu' := ho u (List.mem_filter.mp hu).1
    split
    · split
      · rwa [overtaken_origin]
      · exact hu'
    all_goals exact hu'
  have h0 : Dev.Traffics P d d0 := by
    unfold d0
    split
    · exact h1
    · exact h1.trans (onChan_traffics h1.origin _ _ _)
  have h2 : Dev.Traffics P d d2 := by
    unfold d2
    split
    · exact h0.trans ((gateSeen_accessed t _).traffics h0.origin)
    · exact h0
  clear_value d2
  have hlanded : Dev.Traffics P d ((d2.cross t k).land t1) := by
    have hc := h2.trans ((cross_accessed t k).traffics h2.origin)
    exact hc.trans (land_traffics hc.origin ht)
  have hnext : Dev.Traffics P d (({ d2 with txns := d2.txns ++ [{ t1 with st := .path (k + 1) }] } : Dev).onChan (domAt ds k) (domAt ds (k + 1)) (fun x => x.put t.id)) := by
    have hj : Dev.Traffics P d { d2 with txns := d2.txns ++ [{ t1 with st := .path (k + 1) }] } := h2.trans (joins_traffics h2.origin ht)
    exact hj.trans (onChan_traffics hj.origin _ _ _)
  split
  · split
    · exact h2.trans (joins_traffics h2.origin ht)
    · split
      · exact hnext
      · exact hlanded
  · split
    · exact hnext
    · exact hlanded

theorem flowN_traffics (n : Nat) (ho : d.origins P) : Dev.Traffics P d (Dev.flowN n d) := by
  induction n generalizing d with
  | zero => exact .refl ho
  | succ n ih =>
    unfold Dev.flowN
    split
    · next t h =>
      have ht : P t.origin := ho t (List.mem_of_find?_eq_some h)
      split
      · next k _ => exact (pass_traffics ho ht k).trans (ih (pass_traffics ho ht k).origin)
      all_goals exact .refl ho
    · exact .refl ho

theorem flow_traffics (ho : d.origins P) : Dev.Traffics P d d.flow := by
  unfold Dev.flow
  split
  · exact flowN_traffics _ ho
  · exact .refl ho

theorem arrive_traffics (ho : d.origins P) (ht : P t.origin) : Dev.Traffics P d (d.arrive t) := by
  unfold Dev.arrive
  split
  · split
    · exact joins_traffics ho ht
    · have hseen := (Dev.Accessed.foldl (fun x i => cross_accessed t i) (List.range t.domains.length) d).trans
        (.foldl (fun x g => gateSeen_accessed t g) t.route _)
      have hs := hseen.traffics ho
      exact hs.trans (land_traffics hs.origin ht)
  · have hj : Dev.Traffics P d { d with txns := d.txns ++ [{ t with st := .path 0, passed := 0, passedBy := [], since := d.clk }] } := joins_traffics ho ht
    exact hj.trans (flow_traffics hj.origin)

/-- A transaction issued. -/
theorem issueTxn_traffics {f : Nat → Txn} (ho : d.origins P) (hf : P (f d.nextId).origin) : Dev.Traffics P d (d.issueTxn f) := by
  unfold Dev.issueTxn Dev.send
  have hnext : Dev.Traffics P d { d with nextId := d.nextId + 1 } := ⟨⟨_, _, _, _, _, _, _, _, _, _, _, _, rfl⟩, ho⟩
  have hawake := hnext.trans ((leaveP1_accessed _).traffics hnext.origin)
  refine hawake.trans ?_
  split
  · exact arrive_traffics hawake.origin hf
  · exact joins_traffics hawake.origin hf

theorem sendEvt_traffics (ho : d.origins P) (hP : P .discard) (req : ReqId) (cls : BitVec 2) (b n : Nat) (k : EvtKind) :
    Dev.Traffics P d (d.sendEvt req cls b n k) := issueTxn_traffics ho hP

theorem Dev.Traffics.cores (h : Dev.Traffics P d e) : e.cores = d.cores := by obtain ⟨⟨_, _, _, _, _, _, _, _, _, _, _, _, rfl⟩, -⟩ := h; rfl
theorem Dev.Traffics.flt (h : Dev.Traffics P d e) : e.flt = d.flt := by obtain ⟨⟨_, _, _, _, _, _, _, _, _, _, _, _, rfl⟩, -⟩ := h; rfl
theorem Dev.Traffics.clk (h : Dev.Traffics P d e) : e.clk = d.clk := by obtain ⟨⟨_, _, _, _, _, _, _, _, _, _, _, _, rfl⟩, -⟩ := h; rfl
theorem Dev.Traffics.mode (h : Dev.Traffics P d e) : e.mode = d.mode := by obtain ⟨⟨_, _, _, _, _, _, _, _, _, _, _, _, rfl⟩, -⟩ := h; rfl
theorem Dev.Traffics.jobs (h : Dev.Traffics P d e) : e.ks.jobs = d.ks.jobs := by obtain ⟨⟨_, _, _, _, _, _, _, _, _, _, _, _, rfl⟩, -⟩ := h; rfl
theorem Dev.Traffics.request (h : Dev.Traffics P d e) (src : CmdSrc) : e.request src = d.request src := by
  obtain ⟨⟨_, _, _, _, _, _, _, _, _, _, _, _, rfl⟩, -⟩ := h
  cases src with
  | port p => cases p <;> rfl
  | fwd u p => rfl

end Sys2Proof.Machine
end

section
/-! SUPPORT. What the fault collector tells, and latches cleared (R406, R438, R443, R444, R448). -/
namespace Sys2Proof.Machine

variable {d e : Dev}

/-- From d to e hosts, bents or the mode were told of the collector's state: it stands, and so do the cores and the time; no command came to wait, and no transaction
for one. -/
structure Dev.Reports (d e : Dev) : Prop where
  cores : e.cores = d.cores
  flt : e.flt = d.flt
  clk : e.clk = d.clk
  comm : e.mode.commDone = d.mode.commDone ∧ e.mode.calibrated = d.mode.calibrated
  calm : d.calm → e.calm
  request : d.calm → ∀ src, e.request src = d.request src
  origin : ∀ P : Origin → Prop, P .discard → d.origins P → e.origins P

theorem Dev.Reports.refl (d : Dev) : d.Reports d := ⟨rfl, rfl, rfl, ⟨rfl, rfl⟩, id, fun _ _ => rfl, fun _ _ => id⟩

theorem Dev.Reports.trans {f : Dev} (h : d.Reports e) (g : e.Reports f) : d.Reports f :=
  ⟨g.cores.trans h.cores, g.flt.trans h.flt, g.clk.trans h.clk, ⟨g.comm.1.trans h.comm.1, g.comm.2.trans h.comm.2⟩, fun hc => g.calm (h.calm hc), fun hc src => (g.request (h.calm hc) src).trans (h.request hc src),
    fun P hP ho => g.origin P hP (h.origin P hP ho)⟩

/-- Vectors change no request. -/
theorem sendVec_request (p : Port) (v : BitVec 11) (src : CmdSrc) : (d.sendVec p v).request src = d.request src := by
  cases src with
  | port q =>
    obtain ⟨_, _, _, _, h⟩ := sendVec_notified (d := d) (p := p) (q := q) v
    exact (congrArg PortSt.reqBuf h :)
  | fwd u q =>
    unfold Dev.request
    rw [(sendVec_told v).ks]

theorem bothVec_reports (v : BitVec 11) : d.Reports (d.bothVec v) := by
  have htalks := bothVec_talks (d := d) v
  refine ⟨htalks.linked.cores, htalks.linked.flt, htalks.speaks.clk, by rw [htalks.speaks.mode]; exact ⟨rfl, rfl⟩, fun h => htalks.jobs.trans h, fun _ src => ?_, fun P _ ho => ?_⟩
  · exact (sendVec_request .b v src).trans (sendVec_request .a v src)
  · unfold Dev.origins
    rw [htalks.speaks.txns]
    exact ho

/-- EVTs of the collector on their way. -/
theorem sendEvt_reports (req : ReqId) (cls : BitVec 2) (b n : Nat) (k : EvtKind) : d.Reports (d.sendEvt req cls b n k) := by
  have hsent : Dev.Traffics (fun _ => True) d (d.sendEvt req cls b n k) := sendEvt_traffics (fun _ _ => trivial) trivial req cls b n k
  exact ⟨hsent.cores, hsent.flt, hsent.clk, by rw [hsent.mode]; exact ⟨rfl, rfl⟩, fun h => hsent.jobs.trans h, fun _ => hsent.request, fun P hP ho => (sendEvt_traffics ho hP req cls b n k).origin⟩

theorem Dev.Reports.foldl {α : Type} {f : Dev → α → Dev} (hf : ∀ (x : Dev) a, x.Reports (f x a)) (l : List α) (d : Dev) : d.Reports (l.foldl f d) := by
  induction l generalizing d with
  | nil => exact .refl d
  | cons a l ih => exact (hf d a).trans (ih _)

theorem notices_reports : d.Reports d.notices := by
  unfold Dev.notices
  split
  · exact .refl d
  · refine .foldl (fun x c => .foldl (fun y b => ?_) _ x) _ d
    dsimp only
    split
    · exact .refl y
    · exact sendEvt_reports _ _ _ _ _

theorem setMode_request (m reason : BitVec 3) (src : CmdSrc) : (d.setMode m reason).request src = d.request src := by
  unfold Dev.setMode
  extract_lets d1 d2
  have hcells : ∀ x : Dev, ∀ p, (x.setCells p).request src = x.request src := by
    intro x p
    unfold Dev.setCells
    dsimp only
    split
    · split <;> (cases src with | port q => cases q <;> rfl | fwd u q => rfl)
    · cases src with | port q => cases q <;> rfl | fwd u q => rfl
  have hmode : d2.request src = d.request src := by
    unfold d2
    split <;> (cases src with | port q => cases q <;> rfl | fwd u q => rfl)
  exact ((sendVec_request _ _ _).trans (sendVec_request _ _ _)).trans ((hcells d2 _).trans hmode)

theorem setMode_txns (m reason : BitVec 3) : (d.setMode m reason).txns = d.txns := by
  have hcells : ∀ x : Dev, ∀ p, (x.setCells p).txns = x.txns := by
    intro x p
    unfold Dev.setCells
    dsimp only
    split
    · split <;> rfl
    · rfl
  unfold Dev.setMode
  extract_lets d1 d2
  have hmode : d2.txns = d.txns := by
    unfold d2
    split <;> rfl
  exact (bothVec_talks _).speaks.txns.trans ((hcells d2 _).trans hmode)

/-- Commands that end leave transactions, the time and the modes. -/
theorem endJobs_stands (pick : Job → Bool) (st det : BitVec 16) :
    (d.endJobs pick st det).txns = d.txns ∧ (d.endJobs pick st det).clk = d.clk ∧ (d.endJobs pick st det).mode = d.mode := by
  have hfold : ∀ (l : List Job) (x : Dev), let y := l.foldl (fun x j => x.finalResult j st det) x
      y.txns = x.txns ∧ y.clk = x.clk ∧ y.mode = x.mode := by
    intro l
    induction l with
    | nil => exact fun _ => ⟨rfl, rfl, rfl⟩
    | cons j l ih =>
      intro x
      have hj := (finalResult_talks (d := x) j st det).speaks
      obtain ⟨htx, hclk, hmode⟩ := ih (x.finalResult j st det)
      exact ⟨htx.trans hj.txns, hclk.trans hj.clk, hmode.trans hj.mode⟩
  exact hfold _ _

theorem setMode_comm (m reason : BitVec 3) : (d.setMode m reason).mode.commDone = d.mode.commDone ∧ (d.setMode m reason).mode.calibrated = d.mode.calibrated := by
  unfold Dev.setMode
  extract_lets d1 d2
  have hcells : ∀ (x : Dev) p, (x.setCells p).mode = x.mode := by
    intro x p
    unfold Dev.setCells
    dsimp only
    split
    · split <;> rfl
    · rfl
  have h2 : d2.mode = d1.mode := by
    unfold d2
    split <;> rfl
  rw [(bothVec_talks _).speaks.mode, hcells, h2]
  exact ⟨rfl, rfl⟩

/-- DEGRADED follows its conditions (R406). -/
theorem modeCheck_reports : d.Reports d.modeCheck := by
  have hlinked := modeCheck_linked (d := d)
  refine ⟨hlinked.cores, hlinked.flt, ?_, ?_, fun h => (modeCheck_rested h).calm h, fun hc src => ?_, fun P _ ho => ?_⟩
  · unfold Dev.modeCheck
    split
    · rw [(endJobs_stands _ _ _).2.1]
      exact (setMode_rested _ _).clk
    · split
      · exact (setMode_rested _ _).clk
      · rfl
  · unfold Dev.modeCheck
    split
    · rw [(endJobs_stands _ _ _).2.2]
      exact setMode_comm _ _
    · split
      · exact setMode_comm _ _
      · exact ⟨rfl, rfl⟩
  · unfold Dev.modeCheck
    split
    · rw [endJobs_calm _ _ _ ((setMode_rested (d := d) _ _).calm hc)]
      exact setMode_request _ _ _
    · split
      · exact setMode_request _ _ _
      · rfl
  · have htx : d.modeCheck.txns = d.txns := by
      unfold Dev.modeCheck
      split
      · rw [(endJobs_stands _ _ _).1, setMode_txns]
      · split
        · exact setMode_txns _ _
        · rfl
    unfold Dev.origins
    rwa [htx]

/-! ### Latches cleared (R444) -/

/-- From d to e raises came, and nothing else. -/
def Dev.Raised (d e : Dev) : Prop := ∃ x l rs, e = { d with xings := x, plb := l, flt := { d.flt with raises := d.flt.raises ++ rs } }

theorem Dev.Raised.refl (d : Dev) : d.Raised d := ⟨_, _, [], by rw [List.append_nil]⟩

theorem Dev.Raised.trans {f : Dev} (h : d.Raised e) (g : e.Raised f) : d.Raised f := by
  obtain ⟨_, _, _, rfl⟩ := h
  obtain ⟨a, b, rs, rfl⟩ := g
  exact ⟨a, b, _, by rw [List.append_assoc]⟩

theorem Dev.Raised.foldl {α : Type} {f : Dev → α → Dev} (hf : ∀ (x : Dev) a, x.Raised (f x a)) (l : List α) (d : Dev) : d.Raised (l.foldl f d) := by
  induction l generalizing d with
  | nil => exact .refl d
  | cons a l ih => exact (hf d a).trans (ih _)

theorem Dev.Raised.src (h : d.Raised e) (k : Nat) : e.flt.src k = d.flt.src k := by
  obtain ⟨_, _, _, rfl⟩ := h
  rfl

theorem raise_raised (src inst : Nat) (det : BitVec 16) : d.Raised (d.raise src inst det) := raise_extends d src inst det

/-- A choice between a raise and nothing. -/
theorem Dev.Raised.ite {p : Prop} [Decidable p] {f g : Dev} (h : d.Raised f) (k : d.Raised g) : d.Raised (if p then f else g) := by
  split
  · exact h
  · exact k

theorem reraise_raised (n : Nat) : d.Raised (d.reraise n) := by
  have hspans : ∀ (limit : Int), d.Raised ((List.range 8).foldl (fun y s => match hotSensor d.temps s limit with
      | some i => y.raise n s (BitVec.ofNat 16 i)
      | none => y) d) := by
    intro limit
    refine .foldl (fun y s => ?_) _ d
    cases hotSensor d.temps s limit with
    | some i => exact raise_raised _ _ _
    | none => exact .refl y
  unfold Dev.reraise
  extract_lets spans d1
  have h1 : d.Raised d1 := .ite (raise_raised _ _ _) (.refl d)
  refine .ite (.foldl (fun x a => .ite (raise_raised _ _ _) (.refl x)) _ d) (.ite (.foldl (fun x a => .ite (raise_raised _ _ _) (.refl x)) _ d)
    (.ite (.foldl (fun x a => .ite (raise_raised _ _ _) (.refl x)) _ d) (.ite (.ite (h1.trans (raise_raised _ _ _)) h1)
      (.ite (.foldl (fun x a => .ite (raise_raised _ _ _) (.refl x)) _ d) (.ite (hspans _) (.ite (hspans _) (.refl d)))))))

/-- From d to e the collector changed, and with it crossings and pins at most. -/
def Dev.Collected (d e : Dev) : Prop := ∃ x l f, e = { d with xings := x, plb := l, flt := f }

theorem Dev.Collected.refl (d : Dev) : d.Collected d := ⟨_, _, _, rfl⟩

theorem Dev.Collected.trans {f : Dev} (h : d.Collected e) (g : e.Collected f) : d.Collected f := by
  obtain ⟨_, _, _, rfl⟩ := h
  obtain ⟨a, b, c, rfl⟩ := g
  exact ⟨a, b, c, rfl⟩

theorem Dev.Raised.collected (h : d.Raised e) : d.Collected e := by
  obtain ⟨_, _, _, rfl⟩ := h
  exact ⟨_, _, _, rfl⟩

theorem onFlt_collected (f : Collector → Collector) : d.Collected (d.onFlt f) := ⟨_, _, _, rfl⟩

theorem Dev.Collected.reports (h : d.Collected e) : e.cores = d.cores ∧ (d.calm → e.calm) ∧ (∀ src, e.request src = d.request src) ∧ e.txns = d.txns := by
  obtain ⟨_, _, _, rfl⟩ := h
  exact ⟨rfl, id, fun src => by cases src with | port q => cases q <;> rfl | fwd u q => rfl, rfl⟩

theorem Collector.src_onSrc (f : Collector) (n : Nat) (g : FltSrc → FltSrc) (k : Nat) : (f.onSrc n g).src k = if k = n then g (f.src n) else f.src k :=
  Tab.find_put _ _ _ _ _

/-- One latch cleared: its source alone changes, and is latched no more. -/
theorem clearLatch_clears (d : Dev) (n : Nat) : d.Collected (d.clearLatch n) ∧ ((d.clearLatch n).flt.src n).latched = false
    ∧ ∀ k, k ≠ n → (d.clearLatch n).flt.src k = d.flt.src k := by
  unfold Dev.clearLatch
  split
  · refine ⟨(onFlt_collected _).trans (reraise_raised n).collected, ?_⟩
    have hsrc := fun k => (reraise_raised (d := d.onFlt (fun f => f.onSrc n (fun x => { x with latched := false, esc := false, lsev := 0#3, insts := [] }))) n).src k
    refine ⟨?_, fun k hk => ?_⟩
    · exact congrArg FltSrc.latched ((hsrc n).trans ((Collector.src_onSrc d.flt n _ n).trans (if_pos rfl)))
    · exact (hsrc k).trans ((Collector.src_onSrc d.flt n _ k).trans (if_neg hk))
  · next h => exact ⟨.refl d, Bool.eq_false_iff.mpr h, fun _ _ => rfl⟩

/-- Some latches cleared one after another. -/
theorem clearLatch_foldl (ns : List Nat) (d : Dev) : d.Collected (ns.foldl (fun x n => x.clearLatch n) d)
    ∧ (∀ k ∈ ns, ((ns.foldl (fun x n => x.clearLatch n) d).flt.src k).latched = false)
    ∧ ∀ k, k ∉ ns → (ns.foldl (fun x n => x.clearLatch n) d).flt.src k = d.flt.src k := by
  induction ns generalizing d with
  | nil => exact ⟨.refl d, fun k hk => absurd hk List.not_mem_nil, fun _ _ => rfl⟩
  | cons n ns ih =>
    obtain ⟨hc, hn, ho⟩ := clearLatch_clears d n
    obtain ⟨ic, iin, iout⟩ := ih (d.clearLatch n)
    refine ⟨hc.trans ic, fun k hk => ?_, fun k hk => ?_⟩
    · by_cases hks : k ∈ ns
      · exact iin k hks
      · obtain rfl : k = n := (List.mem_cons.mp hk).resolve_right hks
        exact (congrArg FltSrc.latched (iout k hks)).trans hn
    · exact (iout k (fun h => hk (List.mem_cons_of_mem n h))).trans (ho k (fun h => hk (h ▸ List.mem_cons_self)))

theorem promote_srcs (f : Collector) (time : W32) : (f.promote time).srcs = f.srcs := by
  unfold Collector.promote
  split
  · rfl
  · dsimp only
    split <;> rfl

/-- Some latches cleared, and what follows from it. -/
theorem clearLatches_clears (d : Dev) (ns : List Nat) : (d.clearLatches ns).cores = d.cores ∧ (d.calm → (d.clearLatches ns).calm)
    ∧ (d.calm → ∀ src, (d.clearLatches ns).request src = d.request src)
    ∧ (∀ P : Origin → Prop, P .discard → d.origins P → (d.clearLatches ns).origins P)
    ∧ (∀ k ∈ ns, ((d.clearLatches ns).flt.src k).latched = false) ∧ ∀ k, k ∉ ns → (d.clearLatches ns).flt.src k = d.flt.src k := by
  obtain ⟨hc, hin, hout⟩ := clearLatch_foldl ns d
  unfold Dev.clearLatches
  extract_lets d1
  have hd1 : d.Collected d1 := hc.trans (onFlt_collected _)
  obtain ⟨hcores, hcalm, hreq, htx⟩ := hd1.reports
  have hsrc : ∀ k, d1.flt.src k = (ns.foldl (fun x n => x.clearLatch n) d).flt.src k :=
    fun k => congrArg (Tab.find ({} : FltSrc) · k) (promote_srcs _ (d.timeAt domCollector) : d1.flt.srcs = _)
  have htold : d1.Reports ((if d.flt.recordOf != d1.flt.recordOf then d1.bothVec 1#11 else d1).notices.modeCheck) := by
    refine Dev.Reports.trans (e := if d.flt.recordOf != d1.flt.recordOf then d1.bothVec 1#11 else d1) ?_ (notices_reports.trans modeCheck_reports)
    split
    · exact bothVec_reports _
    · exact .refl d1
  clear_value d1
  refine ⟨htold.cores.trans hcores, fun h => htold.calm (hcalm h), fun h src => (htold.request (hcalm h) src).trans (hreq src), fun P hP ho => ?_, ?_, ?_⟩
  · exact htold.origin P hP (by unfold Dev.origins; rwa [htx])
  · intro k hk
    rw [htold.flt, hsrc]
    exact hin k hk
  · intro k hk
    rw [htold.flt, hsrc]
    exact hout k hk

theorem Tab.find_not_key {α : Type} (z : α) (t : Tab α) {k : Nat} (h : k ∉ t.map (·.1)) : Tab.find z t k = z := by
  induction t with
  | nil => rfl
  | cons e t ih =>
    simp only [List.map_cons, List.mem_cons, not_or] at h
    simp only [Tab.find]
    rw [if_neg (fun hk => h.1 hk.symm)]
    exact ih h.2

theorem clearAllLatches_clears (d : Dev) (k : Nat) : (d.clearAllLatches.flt.src k).latched = false := by
  obtain ⟨-, -, -, -, hin, hout⟩ := clearLatches_clears d (d.flt.srcs.map (·.1))
  by_cases hk : k ∈ d.flt.srcs.map (·.1)
  · exact hin k hk
  · refine (congrArg FltSrc.latched (hout k hk)).trans ?_
    exact congrArg FltSrc.latched (Tab.find_not_key {} _ hk)

end Sys2Proof.Machine
end

section
/-! SUPPORT. What SAFE_HOLD's entry and stopped cores leave of the fault collector: raises come, and nothing else changes (R403, R441). -/
namespace Sys2Proof.Machine

variable {d e : Dev} {b c n : Nat}

/-- From d to e no latch, nothing of the first-fault record and not the time changed, nor what says whether COMMISSION is
done; raises at most came or were merged, and no command came to wait. -/
structure Dev.Collects (d e : Dev) : Prop where
  flt : ∃ rs, e.flt = { d.flt with raises := rs }
  clk : e.clk = d.clk
  comm : e.mode.commDone = d.mode.commDone ∧ e.mode.calibrated = d.mode.calibrated
  calm : d.calm → e.calm

theorem Dev.Collects.of_eq (hf : e.flt = d.flt) (ht : e.clk = d.clk) (hm : e.mode.commDone = d.mode.commDone ∧ e.mode.calibrated = d.mode.calibrated)
    (hj : e.ks.jobs = d.ks.jobs) : d.Collects e := ⟨⟨_, hf⟩, ht, hm, fun h => hj.trans h⟩

theorem Dev.Collects.refl (d : Dev) : d.Collects d := .of_eq rfl rfl ⟨rfl, rfl⟩ rfl

theorem Dev.Collects.trans {f : Dev} (h : d.Collects e) (g : e.Collects f) : d.Collects f := by
  obtain ⟨_, hf⟩ := h.flt
  obtain ⟨rs, gf⟩ := g.flt
  rw [hf] at gf
  exact ⟨⟨rs, gf⟩, g.clk.trans h.clk, ⟨g.comm.1.trans h.comm.1, g.comm.2.trans h.comm.2⟩, fun hc => g.calm (h.calm hc)⟩

theorem Dev.Collects.foldl {α : Type} {f : Dev → α → Dev} (h : d.Collects e) (hf : ∀ (x : Dev) a, x.Collects (f x a)) (l : List α) :
    d.Collects (l.foldl f e) := by
  induction l generalizing e with
  | nil => exact h
  | cons a l ih => exact ih (h.trans (hf e a))

theorem Dev.Reports.collects (h : d.Reports e) : d.Collects e := ⟨⟨_, h.flt⟩, h.clk, h.comm, h.calm⟩

theorem Dev.Talks.collects (h : d.Talks e) : d.Collects e := .of_eq h.linked.flt h.speaks.clk (by rw [h.speaks.mode]; exact ⟨rfl, rfl⟩) h.jobs

theorem Dev.Raised.collects (h : d.Raised e) : d.Collects e := by
  obtain ⟨_, _, _, rfl⟩ := h
  exact ⟨⟨_, rfl⟩, rfl, ⟨rfl, rfl⟩, id⟩

theorem Dev.Stirred.collects (h : d.Stirred b e) : d.Collects e := by
  obtain ⟨_, rfl⟩ := h.frame
  exact .of_eq rfl rfl ⟨rfl, rfl⟩ rfl

theorem Dev.Traffics.collects {P : Origin → Prop} (h : Dev.Traffics P d e) : d.Collects e := .of_eq h.flt h.clk (by rw [h.mode]; exact ⟨rfl, rfl⟩) h.jobs

theorem Dev.Accessed.collects (h : d.Accessed e) : d.Collects e := .of_eq (by obtain ⟨⟨_, _, _, _, _, _, _, _, _, _, rfl⟩, -⟩ := h; rfl) h.clk (by rw [h.mode]; exact ⟨rfl, rfl⟩) h.jobs

theorem Dev.Collects.ite {p : Prop} [Decidable p] {f g : Dev} (h : d.Collects f) (k : d.Collects g) : d.Collects (if p then f else g) := by
  split
  · exact h
  · exact k

/-! ### Bents whose cells give what they kept (R300, R305) -/

theorem setLatch_collects : d.Collects (d.setLatch b n) :=
  Dev.Collects.trans (e := d.onSource b n (fun x => { x with level := true })) (.of_eq rfl rfl ⟨rfl, rfl⟩ rfl) (setLatch_stirred d b n).collects

theorem setLevel_collects (v : Bool) : d.Collects (d.setLevel b n v) := by
  unfold Dev.setLevel Dev.raiseLevel
  exact .ite (.ite (.refl d) (Dev.Collects.trans (e := d.onSource b n (fun x => { x with level := true })) (.of_eq rfl rfl ⟨rfl, rfl⟩ rfl) (assertSrc_stirred _).collects))
    (.of_eq rfl rfl ⟨rfl, rfl⟩ rfl)

theorem takeEvent_collects : d.Collects (d.takeEvent b n) := .ite queueItem_stirred.collects setLatch_collects

theorem takeLevels_collects (b : Nat) : d.Collects (d.takeLevels b) := by
  unfold Dev.takeLevels
  extract_lets x d1
  have hlevels : d.Collects d1 := by
    refine .foldl ?_ (fun _ _ => setLevel_collects _) _
    exact .of_eq rfl rfl ⟨rfl, rfl⟩ rfl
  split
  · exact hlevels.trans (.of_eq rfl rfl ⟨rfl, rfl⟩ rfl)
  · exact hlevels

theorem takeEvents_collects (b : Nat) : d.Collects (d.takeEvents b) := by
  refine .foldl ?_ (fun x _ => .foldl (.refl x) (fun _ _ => takeEvent_collects) _) _
  exact .of_eq rfl rfl ⟨rfl, rfl⟩ rfl

theorem setAsleep_collects (dom : Nat) (v : Bool) : d.Collects (d.setAsleep dom v) := by
  unfold Dev.setAsleep
  extract_lets d1 d2
  have hheld : d.Collects d1 := .of_eq rfl rfl ⟨rfl, rfl⟩ rfl
  have hbent : d.Collects d2 := hheld.trans (.of_eq rfl rfl ⟨rfl, rfl⟩ rfl)
  exact .ite (.ite hbent ((hbent.trans (takeLevels_collects dom)).trans (takeEvents_collects dom)))
    (.ite (hheld.trans (.of_eq rfl rfl ⟨rfl, rfl⟩ rfl)) (.ite (hheld.trans (.of_eq rfl rfl ⟨rfl, rfl⟩ rfl)) hheld))

theorem endJobs_collects (pick : Job → Bool) (st det : BitVec 16) : d.Collects (d.endJobs pick st det) := by
  obtain ⟨-, hclk, hmode⟩ := endJobs_stands (d := d) pick st det
  refine ⟨⟨_, (endJobs_linked pick st det).flt⟩, hclk, by rw [hmode]; exact ⟨rfl, rfl⟩, fun h => ?_⟩
  rw [endJobs_calm pick st det h]
  exact h

/-- A negotiation refused (R429). -/
theorem refuseSleep_collects (dom reason : Nat) : d.Collects (d.refuseSleep dom reason) := by
  unfold Dev.refuseSleep
  split
  · exact .refl d
  · next n _ =>
    have hrun : d.Collects (n.stopped.foldl (fun x k => x.setAsleep k false) d) := .foldl (.refl d) (fun _ _ => setAsleep_collects _ _) _
    have hnoted := hrun.trans (e := n.stopped.foldl (fun x k => x.setAsleep k false) d) (f := (n.stopped.foldl (fun x k => x.setAsleep k false) d).onPwr
      (·.refused dom reason)) (.of_eq rfl rfl ⟨rfl, rfl⟩ rfl)
    dsimp only
    split
    · exact hnoted.trans (endJobs_collects _ _ _)
    · split
      · exact hnoted.trans (reply_talks _ _ _ _).collects
      · exact hnoted

theorem wakeBy_collects (code : Nat) : d.Collects (d.wakeBy code) := by
  unfold Dev.wakeBy
  split
  · exact .ite (refuseSleep_collects _ _) (.refl d)
  · exact .ite (.refl d) (.ite (.of_eq rfl rfl ⟨rfl, rfl⟩ rfl) (.of_eq rfl rfl ⟨rfl, rfl⟩ rfl))

/-! ### Cores stopped (R204, R470) -/

theorem disarm_collects (i : Nat) (st det : BitVec 16) : d.Collects (d.disarm b i st det) := by
  unfold Dev.disarm
  dsimp only
  split
  · next h =>
    have hoff : ∀ f, d.Collects (d.onBent b f) := fun _ => .of_eq rfl rfl ⟨rfl, rfl⟩ rfl
    exact (hoff _).trans (endJobs_collects _ _ _)
  · exact .refl d

theorem loadVector_collects (line : Nat) : d.Collects (d.loadVector c line) := by
  unfold Dev.loadVector
  extract_lets k d1
  exact .ite (.of_eq rfl rfl ⟨rfl, rfl⟩ rfl) (.ite (.refl d) (.ite (.of_eq rfl rfl ⟨rfl, rfl⟩ rfl) (.of_eq rfl rfl ⟨rfl, rfl⟩ rfl)))

theorem switchLine_collects (old new : W32) (trig : Nat) : d.Collects (d.switchLine c old new trig) := by
  unfold Dev.switchLine
  extract_lets used d1
  have h1 : d.Collects d1 := .ite (.refl d) (.of_eq rfl rfl ⟨rfl, rfl⟩ rfl)
  exact .ite h1 (h1.trans (loadVector_collects _))

theorem noteGap_collects : d.Collects (d.noteGap c n) := by
  unfold Dev.noteGap
  split
  · exact .refl d
  · exact ⟨⟨_, rfl⟩, rfl, ⟨rfl, rfl⟩, fun h => by unfold Dev.calm at h ⊢; exact (congrArg (List.map _) h :)⟩

theorem applySwitch_collects (i : Nat) : d.Collects (d.applySwitch b i) := by
  unfold Dev.applySwitch
  extract_lets w d1 k old
  have hoff : d.Collects (d1.disableSrc b k) := .of_eq rfl rfl ⟨rfl, rfl⟩ rfl
  have hwritten : d.Collects ((d1.onSource b k (fun x => { x with vec := w.vec })).onBent b (fun x => { x with updates := satInc x.updates })) := .of_eq rfl rfl ⟨rfl, rfl⟩ rfl
  split
  · exact hoff.trans noteGap_collects
  · exact hwritten.trans (switchLine_collects _ _ _)

theorem returnPending_collects : d.Collects (d.returnPending b n) := by
  unfold Dev.returnPending Dev.switchBack
  have hpending : d.Collects (d.onSource b n (fun x => { x with st := .pending })) := .of_eq rfl rfl ⟨rfl, rfl⟩ rfl
  refine hpending.foldl (fun x i => ?_) _
  exact .ite (applySwitch_collects _) (.refl x)

theorem stopCore_collects : d.Collects (d.stopCore c) := by
  unfold Dev.stopCore
  extract_lets b i d1 d2
  have h1 : d.Collects d1 := (disarm_collects _ _ _).trans (.of_eq rfl rfl ⟨rfl, rfl⟩ rfl)
  have h2 : d.Collects d2 := h1.foldl (fun x (a : Nat × Src) => returnPending_collects (n := a.1)) _
  exact .ite (h2.trans (raise_raised _ _ _).collects) h2

theorem haltCore_collects : d.Collects (d.haltCore c) := by
  unfold Dev.haltCore
  extract_lets k d1
  have h1 : d.Collects d1 := .of_eq rfl rfl ⟨rfl, rfl⟩ rfl
  exact .ite (clearStack_stirred _).collects ((h1.trans stopCore_collects).trans (clearStack_stirred _).collects)

/-! ### Safe items (R296) -/

theorem biuEvent_collects : d.Collects (d.biuEvent b n) := by
  obtain ⟨xs, ps, h⟩ := eventInto_frame d b n (Tab.find 0 (d.xing b).lines n)
  unfold Dev.biuEvent
  dsimp only
  generalize d.eventInto b n (Tab.find 0 (d.xing b).lines n) = r at h ⊢
  obtain ⟨_ | _, y⟩ := r
  · have hy : d.Collects y := by
      rw [show y = _ from h]
      exact .of_eq rfl rfl ⟨rfl, rfl⟩ rfl
    exact hy.trans (raise_raised 641 b 0#16).collects
  · have hy : d.Collects y := by
      rw [show y = _ from h]
      exact .of_eq rfl rfl ⟨rfl, rfl⟩ rfl
    dsimp only
    generalize hkept : (if (d.xing b).pulse || (d.xing b).hold
      then y.onXing b (fun x => { x with lines := Tab.put x.lines n (Tab.find 0 (d.xing b).lines n + 1) }) else y) = z
    have hz : d.Collects z := by
      rw [← hkept]
      exact .ite (hy.trans (.of_eq rfl rfl ⟨rfl, rfl⟩ rfl)) hy
    exact .ite (hz.trans (leaveP1_accessed z).collects) (hz.trans takeEvent_collects)

theorem sendEvt_collects (req : ReqId) (cls : BitVec 2) (k : EvtKind) : d.Collects (d.sendEvt req cls b n k) := (sendEvt_reports req cls b n k).collects

theorem queNotice_collects (before : Nat) : d.Collects (d.queNotice n before) := by
  unfold Dev.queNotice
  extract_lets q d1
  have h1 : d.Collects d1 := by
    refine .ite ?_ (.refl d)
    unfold Dev.queLevel Dev.levelInto
    exact .ite (.ite (.of_eq rfl rfl ⟨rfl, rfl⟩ rfl) (setLevel_collects _)) (sendEvt_collects _ _ _)
  exact .ite (h1.trans (sendVec_talks _).collects) h1

theorem queComplete_collects : d.Collects (d.queComplete n) := by
  unfold Dev.queComplete
  extract_lets q d1
  have h1 : d.Collects d1 := Dev.Collects.trans (e := d.setQueue n { q with ends := q.ends ++ [q.wr], opened := false, openLen := 0, owner := 0#12 })
    (.of_eq rfl rfl ⟨rfl, rfl⟩ rfl) (queNotice_collects _)
  refine .ite (h1.trans ?_) h1
  unfold Dev.itemEvent
  exact .ite biuEvent_collects (sendEvt_collects _ _ _)

theorem queStore_collects (w : Word) : d.Collects (d.queStore n w).1 := .of_eq rfl rfl ⟨rfl, rfl⟩ rfl

theorem push1_collects (o : PushOp) (req : ReqId) (w : Word) : d.Collects (d.push1 n o req w).1 := by
  unfold Dev.push1
  extract_lets q d1 d2 e1 e2
  have h1 : d.Collects d1 := .ite queComplete_collects (.refl d)
  have h2 : d.Collects d2 := h1.trans (.of_eq rfl rfl ⟨rfl, rfl⟩ rfl)
  have he1 : d.Collects e1.1 := h2.trans (e := d2) (Dev.Collects.trans (e := d2.onQueue n (fun x => { x with opened := true, owner := req, openLen := 0 }))
    (.of_eq rfl rfl ⟨rfl, rfl⟩ rfl) (queStore_collects w))
  have he2 : d.Collects e2.1 := queStore_collects w
  split
  · exact .of_eq rfl rfl ⟨rfl, rfl⟩ rfl
  · split
    · split
      · exact h2.trans (.of_eq rfl rfl ⟨rfl, rfl⟩ rfl)
      · split
        · exact he1.trans queComplete_collects
        · exact he1
    · split
      · exact .of_eq rfl rfl ⟨rfl, rfl⟩ rfl
      · split
        · exact .of_eq rfl rfl ⟨rfl, rfl⟩ rfl
        · split
          · exact .of_eq rfl rfl ⟨rfl, rfl⟩ rfl
          · split
            · exact he2.trans queComplete_collects
            · exact he2

theorem pushAll_collects (req : ReqId) (l : List (PushOp × Word)) (d : Dev) : d.Collects (d.pushAll n req l).1 := by
  induction l generalizing d with
  | nil => exact .refl d
  | cons a l ih => exact (push1_collects _ _ _).trans (ih _)

theorem queSafe_collects : d.Collects (d.queSafe n).1 := by
  unfold Dev.queSafe
  extract_lets d1 q ws
  have h1 : d.Collects d1 := .ite (Dev.Collects.trans (e := d.setQueue n (d.queue n).flushed) (.of_eq rfl rfl ⟨rfl, rfl⟩ rfl) (queNotice_collects _)) (.refl d)
  exact h1.trans (pushAll_collects _ _ _)

theorem allSafe_collects (l : List Nat) (d : Dev) : d.Collects (d.allSafe l).1 := by
  induction l generalizing d with
  | nil => exact .refl d
  | cons n l ih =>
    unfold Dev.allSafe
    dsimp only
    refine Dev.Collects.trans ?_ (ih _)
    split
    · exact queSafe_collects
    · exact .refl d

/-! ### SAFE_HOLD and the stop of every core (R403, R441) -/

theorem stopUnsafe_collects : d.Collects d.stopUnsafe := by
  unfold Dev.stopUnsafe
  extract_lets d1
  have h1 : d.Collects d1 := by
    refine .foldl (.refl d) (fun x l => ?_) _
    exact .of_eq rfl rfl ⟨rfl, rfl⟩ rfl
  refine h1.foldl (fun x k => ?_) _
  exact .ite (.refl x) haltCore_collects

theorem disarmAll_collects (st det : BitVec 16) : d.Collects (d.disarmAll st det) :=
  .foldl (.refl d) (fun x _ => .foldl (.refl x) (fun y _ => .ite (disarm_collects _ _ _) (.refl y)) _) _

theorem enterSafe_collects (reason : BitVec 3) : d.Collects (d.enterSafe reason).1 := by
  unfold Dev.enterSafe
  extract_lets d1 d2 d3 d4 e
  have hr := refuseSleep_collects (d := d) domPower 8
  have h1 : d.Collects d1 := hr.trans ⟨⟨_, (setMode_linked (by decide) _).flt⟩, (setMode_rested _ _).clk, setMode_comm _ _, (setMode_rested _ _).calm⟩
  have h2 : d.Collects d2 := h1.trans (.of_eq rfl rfl ⟨rfl, rfl⟩ rfl)
  have h3 : d.Collects d3 := h2.trans (disarmAll_collects _ _)
  have h4 : d.Collects d4 := h3.trans (endJobs_collects _ _ _)
  have he : d.Collects e.1 := h4.trans (allSafe_collects _ _)
  exact he.trans stopUnsafe_collects

theorem safeTrigger_collects (reason : BitVec 3) : d.Collects (d.safeTrigger reason).1 := by
  unfold Dev.safeTrigger
  dsimp only
  split
  · exact enterSafe_collects _
  · split
    · split
      · have hended : d.Collects ((d.onMode (fun m => { m with recov := false })).setCells false) := .of_eq rfl rfl ⟨rfl, rfl⟩ rfl
        exact hended.trans (endJobs_collects _ _ _)
      · exact .refl d
    · split
      · exact .refl d
      · exact .of_eq rfl rfl ⟨rfl, rfl⟩ rfl

/-- The cores of a part stopped one after another. -/
theorem haltAll_collects : d.Collects (d.cores.foldl (fun x k => x.haltCore k.1) d) :=
  .foldl (.refl d) (fun _ _ => haltCore_collects) _

/-- Where every core is stopped, none runs: one that the part holds nothing of is gated. -/
theorem haltAll_stops (hc : d.calm) (c : Nat) : ((d.cores.foldl (fun x k => x.haltCore k.1) d).core c).still := by
  have hquiet : ∀ (l : List (Nat × Core)) (x : Dev), x.stopsWait → x.Quieter (l.foldl (fun x k => x.haltCore k.1) x)
      ∧ ∀ k ∈ l, ((l.foldl (fun x k => x.haltCore k.1) x).core k.1).still := by
    intro l
    induction l with
    | nil => exact fun x hx => ⟨.refl hx, fun k hk => absurd hk List.not_mem_nil⟩
    | cons a l ih =>
      intro x hx
      obtain ⟨hquiet, hstill⟩ := haltCore_stops (c := a.1) hx
      obtain ⟨irest, istill⟩ := ih (x.haltCore a.1) hquiet.waits
      refine ⟨hquiet.trans irest, fun k hk => ?_⟩
      obtain rfl | hk := List.mem_cons.mp hk
      · exact irest.still _ hstill
      · exact istill k hk
  have hw : d.stopsWait := fun j hj => absurd (hc ▸ hj) List.not_mem_nil
  obtain ⟨hkeep, hstop⟩ := hquiet d.cores d hw
  by_cases h : c ∈ d.cores.map (·.1)
  · obtain ⟨k, hk, rfl⟩ := List.mem_map.mp h
    exact hstop k hk
  · refine hkeep.still c ?_
    unfold Dev.core
    rw [Tab.find_not_key _ _ h]
    exact .inr rfl

/-- What hosts and bents are told before the reactions to a latch of HOLD or STOP, and what ends with them. -/
def Dev.heldBack (d : Dev) (tell : Bool) : Eff :=
  let d2 := (((if tell then d.bothVec 1#11 else d).notices).refuseSleep domPower 8).wakeBy 6
  if 2 ≤ d2.pwr.pstate.toNat then (d2, []) else d2.safeTrigger 1#3

theorem told_reports (tell : Bool) : d.Reports ((if tell then d.bothVec 1#11 else d).notices) := by
  refine Dev.Reports.trans (e := if tell then d.bothVec 1#11 else d) ?_ notices_reports
  split
  · exact bothVec_reports _
  · exact .refl d

theorem heldBack_collects (tell : Bool) : d.Collects (d.heldBack tell).1 := by
  have h1 := (told_reports (d := d) tell).collects
  have hr := h1.trans (refuseSleep_collects domPower 8)
  have h2 := hr.trans (wakeBy_collects 6)
  unfold Dev.heldBack
  extract_lets d2
  by_cases hp : 2 ≤ d2.pwr.pstate.toNat
  · rw [if_pos hp]
    exact h2
  · rw [if_neg hp]
    exact h2.trans (safeTrigger_collects _)

/-- The reactions to a latch of LOG or DEGRADE tell hosts, bents and the mode. -/
theorem react_low (tell : Bool) {v : Nat} (hv : v < 3) : ∃ e, d.react tell v = (e, []) ∧ d.Reports e ∧ (v = 0 → e = d) := by
  unfold Dev.react
  split
  · exact ⟨d, rfl, .refl d, fun _ => rfl⟩
  · next h =>
    extract_lets d1
    exact ⟨_, rfl, (told_reports tell).trans modeCheck_reports, fun h0 => absurd h0 h⟩

theorem react_hold (tell : Bool) : d.react tell 3 = d.heldBack tell := rfl

/-- The reactions to a latch of STOP end with no core running (R441). -/
theorem react_stop (hc : d.calm) (tell : Bool) {v : Nat} (hv : 4 ≤ v) :
    (d.react tell v).1 = (d.heldBack tell).1.cores.foldl (fun x k => x.haltCore k.1) (d.heldBack tell).1 := by
  have hcalm := (heldBack_collects tell).calm hc
  rw [← endJobs_calm Job.startsCore stFaultActive (BitVec.ofNat 16 (d.heldBack tell).1.flt.source) (haltAll_collects.calm hcalm)]
  unfold Dev.react
  rw [if_neg (by omega)]
  extract_lets d1 d2 e
  rw [if_neg (by omega), if_neg (by omega)]
  rfl

/-- The reactions of a tick of the collector leave what it has latched and recorded, and let no command wait. -/
theorem react_collects (hc : d.calm) (tell : Bool) (v : Nat) : d.Collects (d.react tell v).1 := by
  obtain hv | rfl | hv : v < 3 ∨ v = 3 ∨ 4 ≤ v := by omega
  · obtain ⟨e, he, hr, -⟩ := react_low (d := d) tell hv
    rw [he]
    exact hr.collects
  · exact heldBack_collects tell
  · rw [react_stop hc tell hv]
    exact (heldBack_collects tell).trans haltAll_collects

theorem react_stops (hc : d.calm) (tell : Bool) {v : Nat} (hv : 4 ≤ v) (c : Nat) : ((d.react tell v).1.core c).still := by
  rw [react_stop hc tell hv]
  exact haltAll_stops ((heldBack_collects tell).calm hc) c

end Sys2Proof.Machine
end

section
/-! SUPPORT. One raise applied at the fault collector (R440, R443). -/
namespace Sys2Proof.Machine

variable {f : Collector} {r : Raise} {d : Dev}

/-- With no command waiting nothing ends behind what a row does. -/
theorem settleEff_calm_mem (m : List Host.Cell) {e : Dev} (ms : List MemOp) (h : e.calm) : settleEff m (e, ms) = (e, ms) := by
  unfold settleEff
  rw [settle_calm _ h]
  simp

theorem order_one (f : Collector) (n : Nat) : f.order 1 [n] = [n] := by
  simp [Collector.order, Collector.firstOf]

theorem lowestRaise_one (r : Raise) : lowestRaise [r] r.src = r := by
  simp [lowestRaise]

theorem onSrc_sevOf (f : Collector) (n : Nat) {g : FltSrc → FltSrc} (hg : ∀ x, (g x).sev = x.sev) (k : Nat) : (f.onSrc n g).sevOf k = f.sevOf k := by
  unfold Collector.sevOf
  rw [Collector.src_onSrc]
  split
  · split
    · next h => rw [hg, h]
    · rfl
  · rfl

theorem record_srcs (f : Collector) (n : Nat) (sev : BitVec 3) (r : Raise) (time : W32) (made : Bool) : (f.record n sev r time made).srcs = f.srcs
    ∧ (f.record n sev r time made).raises = f.raises := by
  unfold Collector.record
  split
  · split <;> exact ⟨rfl, rfl⟩
  · exact ⟨rfl, rfl⟩

/-- A raise of a source of severity 0 is counted, and nothing else. -/
theorem applySrc_ignored {rs : List Raise} {time : W32} {made : Bool} {n : Nat} (h : f.sevOf n = 0#3) :
    f.applySrc rs time made n = f.onSrc n (fun x => { x with ign := satInc x.ign }) := if_pos h

/-- What a raise of a source writes in its latch. -/
def FltSrc.latch (x : FltSrc) (sev : BitVec 3) (esc : Bool) (is : List Nat) : FltSrc :=
  { x with latched := true, lsev := if x.lsev.toNat < sev.toNat then sev else x.lsev, esc := x.esc || esc, insts := (x.insts ++ is).eraseDups }

theorem latch_lsev (x : FltSrc) (sev : BitVec 3) (esc : Bool) (is : List Nat) : (x.latch sev esc is).lsev.toNat = max sev.toNat x.lsev.toNat := by
  unfold FltSrc.latch
  dsimp only
  split <;> omega

/-- Any other raise is latched, and recorded where the record is free. -/
theorem applySrc_latched {rs : List Raise} {time : W32} {made : Bool} {n : Nat} (h : f.sevOf n ≠ 0#3) :
    ∃ esc is, f.applySrc rs time made n = (f.record n (f.effSev n) (lowestRaise rs n) time made).onSrc n (fun x => x.latch (f.effSev n) esc is) :=
  ⟨_, _, if_neg h⟩

/-- The effective severity of a raise as a number (R440). -/
theorem effSev_toNat (f : Collector) (n : Nat) : (f.effSev n).toNat =
    (if f.srcs.any (fun e => e.2.latched && fltClass e.1 == fltClass n) ∧ (f.sevOf n).toNat < 4 then (f.sevOf n).toNat + 1 else (f.sevOf n).toNat) := by
  unfold Collector.effSev
  simp only [Bool.and_eq_true, decide_eq_true_eq]
  split
  · next h =>
    rw [BitVec.toNat_add, Nat.mod_eq_of_lt]
    · rfl
    · have := h.2
      simp
      omega
  · rfl

/-- The collector whose raises a tick has taken. -/
def Collector.emptied (f : Collector) : Collector := { f with raises := [] }

/-- The collector behind a tick in which one raise has arrived. -/
def Dev.latching (d : Dev) (r : Raise) : Collector := d.flt.emptied.applySrc [r] (d.timeAt domCollector) false r.src

/-- A tick in which one raise has arrived (R440). -/
theorem faultTick_one (h : d.flt.raises = [r]) :
    d.faultTick = (({ d.leaveP1 with flt := d.latching r } : Dev).strobe 0xE87).react (d.flt.tells (d.latching r) [r.src]) ((d.latching r).reached r.src) := by
  have hdups : ([r].map (·.src)).eraseDups = [r.src] := rfl
  unfold Dev.faultTick
  rw [h, if_neg (by simp)]
  dsimp only
  rw [hdups, show [r.src].length = 1 from rfl, order_one]
  simp only [List.foldl_cons, List.foldl_nil, Nat.zero_max]
  rfl

theorem latching_raises (d : Dev) (r : Raise) : (d.latching r).raises = [] := by
  by_cases h : d.flt.emptied.sevOf r.src = 0#3
  · unfold Dev.latching
    rw [applySrc_ignored h]
    rfl
  · obtain ⟨esc, is, hl⟩ := applySrc_latched (rs := [r]) (time := d.timeAt domCollector) (made := false) h
    unfold Dev.latching
    rw [hl]
    exact (record_srcs _ _ _ _ _ _).2

theorem latching_sevOf (d : Dev) (r : Raise) (n : Nat) : (d.latching r).sevOf n = d.flt.sevOf n := by
  by_cases h : d.flt.emptied.sevOf r.src = 0#3
  · unfold Dev.latching
    rw [applySrc_ignored h]
    rw [onSrc_sevOf]
    · rfl
    · exact fun _ => rfl
  · obtain ⟨esc, is, hl⟩ := applySrc_latched (rs := [r]) (time := d.timeAt domCollector) (made := false) h
    unfold Dev.latching
    rw [hl, onSrc_sevOf]
    · unfold Collector.sevOf Collector.src
      rw [(record_srcs _ _ _ _ _ _).1]
      rfl
    · exact fun _ => rfl

/-- The severity that a raise reaches. -/
def Collector.effective (f : Collector) (n : Nat) : Nat :=
  if f.srcs.any (fun e => e.2.latched && fltClass e.1 == fltClass n) ∧ (f.sevOf n).toNat < 4 then (f.sevOf n).toNat + 1 else (f.sevOf n).toNat

/-- The collector behind one raise of severity 0. -/
theorem latching_ignored (h : d.flt.sevOf r.src = 0#3) : (d.latching r).src r.src = { d.flt.src r.src with ign := satInc (d.flt.src r.src).ign }
    ∧ (d.latching r).reached r.src = 0 := by
  refine ⟨?_, if_pos ((latching_sevOf d r _).trans h)⟩
  unfold Dev.latching
  rw [applySrc_ignored (f := d.flt.emptied) h, Collector.src_onSrc, if_pos rfl]
  rfl

/-- The collector behind one raise of another severity. -/
theorem latching_latched (h : d.flt.sevOf r.src ≠ 0#3) : ((d.latching r).src r.src).latched = true
    ∧ ((d.latching r).src r.src).lsev.toNat = max (d.flt.effective r.src) (d.flt.src r.src).lsev.toNat
    ∧ (∀ n, n ≠ r.src → (d.latching r).src n = d.flt.src n)
    ∧ (d.flt.valid = false → (d.latching r).valid = true ∧ (d.latching r).source = r.src ∧ (d.latching r).sev.toNat = d.flt.effective r.src
      ∧ (d.latching r).inst = BitVec.ofNat 8 r.inst ∧ (d.latching r).detail = r.detail ∧ (d.latching r).time = d.timeAt domCollector)
    ∧ (d.latching r).reached r.src = max (d.flt.effective r.src) (d.flt.src r.src).lsev.toNat := by
  let f : Collector := d.flt.emptied
  have heff : (f.effSev r.src).toNat = d.flt.effective r.src := effSev_toNat f r.src
  obtain ⟨esc, is, hl⟩ := applySrc_latched (f := f) (rs := [r]) (time := d.timeAt domCollector) (made := false) h
  have hl' : d.latching r = _ := hl
  have hrec : ∀ n, (f.record r.src (f.effSev r.src) (lowestRaise [r] r.src) (d.timeAt domCollector) false).src n = d.flt.src n :=
    fun n => (congrArg (Tab.find ({} : FltSrc) · n) (record_srcs f _ _ _ _ _).1 :)
  have hsrc : (d.latching r).src r.src = (d.flt.src r.src).latch (f.effSev r.src) esc is := by
    rw [hl', Collector.src_onSrc, if_pos rfl, hrec]
  have hlsev : ((d.latching r).src r.src).lsev.toNat = max (d.flt.effective r.src) (d.flt.src r.src).lsev.toNat := by
    rw [hsrc, latch_lsev, heff]
  refine ⟨by rw [hsrc]; rfl, hlsev, fun n hn => ?_, fun hv => ?_, ?_⟩
  · rw [hl', Collector.src_onSrc, if_neg hn, hrec]
  · rw [hl', lowestRaise_one]
    unfold Collector.onSrc Collector.record
    rw [if_neg (by simp [f, Collector.emptied, hv])]
    exact ⟨rfl, rfl, heff, rfl, rfl, rfl⟩
  · unfold Collector.reached
    rw [latching_sevOf, if_neg h, hlsev]

end Sys2Proof.Machine
end

section
/-! PROOFS. The statement on the fault collector and its registers. -/
namespace Sys2Proof.Proofs
open Sys2Proof.Machine

variable {s : State} {r : Raise} {n : BitVec 10}

/-! ### One raise (R440, R441, R443) -/

/-- The part whose collector has applied a raise, before the reactions. -/
def raisedDev (d : Dev) (r : Raise) : Dev := ({ d.leaveP1 with flt := d.latching r } : Dev).strobe 0xE87

theorem raisedDev_calm {d : Dev} (hc : d.calm) : (raisedDev d r).calm := (leaveP1_accessed d).jobs.trans hc

theorem raisedDev_cores (d : Dev) : (raisedDev d r).cores = d.cores := leaveP1_cores d

/-- A raise as a row of the collector. -/
theorem faultRaise_row (h : s.dev.flt.raises = [r]) : exec .faultRaise s =
    s.commit (settleEff s.mem ((raisedDev s.dev r).react (s.dev.flt.tells (s.dev.latching r) [r.src]) ((s.dev.latching r).reached r.src))) :=
  congrArg (fun e => s.commit (settleEff s.mem e)) (faultTick_one h)

/-- A raise whose reactions tell of it alone: memory and cores stand, and the collector is as the raise left it. -/
theorem faultRaise_low (hc : s.dev.calm) (h : s.dev.flt.raises = [r]) (hv : (s.dev.latching r).reached r.src < 3) :
    ∃ t, exec .faultRaise s = .next t ∧ Keeps s t ∧ t.dev.flt = s.dev.latching r ∧ ((s.dev.latching r).reached r.src = 0 → t.dev.mode = s.dev.mode) := by
  obtain ⟨e, he, hr, hzero⟩ := react_low (d := raisedDev s.dev r) (s.dev.flt.tells (s.dev.latching r) [r.src]) hv
  have hrow := faultRaise_row h
  rw [he, settleEff_calm _ (hr.calm (raisedDev_calm hc)), State.commit_eq] at hrow
  refine ⟨_, hrow, keeps_of_cores (hr.cores.trans (raisedDev_cores _)), hr.flt, fun h0 => ?_⟩
  rw [show e = _ from hzero h0]
  exact (leaveP1_accessed s.dev).mode

/-- Any raise: the collector's latches and record are as the raise left them. -/
theorem faultRaise_latches (hc : s.dev.calm) (h : s.dev.flt.raises = [r]) :
    ∃ t, exec .faultRaise s = .next t ∧ t.pending = s.pending ∧ ∃ rs, t.dev.flt = { s.dev.latching r with raises := rs } := by
  have hreact := react_collects (raisedDev_calm (r := r) hc) (s.dev.flt.tells (s.dev.latching r) [r.src]) ((s.dev.latching r).reached r.src)
  have hrow := faultRaise_row h
  generalize (raisedDev s.dev r).react (s.dev.flt.tells (s.dev.latching r) [r.src]) ((s.dev.latching r).reached r.src) = e at hreact hrow
  obtain ⟨e, ms⟩ := e
  rw [settleEff_calm_mem _ _ (hreact.calm (raisedDev_calm hc)), State.commit_eq] at hrow
  exact ⟨_, hrow, rfl, hreact.flt⟩

/-- A raise that reaches STOP leaves no core running. -/
theorem faultRaise_stops (hc : s.dev.calm) (h : s.dev.flt.raises = [r]) (hv : 4 ≤ (s.dev.latching r).reached r.src) :
    ∃ t, exec .faultRaise s = .next t ∧ ∀ c, (t.dev.core c).status = .stopped ∨ (t.dev.core c).status = .gated := by
  have hreact := react_collects (raisedDev_calm (r := r) hc) (s.dev.flt.tells (s.dev.latching r) [r.src]) ((s.dev.latching r).reached r.src)
  have hstops := react_stops (raisedDev_calm (r := r) hc) (s.dev.flt.tells (s.dev.latching r) [r.src]) hv
  have hrow := faultRaise_row h
  generalize (raisedDev s.dev r).react (s.dev.flt.tells (s.dev.latching r) [r.src]) ((s.dev.latching r).reached r.src) = e at hreact hstops hrow
  obtain ⟨e, ms⟩ := e
  rw [settleEff_calm_mem _ _ (hreact.calm (raisedDev_calm hc)), State.commit_eq] at hrow
  exact ⟨_, hrow, fun c => by rw [Dev.core_seen]; exact hstops c⟩

/-! ### Registers (R444, R445, R449) -/

theorem fltClrAll_clears : ∃ t, exec (.fltClrAll ksReq) s = .next t ∧ Keeps s t ∧ ∀ k, (t.dev.flt.src k).latched = false :=
  ⟨_, rfl, keeps_of_cores (clearLatches_clears s.dev _).1, clearAllLatches_clears s.dev⟩

theorem fltClrSource_clears : ∃ t, exec (.fltClrSource ksReq n) s = .next t ∧ Keeps s t ∧ (t.dev.flt.src n.toNat).latched = false
    ∧ ∀ k, k ≠ n.toNat → t.dev.flt.src k = s.dev.flt.src k := by
  obtain ⟨hcores, -, -, -, hin, hout⟩ := clearLatches_clears s.dev [n.toNat]
  have hrow : exec (.fltClrSource ksReq n) s = s.keep (s.dev.clearLatches [n.toNat]) := congrArg s.keep (if_pos rfl)
  generalize s.dev.clearLatches [n.toNat] = e at hcores hin hout hrow
  exact ⟨_, hrow, keeps_of_cores hcores, hin _ List.mem_cons_self, fun k hk => hout k (by simpa using hk)⟩

theorem fltKick_kicks (hf : s.dev.ks.firmware = true) (hh : s.dev.ks.halted = false) : ∃ t, exec (.fltKick ksReq) s = .next t ∧ Keeps s t
    ∧ t.dev.ks.kicked = true ∧ t.dev.ks.lastKick = s.dev.clk ∧ t.dev.ks.graceEnd = none
    ∧ t.dev.ks.stopped = (s.dev.ks.stopped && s.dev.ks.graceEnd.isNone) ∧ t.dev.flt = s.dev.flt := by
  have hkick : s.dev.kick = s.dev.onKs (fun k => { k with
      kicked := true, lastKick := s.dev.clk, stopped := k.stopped && k.graceEnd.isNone, graceEnd := none }) := if_pos (by simp [hf, hh])
  have hrow : exec (.fltKick ksReq) s = s.keep s.dev.kick := rfl
  rw [hkick] at hrow
  exact ⟨_, hrow, keeps_of_cores rfl, rfl, rfl, rfl, rfl, rfl⟩

theorem fltKickGrace_opens : ∃ t, exec (.fltKickGrace ksReq) s = .next t ∧ Keeps s t ∧ t.dev.ks.graceEnd = some (s.dev.clk + 48000000)
    ∧ t.dev.raising 723 0 := by
  refine ⟨_, rfl, keeps_of_cores (raise_cores _ _ _ _), ?_, raise_raising _ _ _ _⟩
  exact congrArg Keystone.graceEnd (raise_ks _ _ _ _)

/-- No requester other than Keystone writes them. -/
theorem fltRegs_foreign {req : ReqId} (h : req ≠ ksReq) : Yields s (.fltClrAll req) s.dev ∧ Yields s (.fltClrSource req n) s.dev
    ∧ Yields s (.fltKick req) s.dev ∧ Yields s (.fltKickGrace req) s.dev :=
  ⟨congrArg s.keep (if_neg h), congrArg s.keep (if_neg h), congrArg s.keep (if_neg h), congrArg s.keep (if_neg h)⟩

/-- Settles O51: a raise by what the collector makes of it and what its reactions leave alone, the registers one by one. -/
theorem faultsAndTheirRegisters : Obligations.FaultsAndTheirRegisters := by
  unfold Obligations.FaultsAndTheirRegisters
  refine ⟨fun s r => ?_, fun s n => ⟨fltClrAll_clears, fltClrSource_clears, fltKick_kicks, fltKickGrace_opens, fun _ h => fltRegs_foreign h⟩⟩
  intro d v eff y hc h hv
  have hzero : v = 0 ↔ d.flt.sevOf r.src = 0#3 := BitVec.toNat_inj (y := 0#3)
  have hlow := faultRaise_low hc h
  have hany := faultRaise_latches hc h
  refine ⟨fun h0 => ?_, fun h0 he hl => ?_, fun h0 => ?_, fun he _ _ => ?_⟩
  · obtain ⟨hsrc, hreach⟩ := latching_ignored (hzero.mp h0)
    obtain ⟨t, ht, hk, hf, hm⟩ := hlow (lt_of_eq_of_lt hreach (by decide))
    exact ⟨t, ht, hk, by rw [hf]; exact latching_raises d r, (congrArg (·.src r.src) hf).trans hsrc, hm hreach⟩
  · obtain ⟨hlat, hlsev, hout, -, hreach⟩ := latching_latched (fun hz => absurd (hzero.mpr hz) (by omega))
    obtain ⟨t, ht, hk, hf, -⟩ := hlow (lt_of_eq_of_lt hreach (max_lt he hl))
    refine ⟨t, ht, hk, by rw [hf]; exact latching_raises d r, ?_, ?_, fun n hn => ?_⟩
    · exact (congrArg (fun f => (Collector.src f r.src).latched) hf).trans hlat
    · exact (congrArg (fun f => (Collector.src f r.src).lsev.toNat) hf).trans hlsev
    · exact (congrArg (·.src n) hf).trans (hout n hn)
  · obtain ⟨hlat, hlsev, -, hrec, -⟩ := latching_latched (fun hz => absurd (hzero.mpr hz) (by omega))
    obtain ⟨t, ht, hp, rs, hf⟩ := hany
    refine ⟨t, ht, hp, ?_, ?_, fun hval => ?_⟩
    · exact (congrArg (fun f => (Collector.src f r.src).latched) hf).trans hlat
    · exact (congrArg (fun f => (Collector.src f r.src).lsev.toNat) hf).trans hlsev
    · rw [hf]
      exact hrec hval
  · have hne : d.flt.sevOf r.src ≠ 0#3 := fun hz => by
      have h0 := hzero.mpr hz
      simp only [eff] at he
      split at he <;> omega
    obtain ⟨-, -, -, -, hreach⟩ := latching_latched hne
    exact faultRaise_stops hc h (hreach ▸ le_max_of_le_left (show 4 ≤ eff from he.ge))

end Sys2Proof.Proofs
end

section
/-! SUPPORT. The commands that set something: the fields of an agent, the latches, a pin's selection (R364, R366, R368). -/
namespace Sys2Proof.Machine

variable {d e : Dev} {src : CmdSrc}

/-- Where no entry of a list of checks is bad, there is no first one. -/
theorem firstBad_none {l : List (Nat × Bool)} (h : ∀ e ∈ l, e.2 = false) : firstBad l = none := by
  induction l with
  | nil => rfl
  | cons a l ih =>
    obtain ⟨off, bad⟩ := a
    have hbad : bad = false := h _ List.mem_cons_self
    unfold firstBad
    rw [hbad]
    exact ih (fun e he => h e (List.mem_cons_of_mem _ he))

/-! ### Agents (R364) -/

/-- The agents of some bents, each changed by one function. -/
theorem onScr_foldl (f : Scribe → Scribe) (bs : List Nat) (hbs : bs.Nodup) (d : Dev) : ∃ t, bs.foldl (fun x n => x.onScr n f) d = { d with bents := t }
    ∧ ∀ k, (Tab.find {} t k : Bent) = if k ∈ bs then { d.bent k with scr := f (d.bent k).scr } else d.bent k := by
  induction bs generalizing d with
  | nil => exact ⟨d.bents, rfl, fun _ => rfl⟩
  | cons b bs ih =>
    obtain ⟨hb, hbs⟩ := List.nodup_cons.mp hbs
    obtain ⟨t, ht, hk⟩ := ih hbs (d.onScr b f)
    have hone : ∀ k, (d.onScr b f).bent k = if k = b then { d.bent b with scr := f (d.bent b).scr } else d.bent k := fun k => Tab.find_put _ _ _ _ _
    refine ⟨t, ht, fun k => ?_⟩
    rw [hk, hone]
    by_cases hkb : k = b
    · subst hkb
      simp [hb]
    · simp [hkb]

/-! ### The pins (R497, R501) -/

/-- What a pin follows is nothing that hosts are told, nor anything that Keystone notes of a command. -/
theorem follow_told (p : PlbPin) (h : ∃ a b ch fw sv pr pl, e = { d with
    portA := a, portB := b, chain := ch, ks := { d.ks with fwd := fw, served := sv, prog := pr }, plb := pl }) : p.follow d e = p := by
  obtain ⟨_, _, _, _, _, _, _, rfl⟩ := h
  exact PlbPin.follow_self d p

theorem find_map_key {α : Type} (z : α) (g : Nat → α → α) (t : Tab α) (k : Nat) (h : k ∈ t.map (·.1)) :
    Tab.find z (t.map (fun e => (e.1, g e.1 e.2))) k = g k (Tab.find z t k) := by
  induction t with
  | nil => cases h
  | cons e t ih =>
    simp only [List.map_cons, Tab.find]
    by_cases hk : e.1 = k
    · rw [if_pos hk, if_pos hk, hk]
    · rw [if_neg hk, if_neg hk]
      refine ih ?_
      rcases List.mem_cons.mp h with h | h
      · exact absurd h.symm hk
      · exact h

theorem put_key {α : Type} (t : Tab α) (k : Nat) (v : α) : k ∈ (Tab.put t k v).map (·.1) := by
  induction t with
  | nil => simp [Tab.put]
  | cons e t ih =>
    unfold Tab.put
    split
    · simp
    · split
      · simp
      · rw [List.map_cons]
        exact List.mem_cons_of_mem _ ih

/-- A pin whose selection was made shows it: one that is new is not followed yet, and one that is as it was has nothing to follow. -/
theorem plb_seen_chosen {k : Nat} {p : PlbPin} (hnew : d.plb = Tab.put e.plb k p) (hfollow : p = Tab.find {} e.plb k ∨ p.sameAs (Tab.find {} e.plb k) = false)
    (hstill : ∀ q : PlbPin, q.follow e d = q) : (Tab.find {} (d.seen e).plb k : PlbPin) = p := by
  have hfind : (Tab.find {} d.plb k : PlbPin) = p := by rw [hnew, Tab.find_put_self]
  have hmap : (d.seen e).plb = d.plb.map (fun x => (x.1, if x.2.sameAs (Tab.find {} e.plb x.1) then x.2.follow e d else x.2)) := by
    refine List.map_congr_left fun x _ => ?_
    split <;> rfl
  rw [hmap, find_map_key {} (fun n (q : PlbPin) => if q.sameAs (Tab.find {} e.plb n) then q.follow e d else q) _ _ (hnew ▸ put_key _ _ _), hfind]
  obtain h | h := hfollow
  · split
    · exact hstill p
    · rfl
  · rw [h]
    rfl

/-- A selection that changes nothing leaves the pin; any other is not the selection that it had. -/
theorem choose_sameAs (p : PlbPin) (en event : Bool) (div : BitVec 4) (signal : BitVec 12) (now : Nat) :
    p.choose en event div signal now = p ∨ (p.choose en event div signal now).sameAs p = false := by
  unfold PlbPin.choose
  dsimp only
  split
  · exact .inl rfl
  · next h =>
    refine .inr (Bool.eq_false_iff.mpr fun hs => h ?_)
    simp only [PlbPin.sameAs, Bool.and_eq_true, beq_iff_eq] at hs
    obtain ⟨⟨⟨⟨h1, h2⟩, h3⟩, h4⟩, -⟩ := hs
    cases p
    simp_all

/-! ### Bents put to sleep (R236, R305) -/

theorem setAsleep_bent {b : Nat} (h : b < 128) : d.setAsleep b true =
    (d.onXing b (fun x => { x with hold := true })).onBent b (fun x => { x with asleep := true }) := by
  unfold Dev.setAsleep
  extract_lets d1 d2
  rw [if_pos h, if_pos (by simp)]
  simp only [d2, d1, Bool.true_or]

/-- What a sleep's negotiation begins with (R428). -/
theorem startNego_begins (d : Dev) (target : BitVec 3) (src : Option CmdSrc) (isMode : Bool) :
    (d.startNego target src isMode).pwr = { d.pwr with nego := some { target := target, asked := 0, stopped := [0], src := src, isMode := isMode } }
    ∧ (d.startNego target src isMode).cores = d.cores ∧ (d.startNego target src isMode).ks.jobs = d.ks.jobs
    ∧ (d.startNego target src isMode).txns = d.txns ∧ ((d.startNego target src isMode).bent 0).asleep = true := by
  unfold Dev.startNego
  rw [setAsleep_bent (by decide)]
  exact ⟨rfl, rfl, rfl, rfl, congrArg Bent.asleep (Dev.bent_onBent _ _ _)⟩

end Sys2Proof.Machine
end

section
/-! PROOFS. The statement on SCR_SET, FLT_ACK, FLT_SEVERITY, PLB_SELECT and PWR_STATE. -/
namespace Sys2Proof.Proofs
open Sys2Proof.Machine

variable {s : State} {src : CmdSrc} {c : CmdSpec} {body : Dev → Eff} {i : Instr} {y : Dev} {st det : BitVec 16} {ws : List W32}

/-- The row of an admitted command that changes the device, its cores apart, and answers. -/
theorem replied_row (hrow : exec i s = s.commit (settleEff s.mem (s.dev.takeCmd src c body))) (ha : s.dev.admits src c)
    (hbody : body s.dev = (y.reply src st det ws, [])) (hp : hasPayload st = true ∨ ws = []) (hcores : y.cores = s.dev.cores) (hcalm : y.calm)
    (hreq : y.request src = s.dev.request src) (htx : ∀ t ∈ y.txns, t.ofCmd src = false) :
    ∃ t, exec i s = .next t ∧ Keeps s t ∧ Replied s t src st det ws ∧ t.dev = ((y.reply src st det ws).taken src).seen s.dev := by
  have htalks := reply_talks (d := y) src st det ws
  have hans : (y.reply src st det ws).answered src st det (s.dev.seqWord src) ws := by
    rw [← seqWord_of_request hreq]
    exact reply_answered hp
  have htake := ha.takeCmd hbody hans.waiting (by rw [htalks.speaks.txns]; exact htx)
  have hdone : ((y.reply src st det ws).taken src).calm := htalks.calm hcalm
  rw [htake, settleEff_calm _ hdone, State.commit_eq] at hrow
  exact ⟨_, hrow, keeps_of_cores (htalks.speaks.cores.trans hcores), Dev.answered.replied (hans.of_eq (Dev.port_seen _ _) rfl), rfl⟩

/-- No transaction of a part whose command is admitted is that command's. -/
theorem admits_txns (ha : s.dev.admits src c) : ∀ t ∈ s.dev.txns, t.ofCmd src = false := fun t ht => (ha.1.fresh.2.2 t ht).1

theorem payZero_one {d : Dev} {lo : Nat} (h : d.pay8 src lo = 0#8) : d.payZero src lo (lo + 1) = true := by
  simp [Dev.payZero, h]

/-! ### SCR_SET (R364) -/

/-- The bents that SCR_SET names. -/
def scrNamed (d : Dev) (b : Nat) : List Nat :=
  if b = 255 then (List.range 128).filter (fun n => !d.wordAsleep (0x08200000 + 0x1000 * n)) else [b]

theorem scrNamed_nodup (d : Dev) (b : Nat) : (scrNamed d b).Nodup := by
  unfold scrNamed
  split
  · exact List.nodup_range.filter _
  · simp

theorem mem_scrNamed {d : Dev} {b k : Nat} (h : (b < 128 ∧ d.wordAsleep (0x08200000 + 0x1000 * b) = false) ∨ b = 255) :
    k ∈ scrNamed d b ↔ (k = b ∧ b < 128) ∨ (b = 255 ∧ k < 128 ∧ d.wordAsleep (0x08200000 + 0x1000 * k) = false) := by
  unfold scrNamed
  split
  · next hb => simp [hb]
  · next hb =>
    have hlt : b < 128 := (h.resolve_right hb).1
    simp [hb, hlt]

theorem bentAccess_word {n : Nat} (h : n < 128) : (bentAccess n).addr.toNat = 0x08200000 + 0x1000 * n := by
  simp [bentAccess, ksAccess, newTxn]
  omega

theorem scrSet_sets (ha : s.dev.admits src { op := 0x0601, len := exact 12, modes := modesCSRD, changes := true }) (hi : s.dev.deckIdle)
    (hb : ((s.dev.pay8 src 0).toNat < 128 ∧ s.dev.wordAsleep (0x08200000 + 0x1000 * (s.dev.pay8 src 0).toNat) = false) ∨ (s.dev.pay8 src 0).toNat = 255)
    (h1 : (s.dev.pay8 src 1).toNat < 64) (h2 : (s.dev.pay8 src 1).getLsbD 0 = true → s.dev.pay8 src 2 ≠ 0#8)
    (h5 : (s.dev.pay8 src 1).getLsbD 3 = true → (s.dev.pay8 src 5).toNat < 2)
    (h6 : (s.dev.pay8 src 1).getLsbD 4 = true → (s.dev.pay8 src 6).toNat ≤ 100)
    (h7 : (s.dev.pay8 src 1).getLsbD 5 = true → (s.dev.pay8 src 7).toNat ≤ 100) (hz : s.dev.payZero src 8 12 = true) :
    ∃ t, exec (.scrSet src) s = .next t ∧ Keeps s t ∧ Replied s t src stDone 0#16 []
      ∧ ∀ k, let named := (k = (s.dev.pay8 src 0).toNat ∧ (s.dev.pay8 src 0).toNat < 128)
            ∨ ((s.dev.pay8 src 0).toNat = 255 ∧ k < 128 ∧ s.dev.wordAsleep (0x08200000 + 0x1000 * k) = false)
        (named → (t.dev.bent k).scr = s.dev.scrFields src (s.dev.bent k).scr) ∧ (¬ named → t.dev.bent k = s.dev.bent k) := by
  obtain ⟨hprog, hcalm, -⟩ := ha.fresh
  generalize hn : (s.dev.pay8 src 0).toNat = b at *
  obtain ⟨e, he, hdone⟩ := ksDone_idle (src := src) (ts := (scrNamed s.dev b).map bentAccess) (go := fun late e =>
      ((scrNamed s.dev b).foldl (fun x n => x.onScr n (s.dev.scrFields src)) e |>.reply src (doneOr late).1 (doneOr late).2 [], [])) hprog hi (by
    intro t ht
    obtain ⟨n, hn, rfl⟩ := List.mem_map.mp ht
    have hmem := (mem_scrNamed hb).mp hn
    have hlt : n < 128 ∧ s.dev.wordAsleep (0x08200000 + 0x1000 * n) = false := by
      obtain ⟨rfl, hlt⟩ | ⟨-, hlt⟩ := hmem
      · exact hb.resolve_right (by omega)
      · exact hlt
    rw [bentAccess_word hlt.1]
    exact ⟨ksAccess_plain _, hlt.2⟩)
  obtain ⟨bs, hfold, hbent⟩ := onScr_foldl (s.dev.scrFields src) (scrNamed s.dev b) (scrNamed_nodup _ _) e
  have hbody : s.dev.scrSetCmd src = (({ e with bents := bs } : Dev).reply src stDone 0#16 [], []) := by
    have hset0 : ((s.dev.pay8 src 1).getLsbD 0 && (s.dev.pay8 src 2).toNat == 0) = false := by
      rw [Bool.and_eq_false_iff, or_iff_not_imp_left]
      intro h
      simpa [BitVec.toNat_eq] using h2 (by simpa using h)
    have hset : ∀ i (p : Prop) [Decidable p], ((s.dev.pay8 src 1).getLsbD i = true → ¬ p) → ((s.dev.pay8 src 1).getLsbD i && decide p) = false := by
      intro i p _ h
      rw [Bool.and_eq_false_iff, or_iff_not_imp_left]
      exact fun hi => decide_eq_false (h (by simpa using hi))
    have hshift : s.dev.pay8 src 1 >>> 6 = 0#8 := BitVec.eq_of_toNat_eq (by simp [Nat.shiftRight_eq_div_pow]; omega)
    have hrange : (decide (127 < b) && b != 255) = false := by
      obtain ⟨h, -⟩ | rfl := hb
      · simp; omega
      · rfl
    unfold Dev.scrSetCmd
    rw [hn]
    dsimp only
    rw [firstBad_none (by
      simp only [List.forall_mem_cons]
      refine ⟨hrange, by simp [hshift], hset0, hset 3 _ (fun h => ?_), hset 4 _ (fun h => ?_), hset 5 _ (fun h => ?_), by simp [hz], by simp⟩
      · have := h5 h; simp; omega
      · have := h6 h; simp; omega
      · have := h7 h; simp; omega)]
    refine Eq.trans hdone ?_
    rw [hfold]
    rfl
  obtain ⟨t, ht, hk, hr, hdev⟩ := replied_row (i := .scrSet src) rfl ha hbody (.inr rfl) (show e.cores = _ from he.cores) (he.jobs.trans hcalm)
    (Eq.trans (by cases src with | port p => cases p <;> rfl | fwd u p => rfl) (he.request src)) (by
      show ∀ t ∈ e.txns, _
      rw [he.txns]
      exact admits_txns ha)
  refine ⟨t, ht, hk, hr, fun k => ?_⟩
  have hbk : t.dev.bent k = if k ∈ scrNamed s.dev b then { s.dev.bent k with scr := s.dev.scrFields src (s.dev.bent k).scr } else s.dev.bent k := by
    rw [hdev, Dev.bent_seen]
    refine ((reply_talks _ _ _ _).speaks.bent k).trans ((hbent k).trans ?_)
    rw [he.bent]
  refine ⟨fun hnamed => ?_, fun hnamed => ?_⟩
  · rw [hbk, if_pos ((mem_scrNamed hb).mpr hnamed)]
  · rw [hbk, if_neg (fun h => hnamed ((mem_scrNamed hb).mp h))]

/-! ### FLT_ACK and FLT_SEVERITY (R366, R439, R444) -/

/-- The sources that FLT_ACK names. -/
def ackNamed (d : Dev) (src : CmdSrc) : List Nat := (List.range (d.pay16 src 2).toNat).map (fun i => (d.pay16 src (4 + 2 * i)).toNat)

/-- What R351 states of FLT_ACK. -/
def fltAckSpec : CmdSpec := { op := 0x0702, len := fltAckLen, modes := modesAll, changes := true, excepted := true }

/-- FLT_ACK whose payload is good clears what its mode says. -/
theorem fltAckCmd_clears {d : Dev} (h0 : (d.pay8 src 0).toNat ≤ 1) (h1 : d.pay8 src 1 = 0#8)
    (hns : ∀ i, i < (d.pay16 src 2).toNat → (d.pay16 src (4 + 2 * i)).toNat ≤ 767) :
    d.fltAckCmd src = ((d.clearLatches (if (d.pay8 src 0).toNat = 1 then d.flt.srcs.map (·.1) else ackNamed d src)).reply src stDone 0#16 [], []) := by
  unfold Dev.fltAckCmd
  extract_lets mode ns
  have hlow : ∀ n ∈ ns, n ≤ 767 := by
    intro n hn
    obtain ⟨i, hi, rfl⟩ := List.mem_map.mp hn
    exact hns i (List.mem_range.mp hi)
  rw [firstBad_none (by
    intro e he
    obtain he | he := List.mem_append.mp he
    · simp only [List.mem_cons, List.not_mem_nil, or_false] at he
      obtain rfl | rfl := he
      · simp only [decide_eq_false_iff_not]
        omega
      · simp [h1]
    · obtain ⟨x, hx, rfl⟩ := List.mem_map.mp he
      have := hlow x.2 (List.of_mem_zip hx).2
      simp only [decide_eq_false_iff_not]
      omega)]
  show ((if mode = 1 then d.clearAllLatches else d.clearLatches ns).reply src stDone 0#16 [], ([] : List MemOp)) = _
  split
  · rfl
  · rfl

/-- FLT_ACK clears the latches of some sources, leaves the others, and answers. -/
theorem fltAck_row (ha : s.dev.admits src fltAckSpec) {ns : List Nat}
    (hbody : s.dev.fltAckCmd src = ((s.dev.clearLatches ns).reply src stDone 0#16 [], [])) :
    ∃ t, exec (.fltAck src) s = .next t ∧ Keeps s t ∧ Replied s t src stDone 0#16 [] ∧ t.dev.flt = (s.dev.clearLatches ns).flt := by
  obtain ⟨-, hcalm, -⟩ := ha.fresh
  obtain ⟨hcores, hc, hreq, horigin, -⟩ := clearLatches_clears s.dev ns
  obtain ⟨t, ht, hk, hr, hdev⟩ := replied_row (i := .fltAck src) rfl ha hbody (.inr rfl) hcores (hc hcalm) (hreq hcalm src) (by
    have h := horigin (· ≠ .keystone src) nofun (fun t ht ho => by
      have := admits_txns ha t ht
      simp [Txn.ofCmd, ho] at this)
    exact fun t ht => by simpa [Txn.ofCmd] using h t ht)
  exact ⟨t, ht, hk, hr, (congrArg Dev.flt hdev).trans (reply_talks _ _ _ _).speaks.flt⟩

theorem fltAck_clears (ha : s.dev.admits src fltAckSpec) (h1 : s.dev.pay8 src 1 = 0#8)
    (hns : ∀ i, i < (s.dev.pay16 src 2).toNat → (s.dev.pay16 src (4 + 2 * i)).toNat ≤ 767) :
    (s.dev.pay8 src 0 = 1#8 → ∃ t, exec (.fltAck src) s = .next t ∧ Keeps s t ∧ (∀ k, (t.dev.flt.src k).latched = false)
        ∧ Replied s t src stDone 0#16 [])
    ∧ (s.dev.pay8 src 0 = 0#8 → ∃ t, exec (.fltAck src) s = .next t ∧ Keeps s t ∧ Replied s t src stDone 0#16 []
        ∧ ∀ k, (t.dev.flt.src k).latched = ((s.dev.flt.src k).latched
          && !((List.range (s.dev.pay16 src 2).toNat).any (fun i => (s.dev.pay16 src (4 + 2 * i)).toNat == k)))) := by
  refine ⟨fun h0 => ?_, fun h0 => ?_⟩
  · have hbody := fltAckCmd_clears (by rw [h0]; decide) h1 hns
    rw [h0, if_pos (by decide)] at hbody
    obtain ⟨t, ht, hk, hr, hf⟩ := fltAck_row ha hbody
    refine ⟨t, ht, hk, fun k => ?_, hr⟩
    rw [hf]
    exact clearAllLatches_clears s.dev k
  · have hbody := fltAckCmd_clears (by rw [h0]; decide) h1 hns
    rw [h0, if_neg (by decide)] at hbody
    obtain ⟨t, ht, hk, hr, hf⟩ := fltAck_row ha hbody
    obtain ⟨-, -, -, -, hin, hout⟩ := clearLatches_clears s.dev (ackNamed s.dev src)
    refine ⟨t, ht, hk, hr, fun k => ?_⟩
    have hany : (List.range (s.dev.pay16 src 2).toNat).any (fun i => (s.dev.pay16 src (4 + 2 * i)).toNat == k) = decide (k ∈ ackNamed s.dev src) := by
      rw [Bool.eq_iff_iff]
      simp [ackNamed]
    rw [hf, hany]
    by_cases hk : k ∈ ackNamed s.dev src
    · rw [hin k hk]
      simp [hk]
    · rw [hout k hk]
      simp [hk]

theorem fltSeverity_sets (ha : s.dev.admits src { op := 0x0703, len := exact 4, modes := [mCommission, mStandby], changes := true, excepted := true })
    (hn : (s.dev.pay16 src 0).toNat < 768) (h2 : (s.dev.pay8 src 2).toNat ≤ 4) (h3 : s.dev.pay8 src 3 = 0#8) :
    ∃ t, exec (.fltSeverity src) s = .next t ∧ Keeps s t
      ∧ t.dev.flt.sevOf (s.dev.pay16 src 0).toNat = (if fltNamed (s.dev.pay16 src 0).toNat then (s.dev.pay8 src 2).setWidth 3 else 0#3)
      ∧ (t.dev.flt.src (s.dev.pay16 src 0).toNat).latched = (s.dev.flt.src (s.dev.pay16 src 0).toNat).latched
      ∧ (∀ k, k ≠ (s.dev.pay16 src 0).toNat → t.dev.flt.src k = s.dev.flt.src k) ∧ Replied s t src stDone 0#16 [] := by
  obtain ⟨-, hcalm, -⟩ := ha.fresh
  generalize hnum : (s.dev.pay16 src 0).toNat = n at *
  generalize hv : s.dev.pay8 src 2 = v at *
  let f : Collector := if fltNamed n then s.dev.flt.onSrc n (fun x => { x with sev := some (v.setWidth 3) }) else s.dev.flt
  have hbody : s.dev.fltSevCmd src = (({ s.dev with flt := f } : Dev).reply src stDone 0#16 [], []) := by
    unfold Dev.fltSevCmd
    rw [hnum, hv]
    dsimp only
    rw [firstBad_none (by
      simp only [List.forall_mem_cons]
      refine ⟨?_, ?_, by simp [h3], by simp⟩ <;> simp only [decide_eq_false_iff_not] <;> omega)]
    dsimp only
    unfold f
    split <;> rfl
  obtain ⟨t, ht, hk, hr, hdev⟩ := replied_row (i := .fltSeverity src) rfl ha hbody (.inr rfl) rfl hcalm
    (by cases src with | port p => cases p <;> rfl | fwd u p => rfl) (admits_txns ha)
  have hf : t.dev.flt = f := (congrArg Dev.flt hdev).trans (reply_talks _ _ _ _).speaks.flt
  have hsrc : ∀ k, f.src k = if fltNamed n ∧ k = n then { s.dev.flt.src n with sev := some (v.setWidth 3) } else s.dev.flt.src k := by
    intro k
    unfold f
    by_cases hnm : fltNamed n = true
    · simp only [hnm, if_true, true_and]
      exact Collector.src_onSrc _ _ _ _
    · simp [hnm]
  refine ⟨t, ht, hk, ?_, ?_, fun k hk => ?_, hr⟩
  · rw [hf]
    unfold Collector.sevOf
    split
    · next h => rw [hsrc, if_pos ⟨h, rfl⟩]; rfl
    · rfl
  · rw [hf, hsrc]
    split <;> rfl
  · rw [hf, hsrc, if_neg (fun h => hk h.2)]

/-! ### PLB_SELECT (R368) -/

theorem plbSelect_selects (ha : s.dev.admits src { op := 0x0A01, len := exact 8, modes := [mCommission, mStandby, mRun, mDegraded, mTest], changes := true })
    (h0 : (s.dev.pay8 src 0).toNat < 2) (h1 : (s.dev.pay8 src 1).toNat < 4) (h2 : (s.dev.pay8 src 2).toNat ≤ 17) (h3 : s.dev.pay8 src 3 = 0#8)
    (h4 : s.dev.signalNamed (s.dev.pay16 src 4).toNat = true) (hz : s.dev.payZero src 6 8 = true)
    (hsb : (s.dev.pay8 src 0).toNat = 1 → 2 ≤ (s.dev.pay8 src 1).toNat → s.dev.pay8 src 2 ≠ 0#8 → s.dev.chain.dn.sbEn = false) :
    let k := 4 * (s.dev.pay8 src 0).toNat + (s.dev.pay8 src 1).toNat
    ∃ t, exec (.plbSelect src) s = .next t ∧ Keeps s t ∧ t.dev.bents = s.dev.bents ∧ Replied s t src stDone 0#16 []
      ∧ (Tab.find {} t.dev.plb k : PlbPin) =
        PlbPin.select (Tab.find {} s.dev.plb k) (s.dev.pay8 src 2).toNat (BitVec.ofNat 12 (s.dev.pay16 src 4).toNat) s.dev.clk := by
  intro k
  obtain ⟨-, hcalm, -⟩ := ha.fresh
  let q := PlbPin.select (Tab.find {} s.dev.plb k) (s.dev.pay8 src 2).toNat (BitVec.ofNat 12 (s.dev.pay16 src 4).toNat) s.dev.clk
  have hbody : s.dev.plbSelectCmd src = (({ s.dev with plb := Tab.put s.dev.plb k q } : Dev).reply src stDone 0#16 [], []) := by
    unfold Dev.plbSelectCmd
    extract_lets mux pin en sig d1
    rw [firstBad_none (by
      simp only [List.forall_mem_cons]
      refine ⟨?_, ?_, ?_, by simp [h3], by simp [sig, h4], by simp [hz], by simp⟩ <;> simp only [decide_eq_false_iff_not] <;> omega)]
    dsimp only
    rw [if_neg]
    · rfl
    · rintro ⟨hm, hp, he, hs⟩
      rw [hsb hm hp (fun h => he (by simp [en, h]))] at hs
      cases hs
  obtain ⟨t, ht, hk, hr, hdev⟩ := replied_row (i := .plbSelect src) rfl ha hbody (.inr rfl) rfl hcalm
    (by cases src with | port p => cases p <;> rfl | fwd u p => rfl) (admits_txns ha)
  obtain ⟨⟨a, b', up, dn, fw, hfr⟩, -⟩ := reply_talks (d := { s.dev with plb := Tab.put s.dev.plb k q }) src stDone 0#16 []
  refine ⟨t, ht, hk, ?_, hr, ?_⟩
  · rw [hdev]
    exact (reply_talks (d := { s.dev with plb := Tab.put s.dev.plb k q }) src stDone 0#16 []).speaks.bents
  · rw [hdev]
    refine plb_seen_chosen ?_ (choose_sameAs _ _ _ _ _ _) (fun p => follow_told p ?_)
    · rw [hfr]; rfl
    · rw [hfr]
      exact ⟨_, _, _, _, _, _, _, rfl⟩

/-! ### PWR_STATE (R365, R428) -/

/-- What R351 states of PWR_STATE. -/
def pwrStateSpec : CmdSpec := { op := 0x0603, len := exact 4, modes := [mStandby, mRun, mDegraded], changes := true }

theorem pwrState_good {d : Dev} (hb : (d.pay8 src 0).toNat ∈ [0, 2, 3, 4, 255]) (h1 : d.pay8 src 1 = 0#8)
    (hc : d.pay16 src 2 = 0#16 ∨ (40 ≤ (d.pay16 src 2).toNat ∧ (d.pay16 src 2).toNat ≤ 210)) :
    firstBad [(0, !([0, 2, 3, 4, 255].contains (d.pay8 src 0).toNat)), (1, !d.payZero src 1 2),
      (2, (d.pay16 src 2).toNat != 0 && (decide ((d.pay16 src 2).toNat < 40) || decide (210 < (d.pay16 src 2).toNat)))] = none := by
  refine firstBad_none ?_
  simp only [List.forall_mem_cons]
  refine ⟨by rw [List.contains_iff_mem.mpr hb]; rfl, by simp [payZero_one h1], ?_, by simp⟩
  obtain h | ⟨h, h'⟩ := hc
  · simp [h]
  · simp
    omega

/-- The ceiling that a payload names. -/
def ceilOf (d : Dev) (src : CmdSrc) : Option Byte := if d.pay16 src 2 = 0#16 then none else some ((d.pay16 src 2).setWidth 8)

/-- The negotiation that PWR_STATE begins (R428). -/
def sleepAsked (d : Dev) (src : CmdSrc) : Nego :=
  { target := BitVec.ofNat 3 (d.pay8 src 0).toNat, asked := 0, stopped := [0], src := some src, isMode := false, ceil := ceilOf d src }

theorem pwrState_sets (ha : s.dev.admits src pwrStateSpec) (h1 : s.dev.pay8 src 1 = 0#8)
    (hc : s.dev.pay16 src 2 = 0#16 ∨ (40 ≤ (s.dev.pay16 src 2).toNat ∧ (s.dev.pay16 src 2).toNat ≤ 210)) :
    (((s.dev.pay8 src 0).toNat = 0 ∨ (s.dev.pay8 src 0).toNat = 255) → ∃ t, exec (.pwrState src) s = .next t ∧ Keeps s t
        ∧ t.dev.pwr = { s.dev.pwr with ceil := (ceilOf s.dev src).getD s.dev.pwr.ceil } ∧ Replied s t src stDone 0#16 [])
    ∧ (((s.dev.pay8 src 0).toNat = 2 ∨ (s.dev.pay8 src 0).toNat = 3 ∨ (s.dev.pay8 src 0).toNat = 4) → ∃ t, exec (.pwrState src) s = .next t ∧ Keeps s t
        ∧ t.dev.pwr = { s.dev.pwr with nego := some (sleepAsked s.dev src) }
        ∧ (t.dev.bent 0).asleep = true) := by
  obtain ⟨-, hcalm, hnego⟩ := ha.fresh
  have hceil : (if (s.dev.pay16 src 2).toNat = 0 then none else some (BitVec.ofNat 8 (s.dev.pay16 src 2).toNat)) = ceilOf s.dev src := by
    unfold ceilOf
    simp only [BitVec.toNat_eq]
    rfl
  refine ⟨fun hb => ?_, fun hb => ?_⟩
  · have hbody : s.dev.pwrState src = ((s.dev.onPwr (fun p => { p with ceil := (ceilOf s.dev src).getD p.ceil })).reply src stDone 0#16 [], []) := by
      unfold Dev.pwrState
      dsimp only
      rw [pwrState_good (by obtain h | h := hb <;> simp [h]) h1 hc]
      dsimp only
      rw [if_pos hb, hceil]
    obtain ⟨t, ht, hk, hr, hdev⟩ := replied_row (i := .pwrState src) rfl ha hbody (.inr rfl) rfl hcalm
      (by cases src with | port p => cases p <;> rfl | fwd u p => rfl) (admits_txns ha)
    exact ⟨t, ht, hk, (congrArg Dev.pwr hdev).trans (reply_talks _ _ _ _).speaks.pwr, hr⟩
  · obtain ⟨hpwr, hcores, hjobs, htx, hasleep⟩ := startNego_begins s.dev (BitVec.ofNat 3 (s.dev.pay8 src 0).toNat) (some src) false
    have hbody : s.dev.pwrState src = ((s.dev.startNego (BitVec.ofNat 3 (s.dev.pay8 src 0).toNat) (some src) false).onPwr (fun p =>
        { p with nego := p.nego.map (fun n => { n with ceil := ceilOf s.dev src }) }), []) := by
      unfold Dev.pwrState
      dsimp only
      rw [pwrState_good (by obtain h | h | h := hb <;> simp [h]) h1 hc]
      dsimp only
      rw [if_neg (by omega), hceil]
      unfold Dev.refuseSleep
      rw [hnego]
    generalize s.dev.startNego (BitVec.ofNat 3 (s.dev.pay8 src 0).toNat) (some src) false = z at hpwr hcores hjobs htx hasleep hbody
    generalize he : z.onPwr (fun p => { p with nego := p.nego.map (fun n => { n with ceil := ceilOf s.dev src }) }) = e at hbody
    have hepwr : e.pwr = { s.dev.pwr with nego := some (sleepAsked s.dev src) } := by
      rw [← he]
      unfold Dev.onPwr
      rw [hpwr]
      rfl
    have hecalm : (e.taken src).calm := by rw [← he]; exact hjobs.trans hcalm
    have hecores : e.cores = s.dev.cores := by rw [← he]; exact hcores
    have hetx : e.txns = s.dev.txns := by rw [← he]; exact htx
    have heasleep : (e.bent 0).asleep = true := by rw [← he]; exact hasleep
    have htake := ha.takeCmd (body := fun d => d.pwrState src) hbody (by cases src <;> simp [Dev.waiting, hepwr, sleepAsked]) (hetx ▸ admits_txns ha)
    have hrow : exec (.pwrState src) s = s.commit (settleEff s.mem (s.dev.takeCmd src pwrStateSpec (fun d => d.pwrState src))) := rfl
    rw [htake, settleEff_calm _ hecalm, State.commit_eq] at hrow
    refine ⟨_, hrow, keeps_of_cores hecores, hepwr, ?_⟩
    rw [Dev.bent_seen]
    exact heasleep

/-- Settles O41, command by command. -/
theorem settingsAreWritten : Obligations.SettingsAreWritten := by
  unfold Obligations.SettingsAreWritten
  exact fun s src => ⟨scrSet_sets, fltAck_clears, fltSeverity_sets, plbSelect_selects, pwrState_sets⟩

end Sys2Proof.Proofs
end

section
/-! SUPPORT. The steps of a core reset and of a bent reset (R408, R409). -/
namespace Sys2Proof.Machine

variable {d e : Dev} {c b : Nat}

/-! ### Step 1: cores stop issuing (R408) -/

/-- From d to e cores were stopped: the stores that they have buffered and their data modes stand, and the time; no command came to wait. -/
structure Dev.Halts (d e : Dev) : Prop where
  stores : ∀ n, (e.core n).stores = (d.core n).stores
  compact : ∀ n, (e.core n).psr.compact = (d.core n).psr.compact
  clk : e.clk = d.clk
  calm : e.calm

theorem Dev.Halts.trans {f : Dev} (h : d.Halts e) (g : e.Halts f) : d.Halts f :=
  ⟨fun n => (g.stores n).trans (h.stores n), fun n => (g.compact n).trans (h.compact n), g.clk.trans h.clk, g.calm⟩

theorem Dev.LinesOnly.halts (h : d.LinesOnly e) (hk : e.clk = d.clk) (hc : d.calm) : d.Halts e :=
  ⟨fun n => (congrArg Core.stores (h.core n) :), fun n => (congrArg (fun k : Core => k.psr.compact) (h.core n) :), hk, h.calm hc⟩

/-- A change of one core that keeps its stores and its data mode. -/
theorem onCore_halts {f : Core → Core} (hs : ∀ k, (f k).stores = k.stores) (hp : ∀ k, (f k).psr = k.psr) (hc : d.calm) : d.Halts (d.onCore c f) := by
  have hcore : ∀ n, (d.onCore c f).core n = if n = c then f (d.core c) else d.core n := fun n => Tab.find_put _ _ _ _ _
  refine ⟨fun n => ?_, fun n => ?_, rfl, hc⟩ <;> rw [hcore] <;> split
  · next h => rw [hs, h]
  · rfl
  · next h => rw [hp, h]
  · rfl

theorem stopCore_keepsStores (hc : d.calm) : d.Halts (d.stopCore c) ∧ ((d.stopCore c).core c).status = .stopped := by
  have hclk : (d.stopCore c).clk = d.clk := stopCore_collects.clk
  unfold Dev.stopCore
  extract_lets b i d1 d2
  have hdis : d.Halts (d.disarm b i stFaultActive (BitVec.ofNat 16 b)) :=
    (disarm_linesOnly b i _ _ hc).halts (disarm_collects i _ _).clk hc
  have h1 : d.Halts d1 := hdis.trans (onCore_halts (fun _ => rfl) (fun _ => rfl) hdis.calm)
  have hst : (d1.core c).status = .stopped := by
    unfold d1
    rw [Dev.core_onCore]
  have hlines : d1.LinesOnly (if d.holdsSafety c then d2.raise 752 b (BitVec.ofNat 16 i) else d2) := by
    refine (dropOffers_linesOnly d1 b i).trans ?_
    split
    · exact raise_linesOnly d2 _ _ _
    · exact .refl d2
  exact ⟨h1.trans (hlines.halts (hclk.trans h1.clk.symm) h1.calm), (congrArg Core.status (hlines.core c) :).trans hst⟩

/-- The core that a reset begins with is stopped (R408). -/
theorem resetBegin_halts (hc : d.calm) : d.Halts (d.resetBegin c) ∧ ((d.resetBegin c).core c).status = .stopped := by
  unfold Dev.resetBegin
  have hstop : d.Halts (if (d.core c).status == .stopped then d else d.stopCore c)
      ∧ ((if (d.core c).status == .stopped then d else d.stopCore c).core c).status = .stopped := by
    split
    · next h => exact ⟨⟨fun _ => rfl, fun _ => rfl, rfl, hc⟩, by simpa using h⟩
    · exact stopCore_keepsStores hc
  generalize (if (d.core c).status == .stopped then d else d.stopCore c) = x at hstop ⊢
  refine ⟨hstop.1.trans (onCore_halts (fun _ => rfl) (fun _ => rfl) hstop.1.calm), ?_⟩
  rw [Dev.core_onCore]
  exact hstop.2

theorem resetBegin_foldl (cs : List Nat) (hc : d.calm) : d.Halts (cs.foldl (fun x c => x.resetBegin c) d) := by
  induction cs generalizing d with
  | nil => exact ⟨fun _ => rfl, fun _ => rfl, rfl, hc⟩
  | cons c cs ih => exact (resetBegin_halts hc).1.trans (ih (resetBegin_halts hc).1.calm)

/-! ### Steps 2 to 4: reset values (R408) -/

/-- A core as its reset leaves it. -/
def Core.afterReset (k : Core) : Core :=
  { status := .stopped, psr := { compact := k.psr.compact, t := k.psr.t, paced := k.psr.paced }, winMask := k.winMask,
    cmptBase := k.cmptBase, issued := k.issued, loads := k.loads }

/-- The reset of a core gives it its reset values, and changes no other core and no waiting command. -/
theorem resetEnd_resets (d : Dev) (c : Nat) : (d.resetEnd c).core c = (d.core c).afterReset ∧ (∀ n, n ≠ c → (d.resetEnd c).core n = d.core n)
    ∧ (d.resetEnd c).ks = d.ks := by
  have hstack := clearStack_stirred (d := d.dropStores c) (b := bentOf c) (slotOf c)
  have hdrop : ∀ n, (d.dropStores c).core n = if n = c then { d.core c with stores := [] } else d.core n := fun n => Tab.find_put _ _ _ _ _
  have hcore : ∀ n, (((d.dropStores c).clearStack (bentOf c) (slotOf c)).clearBad (bentOf c) (slotOf c)).core n = (d.dropStores c).core n :=
    fun n => core_congr hstack.cores n
  unfold Dev.resetEnd
  refine ⟨?_, fun n hn => ?_, hstack.ks⟩
  · rw [Dev.core_onCore, hcore, hdrop, if_pos rfl]
    rfl
  · rw [Dev.core_onCore_other _ _ hn, hcore, hdrop, if_neg hn]

/-- A core as a reset leaves it: STOPPED, without registers. -/
def Core.isReset (k : Core) : Prop := k.status = .stopped ∧ k.regs = []

/-- Some cores reset one after another. -/
theorem resetEnd_foldl (cs : List Nat) (d : Dev) : (∀ c ∈ cs, ((cs.foldl (fun x c => x.resetEnd c) d).core c).isReset)
    ∧ (∀ n, (d.core n).isReset → ((cs.foldl (fun x c => x.resetEnd c) d).core n).isReset) ∧ (cs.foldl (fun x c => x.resetEnd c) d).ks = d.ks := by
  induction cs generalizing d with
  | nil => exact ⟨fun c hc => absurd hc List.not_mem_nil, fun _ => id, rfl⟩
  | cons c cs ih =>
    obtain ⟨hc, ho, hk⟩ := resetEnd_resets d c
    obtain ⟨iin, ikeep, ik⟩ := ih (d.resetEnd c)
    have hreset : ((d.resetEnd c).core c).isReset := by rw [hc]; exact ⟨rfl, rfl⟩
    refine ⟨fun n hn => ?_, fun n hn => ikeep n ?_, ik.trans hk⟩
    · obtain rfl | hn := List.mem_cons.mp hn
      · exact ikeep _ hreset
      · exact iin n hn
    · by_cases hnc : n = c
      · rw [hnc]; exact hreset
      · rw [ho n hnc]; exact hn

/-! ### The bent's runtime state (R409) -/

theorem afterBentReset_idle (u : Biu) (n : Nat) : (u.afterBentReset.source n).st = .idle := by
  unfold Biu.source Biu.afterBentReset
  dsimp only
  induction u.src with
  | nil => rfl
  | cons e t ih =>
    simp only [List.map_cons, Tab.find]
    split
    · rfl
    · exact ih

theorem clearBent_clears (d : Dev) (b : Nat) : (d.clearBent b).cores = d.cores ∧ (d.clearBent b).ks = d.ks ∧ (d.clearBent b).mode = d.mode
    ∧ ∀ n, ((d.clearBent b).source b n).st = .idle := by
  have hoff : ∀ (ls : List Loop) (x : Dev), (ls.foldl (fun x l => x.loopOff l) x).cores = x.cores ∧ (ls.foldl (fun x l => x.loopOff l) x).ks = x.ks
      ∧ (ls.foldl (fun x l => x.loopOff l) x).mode = x.mode := by
    intro ls
    induction ls with
    | nil => exact fun _ => ⟨rfl, rfl, rfl⟩
    | cons l ls ih => exact fun x => ih (x.loopOff l)
  obtain ⟨hc, hk, hm⟩ := hoff (d.loopsIn b) d
  refine ⟨hc, hk, hm, fun n => ?_⟩
  unfold Dev.clearBent Dev.source
  rw [Dev.bent_onBent]
  exact afterBentReset_idle _ n

/-! ### A reset that ends in its own command (R408 to R410) -/

theorem resetTry_ready {r : ResetRun} (h : d.mode.rst = some r) (hr : d.resetReady r = true) :
    d.resetTry = (let y := (r.cores.foldl (fun x c => x.resetEnd c) d).onMode (fun m => { m with rst := none })
      if r.whole then y.clearBent r.num else y) := by
  unfold Dev.resetTry
  rw [h]
  exact if_pos hr

theorem resetTry_unready {r : ResetRun} (h : d.mode.rst = some r) (hr : d.resetReady r = false) : d.resetTry = d := by
  unfold Dev.resetTry
  rw [h]
  exact if_neg (by simp [hr])

/-- A reset whose cores have no store to wait for. -/
theorem resetStart_ends {r : ResetRun} (hc : d.calm) (h : ∀ c ∈ r.cores, (d.core c).stores = []) :
    d.resetStart r = (let x := (r.cores.foldl (fun x c => x.resetBegin c) d).onMode (fun m => { m with rst := some r })
      let y := (r.cores.foldl (fun x c => x.resetEnd c) x).onMode (fun m => { m with rst := none })
      if r.whole then y.clearBent r.num else y) := by
  have hhalts := resetBegin_foldl r.cores hc
  unfold Dev.resetStart
  generalize r.cores.foldl (fun x c => x.resetBegin c) d = x at hhalts ⊢
  have hready : (x.onMode (fun m => { m with rst := some r })).resetReady r = true := by
    unfold Dev.resetReady
    rw [Bool.or_eq_true]
    refine .inl (List.all_eq_true.mpr fun c hcs => ?_)
    rw [List.isEmpty_iff]
    exact (hhalts.stores c).trans (h c hcs)
  exact resetTry_ready rfl hready

/-- One that has stores to wait for goes on. -/
theorem resetStart_waits {r : ResetRun} (hc : d.calm) (hr : r.since = d.clk) {c : Nat} (hcs : c ∈ r.cores) (h : (d.core c).stores ≠ []) :
    d.resetStart r = (r.cores.foldl (fun x c => x.resetBegin c) d).onMode (fun m => { m with rst := some r }) := by
  have hhalts := resetBegin_foldl r.cores hc
  unfold Dev.resetStart
  generalize r.cores.foldl (fun x c => x.resetBegin c) d = x at hhalts ⊢
  refine resetTry_unready rfl (Bool.eq_false_iff.mpr fun hready => ?_)
  unfold Dev.resetReady at hready
  obtain hall | hlate := Bool.or_eq_true_iff.mp hready
  · have hc' := List.all_eq_true.mp hall c hcs
    rw [List.isEmpty_iff] at hc'
    exact h ((hhalts.stores c).symm.trans hc')
  · have hlate' : r.since + 8000 ≤ x.clk := of_decide_eq_true hlate
    rw [hr, hhalts.clk] at hlate'
    omega

end Sys2Proof.Machine
end

section
/-! PROOFS. The statement on core resets and bent resets. -/
namespace Sys2Proof.Proofs
open Sys2Proof.Machine

variable {s : State} {c : CoreId} {b : BentId}

/-- The run of a core reset, and that of a bent reset, that begin now. -/
def coreRun (s : State) (c : CoreId) : ResetRun := { whole := false, num := c.toNat, since := s.dev.clk }
def bentRun (s : State) (b : BentId) : ResetRun := { whole := true, num := b.toNat, since := s.dev.clk }

theorem coreReset_row (hrst : s.dev.mode.rst = none) :
    exec (.coreReset ksReq c) s = s.commit (settleEff s.mem (s.dev.resetStart (coreRun s c), [])) := by
  have h : s.dev.rstctl ksReq 1 c.toNat 0 = s.dev.resetStart (coreRun s c) := by
    unfold Dev.rstctl
    rw [hrst]
    rfl
  exact congrArg (fun e => s.commit (settleEff s.mem (e, []))) h

theorem bentReset_row (hrst : s.dev.mode.rst = none) (hm : s.dev.mode.mode ≠ mBoot) :
    exec (.bentReset ksReq b) s = s.commit (settleEff s.mem (s.dev.resetStart (bentRun s b), [])) := by
  have h : s.dev.rstctl ksReq 2 0 b.toNat = s.dev.resetStart (bentRun s b) := by
    unfold Dev.rstctl
    rw [hrst, if_neg (by simp), if_neg (by simp), if_pos (by simp [hm])]
    rfl
  exact congrArg (fun e => s.commit (settleEff s.mem (e, []))) h

/-- A core reset that has no store to wait for. -/
theorem coreReset_ends (hc : s.dev.calm) (hrst : s.dev.mode.rst = none) (hst : (s.dev.core c.toNat).stores = []) :
    ∃ t, exec (.coreReset ksReq c) s = .next t ∧ t.mem = s.mem ∧ t.pending = s.pending ∧ t.dev.mode.rst = none
      ∧ let k := t.dev.core c.toNat
        k.status = .stopped ∧ k.regs = [] ∧ k.frames = [] ∧ k.pc = 0#32 ∧ k.trap.valid = false ∧ k.psr.curPri = 0xFF#8 ∧ k.psr.i = true
          ∧ k.psr.compact = (s.dev.core c.toNat).psr.compact ∧ k.stores = [] := by
  have hstart := resetStart_ends (r := coreRun s c) hc (fun n hn => by rw [List.mem_singleton.mp hn]; exact hst)
  have hrow := coreReset_row (c := c) hrst
  have hhalts := resetBegin_foldl (d := s.dev) (coreRun s c).cores hc
  rw [hstart] at hrow
  generalize (coreRun s c).cores.foldl (fun x c => x.resetBegin c) s.dev = x at hhalts hrow
  obtain ⟨hcore, -, hks⟩ := resetEnd_resets (x.onMode (fun m => { m with rst := some (coreRun s c) })) c.toNat
  have hcalm : (((x.onMode (fun m => { m with rst := some (coreRun s c) })).resetEnd c.toNat).onMode (fun m => { m with rst := none })).calm :=
    (congrArg Keystone.jobs hks).trans hhalts.calm
  change exec _ s = s.commit (settleEff s.mem (((x.onMode (fun m => { m with rst := some (coreRun s c) })).resetEnd c.toNat).onMode
    (fun m => { m with rst := none }), [])) at hrow
  rw [settleEff_calm _ hcalm, State.commit_eq] at hrow
  refine ⟨_, hrow, rfl, rfl, rfl, ?_⟩
  have hk : ((((x.onMode (fun m => { m with rst := some (coreRun s c) })).resetEnd c.toNat).onMode (fun m => { m with rst := none })).seen s.dev).core c.toNat
      = (x.core c.toNat).afterReset := (Dev.core_seen _ _ _).trans hcore
  intro k
  rw [show k = _ from hk]
  exact ⟨rfl, rfl, rfl, rfl, rfl, rfl, rfl, hhalts.compact _, rfl⟩

/-- A core reset that waits for its core's stores. -/
theorem coreReset_waits (hc : s.dev.calm) (hrst : s.dev.mode.rst = none) (hst : (s.dev.core c.toNat).stores ≠ []) :
    ∃ t, exec (.coreReset ksReq c) s = .next t ∧ t.mem = s.mem ∧ t.pending = s.pending
      ∧ t.dev.mode.rst = some { whole := false, num := c.toNat, since := s.dev.clk } ∧ bitOf (t.dev.modeWord 0x11).pay 31 = true
      ∧ (t.dev.core c.toNat).status = .stopped ∧ (t.dev.core c.toNat).stores = (s.dev.core c.toNat).stores := by
  have hstart := resetStart_waits (r := coreRun s c) hc rfl List.mem_cons_self hst
  have hrow := coreReset_row (c := c) hrst
  obtain ⟨hhalts, hstopped⟩ := resetBegin_halts (c := c.toNat) hc
  rw [hstart] at hrow
  change exec _ s = s.commit (settleEff s.mem ((s.dev.resetBegin c.toNat).onMode (fun m => { m with rst := some (coreRun s c) }), [])) at hrow
  generalize s.dev.resetBegin c.toNat = x at hhalts hstopped hrow
  have hcalm : (x.onMode (fun m => { m with rst := some (coreRun s c) })).calm := hhalts.calm
  rw [settleEff_calm _ hcalm, State.commit_eq] at hrow
  refine ⟨_, hrow, rfl, rfl, rfl, ?_, ?_, ?_⟩
  · show bitOf (rawWord (flag true 31)).pay 31 = true
    decide
  · rw [Dev.core_seen]
    exact hstopped
  · rw [Dev.core_seen]
    exact hhalts.stores _

/-- A bent reset whose cores have no store to wait for. -/
theorem bentReset_ends (hc : s.dev.calm) (hrst : s.dev.mode.rst = none) (hm : s.dev.mode.mode ≠ mBoot)
    (hst : ∀ i, i < 16 → (s.dev.core (coreOf b.toNat i)).stores = []) :
    ∃ t, exec (.bentReset ksReq b) s = .next t ∧ t.mem = s.mem ∧ t.pending = s.pending ∧ t.dev.mode.rst = none
      ∧ (∀ i, i < 16 → (t.dev.core (coreOf b.toNat i)).status = .stopped ∧ (t.dev.core (coreOf b.toNat i)).regs = [])
      ∧ ∀ n, (t.dev.source b.toNat n).st = .idle := by
  have hmem : ∀ n, n ∈ (bentRun s b).cores ↔ ∃ i, i < 16 ∧ coreOf b.toNat i = n := by
    intro n
    simp [ResetRun.cores, bentRun]
  have hstart := resetStart_ends (r := bentRun s b) hc (fun n hn => by
    obtain ⟨i, hi, rfl⟩ := (hmem n).mp hn
    exact hst i hi)
  have hrow := bentReset_row (b := b) hrst hm
  have hhalts := resetBegin_foldl (d := s.dev) (bentRun s b).cores hc
  rw [hstart] at hrow
  generalize (bentRun s b).cores.foldl (fun x c => x.resetBegin c) s.dev = x at hhalts hrow
  obtain ⟨hin, -, hks⟩ := resetEnd_foldl (bentRun s b).cores (x.onMode (fun m => { m with rst := some (bentRun s b) }))
  dsimp only at hrow
  generalize (bentRun s b).cores.foldl (fun x c => x.resetEnd c) (x.onMode (fun m => { m with rst := some (bentRun s b) })) = y at hin hks hrow
  obtain ⟨hcores, hcks, hmode, hidle⟩ := clearBent_clears (y.onMode (fun m => { m with rst := none })) b.toNat
  have hcalm : ((y.onMode (fun m => { m with rst := none })).clearBent b.toNat).calm :=
    (congrArg Keystone.jobs (hcks.trans hks)).trans hhalts.calm
  change exec _ s = s.commit (settleEff s.mem ((y.onMode (fun m => { m with rst := none })).clearBent b.toNat, [])) at hrow
  rw [settleEff_calm _ hcalm, State.commit_eq] at hrow
  refine ⟨_, hrow, rfl, rfl, congrArg (·.rst) hmode, fun i hi => ?_, fun n => ?_⟩
  · rw [Dev.core_seen, core_congr hcores]
    exact hin _ ((hmem _).mpr ⟨i, hi, rfl⟩)
  · exact hidle n

/-- Settles O46: a reset by its steps, and nothing for another requester or while one is in progress. -/
theorem coresAndBentsAreReset : Obligations.CoresAndBentsAreReset := by
  unfold Obligations.CoresAndBentsAreReset
  refine fun s c b => ⟨fun hc hrst => ⟨coreReset_ends hc hrst, coreReset_waits hc hrst⟩, bentReset_ends, fun req hreq hc => ?_⟩
  have hnone : ∀ op core bent, s.dev.rstctl req op core bent = s.dev := fun op core bent => if_pos (by
    obtain h | h := hreq
    · simp [h]
    · simp [h])
  have hrow : ∀ op core bent, s.commit (settleEff s.mem (s.dev.rstctl req op core bent, [])) = s.keep s.dev := by
    intro op core bent
    rw [hnone, settleEff_calm _ hc]
    rfl
  exact ⟨hrow _ _ _, hrow _ _ _⟩

end Sys2Proof.Proofs
end

section
/-! SUPPORT. What the steps of BOOT leave alone: the mode, the slot that runs, and what was raised (R411, R412). -/
namespace Sys2Proof.Machine

variable {d e : Dev}

/-- From d to e the part stayed in its mode, its firmware in its slot, and what was on its way to the collector still is. -/
structure Dev.Booted (d e : Dev) : Prop where
  mode : e.mode.mode = d.mode.mode
  fallback : e.mode.fallback = d.mode.fallback
  firmware : e.ks.firmware = d.ks.firmware
  slotB : e.ks.slotB = d.ks.slotB
  raising : ∀ {src inst : Nat}, d.raising src inst → e.raising src inst

/-- A step of BOOT: what it does in mode BOOT leaves the mode, the slot and what was raised. -/
def Dev.Boots (d e : Dev) : Prop := d.mode.mode = mBoot → d.Booted e

theorem Dev.Booted.trans {f : Dev} (h : d.Booted e) (g : e.Booted f) : d.Booted f :=
  ⟨g.mode.trans h.mode, g.fallback.trans h.fallback, g.firmware.trans h.firmware, g.slotB.trans h.slotB, fun hr => g.raising (h.raising hr)⟩

theorem Dev.Boots.trans {f : Dev} (h : d.Boots e) (g : e.Boots f) : d.Boots f := fun hm => (h hm).trans (g ((h hm).mode.trans hm))

/-- What names none of it. -/
theorem Dev.Booted.of_eq (hm : e.mode.mode = d.mode.mode ∧ e.mode.fallback = d.mode.fallback) (hk : e.ks.firmware = d.ks.firmware ∧ e.ks.slotB = d.ks.slotB)
    (hf : e.flt.raises = d.flt.raises) : d.Booted e := by
  refine ⟨hm.1, hm.2, hk.1, hk.2, fun h => ?_⟩
  unfold Dev.raising at h ⊢
  rwa [hf]

theorem Dev.Boots.of_eq (hm : e.mode.mode = d.mode.mode ∧ e.mode.fallback = d.mode.fallback) (hk : e.ks.firmware = d.ks.firmware ∧ e.ks.slotB = d.ks.slotB)
    (hf : e.flt.raises = d.flt.raises) : d.Boots e := fun _ => .of_eq hm hk hf

theorem Dev.Boots.refl (d : Dev) : d.Boots d := .of_eq ⟨rfl, rfl⟩ ⟨rfl, rfl⟩ rfl

theorem Dev.Boots.foldl {α : Type} {f : Dev → α → Dev} (h : d.Boots e) (l : List α) (hf : ∀ (x : Dev), ∀ a ∈ l, x.Boots (f x a)) : d.Boots (l.foldl f e) := by
  induction l generalizing e with
  | nil => exact h
  | cons a l ih => exact ih (h.trans (hf e a List.mem_cons_self)) (fun x b hb => hf x b (List.mem_cons_of_mem a hb))

theorem Dev.Boots.ite {p : Prop} [Decidable p] {f g : Dev} (h : p → d.Boots f) (k : ¬ p → d.Boots g) : d.Boots (if p then f else g) := by
  split
  · next hp => exact h hp
  · next hp => exact k hp

theorem Dev.Raised.booted (h : d.Raised e) : d.Booted e := by
  obtain ⟨_, _, _, rfl⟩ := h
  exact ⟨rfl, rfl, rfl, rfl, fun ⟨r, hm, hs⟩ => ⟨r, List.mem_append_left _ hm, hs⟩⟩

theorem raise_boots (src inst : Nat) (det : BitVec 16) : d.Boots (d.raise src inst det) := fun _ => (raise_raised src inst det).booted

theorem Dev.Talks.boots (h : d.Talks e) : d.Boots e := by
  obtain ⟨⟨_, _, _, _, _, rfl⟩, -⟩ := h
  exact .of_eq ⟨rfl, rfl⟩ ⟨rfl, rfl⟩ rfl

theorem Dev.Talks.firmware (h : d.Talks e) : e.ks.firmware = d.ks.firmware := by obtain ⟨⟨_, _, _, _, _, rfl⟩, -⟩ := h; rfl
theorem Dev.Talks.slotB (h : d.Talks e) : e.ks.slotB = d.ks.slotB := by obtain ⟨⟨_, _, _, _, _, rfl⟩, -⟩ := h; rfl

theorem Dev.Traffics.boots {P : Origin → Prop} (h : Dev.Traffics P d e) : d.Boots e := by
  obtain ⟨⟨_, _, _, _, _, _, _, _, _, _, _, _, rfl⟩, -⟩ := h
  exact .of_eq ⟨rfl, rfl⟩ ⟨rfl, rfl⟩ rfl

theorem onSpan_boots (n : Nat) (f : Span → Span) : d.Boots (d.onSpan n f) := .of_eq ⟨rfl, rfl⟩ ⟨rfl, rfl⟩ rfl

theorem onKs_boots {f : Keystone → Keystone} (h : ∀ k, (f k).firmware = k.firmware ∧ (f k).slotB = k.slotB) : d.Boots (d.onKs f) :=
  .of_eq ⟨rfl, rfl⟩ (h _) rfl

/-! ### Firmware slots and images (R411, R453, R457) -/

theorem poisonWord_boots (w : Nat) : d.Boots (d.poisonWord w) := .of_eq ⟨rfl, rfl⟩ ⟨rfl, rfl⟩ rfl

theorem readLine_boots (line : Nat) (f : Finds) : d.Boots (d.readLine line f) := by
  unfold Dev.readLine
  extract_lets w ids bad ones d1 d2
  have h1 : d.Boots d1 := Dev.Boots.foldl (.refl d) _ (fun _ _ _ => poisonWord_boots _)
  have h2 : d.Boots d2 := .ite (fun _ => h1) (fun _ => h1.trans (.of_eq ⟨rfl, rfl⟩ ⟨rfl, rfl⟩ rfl))
  split
  · exact h2
  · exact (h2.trans (onSpan_boots _ _)).trans (raise_boots _ _ _)

theorem readSpan_boots (a n : Nat) : d.Boots (d.readSpan a n).2 := Dev.Boots.foldl (.refl d) _ (fun _ _ _ => readLine_boots _ _)

theorem noteCheck_boots (v : Verdict) : d.Boots (d.noteCheck v) := by
  have hsec : ∀ c : Sec, d.Boots { d with sec := c } := fun _ => .of_eq ⟨rfl, rfl⟩ ⟨rfl, rfl⟩ rfl
  cases v with
  | good => exact hsec _
  | auth x => exact (hsec _).trans (raise_boots _ _ _)
  | rollback x => exact (hsec _).trans (raise_boots _ _ _)
  | unread n => exact .refl d

theorem checkSlot_boots (m : List Host.Cell) (b : Bool) : d.Boots (d.checkSlot m b).2 := (readSpan_boots _ _).trans (noteCheck_boots _)

theorem noteSlot_boots (b : Bool) (v : Verdict) : d.Boots (d.noteSlot b v) := by
  cases b <;> exact .of_eq ⟨rfl, rfl⟩ ⟨rfl, rfl⟩ rfl

theorem recheckImage_boots (m : List Host.Cell) (i : Image) (bad : Option Nat) : d.Boots (d.recheckImage m i bad).2 := by
  unfold Dev.recheckImage
  extract_lets v d1
  have h1 : d.Boots d1 := noteCheck_boots v
  have hdrop : ∀ x : Dev, x.Boots (x.dropImage i.addr) := by
    intro x
    unfold Dev.dropImage Dev.freeKept
    refine Dev.Boots.trans ?_ (onKs_boots fun _ => ⟨rfl, rfl⟩)
    exact onKs_boots fun _ => ⟨rfl, rfl⟩
  clear_value v
  dsimp only
  split
  · exact h1.trans (onKs_boots fun _ => ⟨rfl, rfl⟩)
  · exact h1
  · exact h1.trans (hdrop d1)
  · exact h1.trans (hdrop d1)

theorem bootImages_boots (m : List Host.Cell) : d.Boots (d.bootImages m) :=
  Dev.Boots.foldl (.refl d) _ (fun _ _ _ => (readSpan_boots _ _).trans (recheckImage_boots _ _ _))

theorem revokeOther_boots (m : List Host.Cell) (b r : Bool) : d.Boots (d.revokeOther m b r) := by
  unfold Dev.revokeOther
  split
  · exact .ite (fun _ => .of_eq ⟨rfl, rfl⟩ ⟨rfl, rfl⟩ rfl) (fun _ => .refl d)
  · exact .refl d

/-! ### The spare record and DDR5 (R261, R269, R278) -/

theorem onSram_boots (m : SramRef) (f : Sram → Sram) : d.Boots (d.onSram m f) := by
  cases m <;> exact .of_eq ⟨rfl, rfl⟩ ⟨rfl, rfl⟩ rfl

theorem loadSpares_boots : d.Boots d.loadSpares := by
  unfold Dev.loadSpares
  extract_lets d1 r d2 seqr d3
  have h1 : d.Boots d1 := by
    refine Dev.Boots.foldl ?_ _ (fun _ _ _ => ?_) <;> exact .of_eq ⟨rfl, rfl⟩ ⟨rfl, rfl⟩ rfl
  have h2 : d.Boots d2 := by
    refine Dev.Boots.foldl (Dev.Boots.foldl h1 _ (fun _ _ _ => ?_)) _ (fun _ _ _ => onSram_boots _ _)
    exact .of_eq ⟨rfl, rfl⟩ ⟨rfl, rfl⟩ rfl
  have h3 : d.Boots d3 := by
    refine h2.trans (Dev.Boots.foldl ?_ _ (fun _ _ _ => ?_)) <;> exact .of_eq ⟨rfl, rfl⟩ ⟨rfl, rfl⟩ rfl
  refine .ite (fun _ => h1.trans (.of_eq ⟨rfl, rfl⟩ ⟨rfl, rfl⟩ rfl)) (fun _ => ?_)
  refine h3.trans (Dev.Boots.foldl ?_ _ (fun _ _ _ => ?_)) <;> exact .of_eq ⟨rfl, rfl⟩ ⟨rfl, rfl⟩ rfl

theorem putRecord_boots (r : SpareRec) : d.Boots (d.putRecord r) :=
  .ite (fun _ => .of_eq ⟨rfl, rfl⟩ ⟨rfl, rfl⟩ rfl) (fun _ => .of_eq ⟨rfl, rfl⟩ ⟨rfl, rfl⟩ rfl)

theorem onDdr_boots (n : Nat) (f : Ddr → Ddr) : d.Boots (d.onDdr n f) := .of_eq ⟨rfl, rfl⟩ ⟨rfl, rfl⟩ rfl

theorem trainChannel_boots (e : ChanId × ChanSetup) : d.Boots (d.trainChannel e) := by
  unfold Dev.trainChannel
  split
  · exact onDdr_boots _ _
  · exact (onDdr_boots _ _).trans (raise_boots _ _ _)

theorem bootDdr_boots (r : BootReport) : d.Boots (d.bootDdr r) := by
  have htrained : d.Boots (r.ddr.foldl Dev.trainChannel d) := Dev.Boots.foldl (.refl d) _ (fun _ _ _ => trainChannel_boots _)
  have hrepaired : d.Boots (r.ddr.foldl Dev.trainChannel d).hardRepairs := .ite (fun _ => htrained.trans (putRecord_boots _)) (fun _ => htrained)
  refine .ite (fun _ => .refl d) (fun _ => Dev.Boots.foldl hrepaired _ (fun x _ _ => ?_))
  exact .ite (fun _ => .refl x) (fun _ => onDdr_boots _ _)

/-! ### The configuration set (R411, R457) -/

theorem syncNotices_boots : d.Boots d.syncNotices := by
  refine Dev.Boots.foldl (.refl d) _ (fun x _ _ => Dev.Boots.foldl (.refl x) _ (fun y _ _ => ?_))
  refine .ite (fun _ => .refl y) (fun _ => ?_)
  exact (sendEvt_traffics (P := fun _ => True) (fun _ _ => trivial) trivial _ _ _ _ _).boots

theorem onVia_boots (p : ViaPort) (f : Via → Via) : d.Boots (d.onVia p f) := by
  cases p <;> exact .of_eq ⟨rfl, rfl⟩ ⟨rfl, rfl⟩ rfl

theorem endJobs_boots (pick : Job → Bool) (st det : BitVec 16) : d.Boots (d.endJobs pick st det) := by
  unfold Dev.endJobs
  refine Dev.Boots.foldl ?_ _ (fun _ j _ => (finalResult_talks j st det).boots)
  exact onKs_boots fun _ => ⟨rfl, rfl⟩

theorem reachChanged_boots (old : Dev) : d.Boots (d.reachChanged old) := by
  unfold Dev.reachChanged
  dsimp only
  refine Dev.Boots.trans ?_ (endJobs_boots _ _ _)
  exact (tellReach_sends old).talks.boots.trans (.of_eq ⟨rfl, rfl⟩ ⟨rfl, rfl⟩ rfl)

/-- BOOT takes no part in R406. -/
theorem modeCheck_boots : d.Boots d.modeCheck := by
  intro hm
  have hsame : d.modeCheck = d := by
    unfold Dev.modeCheck
    rw [hm]
    rfl
  rw [hsame]
  exact Dev.Boots.refl d hm

theorem linkDown_boots (p : ViaPort) (loud : Bool) : d.Boots (d.linkDown p loud) := by
  unfold Dev.linkDown
  extract_lets d1 d2
  have hfree : d.Boots (d.runFree p) := .ite (fun _ => .of_eq ⟨rfl, rfl⟩ ⟨rfl, rfl⟩ rfl) (fun _ => .refl d)
  have h1 : d.Boots d1 := hfree.trans (onVia_boots _ _)
  have h2 : d.Boots d2 := .ite (fun _ => h1.trans (raise_boots _ _ _)) (fun _ => h1)
  exact .ite (fun _ => onVia_boots _ _) (fun _ => (h2.trans (reachChanged_boots d)).trans modeCheck_boots)

theorem viaEnable_boots (p : ViaPort) (en sb : Bool) : d.Boots (d.viaEnable p en sb) := by
  unfold Dev.viaEnable
  extract_lets held d1 d2
  have h2 : d.Boots d2 := .ite (fun _ => (onVia_boots _ _).trans (raise_boots _ _ _)) (fun _ => onVia_boots _ _)
  exact .ite (fun _ => h2.trans (linkDown_boots _ _)) (fun _ => h2)

theorem viaRetrain_boots (p : ViaPort) (bad : BitVec 5) : d.Boots (d.viaRetrain p bad) := .ite (fun _ => onVia_boots _ _) (fun _ => .refl d)

variable {req : ReqId} {w k : Nat} {v : W32}

theorem viaWrite_boots : d.Boots (d.viaWrite req k v) := by
  have hctl : ∀ p : ViaPort, d.Boots (if bitOf v 29 then (if d.rwl req then d.viaEnable p (bitOf v 31) (bitOf v 30) else d).viaRetrain p 0#5
      else if d.rwl req then d.viaEnable p (bitOf v 31) (bitOf v 30) else d) := by
    intro p
    have hen : d.Boots (if d.rwl req then d.viaEnable p (bitOf v 31) (bitOf v 30) else d) := .ite (fun _ => viaEnable_boots _ _ _) (fun _ => .refl d)
    exact .ite (fun _ => hen.trans (viaRetrain_boots _ _)) (fun _ => hen)
  exact .ite (fun _ => .ite (fun _ => .of_eq ⟨rfl, rfl⟩ ⟨rfl, rfl⟩ rfl) (fun _ => .refl d))
    (fun _ => .ite (fun _ => hctl .up) (fun _ => .ite (fun _ => hctl .dn) (fun _ => .refl d)))

/-- The words of the collector that hold an RWL field. -/
theorem fltWrite_boots (h8 : k ≠ 8) (h9 : k ≠ 9) : d.Boots (d.fltWrite req k v) := by
  unfold Dev.fltWrite
  dsimp only
  rw [if_neg h8, if_neg h9]
  refine .ite (fun _ => .ite (fun _ => ?_) (fun _ => .refl d)) (fun _ => ?_)
  · refine Dev.Boots.trans ?_ syncNotices_boots
    exact .of_eq ⟨rfl, rfl⟩ ⟨rfl, rfl⟩ rfl
  · split
    · exact .of_eq ⟨rfl, rfl⟩ ⟨rfl, rfl⟩ rfl
    · exact .refl d

/-- The words of a span's block below its queues. -/
theorem spanWrite_boots {n : Nat} (h : k < 0x1000) : d.Boots (d.spanWrite req n k v) := by
  have hspan : ∀ (p : Prop) [Decidable p] (f : Span → Span), d.Boots (if p then d.onSpan n f else d) :=
    fun p _ f => .ite (fun _ => onSpan_boots _ _) (fun _ => .refl d)
  refine .ite (fun _ => hspan _ _) (fun _ => .ite (fun _ => .ite (fun _ => ?_) (fun _ => .refl d)) (fun _ => .ite (fun _ => onSpan_boots _ _)
    (fun _ => .ite (fun _ => hspan _ _) (fun _ => .ite (fun _ => hspan _ _) (fun _ => .ite (fun h' => by omega) (fun _ => .refl d))))))
  exact .ite (fun _ => .refl d) (fun _ => onSpan_boots _ _)

theorem bentWrite_boots {b : Nat} (h : k = 0xC00) : d.Boots (d.bentWrite req b k v) := by
  subst h
  exact .of_eq ⟨rfl, rfl⟩ ⟨rfl, rfl⟩ rfl

theorem ddrRegWrite_boots {n : Nat} (h : k = 7) : d.Boots (d.ddrRegWrite req n k v) := by
  subst h
  exact .ite (fun h => absurd h (by decide)) (fun _ => .ite (fun _ => .ite (fun _ => onDdr_boots _ _) (fun _ => .refl d)) (fun h => absurd rfl h))

theorem putTbSrc_boots (s : BitVec 2) : d.Boots (d.putTbSrc s) := .ite (fun _ => .refl d) (fun _ => .of_eq ⟨rfl, rfl⟩ ⟨rfl, rfl⟩ rfl)

/-- The device words that hold an RWL field, block by block. -/
theorem isRwlWord_cases (h : isRwlWord w = true) :
    (0x08200000 ≤ w ∧ w < 0x08280000 ∧ w % 0x1000 = 0xC00) ∨ (0x08100000 ≤ w ∧ w < 0x08180000 ∧ w % 0x10000 < 0x1000)
    ∨ w = 0x08000104 ∨ w = 0x08002000 ∨ w = 0x08010002 ∨ w = 0x08030004 ∨ (0x08030400 ≤ w ∧ w < 0x08030700) ∨ w = 0x08070001 ∨ w = 0x08070010
    ∨ w = 0x08070020 ∨ (0x08090000 ≤ w ∧ w < 0x08094000 ∧ w % 0x1000 = 7) := by
  simp only [isRwlWord, Bool.or_eq_true, Bool.and_eq_true, beq_iff_eq, decide_eq_true_eq] at h
  omega

theorem regWrite_boots (h : isRwlWord w = true) : d.Boots (d.regWrite req w v) := by
  have hw := isRwlWord_cases h
  clear h
  refine .ite (fun _ => bentWrite_boots (by omega)) fun _ => .ite (fun _ => spanWrite_boots (by omega)) fun _ =>
    .ite (fun _ => .ite (fun _ => .of_eq ⟨rfl, rfl⟩ ⟨rfl, rfl⟩ rfl) (fun _ => .refl d)) fun _ => .ite (fun _ => by omega) fun _ =>
    .ite (fun _ => .ite (fun _ => .of_eq ⟨rfl, rfl⟩ ⟨rfl, rfl⟩ rfl) (fun _ => .refl d)) fun _ => .ite (fun _ => by omega) fun _ =>
    .ite (fun _ => by omega) fun _ => .ite (fun _ => .ite (fun _ => putTbSrc_boots _) (fun _ => .refl d)) fun _ =>
    .ite (fun _ => fltWrite_boots (by omega) (by omega)) fun _ => .ite (fun _ => by omega) fun _ => .ite (fun _ => by omega) fun _ =>
    .ite (fun _ => by omega) fun _ => .ite (fun _ => viaWrite_boots) fun _ => .ite (fun _ => by omega) fun _ => .ite (fun _ => by omega) fun _ =>
    .ite (fun _ => ddrRegWrite_boots (by omega)) fun _ => .refl d

theorem bootConfig_boots (cfg : List (W32 × W32)) : d.Boots (d.bootConfig cfg) :=
  .ite (fun _ => .refl d) (fun _ => Dev.Boots.foldl (.refl d) _ (fun _ _ h => regWrite_boots (List.mem_filter.mp h).2))

/-! ### COMMISSION entered (R300, R411) -/

/-- Of the raises of one source and instance one is left (R300). -/
theorem mergeRaises_keeps {r : Raise} {l : List Raise} (h : r ∈ l) : ∃ x ∈ mergeRaises l, x.src = r.src ∧ x.inst = r.inst := by
  induction l with
  | nil => cases h
  | cons a l ih =>
    by_cases hsame : a.src = r.src ∧ a.inst = r.inst
    · exact ⟨a, List.mem_cons_self, hsame⟩
    · obtain ⟨x, hx, hsrc, hinst⟩ := ih ((List.mem_cons.mp h).resolve_left (fun h => hsame (h ▸ ⟨rfl, rfl⟩)))
      refine ⟨x, List.mem_cons_of_mem _ (List.mem_filter.mpr ⟨hx, ?_⟩), hsrc, hinst⟩
      rw [hsrc, hinst]
      simp only [Bool.not_eq_true', Bool.and_eq_false_iff, beq_eq_false_iff_ne]
      by_cases hs : r.src = a.src
      · exact .inr (fun hi => hsame ⟨hs.symm, hi.symm⟩)
      · exact .inl hs

theorem setCells_booted (pulse : Bool) : d.Booted (d.setCells pulse) := by
  unfold Dev.setCells
  extract_lets d1 merged d2
  have h1 : d.Booted d1 := .of_eq ⟨rfl, rfl⟩ ⟨rfl, rfl⟩ rfl
  have h2 : d.Booted d2 := h1.trans ⟨rfl, rfl, rfl, rfl, fun ⟨r, hm, hs, hi⟩ => by
    obtain ⟨x, hx, hsrc, hinst⟩ := mergeRaises_keeps hm
    exact ⟨x, hx, hsrc.trans hs, hinst.trans hi⟩⟩
  have h3 : d2.Booted (d2.onXing domCollector (fun x => { x with ovr := true })) := .of_eq ⟨rfl, rfl⟩ ⟨rfl, rfl⟩ rfl
  split
  · split
    · exact h2.trans h3
    · exact h2
  · exact h1

theorem setCells_mode (pulse : Bool) : (d.setCells pulse).mode = d.mode := by
  unfold Dev.setCells
  dsimp only
  split
  · split <;> rfl
  · rfl

/-- A mode entered (R399). -/
theorem setMode_mode (m reason : BitVec 3) :
    (d.setMode m reason).mode = { d.mode with prev := d.mode.mode, mode := m, reason := reason, time := d.time, recov := false } := by
  unfold Dev.setMode
  extract_lets d1 d2
  have h2 : d2.mode = d1.mode := by
    unfold d2
    split <;> rfl
  rw [(bothVec_talks _).speaks.mode, setCells_mode, h2]
  rfl

/-- A mode entered leaves the firmware in its slot, and what was raised. -/
theorem setMode_keeps (m reason : BitVec 3) : (d.setMode m reason).ks.firmware = d.ks.firmware ∧ (d.setMode m reason).ks.slotB = d.ks.slotB
    ∧ ∀ {src inst : Nat}, d.raising src inst → (d.setMode m reason).raising src inst := by
  unfold Dev.setMode
  extract_lets d1 d2
  have h2 : d2.ks = d.ks ∧ d2.flt = d.flt := by
    unfold d2
    split <;> exact ⟨rfl, rfl⟩
  have hcells : d2.Booted (d2.setCells (!counterMode m)) := setCells_booted _
  have htold : (d2.setCells (!counterMode m)).Talks ((d2.setCells (!counterMode m)).bothVec 3#11) := bothVec_talks _
  refine ⟨?_, ?_, fun h => ?_⟩
  · rw [htold.firmware, hcells.firmware, h2.1]
  · rw [htold.slotB, hcells.slotB, h2.1]
  · refine htold.linked.raising (hcells.raising ?_)
    unfold Dev.raising at h ⊢
    rwa [h2.2]

end Sys2Proof.Machine
end

section
/-! SUPPORT. The end of BOOT (R411, R412). -/
namespace Sys2Proof.Machine

variable {d : Dev}

/-- BOOT with a slot that verifies ends in COMMISSION, the firmware running from it. -/
theorem bootRun_enters (m : List Host.Cell) (r : BootReport) (slotB both : Bool) (hm : d.mode.mode = mBoot) :
    (d.bootRun m r slotB both).mode.mode = mCommission ∧ (d.bootRun m r slotB both).mode.prev = mBoot ∧ (d.bootRun m r slotB both).ks.firmware = true
    ∧ (d.bootRun m r slotB both).ks.slotB = slotB ∧ (d.bootRun m r slotB both).mode.bootMs = r.ms ∧ (d.bootRun m r slotB both).mode.fallback = both
    ∧ (both = true → (d.bootRun m r slotB both).raising 720 0) := by
  unfold Dev.bootRun
  extract_lets d1 d2 d3
  have h1 : d1.mode.mode = mBoot ∧ d1.mode.fallback = both ∧ d1.ks.firmware = true ∧ d1.ks.slotB = slotB := by
    have hstep : Dev.Booted _ d1 := revokeOther_boots m slotB r.revokes hm
    exact ⟨hstep.mode.trans hm, hstep.fallback, hstep.firmware, hstep.slotB⟩
  have h2 : d1.Booted d2 := by
    unfold d2
    split
    · exact (raise_raised _ _ _).booted
    · exact Dev.Boots.refl d1 h1.1
  have hraised : both = true → d2.raising 720 0 := by
    intro hb
    unfold d2
    rw [if_pos hb]
    exact raise_raising _ _ _ _
  clear_value d1 d2
  have h3 : d2.Booted d3 := ((bootDdr_boots r).trans ((bootImages_boots m).trans (bootConfig_boots r.cfg))) (h2.mode.trans h1.1)
  clear_value d3
  obtain ⟨hmode, hfall, hfw, hslot⟩ := h1
  obtain ⟨kfw, kslot, kraise⟩ := setMode_keeps (d := d3) mCommission d3.mode.bootReason
  have hm3 := setMode_mode (d := d3) mCommission d3.mode.bootReason
  refine ⟨congrArg Mode.mode hm3, ?_, ?_, ?_, rfl, ?_, fun hb => kraise (h3.raising (hraised hb))⟩
  · exact (congrArg Mode.prev hm3).trans (h3.mode.trans (h2.mode.trans hmode))
  · exact kfw.trans (h3.firmware.trans (h2.firmware.trans hfw))
  · exact kslot.trans (h3.slotB.trans (h2.slotB.trans hslot))
  · exact (congrArg Mode.fallback hm3).trans (h3.fallback.trans (h2.fallback.trans hfall))

end Sys2Proof.Machine
end

section
/-! SUPPORT. The steps of COMMISSION on a part in which nothing failed (R414). -/
namespace Sys2Proof.Machine

variable {d e : Dev}

/-- From d to e the mode, what holds COMMISSION, and every latch stand. -/
structure Dev.Tests (d e : Dev) : Prop where
  mode : e.mode.mode = d.mode.mode
  holdComm : e.mode.holdComm = d.mode.holdComm
  pendSafe : e.mode.pendSafe = d.mode.pendSafe
  srcs : e.flt.srcs = d.flt.srcs

theorem Dev.Tests.refl (d : Dev) : d.Tests d := ⟨rfl, rfl, rfl, rfl⟩

theorem Dev.Tests.trans {f : Dev} (h : d.Tests e) (g : e.Tests f) : d.Tests f :=
  ⟨g.mode.trans h.mode, g.holdComm.trans h.holdComm, g.pendSafe.trans h.pendSafe, g.srcs.trans h.srcs⟩

theorem Dev.Tests.foldl {α : Type} {f : Dev → α → Dev} (hf : ∀ (x : Dev) a, x.Tests (f x a)) (l : List α) (d : Dev) : d.Tests (l.foldl f d) := by
  induction l generalizing d with
  | nil => exact .refl d
  | cons a l ih => exact (hf d a).trans (ih _)

theorem Dev.Raised.tests (h : d.Raised e) : d.Tests e := by
  obtain ⟨_, _, _, rfl⟩ := h
  exact ⟨rfl, rfl, rfl, rfl⟩

theorem grade_tests (r : CommReport) : d.Tests (d.grade r) := ⟨rfl, rfl, rfl, rfl⟩

theorem loadGrades_tests : d.Tests d.loadGrades := by
  refine .foldl (fun _ _ => ?_) _ _
  exact ⟨rfl, rfl, rfl, rfl⟩

theorem calibrate_tests (b : Nat) (count : BitVec 16) (me ex : BitVec 4) : d.Tests (d.calibrate b count me ex) := by
  have hmeasured : d.Tests (d.scrMeasure b 100 count) := by
    unfold Dev.scrMeasure
    split <;> exact ⟨rfl, rfl, rfl, rfl⟩
  exact hmeasured.trans ⟨rfl, rfl, rfl, rfl⟩

theorem recordSpares_tests : d.Tests d.recordSpares := by
  obtain ⟨_, _, _, h⟩ := recordSpares_frame d
  rw [h]
  exact ⟨rfl, rfl, rfl, rfl⟩

theorem retireRow_tests (m : SramRef) (k row : Nat) : d.Tests (d.retireRow m k row) := by
  have hrepair : d.Tests (d.startRepair m k row) := by
    unfold Dev.startRepair
    dsimp only
    split
    · exact .refl d
    · split
      · cases m <;> exact ⟨rfl, rfl, rfl, rfl⟩
      · exact (raise_raised _ _ _).tests
  unfold Dev.retireRow
  extract_lets rows
  split
  · exact .refl d
  · exact hrepair

theorem advanceRb_frame (m : List Host.Cell) (a : W32) : (d.advanceRb m a).mode = d.mode ∧ (d.advanceRb m a).flt = d.flt := by
  unfold Dev.advanceRb
  dsimp only
  split <;> exact ⟨rfl, rfl⟩

/-- COMMISSION's checks done with nothing failed: the part waits with COMM_HOLD, and else leaves COMMISSION. -/
theorem commissionDone_eq (m : List Host.Cell) (r : CommReport) (hslots : r.badSlots = []) (hbents : r.badBents = []) (hx : r.xFail = none) :
    ∃ e, d.Tests e ∧ e.mode.commDone = true ∧ e.mode.calibrated = true
      ∧ d.commissionDone m r = if e.mode.holdComm then (e, []) else e.leaveCommission e.mode.bootReason := by
  unfold Dev.commissionDone
  rw [hslots, hbents, hx]
  extract_lets d1 d2 d3 d4 d5 d5a d6
  have h2 : d.Tests d2 := ⟨rfl, rfl, rfl, rfl⟩
  have h3 : d.Tests d3 := by
    unfold d3
    refine h2.trans (Dev.Tests.trans ?_ loadGrades_tests)
    split
    · exact grade_tests r
    · exact .refl d2
  have h4 : d.Tests d4 := h3.trans (.foldl (fun _ _ => calibrate_tests _ _ _ _) _ _)
  have h5 : d.Tests d5 := by
    unfold d5
    split
    · exact h4.trans recordSpares_tests
    · exact h4
  have h5a : d.Tests d5a := h5.trans (.foldl (fun _ _ => retireRow_tests _ _ _) _ _)
  clear_value d5a
  have hmode : d6.mode = { d5a.mode with commDone := true, calibrated := true } := (advanceRb_frame m _).1
  have hflt : d6.flt = d5a.flt := (advanceRb_frame m _).2
  have h6 : d5a.Tests d6 := by
    refine ⟨?_, ?_, ?_, ?_⟩
    · rw [hmode]
    · rw [hmode]
    · rw [hmode]
    · rw [hflt]
  exact ⟨d6, h5a.trans h6, by rw [hmode], by rw [hmode], rfl⟩

/-- COMMISSION left, for STANDBY or for SAFE_HOLD, is done and calibrated. -/
theorem leaveCommission_comm (reason : BitVec 3) : (d.leaveCommission reason).1.mode.commDone = d.mode.commDone
    ∧ (d.leaveCommission reason).1.mode.calibrated = d.mode.calibrated := by
  unfold Dev.leaveCommission
  split
  · exact (enterSafe_collects _).comm
  · exact setMode_comm _ _

theorem leaveCommission_standby (reason : BitVec 3) (hp : d.mode.pendSafe = false) (hl : d.flt.atLeast 3 = false) :
    d.leaveCommission reason = (d.setMode mStandby reason, []) := if_neg (by simp [hp, hl])

end Sys2Proof.Machine
end

section
/-! PROOFS. The statement on the ends of BOOT and COMMISSION. -/
namespace Sys2Proof.Proofs
open Sys2Proof.Machine

variable {s : State}

/-- What a row answers a device with, but what the pins show of it. -/
theorem keep_modes {i : Instr} {e : Dev} (hrow : exec i s = s.keep e) :
    ∃ t, exec i s = .next t ∧ t.mem = s.mem ∧ t.pending = s.pending ∧ t.dev.mode = e.mode ∧ t.dev.ks = e.ks ∧ t.dev.flt = e.flt :=
  ⟨_, hrow, rfl, rfl, rfl, rfl, rfl⟩

/-- BOOT's end, as the slots turn out. -/
theorem bootComplete_ends (r : BootReport) (hm : s.dev.mode.mode = mBoot) (hr : s.dev.pwr.inReset = false) (hf : s.dev.mode.noFirmware = false) :
    let a := s.dev.ks.slotB
    let first := s.dev.loadSpares.checkSlot s.mem a
    let second := (first.2.noteSlot a first.1).checkSlot s.mem (!a)
    (first.1 = .good →
      ∃ t, exec (.bootComplete r) s = .next t ∧ t.mem = s.mem ∧ t.pending = s.pending ∧ t.dev.mode.mode = mCommission ∧ t.dev.mode.prev = mBoot
        ∧ t.dev.ks.firmware = true ∧ t.dev.ks.slotB = a ∧ t.dev.mode.bootMs = r.ms)
    ∧ (first.1 ≠ .good → second.1 = .good →
      ∃ t, exec (.bootComplete r) s = .next t ∧ t.mem = s.mem ∧ t.pending = s.pending ∧ t.dev.mode.mode = mCommission ∧ t.dev.ks.slotB = !a
        ∧ t.dev.mode.fallback = true ∧ t.dev.raising 720 0)
    ∧ (first.1 ≠ .good → second.1 ≠ .good →
      ∃ t, exec (.bootComplete r) s = .next t ∧ t.mem = s.mem ∧ t.pending = s.pending ∧ t.dev.mode.mode = mBoot ∧ t.dev.mode.noFirmware = true) := by
  intro a first second
  have hloaded : s.dev.Booted s.dev.loadSpares := loadSpares_boots hm
  have hboot0 : s.dev.loadSpares.mode.mode = mBoot := hloaded.mode.trans hm
  have hboot1 : (first.2.noteSlot a first.1).mode.mode = mBoot :=
    (((checkSlot_boots s.mem a).trans (noteSlot_boots _ _)) hboot0).mode.trans hboot0
  have hboot2 : (second.2.noteSlot (!a) second.1).mode.mode = mBoot :=
    (((checkSlot_boots s.mem (!a)).trans (noteSlot_boots _ _)) hboot1).mode.trans hboot1
  have hrow : exec (.bootComplete r) s = s.keep (s.dev.bootComplete s.mem r) := congrArg s.keep (if_pos (by simp [Dev.mayBoot, hm, hr, hf]))
  have htry : s.dev.loadSpares.trySlots s.mem = if first.1 = .good then (some a, false, first.2.noteSlot a first.1)
      else (if second.1 = .good then some (!a) else none, true, second.2.noteSlot (!a) second.1) := by
    unfold Dev.trySlots
    rw [hloaded.slotB]
  clear_value first second
  unfold Dev.bootComplete at hrow
  rw [htry] at hrow
  generalize first.2.noteSlot a first.1 = x at hrow hboot1
  generalize second.2.noteSlot (!a) second.1 = y at hrow hboot2
  clear htry
  refine ⟨fun h1 => ?_, fun h1 h2 => ?_, fun h1 h2 => ?_⟩
  · rw [if_pos h1] at hrow
    obtain ⟨t, ht, hmem, hpend, htm, htk, -⟩ := keep_modes hrow
    obtain ⟨hmode, hprev, hfw, hslot, hms, -⟩ := bootRun_enters s.mem r a false hboot1
    exact ⟨t, ht, hmem, hpend, by rw [htm, hmode], by rw [htm, hprev], by rw [htk, hfw], by rw [htk, hslot], by rw [htm, hms]⟩
  · rw [if_neg h1, if_pos h2] at hrow
    obtain ⟨t, ht, hmem, hpend, htm, htk, htf⟩ := keep_modes hrow
    obtain ⟨hmode, -, -, hslot, -, hfall, hraise⟩ := bootRun_enters s.mem r (!a) true hboot2
    refine ⟨t, ht, hmem, hpend, by rw [htm, hmode], by rw [htk, hslot], by rw [htm, hfall], ?_⟩
    unfold Dev.raising
    rw [htf]
    exact hraise rfl
  · rw [if_neg h1, if_neg h2] at hrow
    obtain ⟨t, ht, hmem, hpend, htm, -⟩ := keep_modes hrow
    exact ⟨t, ht, hmem, hpend, by rw [htm]; exact hboot2, by rw [htm]; rfl⟩

/-- COMMISSION's end with nothing failed. -/
theorem commissionComplete_ends (r : CommReport) (hslots : r.badSlots = []) (hbents : r.badBents = []) (hx : r.xFail = none)
    (hm : s.dev.mode.mode = mCommission) (hd : s.dev.mode.commDone = false) :
    ∃ t, exec (.commissionComplete r) s = .next t ∧ t.pending = s.pending ∧ t.dev.mode.commDone = true ∧ t.dev.mode.calibrated = true
      ∧ (s.dev.mode.holdComm = true → t.mem = s.mem ∧ t.dev.mode.mode = mCommission)
      ∧ (s.dev.mode.holdComm = false → s.dev.mode.pendSafe = false → s.dev.flt.atLeast 3 = false → t.mem = s.mem ∧ t.dev.mode.mode = mStandby) := by
  have hrow : exec (.commissionComplete r) s = s.commit (s.dev.commissionDone s.mem r) := congrArg s.commit (if_pos (by simp [hm, hd]))
  obtain ⟨e, he, hdone, hcal, heq⟩ := commissionDone_eq (d := s.dev) s.mem r hslots hbents hx
  rw [heq, State.commit_eq] at hrow
  refine ⟨_, hrow, rfl, ?_⟩
  cases hh : e.mode.holdComm with
  | true =>
    rw [if_pos rfl]
    refine ⟨hdone, hcal, fun _ => ⟨rfl, he.mode.trans hm⟩, fun h => ?_⟩
    rw [← he.holdComm, hh] at h
    cases h
  | false =>
    rw [if_neg (by simp)]
    obtain ⟨hdone', hcal'⟩ := leaveCommission_comm (d := e) e.mode.bootReason
    refine ⟨hdone'.trans hdone, hcal'.trans hcal, fun h => ?_, fun _ hp hl => ?_⟩
    · rw [← he.holdComm, hh] at h
      cases h
    · have hlatch : e.flt.atLeast 3 = false := by
        unfold Collector.atLeast at hl ⊢
        rwa [he.srcs]
      rw [leaveCommission_standby _ (he.pendSafe.trans hp) hlatch]
      exact ⟨rfl, congrArg Mode.mode (setMode_mode _ _)⟩

/-- Settles O48. -/
theorem bootAndCommission : Obligations.BootAndCommission := by
  unfold Obligations.BootAndCommission
  exact ⟨fun s r => bootComplete_ends r, fun s r => commissionComplete_ends r⟩

end Sys2Proof.Proofs
end

section
/-! SUPPORT. The test access port: what a scan loads, captures and keeps (R488 to R491). -/
namespace Sys2Proof.Machine

variable {d e : Dev}

/-! ### Cells packed to bytes -/

/-- Bits of a list set one after another in a byte. -/
theorem packByte_getLsbD (f : Nat → Bool) (is : List Nat) (v : Byte) {k : Nat} (hk : k < 8) :
    (is.foldl (fun (v : Byte) i => if f i then v ||| (1#8 <<< i) else v) v).getLsbD k = (v.getLsbD k || (decide (k ∈ is) && f k)) := by
  induction is generalizing v with
  | nil => simp
  | cons i is ih =>
    have hone : (if f i then v ||| (1#8 <<< i) else v).getLsbD k = (v.getLsbD k || (decide (k = i) && f i)) := by
      split
      · next h =>
        have hbit : (1#8 <<< i).getLsbD k = decide (k = i) := by
          rw [BitVec.getLsbD_shiftLeft, BitVec.getLsbD_one, Bool.eq_iff_iff]
          simp
          omega
        rw [BitVec.getLsbD_or, hbit, h, Bool.and_true]
      · next h => simp [h]
    rw [List.foldl_cons, ih, hone]
    by_cases h : k = i
    · subst h
      cases f k <;> simp
    · simp [h]

/-- A cell in the byte and the bit that it is packed to. -/
theorem packBits_getLsbD (n : Nat) (l : List Bool) {i k : Nat} (hi : i < n) (hk : k < 8) :
    (byteAt (packBits n l) i).getLsbD k = l.getD (8 * i + k) false := by
  induction n generalizing l i with
  | zero => omega
  | succ n ih =>
    cases i with
    | zero =>
      have h := packByte_getLsbD (fun j => l.getD j false) (List.range 8) 0#8 hk
      simpa [packBits, byteAt, hk] using h
    | succ i =>
      have h := ih (l.drop 8) (i := i) (by omega)
      have hshift : 8 * (i + 1) + k = 8 + (8 * i + k) := by omega
      rw [hshift]
      simpa [packBits, byteAt] using h

/-- A table of numbered cells. -/
theorem find_range_map {α : Type} (z : α) (f : Nat → α) {n k : Nat} (hk : k < n) : Tab.find z ((List.range n).map (fun i => (i, f i))) k = f k := by
  have hkey : k ∈ ((List.range n).map (fun i => (i, z))).map (·.1) := by simpa using hk
  have h := find_map_key z (fun i _ => f i) ((List.range n).map (fun i => (i, z))) k hkey
  rwa [List.map_map] at h

/-! ### The boundary register -/

/-- The balls captured: nothing but open values is drawn, and a ball whose level is known shows it. -/
theorem captureBalls_levels (d : Dev) (n : Nat) : (∃ c, (d.captureBalls n).2 = { d with freeCtr := c }) ∧ (d.captureBalls n).1.length = n
    ∧ ∀ k v, k < n → d.ballLevel k = some v → (d.captureBalls n).1.getD k false = v := by
  induction n with
  | zero => exact ⟨⟨_, rfl⟩, rfl, fun k v hk => by omega⟩
  | succ n ih =>
    obtain ⟨⟨c, hc⟩, hlen, hlev⟩ := ih
    have hnext : ∃ b, (d.captureBalls (n + 1)).1 = (d.captureBalls n).1 ++ [b] ∧ (∀ v, d.ballLevel n = some v → b = v)
        ∧ ∃ c, (d.captureBalls (n + 1)).2 = { d with freeCtr := c } := by
      cases h : d.ballLevel n with
      | some v =>
        have hs : d.captureBalls (n + 1) = ((d.captureBalls n).1 ++ [v], (d.captureBalls n).2) := by rw [Dev.captureBalls, h]
        exact ⟨v, by rw [hs], fun w hw => Option.some.inj hw, c, by rw [hs]; exact hc⟩
      | none =>
        have hs : d.captureBalls (n + 1) = ((d.captureBalls n).1 ++ [(d.captureBalls n).2.fresh.1.getLsbD 0], (d.captureBalls n).2.fresh.2) := by
          rw [Dev.captureBalls, h]
        exact ⟨_, by rw [hs], nofun, c + 1, by rw [hs, hc]; rfl⟩
    obtain ⟨b, hb, hval, hframe⟩ := hnext
    refine ⟨hframe, by rw [hb, List.length_append, hlen]; rfl, fun k v hk hv => ?_⟩
    rw [hb]
    by_cases hkn : k < n
    · rw [List.getD_append _ _ _ _ (by omega)]
      exact hlev k v hkn hv
    · obtain rfl : k = n := by omega
      rw [List.getD_append_right _ _ _ _ (by omega), hlen]
      simpa using hval v hv

theorem loadTap_onTap (d : Dev) (i : TapInstr) (bs : List Byte) (b : Tab Bool) :
    ((d.loadTap i bs).onTap (fun j => { j with boundary := b })).jtag.capture = bs := rfl

theorem onTap_boundary (d : Dev) (b : Tab Bool) : (d.onTap (fun j => { j with boundary := b })).jtag.boundary = b := rfl

/-- The cells of a scan of the boundary register: what was shifted in is kept, and every level that is known was captured. -/
theorem scanBoundary_scans (d : Dev) (i : TapInstr) (cells : List Bool) :
    (∃ c, d.scanBoundary i cells = { d with freeCtr := c, jtag := (d.scanBoundary i cells).jtag }) ∧ (d.scanBoundary i cells).jtag.instr = i
    ∧ (d.scanBoundary i cells).jtag.driving = i.drives ∧ (d.scanBoundary i cells).jtag.hiz = (i == .highz)
    ∧ (∀ k, k < boundaryCells → Tab.find false (d.scanBoundary i cells).jtag.boundary k = cells.getD k false)
    ∧ ∀ n v, n < boundaryCells → d.ballLevel n = some v → (byteAt (d.scanBoundary i cells).jtag.capture (n / 8)).getLsbD (n % 8) = v := by
  obtain ⟨⟨c, hc⟩, -, hlev⟩ := captureBalls_levels d boundaryCells
  have hcapture : (d.scanBoundary i cells).jtag.capture = packBits ((boundaryCells + 7) / 8) (d.captureBalls boundaryCells).1 := by
    unfold Dev.scanBoundary
    exact loadTap_onTap _ _ _ _
  have hboundary : (d.scanBoundary i cells).jtag.boundary = (List.range boundaryCells).map (fun k => (k, cells.getD k false)) := by
    unfold Dev.scanBoundary
    exact onTap_boundary _ _
  refine ⟨⟨c, ?_⟩, rfl, rfl, rfl, fun k hk => ?_, fun n v hn hv => ?_⟩
  · unfold Dev.scanBoundary Dev.loadTap
    generalize boundaryCells = b at hc ⊢
    dsimp only
    rw [hc]
    rfl
  · rw [hboundary]
    exact find_range_map _ _ hk
  · rw [hcapture, packBits_getLsbD _ _ (by omega) (by omega), Nat.div_add_mod]
    exact hlev n v hn hv

/-! ### Codes (R490) -/

theorem tap_runs {code : Byte} {k : TapInstr} {run : Dev → Dev} (hcode : tapInstrOf code = k) (hk : k ≠ .bypass) (ha : d.tapAllows k = true) :
    d.tap code run = run d := by
  unfold Dev.tap Dev.tapInForce
  rw [hcode, if_pos ha, if_neg hk]

theorem tapInForce_refused {code : Byte} {k : TapInstr} (hcode : tapInstrOf code = k) (ha : d.tapAllows k = false) : d.tapInForce code = .bypass := by
  unfold Dev.tapInForce
  rw [hcode]
  exact if_neg (by simp [ha])

end Sys2Proof.Machine
end

section
/-! PROOFS. The statement on the instructions of the test access port. -/
namespace Sys2Proof.Proofs
open Sys2Proof.Machine

variable {s : State} {i : Instr} {e : Dev} {code : Byte} {k : TapInstr} {run : Dev → Dev}

/-- A row that changes the test access port. -/
theorem keep_tap (hrow : exec i s = s.keep e) (hc : e.cores = s.dev.cores) : ∃ t, exec i s = .next t ∧ Keeps s t ∧ t.dev.jtag = e.jtag :=
  ⟨_, hrow, keeps_of_cores hc, rfl⟩

/-- An instruction that is allowed does what it does. -/
theorem tap_row (hrow : exec i s = s.keep (s.dev.tap code run)) (hcode : tapInstrOf code = k) (hk : k ≠ .bypass) (ha : s.dev.tapAllows k = true)
    (hc : (run s.dev).cores = s.dev.cores) : ∃ t, exec i s = .next t ∧ Keeps s t ∧ t.dev.jtag = (run s.dev).jtag := by
  rw [tap_runs hcode hk ha] at hrow
  exact keep_tap hrow hc

/-- A scan of the boundary register that is allowed. -/
theorem scan_row (cells : List Bool) (hrow : exec i s = s.keep (s.dev.tap code (fun d => d.scanBoundary k cells))) (hcode : tapInstrOf code = k)
    (hk : k ≠ .bypass) (hz : k ≠ .highz) (ha : s.dev.tapAllows k = true) :
    ∃ t, exec i s = .next t ∧ Keeps s t ∧ t.dev.jtag.instr = k ∧ t.dev.jtag.driving = k.drives ∧ t.dev.jtag.hiz = false
      ∧ (∀ n, n < boundaryCells → Tab.find false t.dev.jtag.boundary n = cells.getD n false)
      ∧ ∀ n v, n < boundaryCells → s.dev.ballLevel n = some v → (byteAt t.dev.jtag.capture (n / 8)).getLsbD (n % 8) = v := by
  obtain ⟨⟨c, hframe⟩, hinstr, hdriving, hhiz, hkept, hlevels⟩ := scanBoundary_scans s.dev k cells
  obtain ⟨t, ht, hkeeps, hj⟩ := tap_row hrow hcode hk ha (by rw [hframe])
  refine ⟨t, ht, hkeeps, by rw [hj, hinstr], by rw [hj, hdriving], ?_, by rwa [hj], by rwa [hj]⟩
  rw [hj, hhiz]
  exact beq_eq_false_iff_ne.mpr hz

/-- A code under which BYPASS is in force. -/
theorem bypass_row (hrow : exec i s = s.keep (s.dev.tap code run)) (hforce : s.dev.tapInForce code = .bypass) :
    ∃ t, exec i s = .next t ∧ Keeps s t ∧ t.dev.jtag.instr = .bypass ∧ t.dev.jtag.driving = false ∧ t.dev.jtag.hiz = false
      ∧ t.dev.jtag.capture = [0#8] ∧ t.dev.jtag.irCapture = s.dev.captureIr := by
  rw [show s.dev.tap code run = _ from if_pos hforce] at hrow
  obtain ⟨t, ht, hkeeps, hj⟩ := keep_tap hrow rfl
  refine ⟨t, ht, hkeeps, ?_⟩
  rw [hj]
  exact ⟨rfl, rfl, rfl, rfl, rfl⟩

/-- An instruction that loads what it captures and shifts nothing in. -/
theorem load_row {bs : Dev → List Byte} (hrow : exec i s = s.keep (s.dev.tap code (fun d => d.loadTap k (bs d)))) (hcode : tapInstrOf code = k) (hk : k ≠ .bypass)
    (ha : s.dev.tapAllows k = true) :
    ∃ t, exec i s = .next t ∧ Keeps s t ∧ t.dev.jtag.instr = k ∧ t.dev.jtag.driving = k.drives ∧ t.dev.jtag.hiz = (k == .highz)
      ∧ t.dev.jtag.capture = bs s.dev ∧ t.dev.jtag.irCapture = s.dev.captureIr ∧ t.dev.jtag.boundary = s.dev.jtag.boundary := by
  obtain ⟨t, ht, hkeeps, hj⟩ := tap_row hrow hcode hk ha rfl
  refine ⟨t, ht, hkeeps, ?_⟩
  rw [hj]
  exact ⟨rfl, rfl, rfl, rfl, rfl, rfl⟩

/-- Settles O56, instruction by instruction. -/
theorem scansLoadTheirInstruction : Obligations.ScansLoadTheirInstruction := by
  unfold Obligations.ScansLoadTheirInstruction
  intro s cells d loads bypass scanned
  have hscan := fun {i : Instr} {code : Byte} {k : TapInstr} => scan_row (s := s) (i := i) (code := code) (k := k) cells
  refine ⟨?_, ?_, ?_, ?_, hscan rfl rfl nofun nofun rfl, fun hallowed => ?_, fun hm hr => ?_⟩
  · obtain ⟨t, ht, hk, hj⟩ := keep_tap (s := s) (i := .jtagTestLogicReset) rfl rfl
    refine ⟨t, ht, hk, ?_⟩
    rw [hj]
    exact ⟨rfl, rfl, rfl, rfl⟩
  · obtain ⟨t, ht, hk, hi, hd, hz, hc, hir, -⟩ := load_row (s := s) (i := .idcode) (code := 0x02#8) (k := .idcode) (bs := fun d => bytesOfWord d.idcodeWord) rfl rfl nofun rfl
    exact ⟨t, ht, hk, hi, hd, hz, hc, hir⟩
  · obtain ⟨t, ht, hk, hi, hd, hz, hc, hir⟩ := bypass_row (s := s) (i := .bypass) (code := 0xFF#8) rfl rfl
    exact ⟨t, ht, hk, hi, hd, hz, hc, hir⟩
  · obtain ⟨t, ht, hk, hi, hd, hz, hc, -⟩ := load_row (s := s) (i := .dbgStat) (code := 0x22#8) (k := .dbgStat) (bs := fun d => bytesOfWord d.dbgStat) rfl rfl nofun rfl
    exact ⟨t, ht, hk, hi, hd, hz, hc⟩
  · have ha : (s.dev.mode.mode == mTest || s.dev.resetLow) = true := by simpa using hallowed
    refine ⟨hscan rfl rfl nofun nofun ha, hscan rfl rfl nofun nofun ha, hscan rfl rfl nofun nofun ha, ?_, ?_⟩
    · obtain ⟨t, ht, hk, hi, hd, hz, -, -, hb⟩ := load_row (s := s) (i := .clamp) (code := 0x03#8) (k := .clamp) (bs := fun _ => [0#8]) rfl rfl nofun ha
      exact ⟨t, ht, hk, hi, hd, hz, hb⟩
    · obtain ⟨t, ht, hk, hi, hd, hz, -, -, hb⟩ := load_row (s := s) (i := .highz) (code := 0x04#8) (k := .highz) (bs := fun _ => [0#8]) rfl rfl nofun ha
      exact ⟨t, ht, hk, hi, hd, hz, hb⟩
  · have ha : (s.dev.mode.mode == mTest || s.dev.resetLow) = false := by
      simp only [Bool.or_eq_false_iff, beq_eq_false_iff_ne]
      exact ⟨hm, hr⟩
    intro i hi
    simp only [List.mem_cons, List.not_mem_nil, or_false] at hi
    obtain rfl | rfl | rfl | rfl | rfl := hi
    · exact bypass_row (code := 0x00#8) rfl (tapInForce_refused rfl ha)
    · exact bypass_row (code := 0x05#8) rfl (tapInForce_refused rfl ha)
    · exact bypass_row (code := 0x06#8) rfl (tapInForce_refused rfl ha)
    · exact bypass_row (code := 0x03#8) rfl (tapInForce_refused rfl ha)
    · exact bypass_row (code := 0x04#8) rfl (tapInForce_refused rfl ha)

end Sys2Proof.Proofs
end

section
/-! PROOFS. The statement on debug access over JTAG, which fails where a read of the test access port bears a core's requester number: its late response is
counted at the requester that it names (Dev.countDelay, R231), a core's DECK_DLY counter, where the statement lets no core change. -/
namespace Sys2Proof.Proofs
open Sys2Proof.Machine

/-- A read for the test access port under the number of core 0, answered late. -/
def misnamedRead : Txn := { newTxn 0 0#12 1#2 .rd 0x08200000#32 .debug with st := .answered (.data true [wordZero]) }

/-- A part right after reset, but for that read. -/
def misnamedDebug : State := { State.reset with dev := { txns := [misnamedRead] } }

/-- Whether the cores are as they were after an instruction. -/
def coresUntouched (i : Instr) (s : State) : Bool :=
  match exec i s with
  | .next t => t.dev.cores.isEmpty == s.dev.cores.isEmpty
  | .fault _ | .refused _ => true

/-- The response is counted at core 0. -/
theorem misnamedDebug_counts : coresUntouched (.deckDataReturn 0) misnamedDebug = false := by decide +kernel

/-- An answered transaction is in nothing's way. -/
theorem misnamedDebug_freeWay : misnamedDebug.dev.freeWay := by
  refine ⟨fun t ht => ?_, fun g => ?_, by decide +kernel⟩
  · rw [List.mem_singleton.mp ht]
    exact ⟨rfl, nofun⟩
  · have hlen : (misnamedDebug.dev.txns.filter (fun t => t.buffered && t.target == some g)).length ≤ 1 := List.length_filter_le _ _
    unfold Dev.fillAt
    omega

/-- Refutes O57: the response of a read of the test access port, where it comes late and names core 0 as its requester, changes core 0. -/
theorem not_debugAccess : ¬ Obligations.DebugAccess := by
  unfold Obligations.DebugAccess
  intro h
  obtain ⟨-, -, -, hdata, -⟩ := h misnamedDebug false 0#32 0#32 [] []
  obtain ⟨t, ht, ⟨-, -, hcores⟩, -⟩ := hdata 0 misnamedRead true wordZero rfl misnamedDebug_freeWay rfl rfl rfl
  have hkept : coresUntouched (.deckDataReturn 0) misnamedDebug = true := by
    unfold coresUntouched
    rw [ht]
    dsimp only
    rw [hcores]
    exact beq_self_eq_true _
  rw [misnamedDebug_counts] at hkept
  cases hkept

end Sys2Proof.Proofs
end

section
/-! SUPPORT. The security engine: its checks, its challenges, the tokens that it judges (R453, R464, R466). -/
namespace Sys2Proof.Machine

variable {d e : Dev} {src : CmdSrc}

/-! ### The checks of an image (R453) -/

/-- An image that passes the checks is of a type that its command allows. -/
theorem check_type {c : Sec} {bs : List Byte} {len : Nat} {types : List Byte} (h : c.check bs len types = .good) : imageType bs ∈ types := by
  have hheader : headerGood bs len types = true := by
    by_contra hn
    unfold Sec.check at h
    rw [if_pos (by simpa using hn)] at h
    cases h
  simp only [headerGood, Bool.and_eq_true] at hheader
  obtain ⟨⟨⟨⟨⟨-, ht⟩, -⟩, -⟩, -⟩, -⟩ := hheader
  exact List.contains_iff_mem.mp ht

theorem checkStored_type {c : Sec} {m : List Host.Cell} {addr len : Nat} {ty : Byte} {bad : Option Nat}
    (h : c.checkStored m addr len [ty] bad = .good) : imageType (imageBytes m addr len) = ty := by
  unfold Sec.checkStored at h
  cases bad with
  | some n => cases h
  | none => exact List.mem_singleton.mp (check_type h)

/-- A check noted: what it says of the engine, and that nothing else changed but a raise. -/
theorem noteCheck_notes (v : Verdict) : ∃ c, Dev.Raised { d with sec := c } (d.noteCheck v) ∧ c.busy = d.sec.busy
    ∧ c.fails = (match v with
      | .unread _ | .good => d.sec.fails
      | .auth _ | .rollback _ => satInc d.sec.fails) := by
  cases v with
  | good => exact ⟨_, .refl _, rfl, rfl⟩
  | auth x => exact ⟨_, raise_raised _ _ _, rfl, rfl⟩
  | rollback x => exact ⟨_, raise_raised _ _ _, rfl, rfl⟩
  | unread n => exact ⟨d.sec, .refl d, rfl, rfl⟩

/-- With no copy under way none goes on. -/
theorem copyOn_none (h : d.ks.copies = []) : d.copyOn = d := by
  unfold Dev.copyOn Dev.pumpCopies
  split
  · rfl
  · rw [h]

/-! ### Challenges and tokens (R464, R465) -/

/-- Open values drawn one after another. -/
theorem drawWords_length (l : List Nat) (ws : List W32) (d : Dev) :
    ∃ vs n, l.foldl (fun (x : List W32 × Dev) _ => (x.1 ++ [x.2.fresh.1], x.2.fresh.2)) (ws, d) = (ws ++ vs, { d with freeCtr := n }) ∧ vs.length = l.length := by
  induction l generalizing ws d with
  | nil => exact ⟨[], _, by rw [List.append_nil]; rfl, rfl⟩
  | cons a l ih =>
    obtain ⟨vs, n, hfold, hlen⟩ := ih (ws ++ [d.fresh.1]) d.fresh.2
    refine ⟨d.fresh.1 :: vs, n, ?_, by rw [List.length_cons, List.length_cons, hlen]⟩
    rw [List.foldl_cons, hfold, List.append_assoc]
    rfl

theorem bytesOfWords_length (ws : List W32) : (bytesOfWords ws).length = 4 * ws.length := by
  induction ws with
  | nil => rfl
  | cons w ws ih =>
    have hcons : bytesOfWords (w :: ws) = bytesOfWord w ++ bytesOfWords ws := rfl
    rw [hcons, List.length_append, ih, List.length_cons]
    show 4 + _ = _
    omega

/-- A fresh challenge of 32 bytes takes the place of any other. -/
theorem newChallenge_fresh (d : Dev) : ∃ bs n, bs.length = 32
    ∧ d.newChallenge = (bs, ({ d with freeCtr := n, sec := { d.sec with challenge := some (bs, d.clk) } } : Dev).strobe 0xF05) := by
  obtain ⟨vs, n, hfold, hlen⟩ := drawWords_length (List.range 8) [] d
  refine ⟨bytesOfWords vs, n, by rw [bytesOfWords_length, hlen]; rfl, ?_⟩
  unfold Dev.newChallenge
  dsimp only
  rw [hfold]
  rfl

/-- A token whose fields are not legal is refused, and the challenge used up. -/
theorem submitToken_illegal {tok : List Byte} {o : Nat} (h : badToken tok = some o) : d.submitToken tok = (stBadParam, BitVec.ofNat 16 o, d.spend 3#3) := by
  unfold Dev.submitToken
  rw [h]

/-- A token that is legal, in time and rightly signed opens its scope. -/
theorem submitToken_opens {tok : List Byte} (h : badToken tok = none) (hmet : d.challengeMet tok = true) (hv : ∃ v ∈ d.sec.tokenVerdicts tok, v = .good) :
    ∃ c, d.submitToken tok = (stDone, 0#16, ({ d with sec := c } : Dev).raise 737 0 0#16) ∧ c.challenge = none
      ∧ c.dbgScope = d.sec.dbgScope ||| BitVec.ofNat 4 (leNat tok 32 4) := by
  have hjudge : d.judgeToken tok = (.good, d) := by
    obtain ⟨v, hmem, rfl⟩ := hv
    have hany : (d.sec.tokenVerdicts tok).any (fun v => v == .good) = true := List.any_eq_true.mpr ⟨_, hmem, beq_self_eq_true _⟩
    unfold Dev.judgeToken
    rw [hmet]
    exact (if_neg (by simp)).trans (if_pos hany)
  unfold Dev.submitToken
  rw [h, hjudge]
  exact ⟨_, rfl, rfl, rfl⟩

/-! ### The engine for a command (R466) -/

/-- The engine after an operation of its own. -/
def Sec.freed (c : Sec) : Sec := { c with busy := false, todo := [], rdBad := none, subject := none }

/-- With nothing to read the engine reads nothing. -/
theorem engineReadN_none (n : Nat) (h : d.sec.todo = []) : Dev.engineReadN n d = d := by
  cases n with
  | zero => rfl
  | succ n =>
    unfold Dev.engineReadN
    split
    · rfl
    · rw [h]

/-- An idle engine serves a command that needs no reads at once. -/
theorem engineFor_idle (hi : d.engineIdle) (go : Option Nat → Dev → Eff) : d.engineFor src [] go = go none { d with sec := d.sec.freed } := by
  obtain ⟨hbusy, hreads⟩ := hi
  have hstart : d.engineStart [] (some src) = { d with sec := { d.sec with busy := true, todo := [], rdBad := none, subject := some src } } :=
    engineReadN_none 8 rfl
  have hnone : d.txns.any (fun t => t.origin == .engine) = false := List.any_eq_false.mpr (fun t ht => by simpa using hreads t ht)
  have htxns : d.txns.map (fun t => if t.origin == .engine then { t with origin := .discard } else t) = d.txns :=
    (List.map_congr_left (fun t ht => if_neg (by simpa using hreads t ht))).trans (List.map_id _)
  unfold Dev.engineFor
  extract_lets e
  have he : e = { d with sec := { d.sec with busy := true, todo := [], rdBad := none, subject := some src } } := (if_neg (by simp [hbusy])).trans hstart
  have hfree : e.engineFree = { d with sec := d.sec.freed } := by
    rw [he]
    unfold Dev.engineFree
    dsimp only
    rw [htxns]
    rfl
  rw [hfree, he]
  exact if_pos (by simp [Dev.engineDone, hnone])

/-- While the engine serves something else a command waits for it. -/
theorem engineFor_busy (hb : d.engineBusy = true) (hs : d.sec.subject ≠ some src) (runs : List (Nat × Nat)) (go : Option Nat → Dev → Eff) :
    d.engineFor src runs go = (d.ksWait (d.progOf src), []) := by
  unfold Dev.engineFor
  rw [hb, if_pos rfl]
  exact if_neg (by simp [hs])

/-! ### Firmware slots read (R259, R453) -/

/-- From d to e words of code store were read and an image was checked: no core and nothing of Keystone changed. -/
def Dev.Reads (d e : Dev) : Prop := e.cores = d.cores ∧ e.ks = d.ks

theorem Dev.Reads.trans {f : Dev} (h : d.Reads e) (g : e.Reads f) : d.Reads f := ⟨g.1.trans h.1, g.2.trans h.2⟩

theorem Dev.Reads.foldl {α : Type} {f : Dev → α → Dev} (hf : ∀ (x : Dev) a, x.Reads (f x a)) (l : List α) (d : Dev) : d.Reads (l.foldl f d) := by
  induction l generalizing d with
  | nil => exact ⟨rfl, rfl⟩
  | cons a l ih => exact (hf d a).trans (ih _)

theorem Dev.Raised.reads (h : d.Raised e) : d.Reads e := by
  obtain ⟨_, _, _, rfl⟩ := h
  exact ⟨rfl, rfl⟩

theorem readLine_reads (line : Nat) (f : Finds) : d.Reads (d.readLine line f) := by
  unfold Dev.readLine
  extract_lets w ids bad ones d1 d2
  have h1 : d.Reads d1 := by
    refine .foldl (fun x i => ?_) _ _
    exact ⟨rfl, rfl⟩
  have h2 : d.Reads d2 := by
    unfold d2
    split
    · exact h1
    · exact h1.trans ⟨rfl, rfl⟩
  split
  · exact h2
  · exact h2.trans (Dev.Reads.trans (e := d2.onSpan _ _) ⟨rfl, rfl⟩ (raise_raised _ _ _).reads)

theorem checkSlot_reads (m : List Host.Cell) (b : Bool) : d.Reads (d.checkSlot m b).2 := by
  have hspan : d.Reads (d.readSpan (slotBase b) ((slotLen m b + 3) / 4)).2 := .foldl (fun _ _ => readLine_reads _ _) _ _
  obtain ⟨c, hr, -⟩ := noteCheck_notes (d := (d.readSpan (slotBase b) ((slotLen m b + 3) / 4)).2) (d.checkSlot m b).1
  exact hspan.trans (Dev.Reads.trans (e := { (d.readSpan (slotBase b) ((slotLen m b + 3) / 4)).2 with sec := c }) ⟨rfl, rfl⟩ hr.reads)

theorem revokeOther_reads (m : List Host.Cell) (b r : Bool) : d.Reads (d.revokeOther m b r) := by
  unfold Dev.revokeOther
  split
  · split <;> exact ⟨rfl, rfl⟩
  · exact ⟨rfl, rfl⟩

/-! ### The end of a verification (R453) -/

/-- From d to e the check of an image has ended: the engine is free, the check is noted, and the command and its copy stand yet. -/
structure Dev.Verified (d e : Dev) (v : Verdict) : Prop where
  cores : e.cores = d.cores
  ks : e.ks = d.ks
  busy : e.sec.busy = false
  fails : e.sec.fails = (match v with
    | .unread _ | .good => d.sec.fails
    | .auth _ | .rollback _ => satInc d.sec.fails)

theorem noteCheck_verified (v : Verdict) : d.Verified ((d.engineFree.strobe 0xF02).noteCheck v) v := by
  obtain ⟨c, hr, hbusy, hfails⟩ := noteCheck_notes (d := d.engineFree.strobe 0xF02) v
  have hs : d.engineFree.Accessed (d.engineFree.strobe 0xF02) := strobe_accessed _
  have hnoted := hr.reads
  have hks : (d.engineFree.strobe 0xF02).ks = d.ks := rfl
  have hsec : ((d.engineFree.strobe 0xF02).noteCheck v).sec = c := by
    obtain ⟨_, _, _, h⟩ := hr
    rw [h]
  exact ⟨hnoted.1, hnoted.2, by rw [hsec, hbusy, hs.sec]; rfl, by rw [hsec, hfails, hs.sec]; rfl⟩

end Sys2Proof.Machine
end

section
/-! PROOFS. The statement on the security engine. -/
namespace Sys2Proof.Proofs
open Sys2Proof.Machine

variable {s : State} {src : CmdSrc} {i : Instr}

/-! ### Images (R453) -/

section
variable {d e : Dev} {m : List Host.Cell} {c : Copy} {j : Job} {p : Port} {addr : W32} {v : Verdict}
variable (hjobs : d.ks.jobs = [j]) (hcopies : d.ks.copies = [c]) (hsrc : j.src = .port p) (hkind : j.kind = .loopLoad addr) (hlate : j.late = 0)
include hjobs hcopies hsrc hkind hlate

/-- A copy whose image passes the checks ends in an image of Keystone's list, and its command DONE. -/
theorem verifyHead_lists (hv : d.sec.checkStored m c.dest c.len [2#8] d.sec.rdBad = .good) :
    (d.verifyHead m c j).cores = d.cores ∧ (d.verifyHead m c j).ks.jobs = [] ∧ ((d.verifyHead m c j).port p).final = (false, true, stDone ++ 0#16)
      ∧ (d.verifyHead m c j).ks.copies = [] ∧ (d.verifyHead m c j).sec.busy = false
      ∧ ∃ i ∈ (d.verifyHead m c j).ks.images, i.addr = BitVec.ofNat 32 c.dest ∧ i.len = c.len ∧ i.type = 2#8
        ∧ i.digest = imageDigest (imageBytes m c.dest c.len) := by
  let bs := imageBytes m c.dest c.len
  have htype : imageType bs = 2#8 := checkStored_type hv
  let img : Image := { addr := BitVec.ofNat 32 c.dest, len := c.len, type := imageType bs, entry := BitVec.ofNat 32 c.dest + 880#32 + leWord bs 8,
                       verified := false, digest := imageDigest bs }
  have hnoted := noteCheck_verified (d := d) .good
  generalize hx : (d.engineFree.strobe 0xF02).noteCheck .good = x at hnoted
  let z := (x.listImage img).endCopy c
  have hzjobs : z.ks.jobs = [j] := (congrArg Keystone.jobs hnoted.ks).trans hjobs
  have hzcopies : z.ks.copies = [] := by
    show x.ks.copies.filter (fun y => y != c) = []
    rw [hnoted.ks, hcopies]
    simp
  have hend := endJob_speaks z j stDone 0#16
  have hbody : d.verifyHead m c j = z.endJob j stDone 0#16 := by
    unfold Dev.verifyHead
    rw [show j.kind.types = [2#8] by rw [hkind]; rfl, hv]
    dsimp only
    rw [if_neg (by simp [show imageType (imageBytes m c.dest c.len) = 2#8 from htype]), hx]
    unfold Dev.installImage
    rw [hkind]
    exact copyOn_none (hend.copies.trans hzcopies)
  obtain ⟨hnone, hfinal⟩ := endJob_ends hzjobs hsrc hlate stDone 0#16
  rw [hbody]
  refine ⟨hend.cores.trans hnoted.cores, hnone, hfinal, hend.copies.trans hzcopies, ?_, img, ?_, rfl, rfl, htype, rfl⟩
  · rw [hend.sec]
    exact hnoted.busy
  · rw [hend.images]
    exact List.mem_append_right _ (List.mem_singleton.mpr rfl)

/-- A copy whose image does not pass is dropped, and its command ends with what the check found. -/
theorem verifyHead_drops (hc : c.src = .port p) (hv : d.sec.checkStored m c.dest c.len [2#8] d.sec.rdBad = v) (hbad : v ≠ .good) :
    (d.verifyHead m c j).cores = d.cores ∧ (d.verifyHead m c j).ks.jobs = [] ∧ ((d.verifyHead m c j).port p).final = (false, true, v.status ++ v.detail)
      ∧ (d.verifyHead m c j).ks.copies = [] ∧ (d.verifyHead m c j).sec.busy = false ∧ (d.verifyHead m c j).ks.images = d.ks.images
      ∧ (d.verifyHead m c j).sec.fails = (match (generalizing := false) v with
        | .unread _ => d.sec.fails
        | .good | .auth _ | .rollback _ => satInc d.sec.fails) := by
  have hnoted := noteCheck_verified (d := d) v
  generalize hx : (d.engineFree.strobe 0xF02).noteCheck v = x at hnoted
  let z := x.onKs (fun k => { k with copies := k.copies.filter (fun y => y != c) })
  have hzjobs : z.ks.jobs = [j] := (congrArg Keystone.jobs hnoted.ks).trans hjobs
  have hzcopies : z.ks.copies = [] := by
    show x.ks.copies.filter (fun y => y != c) = []
    rw [hnoted.ks, hcopies]
    simp
  have hpick : j.copies c = true := by
    unfold Job.copies
    rw [hsrc, hc, hkind]
    simp
  have hundo : j.isUndo = false := by
    unfold Job.isUndo
    rw [hkind]
  have hremains : j.remains = [] := by
    unfold Job.remains
    rw [hkind]
  have hdropped : x.dropCopy c v.status v.detail = z.endJobs (fun j => j.copies c) v.status v.detail := rfl
  obtain ⟨hnone, hfinal⟩ := endJobs_ends (pick := fun j => j.copies c) hzjobs hpick hundo hremains hsrc hlate v.status v.detail
  have hjobless : z.jobless.Speaks (z.endJobs (fun j => j.copies c) v.status v.detail) := by
    rw [endJobs_alone hzjobs hpick hundo hremains]
    exact (finalResult_talks _ _ _).speaks
  have hbody : d.verifyHead m c j = x.dropCopy c v.status v.detail := by
    unfold Dev.verifyHead
    rw [show j.kind.types = [2#8] by rw [hkind]; rfl, hv]
    dsimp only
    rw [if_neg (by simp [hbad]), hx]
    have hon : (x.dropCopy c v.status v.detail).copyOn = x.dropCopy c v.status v.detail := copyOn_none (hjobless.copies.trans hzcopies)
    cases v with
    | good => exact absurd rfl hbad
    | auth _ => exact hon
    | rollback _ => exact hon
    | unread _ => exact hon
  rw [hbody, hdropped]
  refine ⟨hjobless.cores.trans hnoted.cores, hnone, hfinal, hjobless.copies.trans hzcopies, ?_, ?_, ?_⟩
  · rw [hjobless.sec]
    exact hnoted.busy
  · exact hjobless.images.trans (show z.jobless.ks.images = _ from (congrArg Keystone.images hnoted.ks :))
  · rw [hjobless.sec]
    refine hnoted.fails.trans ?_
    cases v with
    | good => exact absurd rfl hbad
    | auth _ => rfl
    | rollback _ => rfl
    | unread _ => rfl

end

/-- The row that ends a verification. -/
theorem verifyDone_row {p : Port} {j : Job} {c : Copy} {addr : W32} (hjobs : s.dev.ks.jobs = [j]) (hcopies : s.dev.ks.copies = [c]) (hsrc : j.src = .port p)
    (hc : c.src = .port p) (hkind : j.kind = .loopLoad addr) (hbusy : s.dev.sec.busy = true) (hsub : s.dev.sec.subject = none)
    (hdone : s.dev.engineDone = true) (hlines : c.lines ≤ c.next) (hcores : (s.dev.verifyHead s.mem c j).cores = s.dev.cores)
    {st det : BitVec 16} (hnone : (s.dev.verifyHead s.mem c j).ks.jobs = [])
    (hfinal : ((s.dev.verifyHead s.mem c j).port p).final = (false, true, st ++ det)) :
    ∃ t, exec .secVerifyDone s = .next t ∧ Keeps s t ∧ Ended t p st det ∧ t.dev.ks = (s.dev.verifyHead s.mem c j).ks
      ∧ t.dev.sec = (s.dev.verifyHead s.mem c j).sec := by
  have hrow : exec .secVerifyDone s = s.commit (settleEff s.mem (s.dev.verifyHead s.mem c j, [])) := by
    refine congrArg s.commit ?_
    rw [hcopies, hjobs]
    have hpick : j.copies c = true := by
      unfold Job.copies
      rw [hsrc, hc, hkind]
      simp
    simp [hpick, hbusy, hsub, hdone, hlines]
  rw [settleEff_calm _ hnone, State.commit_eq] at hrow
  simp only [PortSt.final, Prod.mk.injEq] at hfinal
  refine ⟨_, hrow, keeps_of_cores hcores, ⟨hnone, ?_⟩, rfl, rfl⟩
  rw [Dev.port_seen]
  exact hfinal

/-! ### SEC_UNLOCK (R464 to R466) -/

/-- What R351 states of SEC_UNLOCK. -/
def secUnlockSpec : CmdSpec :=
  { op := 0x0803, len := fun n _ => n == 4 || n == 3412, modes := [mCommission, mStandby, mTest], changes := true }

section
variable (ha : s.dev.admits src secUnlockSpec)
include ha

theorem secUnlock_challenges (hlen : s.dev.lenWord src = 4) (hz : s.dev.payZero src 0 4 = true) :
    ∃ t bs, exec (.secUnlock src) s = .next t ∧ Keeps s t ∧ t.dev.sec.challenge = some (bs, s.dev.clk) ∧ bs.length = 32
      ∧ Replied s t src stDone 0#16 (wordsOfBytes bs) := by
  obtain ⟨bs, n, hbs, hnew⟩ := newChallenge_fresh s.dev
  generalize hx : ({ s.dev with freeCtr := n, sec := { s.dev.sec with challenge := some (bs, s.dev.clk) } } : Dev) = x at hnew
  have hxs : x.cores = s.dev.cores ∧ x.ks = s.dev.ks ∧ x.txns = s.dev.txns ∧ x.sec.challenge = some (bs, s.dev.clk) ∧ x.request src = s.dev.request src := by
    subst hx
    exact ⟨rfl, rfl, rfl, rfl, by cases src with | port p => cases p <;> rfl | fwd u p => rfl⟩
  obtain ⟨hcores, hks, htx, hch, hreq⟩ := hxs
  have hy : x.Accessed (x.strobe 0xF05) := strobe_accessed _
  have hbody : s.dev.unlockCmd src = ((x.strobe 0xF05).reply src stDone 0#16 (wordsOfBytes bs), []) := by
    unfold Dev.unlockCmd
    rw [if_pos hlen, hz]
    dsimp only
    rw [if_neg (by simp), hnew]
    rfl
  obtain ⟨-, hcalm, -⟩ := ha.fresh
  obtain ⟨t, ht, hk, hr, hdev⟩ := replied_row (i := .secUnlock src) rfl ha hbody (.inl rfl) (hy.cores.trans hcores)
    (hy.jobs.trans ((congrArg Keystone.jobs hks).trans hcalm)) ((hy.request src).trans hreq) (by rw [hy.txns, htx]; exact admits_txns ha)
  refine ⟨t, bs, ht, hk, ?_, hbs, hr⟩
  rw [hdev, Dev.seen_sec]
  exact (congrArg Sec.challenge ((reply_talks _ _ _ _).speaks.sec.trans hy.sec)).trans hch

theorem secUnlock_waits (hlen : s.dev.lenWord src = 3412) (hb : s.dev.engineBusy = true) (hs : s.dev.sec.subject ≠ some src) :
    ∃ t, exec (.secUnlock src) s = .next t ∧ t.pending = s.pending ∧ t.mem = s.mem ∧ t.dev.waiting src = true ∧ t.dev.begun src = true
      ∧ t.dev.sec.challenge = s.dev.sec.challenge ∧ t.dev.sec.dbgScope = s.dev.sec.dbgScope := by
  obtain ⟨hprog, hcalm, hnego⟩ := ha.fresh
  have hcmd : s.dev.unlockCmd src = (s.dev.ksWait { src := src }, []) := by
    have hprogOf : s.dev.progOf src = { src := src } := by simp [Dev.progOf, hprog]
    unfold Dev.unlockCmd
    rw [if_neg (by rw [hlen]; decide), engineFor_busy hb hs, hprogOf]
  have hwait : (s.dev.ksWait { src := src }).waiting src = true := by
    obtain ⟨-, -, -, -, hw, -⟩ := ha.1
    cases src <;> exact hw
  have htake : s.dev.takeCmd src secUnlockSpec (fun d => d.unlockCmd src) = (s.dev.ksWait { src := src }, []) := by
    have hop : s.dev.opcode src = secUnlockSpec.op := by obtain ⟨-, -, -, -, -, h, -⟩ := ha; exact h
    rw [ha.1.takeCmd (.inl hop), ha.serveCmd, hcmd]
    exact congrArg (·, []) (if_pos hwait)
  have hrow : exec (.secUnlock src) s = s.commit (settleEff s.mem (s.dev.takeCmd src secUnlockSpec (fun d => d.unlockCmd src))) := rfl
  rw [htake, settleEff_calm _ (show (s.dev.ksWait { src := src }).calm from hcalm), State.commit_eq] at hrow
  refine ⟨_, hrow, rfl, rfl, ?_, ?_, rfl, rfl⟩
  · rw [← hwait]
    cases src with
    | port p => simp only [Dev.waiting, Dev.port_seen, Dev.seen_pwr]
    | fwd u p => rfl
  · show ((some ({ src := src } : KsProg)).map (fun p => p.src == src)).getD false = true
    simp

section
variable {tok : List Byte} (htok : (List.range 3412).map (s.dev.pay8 src) = tok) (hlen : s.dev.lenWord src = 3412) (hi : s.dev.engineIdle)
include htok hlen hi

/-- A token submitted while the engine is idle is judged at once. -/
theorem unlockCmd_judges {st det : BitVec 16} {y : Dev}
    (hsub : ({ s.dev with sec := s.dev.sec.freed } : Dev).submitToken tok = (st, det, y)) :
    s.dev.unlockCmd src = (y.reply src st det [], []) := by
  unfold Dev.unlockCmd
  rw [if_neg (by rw [hlen]; decide), engineFor_idle hi]
  have hpay : ({ s.dev with sec := s.dev.sec.freed } : Dev).pay8 src = s.dev.pay8 src := by
    cases src with
    | port p => cases p <;> rfl
    | fwd u p => rfl
  dsimp only
  rw [hpay, htok, hsub]

theorem secUnlock_opens (hb : badToken tok = none) (hmet : s.dev.challengeMet tok = true)
    (hv : ∃ v ∈ s.dev.sec.tokenVerdicts tok, v = .good) :
    ∃ t, exec (.secUnlock src) s = .next t ∧ Keeps s t
      ∧ t.dev.sec.dbgScope = s.dev.sec.dbgScope ||| BitVec.ofNat 4 (leNat tok 32 4)
      ∧ t.dev.sec.challenge = none ∧ t.dev.raising 737 0 ∧ Replied s t src stDone 0#16 [] := by
  obtain ⟨-, hcalm, -⟩ := ha.fresh
  obtain ⟨c, hsub, hch, hscope⟩ := submitToken_opens (d := { s.dev with sec := s.dev.sec.freed }) hb hmet hv
  have hbody := unlockCmd_judges ha htok hlen hi hsub
  have hr : Dev.Raised { s.dev with sec := c } (({ s.dev with sec := c } : Dev).raise 737 0 0#16) := raise_raised _ _ _
  have hraise := raise_raising { s.dev with sec := c } 737 0 0#16
  generalize ({ s.dev with sec := c } : Dev).raise 737 0 0#16 = y at *
  obtain ⟨hcores, hkeeps, hreq, htx⟩ := hr.collected.reports
  have hsec : y.sec = c := by
    obtain ⟨_, _, _, h⟩ := hr
    rw [h]
  obtain ⟨t, ht, hk, hrep, hdev⟩ := replied_row (i := .secUnlock src) rfl ha hbody (.inl rfl) hcores (hkeeps hcalm)
    ((hreq src).trans (by cases src with | port p => cases p <;> rfl | fwd u p => rfl)) (by rw [htx]; exact admits_txns ha)
  have htalks := reply_talks (d := y) src stDone 0#16 []
  have htsec : t.dev.sec = c := by rw [hdev, Dev.seen_sec]; exact htalks.speaks.sec.trans hsec
  refine ⟨t, ht, hk, by rw [htsec]; exact hscope, by rw [htsec]; exact hch, ?_, hrep⟩
  rw [hdev]
  exact htalks.linked.raising hraise

theorem secUnlock_illegal {o : Nat} (hb : badToken tok = some o) :
    ∃ t, exec (.secUnlock src) s = .next t ∧ Keeps s t ∧ t.dev.sec.dbgScope = s.dev.sec.dbgScope ∧ t.dev.sec.challenge = none
      ∧ Replied s t src stBadParam (BitVec.ofNat 16 o) [] := by
  obtain ⟨-, hcalm, -⟩ := ha.fresh
  have hbody := unlockCmd_judges ha htok hlen hi (submitToken_illegal (d := { s.dev with sec := s.dev.sec.freed }) hb)
  obtain ⟨t, ht, hk, hrep, hdev⟩ := replied_row (i := .secUnlock src) rfl ha hbody (.inr rfl) rfl hcalm
    (by cases src with | port p => cases p <;> rfl | fwd u p => rfl) (admits_txns ha)
  have htsec : t.dev.sec = { s.dev.sec.freed with challenge := none, tokRes := 3#3 } := by
    rw [hdev, Dev.seen_sec]
    exact (reply_talks _ _ _ _).speaks.sec
  exact ⟨t, ht, hk, by rw [htsec]; rfl, by rw [htsec], hrep⟩

end

end

/-! ### The live restart (R480) -/

/-- How a live restart ends: in which slot Keystone runs, and whether it went back. -/
structure RestartEnds (d : Dev) (slotB revert : Bool) (ms : BitVec 16) : Prop where
  kbusy : d.ks.kbusy = false
  slot : d.ks.slotB = slotB
  revert : d.ks.revert = revert
  restartMs : d.ks.restartMs = ms
  firmware : d.ks.firmware = true

theorem restarted_ends (d : Dev) (m : List Host.Cell) (slotB revert : Bool) (ms : BitVec 16) : RestartEnds (d.restarted m slotB revert ms) slotB revert ms :=
  ⟨rfl, rfl, rfl, rfl, rfl⟩

section
variable {revokes kicked : Bool} {ms : BitVec 16}

/-- The row that ends a live restart which may end so. -/
theorem restartDone_row {slotB revert : Bool} {e : Dev} (hmay : s.dev.mayRestart s.mem kicked = true)
    (hdone : s.dev.restartDone s.mem revokes kicked ms = e.restarted s.mem slotB revert ms) (hcores : e.cores = s.dev.cores) :
    ∃ t, exec (.keystoneRestartDone revokes kicked ms) s = .next t ∧ Keeps s t ∧ RestartEnds t.dev slotB revert ms
      ∧ (e.raising 722 0 → t.dev.raising 722 0) := by
  have hrow : exec (.keystoneRestartDone revokes kicked ms) s = s.keep (e.restarted s.mem slotB revert ms) := by
    rw [← hdone]
    exact congrArg s.keep (if_pos hmay)
  have hends := restarted_ends e s.mem slotB revert ms
  exact ⟨_, hrow, keeps_of_cores hcores, ⟨hends.kbusy, hends.slot, hends.revert, hends.restartMs, hends.firmware⟩, id⟩

theorem kick_cores (d : Dev) : d.kick.cores = d.cores := by
  unfold Dev.kick
  split <;> rfl

section
variable {w : Nat} (hbusy : s.dev.ks.kbusy = true) (hv : (s.dev.checkSlot s.mem s.dev.ks.restartSlotB).1 = .good) (hgrace : s.dev.ks.graceEnd = some w)
include hbusy hv hgrace

/-- Firmware that verifies and kicks runs on from the new slot. -/
theorem restart_kicks (hk : kicked = true) : ∃ t, exec (.keystoneRestartDone revokes kicked ms) s = .next t ∧ Keeps s t
    ∧ RestartEnds t.dev s.dev.ks.restartSlotB false ms := by
  subst hk
  have hread := (checkSlot_reads (d := s.dev) s.mem s.dev.ks.restartSlotB).trans (revokeOther_reads s.mem s.dev.ks.restartSlotB revokes)
  generalize hx : (s.dev.checkSlot s.mem s.dev.ks.restartSlotB).2.revokeOther s.mem s.dev.ks.restartSlotB revokes = x at hread
  have hdone : s.dev.restartDone s.mem revokes true ms = (if x.ks.graceEnd.isSome then x.kick else x).restarted s.mem s.dev.ks.restartSlotB false ms := by
    unfold Dev.restartDone
    dsimp only
    rw [hv, if_pos rfl, hx, if_neg (by simp)]
    rfl
  obtain ⟨t, ht, hkeeps, hends, -⟩ := restartDone_row (by simp [Dev.mayRestart, hbusy, hgrace]) hdone (by
    split
    · exact (kick_cores x).trans hread.1
    · exact hread.1)
  exact ⟨t, ht, hkeeps, hends⟩

/-- Firmware that verifies and has not kicked when the grace is over gives way to the slot that ran (R445). -/
theorem restart_silent (hk : kicked = false) (hw : w ≤ s.dev.clk) : ∃ t, exec (.keystoneRestartDone revokes kicked ms) s = .next t ∧ Keeps s t
    ∧ RestartEnds t.dev s.dev.ks.slotB true ms ∧ t.dev.raising 722 0 := by
  subst hk
  have hread := (checkSlot_reads (d := s.dev) s.mem s.dev.ks.restartSlotB).trans (revokeOther_reads s.mem s.dev.ks.restartSlotB revokes)
  generalize hx : (s.dev.checkSlot s.mem s.dev.ks.restartSlotB).2.revokeOther s.mem s.dev.ks.restartSlotB revokes = x at hread
  have hraise := raise_raising x 722 0 0#16
  have hraised : x.Reads (x.raise 722 0 0#16) := (raise_raised _ _ _).reads
  have hdone : s.dev.restartDone s.mem revokes false ms
      = ((x.raise 722 0 0#16).onKs (fun k => { k with kicked := false, stopped := false, graceEnd := none })).restarted s.mem s.dev.ks.slotB true ms := by
    unfold Dev.restartDone
    dsimp only
    rw [hv, if_pos rfl, hx, if_neg (by simp), if_neg (by simp), hread.2, hgrace]
    rfl
  obtain ⟨t, ht, hkeeps, hends, hr⟩ := restartDone_row (by simp [Dev.mayRestart, hbusy, hgrace, hw]) hdone (hraised.1.trans hread.1)
  exact ⟨t, ht, hkeeps, hends, hr hraise⟩

end

/-- Firmware that does not verify gives way to the slot that ran. -/
theorem restart_rejected (hbusy : s.dev.ks.kbusy = true) (hv : (s.dev.checkSlot s.mem s.dev.ks.restartSlotB).1 ≠ .good) :
    ∃ t, exec (.keystoneRestartDone revokes kicked ms) s = .next t ∧ Keeps s t ∧ RestartEnds t.dev s.dev.ks.slotB true ms := by
  have hread := checkSlot_reads (d := s.dev) s.mem s.dev.ks.restartSlotB
  have hdone : s.dev.restartDone s.mem revokes kicked ms = (s.dev.checkSlot s.mem s.dev.ks.restartSlotB).2.restarted s.mem s.dev.ks.slotB true ms := by
    unfold Dev.restartDone
    dsimp only
    rw [if_neg hv, if_pos hv]
  obtain ⟨t, ht, hkeeps, hends, -⟩ := restartDone_row (by simp [Dev.mayRestart, hbusy, hv]) hdone hread.1
  exact ⟨t, ht, hkeeps, hends⟩

end

/-- Settles O44, part by part: images, tokens, the relock, the live restart. -/
theorem securityCommands : Obligations.SecurityCommands := by
  unfold Obligations.SecurityCommands
  refine ⟨?_, ?_, fun s req => rfl, ?_⟩
  · intro s p j c addr d bs v hjobs hcopies hsrc hc hkind hlate hbusy hsub hdone hlines
    refine ⟨fun hv => ?_, fun hv => ?_⟩
    · obtain ⟨hcores, hnone, hfinal, hgone, hfree, i, hi, himg⟩ := verifyHead_lists hjobs hcopies hsrc hkind hlate hv
      obtain ⟨t, ht, hk, hend, hks, hsec⟩ := verifyDone_row hjobs hcopies hsrc hc hkind hbusy hsub hdone hlines hcores hnone hfinal
      exact ⟨t, ht, hk, hend, by rw [hks]; exact hgone, by rw [hsec]; exact hfree, i, by rw [hks]; exact hi, himg⟩
    · obtain ⟨hcores, hnone, hfinal, hgone, hfree, himages, hfails⟩ := verifyHead_drops hjobs hcopies hsrc hkind hlate hc rfl hv
      obtain ⟨t, ht, hk, hend, hks, hsec⟩ := verifyDone_row hjobs hcopies hsrc hc hkind hbusy hsub hdone hlines hcores hnone hfinal
      exact ⟨t, ht, hk, hend, by rw [hks]; exact hgone, by rw [hsec]; exact hfree, by rw [hks]; exact himages, by rw [hsec]; exact hfails⟩
  · intro s src
    dsimp only
    generalize htok : (List.range 3412).map (s.dev.pay8 src) = tok
    intro ha
    refine ⟨secUnlock_challenges ha, secUnlock_waits ha, fun hlen hi => ⟨secUnlock_opens ha htok hlen hi, fun o => secUnlock_illegal ha htok hlen hi⟩⟩
  · intro s revokes kicked ms hbusy v ends
    refine ⟨fun w hv hk hg => ?_, fun w hv hk hg hw => ?_, fun hv => ?_⟩
    · obtain ⟨t, ht, hkeeps, h⟩ := restart_kicks (revokes := revokes) (ms := ms) hbusy hv hg hk
      exact ⟨t, ht, hkeeps, h.kbusy, h.slot, h.revert, h.restartMs, h.firmware⟩
    · obtain ⟨t, ht, hkeeps, h, hr⟩ := restart_silent (revokes := revokes) (ms := ms) hbusy hv hg hk hw
      exact ⟨t, ⟨ht, hkeeps, h.kbusy, h.slot, h.revert, h.restartMs, h.firmware⟩, hr⟩
    · obtain ⟨t, ht, hkeeps, h⟩ := restart_rejected (revokes := revokes) (kicked := kicked) (ms := ms) hbusy hv
      exact ⟨t, ht, hkeeps, h.kbusy, h.slot, h.revert, h.restartMs, h.firmware⟩

end Sys2Proof.Proofs
end

section
/-! SUPPORT. What Keystone's work on bound loops leaves alone: the windows, vector lines and banks that follow the bindings, and the loops that are
started, stopped and unbound (R133, R204, R263, R357 to R359). -/
namespace Sys2Proof.Machine

variable {d e f : Dev} {b c n : Nat}

/-! ### Work on cores and bents -/

/-- From d to e cores, bents and spans changed and raises came: nothing of Keystone, no transaction and no port did. -/
def Dev.Tends (d e : Dev) : Prop :=
  ∃ cs bs sp xs pl fl, e = { d with cores := cs, bents := bs, spans := sp, xings := xs, plb := pl, flt := fl }

theorem Dev.Tends.refl (d : Dev) : d.Tends d := ⟨_, _, _, _, _, _, rfl⟩

theorem Dev.Tends.trans (h : d.Tends e) (g : e.Tends f) : d.Tends f := by
  obtain ⟨_, _, _, _, _, _, rfl⟩ := h
  obtain ⟨_, _, _, _, _, _, rfl⟩ := g
  exact ⟨_, _, _, _, _, _, rfl⟩

theorem Dev.Tends.ite {p : Prop} [Decidable p] (h : d.Tends e) (g : d.Tends f) : d.Tends (if p then e else f) := by
  split
  · exact h
  · exact g

theorem Dev.Tends.ks (h : d.Tends e) : e.ks = d.ks := by obtain ⟨_, _, _, _, _, _, rfl⟩ := h; rfl
theorem Dev.Tends.clk (h : d.Tends e) : e.clk = d.clk := by obtain ⟨_, _, _, _, _, _, rfl⟩ := h; rfl
theorem Dev.Tends.txns (h : d.Tends e) : e.txns = d.txns := by obtain ⟨_, _, _, _, _, _, rfl⟩ := h; rfl

theorem Dev.Tends.calm (h : d.Tends e) (hc : d.calm) : e.calm := (congrArg Keystone.jobs h.ks).trans hc

theorem Dev.Tends.port (h : d.Tends e) (q : Port) : e.port q = d.port q := by
  obtain ⟨_, _, _, _, _, _, rfl⟩ := h
  cases q <;> rfl

theorem Dev.Tends.request (h : d.Tends e) (src : CmdSrc) : e.request src = d.request src := by
  cases src with
  | port p => exact congrArg PortSt.reqBuf (h.port p)
  | fwd u p =>
    unfold Dev.request
    rw [h.ks]

theorem Dev.Stirred.tends (h : d.Stirred b e) : d.Tends e := by
  obtain ⟨_, rfl⟩ := h.frame
  exact ⟨_, _, _, _, _, _, rfl⟩

theorem Dev.Raised.tends (h : d.Raised e) : d.Tends e := by
  obtain ⟨_, _, _, rfl⟩ := h
  exact ⟨_, _, _, _, _, _, rfl⟩

theorem Dev.Tends.foldl {α : Type} {g : Dev → α → Dev} {P : Dev → Prop} (hp : ∀ {x y : Dev}, x.Tends y → P x → P y)
    (hg : ∀ (x : Dev) a, P x → x.Tends (g x a)) (l : List α) (h : P d) : d.Tends (l.foldl g d) := by
  induction l generalizing d with
  | nil => exact .refl d
  | cons a l ih => exact (hg d a h).trans (ih (hp (hg d a h) h))

/-! ### What follows the bindings -/

/-- Whether and how a core runs. -/
def Core.stance (k : Core) : Status × List Frame × Tab Word := (k.status, k.frames, k.regs)

/-- From d to e what follows the bindings was written: interrupt units, switches and how the cores run stand. -/
structure Dev.Refreshes (d e : Dev) : Prop where
  tends : d.Tends e
  biu : ∀ n, (e.bent n).biu = (d.bent n).biu
  sw : ∀ n, (e.bent n).sw = (d.bent n).sw
  stance : ∀ c, (e.core c).stance = (d.core c).stance

theorem Dev.Refreshes.refl (d : Dev) : d.Refreshes d := ⟨.refl d, fun _ => rfl, fun _ => rfl, fun _ => rfl⟩

theorem Dev.Refreshes.trans (h : d.Refreshes e) (g : e.Refreshes f) : d.Refreshes f :=
  ⟨h.tends.trans g.tends, fun n => (g.biu n).trans (h.biu n), fun n => (g.sw n).trans (h.sw n), fun c => (g.stance c).trans (h.stance c)⟩

theorem Dev.Refreshes.ite {p : Prop} [Decidable p] (h : d.Refreshes e) (g : d.Refreshes f) : d.Refreshes (if p then e else f) := by
  split
  · exact h
  · exact g

theorem Dev.Refreshes.foldl {α : Type} {g : Dev → α → Dev} (hg : ∀ (x : Dev) a, x.Refreshes (g x a)) (l : List α) (d : Dev) :
    d.Refreshes (l.foldl g d) := by
  induction l generalizing d with
  | nil => exact .refl d
  | cons a l ih => exact (hg d a).trans (ih _)

theorem Dev.Refreshes.of_eq (h : d.Tends e) (hc : e.cores = d.cores) (hb : e.bents = d.bents) : d.Refreshes e :=
  ⟨h, fun n => by unfold Dev.bent; rw [hb], fun n => by unfold Dev.bent; rw [hb], fun n => by rw [core_congr hc]⟩

theorem onCore_refreshes {g : Core → Core} (hg : (g (d.core c)).stance = (d.core c).stance) : d.Refreshes (d.onCore c g) := by
  refine ⟨⟨_, _, _, _, _, _, rfl⟩, fun _ => rfl, fun _ => rfl, fun n => ?_⟩
  obtain rfl | h := Decidable.em (n = c)
  · rw [Dev.core_onCore, hg]
  · rw [Dev.core_onCore_other d g h]

theorem onBent_refreshes {g : Bent → Bent} (hb : (g (d.bent b)).biu = (d.bent b).biu) (hs : (g (d.bent b)).sw = (d.bent b).sw) :
    d.Refreshes (d.onBent b g) := by
  refine ⟨⟨_, _, _, _, _, _, rfl⟩, fun n => ?_, fun n => ?_, fun _ => rfl⟩ <;>
  · obtain rfl | h := Decidable.em (n = b)
    · rwa [Dev.bent_onBent]
    · rw [Dev.bent_onBent_other d g h]

theorem onScr_refreshes (g : Scribe → Scribe) : d.Refreshes (d.onScr b g) := onBent_refreshes rfl rfl

theorem onSpan_refreshes (g : Span → Span) : d.Refreshes (d.onSpan n g) := .of_eq ⟨_, _, _, _, _, _, rfl⟩ rfl rfl

theorem raise_refreshes (src inst : Nat) (det : BitVec 16) : d.Refreshes (d.raise src inst det) := by
  obtain ⟨_, _, _, h⟩ := raise_frame d src inst det
  rw [h]
  exact .of_eq ⟨_, _, _, _, _, _, rfl⟩ rfl rfl

theorem onXing_refreshes (g : Xing → Xing) : d.Refreshes (d.onXing n g) := .of_eq ⟨_, _, _, _, _, _, rfl⟩ rfl rfl

theorem loadVector_refreshes (line : Nat) : d.Refreshes (d.loadVector c line) := by
  unfold Dev.loadVector
  extract_lets k d1
  have hasked : d.Refreshes d1 := onCore_refreshes rfl
  exact .ite (onCore_refreshes rfl) (.ite (.refl d) (.ite hasked (hasked.trans (onBent_refreshes rfl rfl))))

theorem switchLine_refreshes (old new : W32) (trig : Nat) : d.Refreshes (d.switchLine c old new trig) := by
  unfold Dev.switchLine
  extract_lets used d1
  have hfreed : d.Refreshes d1 := .ite (.refl d) (onCore_refreshes rfl)
  exact .ite hfreed (hfreed.trans (loadVector_refreshes _))

theorem fillVectors_refreshes : d.Refreshes (d.fillVectors c) := by
  unfold Dev.fillVectors
  extract_lets need d1 kept
  have hfreed : d.Refreshes d1 := onCore_refreshes rfl
  exact hfreed.trans (.foldl (fun _ _ => loadVector_refreshes _) _ _)

theorem refreshBent_refreshes : d.Refreshes (d.refreshBent b) := by
  unfold Dev.refreshBent
  extract_lets ls wins ddrs
  exact onBent_refreshes rfl rfl

theorem refreshCore_refreshes : d.Refreshes (d.refreshCore c) := by
  unfold Dev.refreshCore
  extract_lets ls mask
  have hmask : d.Refreshes (d.onCore c (fun k => { k with winMask := mask })) := onCore_refreshes rfl
  exact hmask.trans fillVectors_refreshes

theorem refreshBanks_refreshes : d.Refreshes d.refreshBanks := .foldl (fun _ _ => onSpan_refreshes _) _ _

theorem refresh_refreshes : d.Refreshes (((d.refreshBent b).refreshCore c).refreshBanks) :=
  (refreshBent_refreshes.trans refreshCore_refreshes).trans refreshBanks_refreshes

/-! ### Switches and stops while nothing waits (R204, R468, R470) -/

/-- With nothing waiting there is no migration whose moment is noted. -/
theorem noteGap_calm (h : d.calm) : d.noteGap c n = d := by
  have hjobs : d.ks.jobs = [] := h
  unfold Dev.noteGap
  split
  · rfl
  · unfold Dev.onKs
    simp only [hjobs, List.map_nil]
    rw [← hjobs]

theorem applySwitch_tends (h : d.calm) : d.Tends (d.applySwitch b n) := by
  unfold Dev.applySwitch
  extract_lets w d1 k old
  have hoff : d.Tends (d1.disableSrc b k) := ⟨_, _, _, _, _, _, rfl⟩
  split
  · rw [noteGap_calm (hoff.calm h)]
    exact hoff
  · exact Dev.Tends.trans ⟨_, _, _, _, _, _, rfl⟩ (switchLine_refreshes _ _ _).tends

theorem returnPending_tends (h : d.calm) : d.Tends (d.returnPending b n) := by
  have hpending : d.Tends (d.onSource b n (fun x => { x with st := .pending })) := ⟨_, _, _, _, _, _, rfl⟩
  exact hpending.trans (.foldl Dev.Tends.calm (fun x _ hx => .ite (applySwitch_tends hx) (.refl x)) _ (hpending.calm h))

theorem disarm_tends (h : d.calm) (st det : BitVec 16) : d.Tends (d.disarm b n st det) := by
  unfold Dev.disarm
  extract_lets w
  split
  · rw [endJobs_calm (d := d.onBent b _) _ _ _ h]
    exact ⟨_, _, _, _, _, _, rfl⟩
  · exact .refl d

theorem stopCore_tends (h : d.calm) : d.Tends (d.stopCore c) := by
  unfold Dev.stopCore
  extract_lets b i d1 d2
  have hstopped : d.Tends d1 := (disarm_tends h _ _).trans ⟨_, _, _, _, _, _, rfl⟩
  have hdropped : d.Tends d2 := hstopped.trans (.foldl Dev.Tends.calm (fun x (a : Nat × Src) hx => returnPending_tends (n := a.1) hx) _ (hstopped.calm h))
  exact .ite (hdropped.trans (raise_raised _ _ _).tends) hdropped

theorem haltCore_tends (h : d.calm) : d.Tends (d.haltCore c) := by
  unfold Dev.haltCore
  extract_lets k d1
  have habandoned : d.Tends d1 := ⟨_, _, _, _, _, _, rfl⟩
  exact .ite (clearStack_stirred _).tends ((habandoned.trans (stopCore_tends (habandoned.calm h))).trans (clearStack_stirred _).tends)

theorem loopOff_tends (l : Loop) : d.Tends (d.loopOff l) := ⟨_, _, _, _, _, _, rfl⟩

theorem loopOff_off (l : Loop) : (d.loopOff l).started l = false := disableSrc_en

theorem stopNow_tends (h : d.calm) (l : Loop) : d.Tends (d.stopNow l) := by
  have hoff : d.Tends ((d.loopsOn l.core.toNat).foldl (fun x y => x.loopOff y) d) := .foldl Dev.Tends.calm (fun _ y _ => loopOff_tends y) _ h
  exact hoff.trans (haltCore_tends (hoff.calm h))

theorem disarmLoop_tends (h : d.calm) (l : Loop) : d.Tends (d.disarmLoop l) := by
  unfold Dev.disarmLoop
  extract_lets w
  exact .ite (disarm_tends h _ _) (.refl d)

/-! ### A loop unbound (R359) -/

theorem Biu.source_onAlarm (u : Biu) (k : Nat) (g : Alarm → Alarm) (n : Nat) : (u.onAlarm k g).source n = u.source n := rfl

/-- What a binding held is released: its trigger is disabled, and no core runs otherwise than before. -/
theorem releaseBind_releases (d : Dev) (l : Loop) : d.Tends (d.releaseBind l) ∧ (d.releaseBind l).started l = false
    ∧ ∀ n, ((d.releaseBind l).core n).stance = (d.core n).stance := by
  unfold Dev.releaseBind
  extract_lets k m left d1 d2 holds paced d3
  have h1 : d.Tends d1 := ⟨_, _, _, _, _, _, rfl⟩
  have hoff : (d1.source m l.trigger.toNat).en = false := by
    unfold Dev.source d1
    rw [Dev.bent_onBiu]
    dsimp only
    split
    · rw [Biu.source_onSource]
    · rw [Biu.source_onAlarm, Biu.source_onSource]
  have h2 : d1.Refreshes d2 := by
    unfold d2
    cases l.slack with
    | none => exact .refl d1
    | some e => exact onScr_refreshes _
  have h3 : d1.Refreshes d3 := by
    refine .ite ?_ h2
    exact (h2.trans (onSpan_refreshes _)).trans (onBent_refreshes rfl rfl)
  have hall : d1.Refreshes ((((d3.refreshBent m).refreshCore k).refreshBanks).onCore k (fun x => { x with waitSince := d.clk })) :=
    (h3.trans refresh_refreshes).trans (onCore_refreshes rfl)
  refine ⟨h1.trans hall.tends, ?_, hall.stance⟩
  unfold Dev.started Dev.source at hoff ⊢
  rw [hall.biu]
  exact hoff

/-- While nothing waits an unbound loop has its trigger disabled and its number is free; the cores run as before. -/
theorem unbindLoop_unbinds (h : d.calm) (l : Loop) : (d.unbindLoop l).calm ∧ (d.unbindLoop l).txns = d.txns
    ∧ (∀ src, (d.unbindLoop l).request src = d.request src) ∧ (d.unbindLoop l).ks.loops = d.ks.loops.filter (fun x => x.num != l.num)
    ∧ (d.unbindLoop l).started l = false ∧ ∀ n, ((d.unbindLoop l).core n).stance = ((d.disarmLoop l).core n).stance := by
  have hdisarmed := disarmLoop_tends h l
  have hreq : ∀ (x : Dev) (g : List Loop → List Loop) src, (x.onKs (fun k => { k with loops := g k.loops })).request src = x.request src :=
    fun x g src => by cases src with | port p => cases p <;> rfl | fwd u p => rfl
  obtain ⟨hr, hoff, hstance⟩ := releaseBind_releases ((d.disarmLoop l).onKs (fun k => { k with loops := k.loops.filter (fun x => x.num != l.num) })) l
  refine ⟨hr.calm (hdisarmed.calm h), hr.txns.trans hdisarmed.txns, fun src => ?_, (congrArg Keystone.loops hr.ks).trans ?_, hoff, hstance⟩
  · exact (hr.request src).trans ((hreq _ (List.filter (fun x => x.num != l.num)) src).trans (hdisarmed.request src))
  · exact congrArg (fun k : Keystone => k.loops.filter (fun x => x.num != l.num)) hdisarmed.ks

/-! ### A loop started (R358) -/

/-- From d to e Keystone worked on cores, bents and what it notes of the bound loops. -/
def Dev.Works (d e : Dev) : Prop :=
  ∃ cs bs sp xs pl fl lp, e = { d with cores := cs, bents := bs, spans := sp, xings := xs, plb := pl, flt := fl, ks := { d.ks with loops := lp } }

theorem Dev.Works.trans (h : d.Works e) (g : e.Works f) : d.Works f := by
  obtain ⟨_, _, _, _, _, _, _, rfl⟩ := h
  obtain ⟨_, _, _, _, _, _, _, rfl⟩ := g
  exact ⟨_, _, _, _, _, _, _, rfl⟩

theorem Dev.Tends.works (h : d.Tends e) : d.Works e := by
  obtain ⟨_, _, _, _, _, _, rfl⟩ := h
  exact ⟨_, _, _, _, _, _, d.ks.loops, rfl⟩

theorem Dev.Works.calm (h : d.Works e) (hc : d.calm) : e.calm := by obtain ⟨_, _, _, _, _, _, _, rfl⟩ := h; exact hc
theorem Dev.Works.txns (h : d.Works e) : e.txns = d.txns := by obtain ⟨_, _, _, _, _, _, _, rfl⟩ := h; rfl

theorem Dev.Works.request (h : d.Works e) (src : CmdSrc) : e.request src = d.request src := by
  obtain ⟨_, _, _, _, _, _, _, rfl⟩ := h
  cases src with
  | port p => cases p <;> rfl
  | fwd u p => rfl

theorem onBiu_tends (g : Biu → Biu) : d.Tends (d.onBiu b g) := ⟨_, _, _, _, _, _, rfl⟩

/-- A source enabled (R198): it is, whatever an assertion leads to in its bent; no core changes. -/
theorem enableSrc_enables : d.Tends (d.enableSrc b n) ∧ (d.enableSrc b n).cores = d.cores ∧ ((d.enableSrc b n).source b n).en = true := by
  unfold Dev.enableSrc
  split
  · next h => exact ⟨.refl d, rfl, h⟩
  · extract_lets d1
    have h1 : d.Tends d1 := onBiu_tends _
    have hon : (d1.source b n).en = true := by
      unfold d1
      rw [Dev.source_onSource]
    have hstirred : ∀ {x : Dev}, d1.Stirred b x → d.Tends x ∧ x.cores = d.cores ∧ (x.source b n).en = true :=
      fun h => ⟨h1.trans h.tends, h.cores, (h.en b n).trans hon⟩
    split
    · split
      · exact hstirred (assertSrc_stirred true)
      · exact hstirred (.refl d1 b)
    · exact hstirred noteOverrun_stirred
    all_goals exact hstirred (.refl d1 b)

/-- A core that did not run is ready after its start (R42, R204, R358). -/
theorem restartCore_ready (d : Dev) (c : Nat) : d.Works (d.restartCore c) ∧ ((d.restartCore c).core c).stance = (.waiting, [], []) := by
  unfold Dev.restartCore
  extract_lets b i
  have hcleared : d.Tends (d.clearStack b i) := (clearStack_stirred i).tends
  generalize d.clearStack b i = x at hcleared
  refine ⟨?_, by rw [Dev.core_onCore]; rfl⟩
  have hbad : x.Works (x.clearBad b i) := (onBiu_tends _).works
  have hloops : ∀ (y : Dev) (g : List Loop → List Loop), y.Works (y.onKs (fun k => { k with loops := g k.loops })) := fun y g => ⟨_, _, _, _, _, _, _, rfl⟩
  have hscr : ∀ (y : Dev) g, y.Works (y.onScr b g) := fun y g => (onScr_refreshes g).tends.works
  have hcore : ∀ (y : Dev) g, y.Works (y.onCore c g) := fun y g => ⟨_, _, _, _, _, _, _, rfl⟩
  exact (((hcleared.works.trans hbad).trans (hloops _ (List.map _))).trans (hscr _ _)).trans (hcore _ _)

/-- A loop whose core has an idle moment is started: its core is ready and its trigger enabled. -/
theorem startLoop_starts {l : Loop} (start : W32) (hidle : (d.core l.core.toNat).idleMoment = true) : d.Works (d.startLoop l start)
    ∧ ((d.startLoop l start).core l.core.toNat).stance = (.waiting, [], []) ∧ (d.startLoop l start).started l = true := by
  unfold Dev.startLoop
  extract_lets k m x d1 d2 d3
  have h1 : d.Works d1 ∧ (d1.core k).stance = (.waiting, [], []) := by
    unfold d1
    split
    · exact restartCore_ready d k
    · next hruns =>
      refine ⟨⟨_, _, _, _, _, _, _, rfl⟩, ?_⟩
      have hready : (d.core k).status = .waiting ∧ (d.core k).frames = [] := by
        unfold Core.idleMoment at hidle
        split at hidle
        · next hw => exact ⟨hw, List.isEmpty_iff.mp (Bool.and_eq_true_iff.mp hidle).1⟩
        · next hs => exact absurd (by simp [x, k, hs]) hruns
        · next hs => exact absurd (by simp [x, k, hs]) hruns
        · cases hidle
      have hcore : ∀ z : Dev, (z.clearBad m (slotOf k)).core k = z.core k := fun _ => rfl
      rw [hcore, Dev.core_onCore]
      unfold Core.stance
      dsimp only
      rw [hready.1, hready.2]
  have h2 : d1.Works d2 ∧ d2.cores = d1.cores := by
    unfold d2
    cases l.alarm with
    | none => exact ⟨(Dev.Tends.refl d1).works, rfl⟩
    | some a => exact ⟨⟨_, _, _, _, _, _, _, rfl⟩, rfl⟩
  have h3 : d2.Works d3 := ⟨_, _, _, _, _, _, _, rfl⟩
  have hfill := fillVectors_refreshes (d := d3) (c := k)
  obtain ⟨hen, hcores, hon⟩ := enableSrc_enables (d := d3.fillVectors k) (b := m) (n := l.trigger.toNat)
  refine ⟨(((h1.1.trans h2.1).trans h3).trans hfill.tends.works).trans hen.works, ?_, hon⟩
  rw [core_congr hcores, hfill.stance, show d3.core k = d2.core k from rfl, core_congr h2.2]
  exact h1.2

end Sys2Proof.Machine
end

section
/-! PROOFS. LOOP_START and LOOP_STOP. -/
namespace Sys2Proof.Proofs
open Sys2Proof.Machine

variable {s : State} {src : CmdSrc} {c : CmdSpec} {body : Dev → Eff} {i : Instr} {y e : Dev} {st det : BitVec 16} {ws : List W32} {l : Loop}

/-- The row of an admitted command that answers at once: what is left is what its meaning left of cores, bents and loops. -/
theorem answered_row (hrow : exec i s = s.commit (settleEff s.mem (s.dev.takeCmd src c body))) (ha : s.dev.admits src c)
    (hbody : body s.dev = (y.reply src st det ws, [])) (hp : hasPayload st = true ∨ ws = []) (hcalm : y.calm)
    (hreq : y.request src = s.dev.request src) (htx : ∀ t ∈ y.txns, t.ofCmd src = false) :
    ∃ t, exec i s = .next t ∧ t.mem = s.mem ∧ t.pending = s.pending ∧ Replied s t src st det ws
      ∧ (∀ n, t.dev.core n = y.core n) ∧ (∀ n, t.dev.bent n = y.bent n) ∧ t.dev.ks.loops = y.ks.loops := by
  have htalks := reply_talks (d := y) src st det ws
  have hans : (y.reply src st det ws).answered src st det (s.dev.seqWord src) ws := by
    rw [← seqWord_of_request hreq]
    exact reply_answered hp
  have htake := ha.takeCmd hbody hans.waiting (by rw [htalks.speaks.txns]; exact htx)
  have hdone : ((y.reply src st det ws).taken src).calm := htalks.calm hcalm
  rw [htake, settleEff_calm _ hdone, State.commit_eq] at hrow
  refine ⟨_, hrow, rfl, rfl, Dev.answered.replied (hans.of_eq (Dev.port_seen _ _) rfl), fun n => ?_, fun n => ?_, htalks.speaks.loops⟩
  · rw [Dev.core_seen]
    exact htalks.speaks.core n
  · rw [Dev.bent_seen]
    exact htalks.speaks.bent n

/-- A bound loop's core lies in a bent. -/
theorem bentOf_lt (l : Loop) : bentOf l.core.toNat < 128 := by
  have := l.core.isLt
  unfold bentOf
  omega

/-- The access that Keystone makes to the bent of a loop. -/
theorem bentAccess_plain {d : Dev} {n : Nat} (hn : n < 128) (hawake : d.wordAsleep (0x08200000 + 0x1000 * n) = false) :
    ∀ t ∈ [bentAccess n], t.ksPlain ∧ d.wordAsleep t.addr.toNat = false := by
  intro t ht
  rw [List.mem_singleton.mp ht, bentAccess_word hn]
  exact ⟨ksAccess_plain _, hawake⟩

/-- What R351 states of LOOP_START. -/
def loopStartSpec : CmdSpec := { op := 0x0303, len := exact 8, modes := [mRun, mDegraded], changes := true }

/-- LOOP_START of a stopped loop whose core has an idle moment (R358). -/
theorem loopStart_starts (ha : s.dev.admits src loopStartSpec) (hl : s.dev.loop (s.dev.pay16 src 0) = some l) (hi : s.dev.deckIdle)
    (hawake : s.dev.wordAsleep (0x08200000 + 0x1000 * bentOf l.core.toNat) = false) (hz : s.dev.payZero src 2 4 = true)
    (hwhen : s.dev.pay32 src 4 = 0#32 ∨ before s.dev.time (s.dev.pay32 src 4) = true) (hoff : s.dev.started l = false)
    (hidle : (s.dev.core l.core.toNat).idleMoment = true) :
    ∃ t, exec (.loopStart src) s = .next t ∧ t.mem = s.mem ∧ t.pending = s.pending ∧ t.dev.started l = true
      ∧ (t.dev.core l.core.toNat).status = .waiting ∧ (t.dev.core l.core.toNat).frames = [] ∧ (t.dev.core l.core.toNat).regs = []
      ∧ Replied s t src stDone 0#16 [] := by
  obtain ⟨hprog, hcalm, -⟩ := ha.fresh
  obtain ⟨e, he, hdone⟩ := ksDone_idle (src := src) (go := fun late e =>
    ((e.startLoop l (s.dev.pay32 src 4)).reply src (doneOr late).1 (doneOr late).2 [], [])) hprog hi (bentAccess_plain (bentOf_lt l) hawake)
  have hbody : s.dev.loopStartCmd src = ((e.startLoop l (s.dev.pay32 src 4)).reply src stDone 0#16 [], []) := by
    unfold Dev.loopStartCmd
    have hbad : (s.dev.pay32 src 4 != 0#32 && !before s.dev.time (s.dev.pay32 src 4)) = false := by
      obtain h | h := hwhen <;> simp [h]
    simp only [hl, firstBad, hz, hbad, hoff, hidle, Bool.not_true, Bool.false_and, Bool.false_eq_true, if_false, if_true]
    exact hdone
  obtain ⟨hworks, hstance, hon⟩ := startLoop_starts (d := e) (s.dev.pay32 src 4) (by rw [he.core]; exact hidle)
  obtain ⟨t, ht, hm, hpend, hr, hcore, hbent, -⟩ := answered_row (i := .loopStart src) rfl ha hbody (.inr rfl) (hworks.calm (he.jobs.trans hcalm))
    ((hworks.request src).trans (he.request src)) (by rw [hworks.txns, he.txns]; exact admits_txns ha)
  simp only [Core.stance, Prod.mk.injEq] at hstance
  obtain ⟨hstatus, hframes, hregs⟩ := hstance
  refine ⟨t, ht, hm, hpend, ?_, ?_, ?_, ?_, hr⟩
  · unfold Dev.started Dev.source at hon ⊢
    rw [hbent]
    exact hon
  all_goals
    rw [hcore]
    assumption

/-- What R351 states of LOOP_STOP. -/
def loopStopSpec : CmdSpec :=
  { op := 0x0304, len := exact 4, modes := [mStandby, mRun, mDegraded, mSafeHold], changes := true, excepted := true }

/-- The loops that are left by a LOOP_STOP with or without UNBIND. -/
def loopsLeft (ls : List Loop) (l : Loop) (unbind : Bool) : List Loop := if unbind then ls.filter (fun x => x.num != l.num) else ls

/-- A LOOP_STOP answers in a part where its loop is stopped (R359). -/
theorem loopStop_answers {unbind : Bool} (ha : s.dev.admits src loopStopSpec) (hcalm : y.calm) (htx : y.txns = s.dev.txns)
    (hreq : y.request src = s.dev.request src) (hloops : y.ks.loops = loopsLeft s.dev.ks.loops l unbind) (hoff : y.started l = false)
    (hbody : s.dev.loopStopCmd src = (y.reply src stDone 0#16 [], [])) :
    ∃ t, exec (.loopStop src) s = .next t ∧ t.mem = s.mem ∧ t.pending = s.pending ∧ t.dev.started l = false ∧ Replied s t src stDone 0#16 []
      ∧ t.dev.ks.loops = loopsLeft s.dev.ks.loops l unbind ∧ ((y.core l.core.toNat).still → (t.dev.core l.core.toNat).still) := by
  obtain ⟨t, ht, hm, hpend, hr, hcore, hbent, hl⟩ := answered_row (i := .loopStop src) rfl ha hbody (.inr rfl) hcalm hreq
    (by rw [htx]; exact admits_txns ha)
  refine ⟨t, ht, hm, hpend, ?_, hr, hl.trans hloops, by rw [hcore]; exact id⟩
  unfold Dev.started Dev.source at hoff ⊢
  rw [hbent]
  exact hoff

/-- While nothing waits, the disarming of a loop's switch and its unbinding start no core. -/
theorem unbindLoop_still {x : Dev} (h : x.calm) {n : Nat} (hstill : (x.core n).still) : ((x.unbindLoop l).core n).still := by
  obtain ⟨-, -, -, -, -, hstance⟩ := unbindLoop_unbinds h l
  have hw : x.stopsWait := fun j hj => absurd ((show x.ks.jobs = [] from h) ▸ hj) List.not_mem_nil
  have hkept : ((x.disarmLoop l).core n).still := by
    unfold Dev.disarmLoop
    extract_lets w
    split
    · exact (disarm_quieter hw _ _).still _ hstill
    · exact hstill
  unfold Core.still at hkept ⊢
  rwa [show ((x.unbindLoop l).core n).status = _ from congrArg Prod.fst (hstance n)]

/-- The end of a LOOP_STOP (R359): its loop, stopped, is unbound where the command says so. -/
theorem loopStop_ends {x : Dev} {unbind : Bool} (ha : s.dev.admits src loopStopSpec) (he : s.dev.Accessed e) (hx : e.Tends x)
    (hoff : x.started l = false)
    (hbody : s.dev.loopStopCmd src = ((if unbind then x.unbindLoop l else x).reply src stDone 0#16 [], [])) :
    ∃ t, exec (.loopStop src) s = .next t ∧ t.mem = s.mem ∧ t.pending = s.pending ∧ t.dev.started l = false ∧ Replied s t src stDone 0#16 []
      ∧ t.dev.ks.loops = loopsLeft s.dev.ks.loops l unbind
      ∧ ((x.core l.core.toNat).still → (t.dev.core l.core.toNat).still) := by
  obtain ⟨-, hcalm, -⟩ := ha.fresh
  have hxcalm : x.calm := hx.calm (he.jobs.trans hcalm)
  have hloops : x.ks.loops = s.dev.ks.loops := (congrArg Keystone.loops hx.ks).trans he.loops
  have hreq : x.request src = s.dev.request src := (hx.request src).trans (he.request src)
  have htx : x.txns = s.dev.txns := hx.txns.trans he.txns
  cases unbind with
  | false => exact loopStop_answers (unbind := false) ha hxcalm htx hreq hloops hoff hbody
  | true =>
    obtain ⟨hc, ht, hr, hl, hs, -⟩ := unbindLoop_unbinds hxcalm l
    obtain ⟨t, hrow, hm, hp, hoff', hr', hl', hstill⟩ := loopStop_answers (unbind := true) ha hc (ht.trans htx) ((hr src).trans hreq)
      (by rw [hl, hloops]; rfl) hs hbody
    exact ⟨t, hrow, hm, hp, hoff', hr', hl', fun h => hstill (unbindLoop_still hxcalm h)⟩

section
variable (ha : s.dev.admits src loopStopSpec) (hl : s.dev.loop (s.dev.pay16 src 0) = some l) (hi : s.dev.deckIdle)
  (hawake : s.dev.wordAsleep (0x08200000 + 0x1000 * bentOf l.core.toNat) = false) (hf : (s.dev.pay8 src 2).toNat < 4) (hz : s.dev.pay8 src 3 = 0#8)
include ha hl hi hawake hf hz

/-- LOOP_STOP with NOW (R359): the core stops too. -/
theorem loopStop_now (hnow : (s.dev.pay8 src 2).getLsbD 0 = true) :
    ∃ t, exec (.loopStop src) s = .next t ∧ t.mem = s.mem ∧ t.pending = s.pending ∧ t.dev.started l = false
      ∧ ((t.dev.core l.core.toNat).status = .stopped ∨ (t.dev.core l.core.toNat).status = .gated) ∧ Replied s t src stDone 0#16 []
      ∧ t.dev.ks.loops = (if (s.dev.pay8 src 2).getLsbD 1 then s.dev.ks.loops.filter (fun x => x.num != l.num) else s.dev.ks.loops) := by
  obtain ⟨hprog, hcalm, -⟩ := ha.fresh
  obtain ⟨e, he, hdone⟩ := ksDone_idle (src := src) (go := fun late e =>
    ((if (s.dev.pay8 src 2).getLsbD 1 then ((e.disarmLoop l).stopNow l).unbindLoop l else (e.disarmLoop l).stopNow l).reply src (doneOr late).1 (doneOr late).2 [],
      [])) hprog hi (bentAccess_plain (bentOf_lt l) hawake)
  have hecalm : e.calm := he.jobs.trans hcalm
  have hdisarmed := disarmLoop_tends hecalm l
  have hdcalm : (e.disarmLoop l).calm := hdisarmed.calm hecalm
  have hw : (e.disarmLoop l).stopsWait := fun j hj => absurd ((show (e.disarmLoop l).ks.jobs = [] from hdcalm) ▸ hj) List.not_mem_nil
  have hmem : l ∈ (e.disarmLoop l).ks.loops := by
    rw [hdisarmed.ks, he.loops]
    exact List.mem_of_find?_eq_some hl
  obtain ⟨-, hoff, hstill⟩ := stopNow_stops hw hmem
  have hfz : s.dev.pay8 src 2 >>> 2 = 0#8 := by bv_omega
  obtain ⟨t, ht, hm, hpend, hs, hr, hloops, hstopped⟩ := loopStop_ends (unbind := (s.dev.pay8 src 2).getLsbD 1) ha he
    (hdisarmed.trans (stopNow_tends hdcalm l)) hoff (by
      unfold Dev.loopStopCmd
      simp only [hl, firstBad, hfz, hz, hnow, bne_self_eq_false, Bool.false_eq_true, if_false, if_true]
      exact hdone)
  exact ⟨t, ht, hm, hpend, hs, hstopped hstill, hr, hloops⟩

/-- LOOP_STOP without NOW, between iterations (R359). -/
theorem loopStop_between (hnow : (s.dev.pay8 src 2).getLsbD 0 = false) (hiter : s.dev.iterating l = false) :
    ∃ t, exec (.loopStop src) s = .next t ∧ t.mem = s.mem ∧ t.pending = s.pending ∧ t.dev.started l = false ∧ Replied s t src stDone 0#16 []
      ∧ t.dev.ks.loops = (if (s.dev.pay8 src 2).getLsbD 1 then s.dev.ks.loops.filter (fun x => x.num != l.num) else s.dev.ks.loops) := by
  obtain ⟨hprog, hcalm, -⟩ := ha.fresh
  obtain ⟨e, he, hdone⟩ := ksDone_idle (src := src) (go := fun late e =>
    ((if (s.dev.pay8 src 2).getLsbD 1 then ((e.disarmLoop l).loopOff l).unbindLoop l else (e.disarmLoop l).loopOff l).reply src (doneOr late).1 (doneOr late).2 [],
      [])) hprog hi (bentAccess_plain (bentOf_lt l) hawake)
  have hfz : s.dev.pay8 src 2 >>> 2 = 0#8 := by bv_omega
  obtain ⟨t, ht, hm, hpend, hs, hr, hloops, -⟩ := loopStop_ends (unbind := (s.dev.pay8 src 2).getLsbD 1) ha he
    ((disarmLoop_tends (he.jobs.trans hcalm) l).trans (loopOff_tends l)) (loopOff_off l) (by
      unfold Dev.loopStopCmd
      simp only [hl, firstBad, hfz, hz, hnow, hiter, bne_self_eq_false, Bool.false_eq_true, if_false]
      exact hdone)
  exact ⟨t, ht, hm, hpend, hs, hr, hloops⟩

end

end Sys2Proof.Proofs
end

section
/-! SUPPORT. Bindings as Keystone makes them, and the switches of updates and migrations (R357, R360, R361, R468, R474, R475). -/
namespace Sys2Proof.Machine

variable {d e f : Dev} {b c n : Nat} {l : Loop} {r : BindReq} {m : List Host.Cell} {src : SrcId}

/-! ### The start hold (R175) -/

theorem scrAsk_refreshes (code : Nat) : d.Refreshes (d.scrAsk b code) := by
  unfold Dev.scrAsk
  extract_lets a k d1
  have hasked : d.Refreshes d1 := onScr_refreshes _
  refine .ite (hasked.trans ?_) (hasked.trans ?_)
  · exact .ite (onXing_refreshes _) (onScr_refreshes _)
  · unfold Dev.budgetRequest
    extract_lets out
    obtain ⟨_, _, hinto⟩ := eventInto_frame d1 domPower b out
    generalize d1.eventInto domPower b out = p at hinto
    obtain ⟨_ | _, y⟩ := p
    · have hy : d1.Refreshes y := by
        rw [show y = _ from hinto]
        exact .of_eq ⟨_, _, _, _, _, _, rfl⟩ rfl rfl
      exact hy.trans (raise_refreshes _ _ _)
    · have hy : d1.Refreshes y := by
        rw [show y = _ from hinto]
        exact .of_eq ⟨_, _, _, _, _, _, rfl⟩ rfl rfl
      exact hy.trans (onXing_refreshes _)

theorem scrStartHold_refreshes : d.Refreshes (d.scrStartHold b) := by
  unfold Dev.scrStartHold
  extract_lets a d1
  have hasked : d.Refreshes d1 := .ite (scrAsk_refreshes _) (.refl d)
  exact hasked.trans (onScr_refreshes _)

/-! ### Code words that Keystone reads (R259) -/

theorem foundIn_nil (i : Nat) : foundIn [] i = .good := rfl

/-- A line read with nothing found in it counts what was marked, and raises. -/
theorem readLine_refreshes (line : Nat) : d.Refreshes (d.readLine line []) := by
  unfold Dev.readLine
  extract_lets w ids bad ones d1 d2
  have hbad : bad = [] := by simp [bad, foundIn_nil]
  have h1 : d1 = d := by
    unfold d1
    rw [hbad]
    rfl
  have h2 : d.Refreshes d2 := by
    rw [← h1]
    exact .ite (.refl _) (onSpan_refreshes _)
  split
  · exact h2
  · exact (h2.trans (onSpan_refreshes _)).trans (raise_refreshes _ _ _)

theorem readTable_refreshes (b : Nat) (ident : W32) : d.Refreshes (d.readTable b ident).2 := by
  unfold Dev.readTable
  split
  · exact .refl d
  · exact .foldl (fun _ _ => readLine_refreshes _) _ _

/-! ### Free choices -/

theorem choose_frame (d : Dev) (l : List Nat) : ∃ k, (d.choose l).2 = { d with freeCtr := k } := by
  cases l <;> exact ⟨_, rfl⟩

/-- A choice from a list that is not empty is of it. -/
theorem choose_mem {l : List Nat} (h : l ≠ []) : ∃ x ∈ l, (d.choose l).1 = some x := by
  cases l with
  | nil => exact absurd rfl h
  | cons a r =>
    refine ⟨_, ?_, rfl⟩
    have hlt : (d.freshNat (r.length + 1)).1 < (a :: r).length := by
      simp only [Dev.freshNat, List.length_cons]
      exact Nat.mod_lt _ (by simp)
    rw [List.getD_eq_getElem _ _ hlt]
    exact List.getElem_mem hlt

theorem makeLoop_frame (d : Dev) (r : BindReq) (num : BitVec 16) (entry : W32) : ∃ k, (d.makeLoop r num entry).2 = { d with freeCtr := k } := by
  unfold Dev.makeLoop
  extract_lets p q
  have hp : ∃ k, p.2 = { d with freeCtr := k } := by
    unfold p
    split
    · exact choose_frame d _
    · exact ⟨_, rfl⟩
  obtain ⟨k, hp⟩ := hp
  show ∃ k, q.2 = _
  unfold q
  rw [hp]
  split
  · exact choose_frame _ _
  · exact ⟨_, rfl⟩

/-- The trigger of a new loop is the one declared, or that of a comparator that is free. -/
theorem makeLoop_trigger (num : BitVec 16) (entry : W32) (hlt : r.trigger < 256) :
    (r.trigger ≠ 255 → (d.makeLoop r num entry).1.trigger.toNat = r.trigger)
    ∧ (r.trigger = 255 → d.freeAlarms r.bent ≠ [] → ∃ k ∈ d.freeAlarms r.bent, (d.makeLoop r num entry).1.trigger.toNat = 64 + k) := by
  unfold Dev.makeLoop
  refine ⟨fun h => ?_, fun h hfree => ?_⟩
  · simp only [h, if_false, BitVec.toNat_ofNat]
    omega
  · obtain ⟨k, hk, hchosen⟩ := choose_mem (d := d) hfree
    have hk24 : k < 24 := List.mem_range.mp (List.mem_filter.mp hk).1
    refine ⟨k, hk, ?_⟩
    simp only [h, if_true, hchosen, BitVec.toNat_ofNat]
    omega

theorem coreId_lt (r : BindReq) : r.coreId < 2048 := Nat.mod_lt _ (by decide)

theorem makeLoop_core (d : Dev) (r : BindReq) (num : BitVec 16) (entry : W32) : (d.makeLoop r num entry).1.core.toNat = r.coreId := by
  show (BitVec.ofNat 11 r.coreId).toNat = r.coreId
  rw [BitVec.toNat_ofNat]
  exact Nat.mod_eq_of_lt (coreId_lt r)

/-! ### What Keystone writes for a binding (R357, R475 step 1) -/

/-- From d to e a loop was bound: its trigger is set up and disabled; the other sources and the switches stand, and so do Keystone, the transactions and
the ports. -/
structure Dev.Binds (d : Dev) (l : Loop) (e : Dev) : Prop where
  ks : e.ks = d.ks
  clk : e.clk = d.clk
  txns : e.txns = d.txns
  port : ∀ q, e.port q = d.port q
  sw : ∀ k, (e.bent k).sw = (d.bent k).sw
  others : ∀ a k, ¬ (a = bentOf l.core.toNat ∧ k = l.trigger.toNat) → e.source a k = d.source a k
  en : (e.source (bentOf l.core.toNat) l.trigger.toNat).en = false
  vec : (e.source (bentOf l.core.toNat) l.trigger.toNat).vec = l.entry
  pri : (e.source (bentOf l.core.toNat) l.trigger.toNat).pri = l.pri
  mask : (e.source (bentOf l.core.toNat) l.trigger.toNat).mask = 1#16 <<< slotOf l.core.toNat

theorem Dev.Refreshes.source (h : d.Refreshes e) (a k : Nat) : e.source a k = d.source a k := by
  unfold Dev.source
  rw [h.biu]

theorem Dev.Binds.refreshed (h : d.Binds l e) (g : e.Refreshes f) : d.Binds l f where
  ks := g.tends.ks.trans h.ks
  clk := g.tends.clk.trans h.clk
  txns := g.tends.txns.trans h.txns
  port q := (g.tends.port q).trans (h.port q)
  sw k := (g.sw k).trans (h.sw k)
  others a k hk := (g.source a k).trans (h.others a k hk)
  en := (congrArg Src.en (g.source _ _)).trans h.en
  vec := (congrArg Src.vec (g.source _ _)).trans h.vec
  pri := (congrArg Src.pri (g.source _ _)).trans h.pri
  mask := (congrArg Src.mask (g.source _ _)).trans h.mask

/-- From d to e interrupt units, switches and all that a binding does not write stand. -/
structure Dev.Prepares (d e : Dev) : Prop where
  ks : e.ks = d.ks
  clk : e.clk = d.clk
  txns : e.txns = d.txns
  port : ∀ q, e.port q = d.port q
  sw : ∀ k, (e.bent k).sw = (d.bent k).sw
  source : ∀ a k, e.source a k = d.source a k

theorem Dev.Prepares.trans (h : d.Prepares e) (g : e.Prepares f) : d.Prepares f :=
  ⟨g.ks.trans h.ks, g.clk.trans h.clk, g.txns.trans h.txns, fun q => (g.port q).trans (h.port q), fun k => (g.sw k).trans (h.sw k),
    fun a k => (g.source a k).trans (h.source a k)⟩

theorem Dev.Refreshes.prepares (h : d.Refreshes e) : d.Prepares e := ⟨h.tends.ks, h.tends.clk, h.tends.txns, h.tends.port, h.sw, h.source⟩

theorem Dev.Prepares.binds (h : d.Prepares e) (g : e.Binds l f) : d.Binds l f :=
  { g with ks := g.ks.trans h.ks, clk := g.clk.trans h.clk, txns := g.txns.trans h.txns, port := fun q => (g.port q).trans (h.port q),
           sw := fun k => (g.sw k).trans (h.sw k), others := fun a k hk => (g.others a k hk).trans (h.source a k) }

theorem onCore_prepares (g : Core → Core) : d.Prepares (d.onCore c g) :=
  ⟨rfl, rfl, rfl, fun q => by cases q <;> rfl, fun _ => rfl, fun _ _ => rfl⟩

theorem installTable_refreshes (ident : W32) : d.Refreshes (d.installTable m b ident) := by
  unfold Dev.installTable
  split
  · exact .refl d
  · exact onBent_refreshes rfl rfl

/-- The attributes of DDR regions alone change with the windows of a binding (R274, R356). -/
theorem bindAttrs_frame (d : Dev) (l : Loop) : ∃ dd po, d.bindAttrs l = { d with ddrs := dd, poison := po } := by
  have hset : ∀ (x : Dev) (k : Nat) (v : Bool), ∃ dd po, x.setAttr k v = { x with ddrs := dd, poison := po } := by
    intro x k v
    unfold Dev.setAttr
    split
    · exact ⟨_, _, rfl⟩
    · split <;> exact ⟨_, _, rfl⟩
  unfold Dev.bindAttrs
  induction l.regions generalizing d with
  | nil => exact ⟨_, _, rfl⟩
  | cons e rs ih =>
    have hone : ∃ dd po, (if e.ddr then d.setAttr (e.base.toNat % 1024) (e.perm.getLsbD 2) else d) = { d with ddrs := dd, poison := po } := by
      split
      · exact hset _ _ _
      · exact ⟨_, _, rfl⟩
    obtain ⟨dd, po, hone⟩ := hone
    rw [List.foldl_cons, hone]
    obtain ⟨dd', po', h⟩ := ih { d with ddrs := dd, poison := po }
    exact ⟨dd', po', h⟩

/-- The trigger's register as a binding writes it. -/
theorem onTrigger_binds {g : Src → Src} (l : Loop) (hen : ∀ x, (g x).en = false) (hvec : ∀ x, (g x).vec = l.entry) (hpri : ∀ x, (g x).pri = l.pri)
    (hmask : ∀ x, (g x).mask = 1#16 <<< slotOf l.core.toNat) :
    d.Binds l (d.onBiu (bentOf l.core.toNat) (fun u => u.onSource l.trigger.toNat g)) := by
  have hself : (d.onBiu (bentOf l.core.toNat) (fun u => u.onSource l.trigger.toNat g)).source (bentOf l.core.toNat) l.trigger.toNat
      = g (d.source (bentOf l.core.toNat) l.trigger.toNat) := Dev.source_onSource _ _ _ _
  refine ⟨rfl, rfl, rfl, fun q => by cases q <;> rfl, fun k => ?_, fun a k h => ?_, ?_, ?_, ?_, ?_⟩
  · obtain rfl | hk := Decidable.em (k = bentOf l.core.toNat)
    · rw [Dev.bent_onBiu]
    · rw [Dev.onBiu, Dev.bent_onBent_other d _ hk]
  · unfold Dev.source
    obtain rfl | ha := Decidable.em (a = bentOf l.core.toNat)
    · rw [Dev.bent_onBiu]
      exact Biu.source_setSource_other _ (fun hk => h ⟨rfl, hk⟩)
    · rw [Dev.onBiu, Dev.bent_onBent_other d _ ha]
  · rw [hself, hen]
  · rw [hself, hvec]
  · rw [hself, hpri]
  · rw [hself, hmask]

theorem applyBind_binds (d : Dev) (m : List Host.Cell) (l : Loop) : d.Binds l (d.applyBind m l) := by
  unfold Dev.applyBind
  extract_lets k h first d1 d2 d3 d4 d5
  have h1 : d.Prepares d1 := onCore_prepares _
  have h2 : d.Prepares d2 := h1.trans (installTable_refreshes _).prepares
  have h3 : d.Binds l d3 := h2.binds (onTrigger_binds l (fun _ => rfl) (fun _ => rfl) (fun _ => rfl) (fun _ => rfl))
  have h4 : d.Binds l d4 := by
    unfold d4
    cases l.slack with
    | none => exact h3
    | some e => exact (h3.refreshed (onScr_refreshes _)).refreshed scrStartHold_refreshes
  have h5 : d.Binds l d5 := by
    unfold d5
    cases l.pslot with
    | none => exact h4
    | some p => exact ((h4.refreshed (onSpan_refreshes _)).refreshed (onBent_refreshes rfl rfl)).refreshed (onScr_refreshes _)
  exact h5.refreshed refresh_refreshes

theorem bindLoop_binds (d : Dev) (m : List Host.Cell) (l : Loop) (margin : Byte) : d.Binds l (d.bindLoop m l margin) := by
  unfold Dev.bindLoop
  have hattrs : d.Prepares (d.bindAttrs l) := by
    obtain ⟨_, _, h⟩ := bindAttrs_frame d l
    rw [h]
    exact ⟨rfl, rfl, rfl, fun q => by cases q <;> rfl, fun _ => rfl, fun _ _ => rfl⟩
  have hmargin : ∀ (x : Dev) (k : Nat), x.Prepares (x.onBiu k (fun u => { u with preMargin := margin })) := by
    intro x k
    refine ⟨rfl, rfl, rfl, fun q => by cases q <;> rfl, fun a => ?_, fun a n => ?_⟩
    · obtain rfl | h := Decidable.em (a = k)
      · rw [Dev.bent_onBiu]
      · rw [Dev.onBiu, Dev.bent_onBent_other x _ h]
    · unfold Dev.source
      obtain rfl | h := Decidable.em (a = k)
      · rw [Dev.bent_onBiu]
        rfl
      · rw [Dev.onBiu, Dev.bent_onBent_other x _ h]
  exact (hattrs.trans (hmargin _ _)).binds (applyBind_binds _ m l)

/-! ### Switches of updates and migrations (R468, R474) -/

/-- A switch whose source is at no switch point waits in its entry; nothing outside the bents changes (R468). -/
theorem armSwitch_arms (h : (d.source b src.toNat).st.switchNow = false) (kind : Bool) (vec : W32) :
    d.Tends (d.armSwitch b n kind src vec)
      ∧ (Tab.find {} ((d.armSwitch b n kind src vec).bent b).sw n : Switch) = d.newSwitch b kind src vec := by
  rw [armSwitch_waits h, Dev.bent_onBent, Tab.find_put_self]
  exact ⟨⟨_, _, _, _, _, _, rfl⟩, rfl⟩

/-- An update's switch whose source is at a switch point is applied at once: the trigger has the new vector, and the entry is disarmed. -/
theorem armSwitch_applies (h192 : src.toNat < 192) (h : (d.source b src.toNat).st.switchNow = true) (vec : W32) :
    d.Tends (d.armSwitch b n false src vec) ∧ ((d.armSwitch b n false src vec).source b src.toNat).vec = vec
      ∧ (Tab.find {} ((d.armSwitch b n false src vec).bent b).sw n : Switch).armed = false := by
  unfold Dev.armSwitch
  extract_lets w d1
  rw [if_pos (by simp [h192, h])]
  have hw : (Tab.find {} (d1.bent b).sw n : Switch) = w := by
    unfold d1
    rw [Dev.bent_onBent, Tab.find_put_self]
  unfold Dev.applySwitch
  rw [hw]
  extract_lets w' d2 k old
  rw [if_neg (by simp [w])]
  let y := (d2.onSource b k (fun x => { x with vec := w.vec })).onBent b (fun x => { x with updates := satInc x.updates })
  have hy : d.Tends y := ⟨_, _, _, _, _, _, rfl⟩
  have hvec : (y.source b k).vec = vec := by
    unfold Dev.source y
    rw [Dev.bent_onBent]
    exact congrArg Src.vec (Dev.source_onSource d2 b k _)
  have hoff : (Tab.find {} (y.bent b).sw n : Switch).armed = false := by
    unfold y d2
    rw [Dev.bent_onBent, Dev.onSource, Dev.bent_onBiu, Dev.bent_onBent]
    exact congrArg Switch.armed (Tab.find_put_self _ _ _ _)
  have hline : y.Refreshes (y.switchLine (coreOf b n) old w.vec k) := switchLine_refreshes _ _ _
  refine ⟨hy.trans hline.tends, (congrArg Src.vec (hline.source b k)).trans hvec, ?_⟩
  rw [show ((y.switchLine (coreOf b n) old w.vec k).bent b).sw = _ from hline.sw b]
  exact hoff

/-- A rollback counter advanced changes what the security engine holds, and nothing else (R461). -/
theorem advanceRb_sec (d : Dev) (m : List Host.Cell) (addr : W32) : ∃ sc, d.advanceRb m addr = { d with sec := sc } := by
  unfold Dev.advanceRb
  extract_lets w k x old left
  split <;> exact ⟨_, rfl⟩

/-- After an update's switch the loop runs the new image (R474). -/
theorem finishUpdate_finishes (d : Dev) (m : List Host.Cell) (l : Loop) (new : Image) :
    (∀ q, (d.finishUpdate m l new).port q = d.port q) ∧ (d.finishUpdate m l new).ks.fwd = d.ks.fwd ∧ (d.finishUpdate m l new).ks.jobs = d.ks.jobs
      ∧ (∀ a k, (d.finishUpdate m l new).source a k = d.source a k) ∧ (∀ a, ((d.finishUpdate m l new).bent a).sw = (d.bent a).sw)
      ∧ (d.finishUpdate m l new).ks.loops = d.ks.loops.map (fun x => if x.num == l.num then { x with image := new.addr, entry := new.entry } else x) := by
  unfold Dev.finishUpdate
  extract_lets d1 d2 d3
  have hfreed : ∃ im kp, d1.dropImage l.image = d1.onKs (fun k => { k with images := im, kept := kp }) := ⟨_, _, rfl⟩
  obtain ⟨im, kp, hfreed⟩ := hfreed
  have h2 : ∃ sc, d2 = { d1.onKs (fun k => { k with images := im, kept := kp }) with sec := sc } := by
    unfold d2
    rw [hfreed]
    exact advanceRb_sec _ m new.addr
  obtain ⟨sc, h2⟩ := h2
  have h3 : d2.Refreshes d3.refreshBanks := by
    refine Dev.Refreshes.trans ?_ refreshBanks_refreshes
    unfold d3
    split
    · exact scrStartHold_refreshes
    · exact .refl d2
  have hks := h3.tends.ks
  refine ⟨fun q => (h3.tends.port q).trans ?_, (congrArg Keystone.fwd hks).trans ?_, (congrArg Keystone.jobs hks).trans ?_,
    fun a k => (h3.source a k).trans ?_, fun a => (h3.sw a).trans ?_, (congrArg Keystone.loops hks).trans ?_⟩
  all_goals rw [h2]
  · cases q <;> rfl
  all_goals rfl

section
variable {j : Job} {addr : W32} {im : Image} (hj : j.kind = .update l.num addr) (hl : d.loop l.num = some l) (him : d.image addr = some im)
include hj hl him

/-- An update whose switch is still armed waits. -/
theorem settleJob_update_armed (hw : (Tab.find {} (d.bent (bentOf l.core.toNat)).sw (slotOf l.core.toNat) : Switch).armed = true) :
    d.settleJob m j = (d, []) := by
  unfold Dev.settleJob
  rw [hj]
  dsimp only
  rw [hl, him]
  dsimp only
  rw [if_pos hw]

/-- An update whose switch has been applied ends. -/
theorem settleJob_update_applied (hw : (Tab.find {} (d.bent (bentOf l.core.toNat)).sw (slotOf l.core.toNat) : Switch).armed = false) :
    d.settleJob m j = ((d.finishUpdate m l im).endJob j stDone 0#16, []) := by
  unfold Dev.settleJob
  rw [hj]
  dsimp only
  rw [hl, him]
  dsimp only
  rw [if_neg (Bool.eq_false_iff.mp hw)]

end

/-- No command waiting: the ports and the forwarded requests stand. -/
theorem jobless_answered {cmd : CmdSrc} {st det : BitVec 16} {seq : W32} {ws : List W32} (h : d.answered cmd st det seq ws) :
    d.jobless.answered cmd st det seq ws := h.of_eq (fun q => by cases q <;> rfl) rfl

/-- The end of an update that alone waited: the command's answer stands, nothing waits, and its loop runs the new image (R346, R474). -/
theorem endUpdate_ends {j : Job} {new : Image} {cmd : CmdSrc} {st det : BitVec 16} {seq : W32} {ws : List W32} (hjobs : d.ks.jobs = [j])
    (hans : d.answered cmd st det seq ws) :
    let e := (d.finishUpdate m l new).endJob j stDone 0#16
    e.answered cmd st det seq ws ∧ e.ks.jobs = [] ∧ (∀ a k, e.source a k = d.source a k) ∧ (∀ a, (e.bent a).sw = (d.bent a).sw)
      ∧ ∀ x ∈ e.ks.loops, x.num = l.num → x.image = new.addr ∧ x.entry = new.entry := by
  intro e
  obtain ⟨hport, hfwd, hfjobs, hsource, hsw, hloops⟩ := finishUpdate_finishes d m l new
  have hend : (d.finishUpdate m l new).Speaks e := endJob_speaks _ j stDone 0#16
  have halone : e = (d.finishUpdate m l new).jobless.finalResult j stDone 0#16 := endJob_alone (hfjobs.trans hjobs) _ _
  refine ⟨?_, ?_, fun a k => ?_, fun a => ?_, fun x hx hnum => ?_⟩
  · rw [halone]
    exact finalResult_answered j _ _ (jobless_answered (hans.of_eq hport hfwd))
  · rw [halone]
    exact (finalResult_talks j _ _).jobs
  · unfold Dev.source at hsource ⊢
    rw [hend.bent]
    exact hsource a k
  · rw [hend.bent]
    exact hsw a
  · rw [hend.loops, hloops] at hx
    obtain ⟨v, -, rfl⟩ := List.mem_map.mp hx
    by_cases hv : v.num = l.num
    · rw [if_pos (by simp [hv])]
      exact ⟨rfl, rfl⟩
    · rw [if_neg (by simp [hv])] at hnum
      exact absurd hnum hv

end Sys2Proof.Machine
end

section
/-! PROOFS. The statement on LOOP_START, LOOP_STOP, LOOP_UPDATE and LOOP_MIGRATE. -/
namespace Sys2Proof.Proofs
open Sys2Proof.Machine

variable {s : State} {src : CmdSrc} {c : CmdSpec} {body : Dev → Eff} {i : Instr} {z w e : Dev} {ws : List W32} {l : Loop} {j : Job} {addr : W32} {im : Image}

/-- The row of an admitted command that is accepted: its job is looked at, and what that leaves stands after the row. -/
theorem accepted_row (hrow : exec i s = s.commit (settleEff s.mem (s.dev.takeCmd src c body))) (ha : s.dev.admits src c)
    (hbody : body s.dev = (z, [])) (hans : z.answered src stAccepted 0#16 (s.dev.seqWord src) ws) (htx : ∀ t ∈ z.txns, t.ofCmd src = false)
    (hhalt : z.ks.halted = false) (hjobs : z.ks.jobs = [j]) (hset : (z.taken src).settleJob s.mem j = (w, []))
    (hw : w.answered src stAccepted 0#16 (s.dev.seqWord src) ws) :
    ∃ t, exec i s = .next t ∧ t.mem = s.mem ∧ t.pending = s.pending ∧ Replied s t src stAccepted 0#16 ws
      ∧ (∀ n, t.dev.bent n = w.bent n) ∧ t.dev.cores = w.cores ∧ t.dev.ks = w.ks ∧ t.dev.txns = w.txns := by
  have htake := ha.takeCmd hbody hans.waiting htx
  have hzh : (z.taken src).ks.halted = false := hhalt
  have hzj : (z.taken src).ks.jobs = [j] := hjobs
  rw [htake, settleEff_one hzh hzj (by rw [hset]), hset, State.commit_eq] at hrow
  exact ⟨_, hrow, rfl, rfl, Dev.answered.replied (hw.of_eq (Dev.port_seen _ _) rfl), fun n => Dev.bent_seen _ _ n, rfl, rfl, rfl⟩

theorem source_of_bent {d d' : Dev} (h : ∀ n, d'.bent n = d.bent n) (a k : Nat) : d'.source a k = d.source a k := by
  unfold Dev.source
  rw [h]

/-- The loop with a number has that number. -/
theorem loop_num {d : Dev} {n : BitVec 16} (h : d.loop n = some l) : l.num = n := by
  have := List.find?_some h
  simpa using this

/-- The image at an address has that address. -/
theorem image_addr {d : Dev} (h : d.image addr = some im) : im.addr = addr := by
  have := List.find?_some h
  simpa using this

/-! ### LOOP_UPDATE (R361, R468, R474) -/

/-- What R351 states of LOOP_UPDATE. -/
def loopUpdateSpec : CmdSpec := { op := 0x0306, len := exact 8, modes := [mStandby, mRun, mDegraded], changes := true }

section
variable (ha : s.dev.admits src loopUpdateSpec) (hl : s.dev.loop (s.dev.pay16 src 0) = some l) (h192 : l.trigger.toNat < 192)
  (hunarmed : s.dev.switchArmed l.core.toNat = false) (hrun : s.dev.running src = false) (hi : s.dev.deckIdle)
  (hawake : s.dev.wordAsleep (0x08200000 + 0x1000 * bentOf l.core.toNat) = false) (hz : s.dev.payZero src 2 4 = true)
  (hgood : s.dev.badUpdate l (s.dev.pay32 src 4) = false) (hroom : s.dev.imagePaced (s.dev.pay32 src 4) = false)
  (him : s.dev.image (s.dev.pay32 src 4) = some im) (hver : im.verified = true)
include ha hl hunarmed hrun hi hawake hz hgood hroom him hver

/-- A LOOP_UPDATE that passes its checks is accepted, and its switch is armed. -/
theorem loopUpdateCmd_accepts : ∃ e, s.dev.Accessed e ∧ s.dev.loopUpdateCmd s.mem src =
    ((e.accept src (.update l.num (s.dev.pay32 src 4)) []).armSwitch (bentOf l.core.toNat) (slotOf l.core.toNat) false l.trigger im.entry, []) := by
  obtain ⟨hprog, -⟩ := ha.fresh
  obtain ⟨e, he, hdone⟩ := ksDone_idle (src := src) (go := fun late e => e.reverify s.mem src (s.dev.pay32 src 4) (fun y =>
      ((y.accept src (.update l.num (s.dev.pay32 src 4)) [] late).armSwitch (bentOf l.core.toNat) (slotOf l.core.toNat) false l.trigger
        (((y.image (s.dev.pay32 src 4)).map (fun i => i.entry)).getD 0#32), []))) hprog hi (bentAccess_plain (bentOf_lt l) hawake)
  refine ⟨e, he, ?_⟩
  unfold Dev.loopUpdateCmd Dev.acceptOr
  simp only [hl, firstBad, hz, hgood, hroom, hunarmed, hrun, Bool.not_true, Bool.false_eq_true, if_false]
  refine hdone.trans ?_
  have hei : e.image (s.dev.pay32 src 4) = some im := by
    unfold Dev.image
    rw [he.images]
    exact him
  unfold Dev.reverify
  rw [hei]
  dsimp only
  rw [if_pos hver, hei]
  rfl

/-- At no switch point the switch waits (R468). -/
theorem loopUpdate_waits (hpoint : (s.dev.source (bentOf l.core.toNat) l.trigger.toNat).st.switchNow = false) :
    ∃ t, exec (.loopUpdate src) s = .next t ∧ t.mem = s.mem ∧ t.pending = s.pending ∧ Replied s t src stAccepted 0#16 []
      ∧ (Tab.find {} (t.dev.bent (bentOf l.core.toNat)).sw (slotOf l.core.toNat) : Switch)
        = { armed := true, since := s.dev.clk, back := (s.dev.source (bentOf l.core.toNat) l.trigger.toNat).st.mayReturn, kind := false, src := l.trigger,
            vec := im.entry }
      ∧ t.dev.ks.jobs.map (·.kind) = [.update l.num (s.dev.pay32 src 4)] := by
  obtain ⟨e, he, hbody⟩ := loopUpdateCmd_accepts ha hl hunarmed hrun hi hawake hz hgood hroom him hver
  have hacc := accept_speaks e src (.update l.num (s.dev.pay32 src 4)) [] 0
  have hans := accept_answered e src (.update l.num (s.dev.pay32 src 4)) [] 0
  have hjobs := accept_jobs e src (.update l.num (s.dev.pay32 src 4)) [] 0
  obtain ⟨hcalm, -, -, -, -, -, -, hhalt, -⟩ := ha.1
  rw [he.jobs, show s.dev.ks.jobs = [] from hcalm, List.nil_append] at hjobs
  rw [he.seqWord] at hans
  have hjob : (e.jobFor src (.update l.num (s.dev.pay32 src 4))).kind = .update l.num (s.dev.pay32 src 4) := rfl
  generalize e.jobFor src (.update l.num (s.dev.pay32 src 4)) = j at hjobs hjob
  generalize e.accept src (.update l.num (s.dev.pay32 src 4)) [] = z at *
  have hsource : z.source (bentOf l.core.toNat) l.trigger.toNat = s.dev.source (bentOf l.core.toNat) l.trigger.toNat := by
    rw [source_of_bent hacc.bent, source_of_bent he.bent]
  obtain ⟨htends, hentry⟩ := armSwitch_arms (n := slotOf l.core.toNat) (hsource ▸ hpoint) false im.entry
  generalize z.armSwitch (bentOf l.core.toNat) (slotOf l.core.toNat) false l.trigger im.entry = y at hbody htends hentry
  have hyk := htends.ks
  have hyans := hans.of_eq (f := y) htends.port (by rw [hyk])
  have hloop : (y.taken src).loop l.num = some l := by
    rw [loop_num hl]
    refine Eq.trans ?_ hl
    show y.ks.loops.find? _ = _
    rw [hyk, hacc.loops, he.loops]
    rfl
  have himage : (y.taken src).image (s.dev.pay32 src 4) = some im := by
    refine Eq.trans ?_ him
    show y.ks.images.find? _ = _
    rw [hyk, hacc.images, he.images]
    rfl
  have hset := settleJob_update_armed (m := s.mem) hjob hloop himage (congrArg Switch.armed hentry)
  obtain ⟨t, ht, hm, hp, hr, hbent, -, hks, -⟩ := accepted_row (i := .loopUpdate src) rfl ha hbody hyans (by
      rw [htends.txns, hacc.txns, he.txns]
      exact admits_txns ha) (by rw [hyk, hacc.halted, he.halted, hhalt]) (by rw [hyk, hjobs]) hset hyans
  refine ⟨t, ht, hm, hp, hr, ?_, ?_⟩
  · rw [hbent]
    refine hentry.trans ?_
    unfold Dev.newSwitch
    rw [hsource, hacc.clk, he.clk]
  · rw [hks]
    show y.ks.jobs.map _ = _
    rw [hyk, hjobs, List.map_singleton, hjob]

include h192 in
/-- At a switch point the update is done at once (R468, R474). -/
theorem loopUpdate_done (hpoint : (s.dev.source (bentOf l.core.toNat) l.trigger.toNat).st.switchNow = true) :
    ∃ t, exec (.loopUpdate src) s = .next t ∧ t.mem = s.mem ∧ t.pending = s.pending ∧ Replied s t src stAccepted 0#16 []
      ∧ (Tab.find {} (t.dev.bent (bentOf l.core.toNat)).sw (slotOf l.core.toNat) : Switch).armed = false ∧ t.dev.ks.jobs = []
      ∧ (t.dev.source (bentOf l.core.toNat) l.trigger.toNat).vec = im.entry
      ∧ ∀ x ∈ t.dev.ks.loops, x.num = l.num → x.image = s.dev.pay32 src 4 ∧ x.entry = im.entry := by
  obtain ⟨e, he, hbody⟩ := loopUpdateCmd_accepts ha hl hunarmed hrun hi hawake hz hgood hroom him hver
  have hacc := accept_speaks e src (.update l.num (s.dev.pay32 src 4)) [] 0
  have hans := accept_answered e src (.update l.num (s.dev.pay32 src 4)) [] 0
  have hjobs := accept_jobs e src (.update l.num (s.dev.pay32 src 4)) [] 0
  obtain ⟨hcalm, -, -, -, -, -, -, hhalt, -⟩ := ha.1
  rw [he.jobs, show s.dev.ks.jobs = [] from hcalm, List.nil_append] at hjobs
  rw [he.seqWord] at hans
  have hjob : (e.jobFor src (.update l.num (s.dev.pay32 src 4))).kind = .update l.num (s.dev.pay32 src 4) := rfl
  generalize e.jobFor src (.update l.num (s.dev.pay32 src 4)) = j at hjobs hjob
  generalize e.accept src (.update l.num (s.dev.pay32 src 4)) [] = z at *
  have hsource : z.source (bentOf l.core.toNat) l.trigger.toNat = s.dev.source (bentOf l.core.toNat) l.trigger.toNat := by
    rw [source_of_bent hacc.bent, source_of_bent he.bent]
  obtain ⟨htends, hvec, hoff⟩ := armSwitch_applies (n := slotOf l.core.toNat) h192 (hsource ▸ hpoint) im.entry
  generalize z.armSwitch (bentOf l.core.toNat) (slotOf l.core.toNat) false l.trigger im.entry = y at hbody htends hvec hoff
  have hyans := hans.of_eq (f := y) htends.port (by rw [htends.ks])
  have hyjobs : y.ks.jobs = [j] := (congrArg Keystone.jobs htends.ks).trans hjobs
  have hloop : (y.taken src).loop l.num = some l := by
    rw [loop_num hl]
    refine Eq.trans ?_ hl
    show y.ks.loops.find? _ = _
    rw [htends.ks, hacc.loops, he.loops]
    rfl
  have himage : (y.taken src).image (s.dev.pay32 src 4) = some im := by
    refine Eq.trans ?_ him
    show y.ks.images.find? _ = _
    rw [htends.ks, hacc.images, he.images]
    rfl
  have hset := settleJob_update_applied (m := s.mem) hjob hloop himage hoff
  obtain ⟨hwans, hnone, hwsource, hwsw, hwloops⟩ := endUpdate_ends (d := y.taken src) (m := s.mem) (l := l) (new := im) hyjobs
    (hyans.of_eq (fun q => by cases q <;> rfl) rfl)
  obtain ⟨t, ht, hm, hp, hr, hbent, -, hks, -⟩ := accepted_row (i := .loopUpdate src) rfl ha hbody hyans (by
      rw [htends.txns, hacc.txns, he.txns]
      exact admits_txns ha) (by rw [htends.ks, hacc.halted, he.halted, hhalt]) hyjobs hset hwans
  refine ⟨t, ht, hm, hp, hr, ?_, ?_, ?_, ?_⟩
  · rw [hbent, hwsw]
    exact hoff
  · rw [hks, hnone]
  · rw [source_of_bent hbent, hwsource]
    exact hvec
  · rw [hks, ← image_addr him]
    exact hwloops

end

/-! ### LOOP_MIGRATE (R360, R475) -/

/-- What R351 states of LOOP_MIGRATE. -/
def loopMigrateSpec : CmdSpec := { op := 0x0305, len := exact 8, modes := [mStandby, mRun, mDegraded], changes := true }

/-- The reads of a unit table are Keystone's own, in class C1. -/
theorem tableReads_plain {d : Dev} {b : Nat} {ident : W32} : ∀ t ∈ d.tableReads b ident, t.ksPlain := by
  intro t ht
  unfold Dev.tableReads at ht
  split at ht
  · cases ht
  · obtain ⟨k, -, rfl⟩ := List.mem_map.mp ht
    exact ⟨target_isSome rfl, rfl, rfl, rfl⟩

/-- The unit table reads the same after accesses over an idle Deck. -/
theorem readTable_accessed {d : Dev} (he : d.Accessed e) (b : Nat) (ident : W32) : (e.readTable b ident).1 = (d.readTable b ident).1 := by
  have htable : e.tableFor b ident = d.tableFor b ident := by
    unfold Dev.tableFor
    rw [he.bent, he.images]
  unfold Dev.readTable
  rw [htable]
  split
  · rfl
  · unfold Dev.readSpan
    rw [he.poison]

/-- A check that fails none of its fields fails no one. -/
theorem firstBad_mem {o : Nat} {v : Bool} : ∀ {l : List (Nat × Bool)}, firstBad l = none → (o, v) ∈ l → v = false
  | (o', v') :: l, h, hmem => by
    unfold firstBad at h
    split at h
    · cases h
    · next hv =>
      obtain heq | hmem := List.mem_cons.mp hmem
      · simp_all
      · exact firstBad_mem h hmem

/-- The trigger of a migration's target in the loop's own bent is another source. -/
theorem migrate_trigger {d : Dev} {r : BindReq} {x : Dev} (hl : l ∈ d.ks.loops) (hlt : r.trigger < 256) (hbad : d.badBind r = none)
    (hshort : d.bindShort r = none) (hx : ∀ b, x.freeAlarms b = d.freeAlarms b) (num : BitVec 16) (entry : W32) :
    ¬ (bentOf l.core.toNat = bentOf (x.makeLoop r num entry).1.core.toNat ∧ l.trigger.toNat = (x.makeLoop r num entry).1.trigger.toNat) := by
  rintro ⟨hb, ht⟩
  rw [makeLoop_core] at hb
  obtain ⟨hnamed, hfree⟩ := makeLoop_trigger (d := x) num entry hlt
  have hbound : l ∈ d.allBinds := List.mem_append_left _ hl
  by_cases h : r.trigger = 255
  · have hne : x.freeAlarms r.bent ≠ [] := by
      rw [hx]
      intro hnil
      unfold Dev.bindShort at hshort
      split at hshort
      · cases hshort
      · split at hshort
        · cases hshort
        · rw [if_pos (by simp [h, hnil])] at hshort
          cases hshort
    obtain ⟨k, hk, hkt⟩ := hfree h hne
    rw [hx] at hk
    obtain ⟨-, hk⟩ := List.mem_filter.mp hk
    simp only [Bool.and_eq_true, Bool.not_eq_true', List.any_eq_false] at hk
    obtain ⟨-, hk⟩ := hk
    have hb' : bentOf l.core.toNat = r.bent := hb
    exact hk l hbound (by simp [hb', ht, hkt])
  · have htrig : d.badTrigger r = false := firstBad_mem (o := 8) hbad (List.mem_append_left _ (by simp only [List.mem_cons, true_or, or_true]))
    unfold Dev.badTrigger at htrig
    have hb' : bentOf l.core.toNat = r.bent := hb
    simp only [bne_iff_ne, ne_eq, h, not_false_eq_true, Bool.and_eq_false_imp, Bool.or_eq_false_iff, List.any_eq_false] at htrig
    exact (htrig (by simp)).1.2 l hbound (by simp [hb', ht, hnamed h])

/-- The comparators that are free depend on the bent's interrupt unit and on the bindings alone. -/
theorem freeAlarms_congr {d x : Dev} (hb : ∀ n, (x.bent n).biu = (d.bent n).biu) (hl : x.ks.loops = d.ks.loops) (hj : x.ks.jobs = d.ks.jobs) (b : Nat) :
    x.freeAlarms b = d.freeAlarms b := by
  unfold Dev.freeAlarms Dev.allBinds Dev.source
  rw [hb, hl, hj]

section
variable (ha : s.dev.admits src loopMigrateSpec) (hl : s.dev.loop (s.dev.pay16 src 0) = some l)
  (hunarmed : s.dev.switchArmed l.core.toNat = false) (hrun : s.dev.running src = false) (hi : s.dev.deckIdle)
  (hawake : s.dev.wordAsleep (0x08200000 + 0x1000 * bentOf l.core.toNat) = false) (hbad : s.dev.badBind (s.dev.moveReq src l) = none)
  (hout : l.movedOut (s.dev.moveReq src l) = none) (hshort : s.dev.bindShort (s.dev.moveReq src l) = none)
  (htarget : s.dev.wordAsleep (0x08200000 + 0x1000 * (s.dev.moveReq src l).bent) = false)
  (htable : (s.dev.readTable (s.dev.moveReq src l).bent l.unitId).1 = false)
  (hreads : ∀ x ∈ s.dev.tableReads (s.dev.moveReq src l).bent l.unitId, s.dev.wordAsleep x.addr.toNat = false)
include ha hl hunarmed hrun hi hawake hbad hout hshort htarget htable hreads

/-- A LOOP_MIGRATE that passes its checks is accepted: its target is bound, and the switch of its slot is armed. -/
theorem loopMigrateCmd_accepts : ∃ y, (∃ e, s.dev.Accessed e ∧ e.Refreshes y) ∧ s.dev.loopMigrateCmd s.mem src =
    (((((y.makeLoop (s.dev.moveReq src l) l.num l.entry).2.accept src
        (.migrate l.num (y.makeLoop (s.dev.moveReq src l) l.num l.entry).1 (y.started l) none) (y.makeLoop (s.dev.moveReq src l) l.num l.entry).1.report).bindLoop
        s.mem (y.makeLoop (s.dev.moveReq src l) l.num l.entry).1 (s.dev.moveReq src l).margin).armSwitch (bentOf l.core.toNat) (slotOf l.core.toNat) true l.trigger
        0#32), []) := by
  obtain ⟨hprog, -⟩ := ha.fresh
  have hbent : (s.dev.moveReq src l).bent < 128 := by
    have := coreId_lt (s.dev.moveReq src l)
    unfold BindReq.bent bentOf
    omega
  obtain ⟨e, he, hdone⟩ := ksDone_idle (src := src) (go := fun late e' =>
      let tab := e'.readTable (s.dev.moveReq src l).bent (s.dev.moveReq src l).unitId
      let e := tab.2
      if tab.1 then e.refuse src stFaultActive 547#16 else
      let t := e.makeLoop (s.dev.moveReq src l) l.num l.entry
      let y := t.2.accept src (.migrate l.num t.1 (e.started l) none) t.1.report late
      ((y.bindLoop s.mem t.1 (s.dev.moveReq src l).margin).armSwitch (bentOf l.core.toNat) (slotOf l.core.toNat) true l.trigger 0#32, []))
    (ts := bentAccess (s.dev.moveReq src l).bent :: bentAccess (bentOf l.core.toNat) ::
      s.dev.tableReads (s.dev.moveReq src l).bent (s.dev.moveReq src l).unitId) hprog hi (by
    intro t ht
    obtain rfl | ht := List.mem_cons.mp ht
    · exact bentAccess_plain hbent htarget _ List.mem_cons_self
    · obtain rfl | ht := List.mem_cons.mp ht
      · exact bentAccess_plain (bentOf_lt l) hawake _ List.mem_cons_self
      · exact ⟨tableReads_plain t ht, hreads t ht⟩)
  have htab : (e.readTable (s.dev.moveReq src l).bent (s.dev.moveReq src l).unitId).1 = false := (readTable_accessed he _ _).trans htable
  refine ⟨_, ⟨e, he, readTable_refreshes (s.dev.moveReq src l).bent (s.dev.moveReq src l).unitId⟩, ?_⟩
  unfold Dev.loopMigrateCmd Dev.acceptOr
  simp only [hl, hbad, hout, hshort, hunarmed, hrun, Bool.false_eq_true, if_false]
  refine hdone.trans ?_
  dsimp only
  rw [if_neg (by simp [htab])]

/-- The switch of a migration waits for its switch point, and the target is bound (R360, R475 steps 1 and 2). -/
theorem loopMigrate_begins (hpoint : (s.dev.source (bentOf l.core.toNat) l.trigger.toNat).st.switchNow = false) :
    ∃ t g, exec (.loopMigrate src) s = .next t ∧ t.mem = s.mem ∧ t.pending = s.pending ∧ Replied s t src stAccepted 0#16 g.report
      ∧ (Tab.find {} (t.dev.bent (bentOf l.core.toNat)).sw (slotOf l.core.toNat) : Switch)
        = { armed := true, since := s.dev.clk, back := (s.dev.source (bentOf l.core.toNat) l.trigger.toNat).st.mayReturn, kind := true, src := l.trigger,
            vec := 0#32 }
      ∧ t.dev.ks.jobs.map (·.kind) = [.migrate l.num g (s.dev.started l) none] ∧ g.core.toNat = (s.dev.moveReq src l).coreId ∧ g.num = l.num := by
  obtain ⟨y, ⟨e, he, hy⟩, hbody⟩ := loopMigrateCmd_accepts ha hl hunarmed hrun hi hawake hbad hout hshort htarget htable hreads
  obtain ⟨hcalm, -, -, -, -, -, -, hhalt, -⟩ := ha.1
  have hyloops : y.ks.loops = s.dev.ks.loops := (congrArg Keystone.loops hy.tends.ks).trans he.loops
  have hyjobs : y.ks.jobs = s.dev.ks.jobs := (congrArg Keystone.jobs hy.tends.ks).trans he.jobs
  have hysource : ∀ a k, y.source a k = s.dev.source a k := fun a k => (hy.source a k).trans (source_of_bent he.bent a k)
  have hstarted : y.started l = s.dev.started l := congrArg Src.en (hysource _ _)
  have hother := migrate_trigger (r := s.dev.moveReq src l) (List.mem_of_find?_eq_some hl) (s.dev.pay8 src 6).isLt hbad hshort
    (freeAlarms_congr (fun n => (hy.biu n).trans (by rw [he.bent])) hyloops hyjobs) l.num l.entry
  have hcore := makeLoop_core y (s.dev.moveReq src l) l.num l.entry
  have hnum : (y.makeLoop (s.dev.moveReq src l) l.num l.entry).1.num = l.num := rfl
  obtain ⟨fc, hframe⟩ := makeLoop_frame y (s.dev.moveReq src l) l.num l.entry
  rw [hframe, hstarted] at hbody
  generalize (y.makeLoop (s.dev.moveReq src l) l.num l.entry).1 = g at hbody hother hcore hnum
  have hyreq : ({ y with freeCtr := fc } : Dev).request src = s.dev.request src :=
    Eq.trans (by cases src with | port p => cases p <;> rfl | fwd u p => rfl) ((hy.tends.request src).trans (he.request src))
  have hzjobs := accept_jobs ({ y with freeCtr := fc } : Dev) src (.migrate l.num g (s.dev.started l) none) g.report 0
  have hans := accept_answered ({ y with freeCtr := fc } : Dev) src (.migrate l.num g (s.dev.started l) none) g.report 0
  have hacc := accept_speaks ({ y with freeCtr := fc } : Dev) src (.migrate l.num g (s.dev.started l) none) g.report 0
  have hjob : (({ y with freeCtr := fc } : Dev).jobFor src (.migrate l.num g (s.dev.started l) none)).kind = .migrate l.num g (s.dev.started l) none := rfl
  rw [show ({ y with freeCtr := fc } : Dev).ks.jobs = [] from hyjobs.trans hcalm, List.nil_append] at hzjobs
  rw [seqWord_of_request hyreq] at hans
  generalize ({ y with freeCtr := fc } : Dev).jobFor src (.migrate l.num g (s.dev.started l) none) = j at hzjobs hjob
  generalize ({ y with freeCtr := fc } : Dev).accept src (.migrate l.num g (s.dev.started l) none) g.report = z at hbody hzjobs hans hacc
  have hbinds := bindLoop_binds z s.mem g (s.dev.moveReq src l).margin
  generalize z.bindLoop s.mem g (s.dev.moveReq src l).margin = x at hbody hbinds
  have hsource : x.source (bentOf l.core.toNat) l.trigger.toNat = s.dev.source (bentOf l.core.toNat) l.trigger.toNat :=
    ((hbinds.others _ _ hother).trans (source_of_bent hacc.bent _ _)).trans (hysource _ _)
  have hclk : x.clk = s.dev.clk := ((hbinds.clk.trans hacc.clk).trans hy.tends.clk).trans he.clk
  obtain ⟨htends, hentry⟩ := armSwitch_arms (n := slotOf l.core.toNat) (hsource ▸ hpoint) true 0#32
  generalize x.armSwitch (bentOf l.core.toNat) (slotOf l.core.toNat) true l.trigger 0#32 = v at hbody htends hentry
  have hks := htends.ks
  have hvans := hans.of_eq (f := v) (fun q => (htends.port q).trans (hbinds.port q)) (by rw [hks, hbinds.ks])
  have hvjobs : v.ks.jobs = [j] := by rw [hks, hbinds.ks, hzjobs]
  have hset : (v.taken src).settleJob s.mem j = (v.taken src, []) := by
    unfold Dev.settleJob
    rw [hjob]
  obtain ⟨t, ht, hm, hp, hr, hbent, -, htks, -⟩ := accepted_row (i := .loopMigrate src) rfl ha hbody hvans (by
      rw [htends.txns, hbinds.txns, hacc.txns]
      show ∀ t ∈ y.txns, _
      rw [hy.tends.txns, he.txns]
      exact admits_txns ha) (by
      rw [hks, hbinds.ks, hacc.halted]
      exact (congrArg Keystone.halted hy.tends.ks).trans (he.halted.trans hhalt)) hvjobs hset hvans
  refine ⟨t, g, ht, hm, hp, hr, ?_, ?_, hcore, hnum⟩
  · rw [hbent]
    refine hentry.trans ?_
    unfold Dev.newSwitch
    rw [hsource, hclk]
  · rw [htks]
    show v.ks.jobs.map _ = _
    rw [hvjobs, List.map_singleton, hjob]

end

/-- Settles O37: LOOP_START and LOOP_STOP answer at once with what they leave of the core and the trigger; an update and a migration are accepted with the
switch of their slot, which waits, or is applied where its source is at a switch point. -/
theorem loopsRunAndSwitch : Obligations.LoopsRunAndSwitch := by
  unfold Obligations.LoopsRunAndSwitch
  exact ⟨fun s src l hl hi hawake => ⟨fun ha hz hwhen hoff hidle => loopStart_starts ha hl hi hawake hz hwhen hoff hidle,
      fun ha hf hz => ⟨loopStop_now ha hl hi hawake hf hz, loopStop_between ha hl hi hawake hf hz⟩⟩,
    fun s src l hl h192 hunarmed hrun hi hawake =>
      ⟨fun im ha hz hgood hroom him hver => ⟨loopUpdate_waits ha hl hunarmed hrun hi hawake hz hgood hroom him hver,
          loopUpdate_done ha hl h192 hunarmed hrun hi hawake hz hgood hroom him hver⟩,
        fun ha hbad hout hshort htarget htable hreads =>
          loopMigrate_begins ha hl hunarmed hrun hi hawake hbad hout hshort htarget htable hreads⟩⟩

end Sys2Proof.Proofs
end

section
/-! SUPPORT. The first line of a copy read by Keystone, and where an image is put (R222, R264, R354, R482). -/
namespace Sys2Proof.Machine

variable {d e x : Dev} {src : CmdSrc} {c : Copy} {ws : List W32} {k : JobKind} {g : Nat × Nat}

/-! ### Numbers of transactions on a free way (R216) -/

theorem onTarget_nextId (g : Nat × Nat) (f : Target → Target) : (d.onTarget g f).nextId = d.nextId := by
  unfold Dev.onTarget
  split <;> rfl

theorem land_nextId {t : Txn} (hg : t.target = some g) : (d.land t).nextId = d.nextId := by
  unfold Dev.land
  rw [hg]
  dsimp only
  rw [Dev.notePeak, onTarget_nextId]
  split
  · rw [onTarget_nextId]
  · rfl

theorem cross_nextId (t : Txn) (i : Nat) : (d.cross t i).nextId = d.nextId := by
  unfold Dev.cross Dev.onChan
  split
  · split <;> rfl
  · rfl

theorem gateSeen_nextId (t : Txn) (p : Gate) : (d.gateSeen t p).nextId = d.nextId := by
  have hhub : ∀ (x : Dev) (s : Nat), (if s < 8 then (x.strobe (0xDC4 + 8 * s)).strobe (0xDC5 + 8 * s) else x).nextId = x.nextId := by
    intro x s
    split
    · rw [Dev.strobe_nextId, Dev.strobe_nextId]
    · rfl
  unfold Dev.gateSeen
  cases p with
  | link b => rw [Dev.strobe_nextId, Dev.strobe_nextId]
  | hub s => exact Dev.strobe_nextId _ _
  | centre => rfl
  | port p =>
    cases hubOf t.req with
    | none => exact hhub d p
    | some s => exact (hhub _ p).trans (hhub d s)

theorem foldl_nextId {α : Type} {f : Dev → α → Dev} (hf : ∀ (x : Dev) a, (f x a).nextId = x.nextId) (l : List α) (d : Dev) :
    (l.foldl f d).nextId = d.nextId := by
  induction l generalizing d with
  | nil => rfl
  | cons a l ih => exact (ih _).trans (hf d a)

theorem leaveP1_nextId : d.leaveP1.nextId = d.nextId := by
  unfold Dev.leaveP1
  split <;> rfl

/-- A transaction sent on a free way takes one number. -/
theorem issueTxn_nextId {f : Nat → Txn} (hw : d.freeWay) (hg : (f d.nextId).target = some g) (he : entryLimit (f d.nextId).req = some 16)
    (hroom : d.entriesUsed (f d.nextId).req < 16) : (d.issueTxn f).nextId = d.nextId + 1 := by
  let y := ({ d with nextId := d.nextId + 1 } : Dev).leaveP1
  have htx : y.txns = d.txns := leaveP1_txns _
  have hway : y.freeWay := hw.congr htx (leaveP1_abutment _)
  have hfree : y.entryFree (f d.nextId).req = true := by
    unfold Dev.entryFree
    rw [he]
    unfold Dev.entriesUsed at hroom ⊢
    rw [htx]
    exact decide_eq_true hroom
  have hid : y.nextId = d.nextId + 1 := leaveP1_nextId
  show (y.send (f d.nextId)).nextId = _
  unfold Dev.send
  rw [if_pos hfree, Dev.arrive, clearWay_of_freeWay y hway hg, if_pos rfl, hway.2.2]
  simp only [Bool.false_and, Bool.false_eq_true, if_false]
  rw [land_nextId hg, foldl_nextId (fun z a => gateSeen_nextId (d := z) _ a), foldl_nextId (fun z a => cross_nextId (d := z) _ a), hid]

/-! ### Reads of staged words (R222, R264) -/

theorem Dev.Traffics.ks {P : Origin → Prop} (h : Dev.Traffics P d e) : e.ks.copies = d.ks.copies ∧ e.ks.fwd = d.ks.fwd ∧ e.ks.halted = d.ks.halted := by
  obtain ⟨⟨_, _, _, _, _, _, _, _, _, _, _, _, rfl⟩, -⟩ := h
  exact ⟨rfl, rfl, rfl⟩

theorem Dev.Traffics.port {P : Origin → Prop} (h : Dev.Traffics P d e) (q : Port) : e.port q = d.port q := by
  obtain ⟨⟨_, _, _, _, _, _, _, _, _, _, _, _, rfl⟩, -⟩ := h
  cases q <;> rfl

/-- The read by which Keystone fetches a run of staged words of a copy. -/
def Copy.read (c : Copy) (r : Nat × Nat) (id : Nat) : Txn :=
  { newTxn id ksReq 1#2 .rd (BitVec.ofNat 32 (c.stage + 16 * c.next + r.1)) (.copy c.src) with count := r.2 }

/-- A transaction on the Deck is a read of Keystone's, in class C1, with a number. -/
def Dev.reads (d : Dev) (n : Nat) : Prop := ∃ t ∈ d.txns, t.id = n ∧ t.ty = .rd ∧ t.cls = 1#2 ∧ t.req = ksReq

theorem read_target (c : Copy) (r : Nat × Nat) (n : Nat) : ∃ g, (c.read r n).target = some g := Option.isSome_iff_exists.mp (target_isSome rfl)

/-- Over an idle Deck a first read stands at its target. -/
theorem firstRead_stands (hi : d.deckIdle) (c : Copy) (r : Nat × Nat) : (d.issueTxn (c.read r)).reads d.nextId
    ∧ (d.issueTxn (c.read r)).nextId = d.nextId + 1 ∧ (d.issueTxn (c.read r)).freeWay ∧ (d.issueTxn (c.read r)).entriesUsed ksReq < 16 := by
  obtain ⟨g, hg⟩ := read_target c r d.nextId
  have hway : d.freeWay := ⟨by simp [hi.1], fun g => by simp [Dev.fillAt, hi.1], hi.2.2.1⟩
  have hid := issueTxn_nextId (f := c.read r) hway hg rfl (by simp [Dev.entriesUsed, hi.1])
  obtain ⟨e, since, he, hsent⟩ := issueTxn_idle (f := c.read r) hi hg rfl rfl rfl
  have hdown : e.abutmentDown = false := (he.idle hi).2.2.1
  have htx : (d.issueTxn (c.read r)).txns = [{ c.read r d.nextId with st := .sent, overfull := false, since := since }] := by rw [hsent]
  refine ⟨⟨_, by rw [htx]; exact List.mem_singleton_self _, rfl, rfl, rfl, rfl⟩, hid, ⟨fun t ht => ?_, fun g' => ?_, ?_⟩, ?_⟩
  · rw [htx] at ht
    rw [List.mem_singleton.mp ht]
    exact ⟨rfl, nofun⟩
  · unfold Dev.fillAt
    rw [htx]
    refine lt_of_le_of_lt (le_trans (min_le_right _ _) (List.length_filter_le _ _)) ?_
    exact (by decide : 1 < 64)
  · rw [hsent]
    exact hdown
  · unfold Dev.entriesUsed
    rw [htx]
    refine lt_of_le_of_lt (List.length_filter_le _ _) ?_
    exact (by decide : 1 < 16)

/-- A read behind others on a free way stands at its target too, and they stand. -/
theorem nextRead_stands (hw : d.freeWay) (hroom : d.entriesUsed ksReq < 16) (c : Copy) (r : Nat × Nat) : (d.issueTxn (c.read r)).reads d.nextId
    ∧ ∀ n, d.reads n → (d.issueTxn (c.read r)).reads n := by
  obtain ⟨g, hg⟩ := read_target c r d.nextId
  obtain ⟨e, htx⟩ := issueTxn_txns d (c.read r) g hw hg (by
    unfold Dev.entryFree
    rw [show entryLimit (c.read r d.nextId).req = some 16 from rfl]
    exact decide_eq_true hroom)
  unfold Dev.reads
  rw [htx]
  exact ⟨⟨_, List.mem_append_right _ (List.mem_singleton_self _), rfl, rfl, rfl, rfl⟩, fun n ⟨t, ht, h⟩ => ⟨t, List.mem_append_left _ ht, h⟩⟩

/-- The runs of staged words of a copy's next line: one or two reads. -/
theorem readRuns_cases {n : Nat} (h : 0 < n) :
    (List.range 2).filterMap (fun h => if 8 * h < n then some (8 * h, min 8 (n - 8 * h)) else none)
      = [(0, min 8 n), (8, min 8 (n - 8))]
    ∨ (List.range 2).filterMap (fun h => if 8 * h < n then some (8 * h, min 8 (n - 8 * h)) else none) = [(0, min 8 n)] := by
  rw [show List.range 2 = [0, 1] from rfl]
  by_cases h8 : 8 < n <;> simp [h, h8]

/-- The reads of one run or of two stand on the Deck under the numbers that they take. -/
theorem readRuns_stand (hi : d.deckIdle) {rs : List (Nat × Nat)} {r r' : Nat × Nat} (hrs : rs = [r, r'] ∨ rs = [r]) {n : Nat} (hn : n < rs.length) :
    (rs.foldl (fun x a => x.issueTxn (c.read a)) d).reads (d.nextId + n) := by
  obtain ⟨hfirst, hnext, hway, hroom⟩ := firstRead_stands hi c r
  obtain rfl | rfl := hrs
  · obtain ⟨hsecond, hkept⟩ := nextRead_stands hway hroom c r'
    rw [hnext] at hsecond
    rw [List.foldl_cons, List.foldl_cons, List.foldl_nil]
    simp only [List.length_cons, List.length_nil] at hn
    obtain rfl | rfl : n = 0 ∨ n = 1 := by omega
    · exact hkept _ hfirst
    · exact hsecond
  · rw [List.foldl_cons, List.foldl_nil]
    simp only [List.length_cons, List.length_nil] at hn
    obtain rfl : n = 0 := by omega
    exact hfirst

/-- The copy that alone is under way, with the reads of its next line noted. -/
def Dev.asks (d : Dev) (c : Copy) (ids : List Nat) : Dev := d.onKs (fun k => { k with copies := [{ c with asked := ids, got := [] }] })

/-- Reads of staged words on an idle Deck change nothing outside it. -/
theorem readRuns_traffics (hi : d.deckIdle) (ids : List Nat) (rs : List (Nat × Nat)) :
    Dev.Traffics (· = .copy c.src) (d.asks c ids) (rs.foldl (fun x r => x.issueTxn (c.read r)) (d.asks c ids)) := by
  have ho : (d.asks c ids).origins (· = .copy c.src) := by
    intro t ht
    rw [show (d.asks c ids).txns = [] from hi.1] at ht
    cases ht
  generalize d.asks c ids = y at ho
  induction rs generalizing y with
  | nil => exact .refl ho
  | cons r rs ih =>
    have hone : Dev.Traffics (· = .copy c.src) y (y.issueTxn (c.read r)) := issueTxn_traffics ho rfl
    exact hone.trans (ih _ hone.origin)

/-- A copy that alone is under way has the words of its next line read, in one run or two. -/
theorem askCopy_asks (hi : d.deckIdle) (hc : d.ks.copies = [c]) (hleft : 0 < c.left) :
    ∃ ids, ids ≠ [] ∧ (∀ n ∈ ids, (d.askCopy c).reads n) ∧ Dev.Traffics (· = .copy c.src) (d.asks c ids) (d.askCopy c) := by
  unfold Dev.askCopy
  extract_lets runs ids d1
  have hd1 : d1 = d.asks c ids := by
    unfold d1 Dev.asks Dev.onKs
    dsimp only
    rw [hc]
    simp
  have hruns : runs = _ ∨ runs = _ := readRuns_cases hleft
  change ∃ ids, ids ≠ [] ∧ (∀ n ∈ ids, (runs.foldl (fun x r => x.issueTxn (c.read r)) d1).reads n)
    ∧ Dev.Traffics (· = .copy c.src) (d.asks c ids) (runs.foldl (fun x r => x.issueTxn (c.read r)) d1)
  have hidle : (d.asks c ids).deckIdle := hi
  have hids : ids = (List.range runs.length).map (fun i => (d.asks c ids).nextId + i) := rfl
  have hne : ids ≠ [] := by
    unfold ids
    obtain h | h := hruns <;> simp [h]
  clear_value ids d1 runs
  refine ⟨ids, hne, fun n hn => ?_, by rw [hd1]; exact readRuns_traffics hi ids runs⟩
  rw [hids] at hn
  obtain ⟨i, hlt, rfl⟩ := List.mem_map.mp hn
  rw [hd1]
  exact readRuns_stand hidle hruns (List.mem_range.mp hlt)

/-! ### A copy begins (R354, R367) -/

/-- An idle Deck stays so where hosts are answered. -/
theorem Dev.Speaks.idle (h : d.Speaks e) (hi : d.deckIdle) : e.deckIdle := by
  obtain ⟨_, _, _, _, _, _, rfl⟩ := h
  exact hi

/-- A copy none of whose words have been asked for. -/
def Copy.fresh (src : CmdSrc) (stage dest len : Nat) : Copy := { src := src, stage := stage, dest := dest, len := len, next := 0 }

/-- A copy joins the ones under way. -/
def Dev.addCopy (d : Dev) (c : Copy) : Dev := d.onKs (fun k => { k with copies := k.copies ++ [c] })

/-- The first copy begins: its command is answered, and the words of its first line are being read. -/
theorem startCopy_begins {stage dest len : Nat} (hi : x.deckIdle) (hnone : x.ks.copies = []) (hws : x.ws.phase = .idle) (hlen : len ≠ 0) :
    ∃ ids, ids ≠ [] ∧ (∀ n ∈ ids, (x.startCopy src k stage dest len ws 0).reads n)
      ∧ Dev.Traffics (· = .copy src) ((x.accept src k ws 0).asks (.fresh src stage dest len) ids) (x.startCopy src k stage dest len ws 0) := by
  have hacc := accept_speaks x src k ws 0
  have hstart : x.startCopy src k stage dest len ws 0 = ((x.accept src k ws 0).addCopy (.fresh src stage dest len)).copyOn := rfl
  rw [hstart]
  generalize x.accept src k ws 0 = z at hacc
  have hcopies : (z.addCopy (.fresh src stage dest len)).ks.copies = [.fresh src stage dest len] := by
    show z.ks.copies ++ _ = _
    rw [hacc.copies, hnone]
    rfl
  have hidle : (z.addCopy (.fresh src stage dest len)).deckIdle := hacc.idle hi
  have hphase : (z.addCopy (.fresh src stage dest len)).ws.phase = .idle := (congrArg WriteSeq.phase hacc.sequencer).trans hws
  have hasks : ∀ c ids, (z.addCopy (.fresh src stage dest len)).asks c ids = z.asks c ids := fun _ _ => rfl
  have hleft : 0 < (Copy.fresh src stage dest len).left := by
    unfold Copy.left Copy.fresh
    dsimp only
    omega
  have hlines : (Copy.fresh src stage dest len).next < (Copy.fresh src stage dest len).lines := by
    unfold Copy.lines Copy.fresh
    dsimp only
    omega
  have hfresh : (Copy.fresh src stage dest len).asked.isEmpty = true := rfl
  have hsrc : (Copy.fresh src stage dest len).src = src := rfl
  generalize z.addCopy (.fresh src stage dest len) = y at hcopies hidle hphase hasks
  generalize Copy.fresh src stage dest len = c at *
  have hpump : y.copyOn = y.askCopy c := by
    unfold Dev.copyOn Dev.pumpCopies
    rw [hcopies, hphase]
    dsimp only
    rw [if_neg (by simp), if_pos hlines, if_pos hfresh]
  obtain ⟨ids, hne, hreads, htraffic⟩ := askCopy_asks hidle hcopies hleft
  rw [hpump, ← hsrc]
  rw [hasks] at htraffic
  exact ⟨ids, hne, hreads, htraffic⟩

/-! ### Places (R354, R482) -/

/-- A least value of a fold is one of those compared. -/
theorem least_attained {α β : Type} (f : α → β) (p : β → β → Bool) (r : List α) (a : α) :
    ∃ x ∈ a :: r, r.foldl (fun m x => if p (f x) m then f x else m) (f a) = f x := by
  induction r generalizing a with
  | nil => exact ⟨a, List.mem_cons_self, rfl⟩
  | cons b r ih =>
    rw [List.foldl_cons]
    split
    · obtain ⟨x, hx, h⟩ := ih b
      exact ⟨x, List.mem_cons_of_mem a hx, h⟩
    · obtain ⟨x, hx, h⟩ := ih a
      obtain rfl | hx := List.mem_cons.mp hx
      · exact ⟨x, List.mem_cons_self, h⟩
      · exact ⟨x, List.mem_cons_of_mem a (List.mem_cons_of_mem b hx), h⟩

/-- Among places that are not none at all one comes first. -/
theorem inTurn_ne_nil {n : Nat} {l : List Nat} (h : l ≠ []) : d.inTurn n l ≠ [] := by
  cases l with
  | nil => exact absurd rfl h
  | cons a r =>
    obtain ⟨x, hx, hleast⟩ := least_attained (d.lastWrite n) wornLess r a
    refine List.ne_nil_of_mem (a := x) ?_
    unfold Dev.inTurn
    dsimp only
    rw [hleast]
    exact List.mem_filter.mpr ⟨hx, by simp⟩

theorem inTurn_subset {n y : Nat} {l : List Nat} (h : y ∈ d.inTurn n l) : y ∈ l := by
  cases l with
  | nil => exact h
  | cons a r => exact (List.mem_filter.mp h).1

/-- Keystone takes one of the places there are. -/
theorem choose_place {n : Nat} {l : List Nat} (h : l ≠ []) : ∃ line ∈ l, ∃ fc, d.choose (d.inTurn n l) = (some line, { d with freeCtr := fc }) := by
  obtain ⟨line, hline, hchosen⟩ := choose_mem (d := d) (inTurn_ne_nil (d := d) (n := n) h)
  obtain ⟨fc, hframe⟩ := choose_frame d (d.inTurn n l)
  exact ⟨line, inTurn_subset hline, fc, Prod.ext hchosen hframe⟩

end Sys2Proof.Machine
end

section
/-! PROOFS. LOOP_LOAD and SEC_IMAGE. -/
namespace Sys2Proof.Proofs
open Sys2Proof.Machine

variable {s : State} {src : CmdSrc} {c : CmdSpec} {body : Dev → Eff} {i : Instr} {x : Dev} {ws : List W32} {k : JobKind} {stage dest len fc : Nat}

/-- What a copy begins in t: Keystone's reads, in class C1, of the words of its first line. -/
def Begins (t : State) (src : CmdSrc) (stage dest len : Nat) : Prop :=
  ∃ ids, ids ≠ [] ∧ (∀ n ∈ ids, ∃ x ∈ t.dev.txns, x.id = n ∧ x.ty = .rd ∧ x.cls = 1#2 ∧ x.req = ksReq)
    ∧ t.dev.ks.copies = [{ src := src, stage := stage, dest := dest, len := len, next := 0, asked := ids }]

/-- The row of an admitted command that begins a copy over an idle Deck. -/
theorem startCopy_row (hrow : exec i s = s.commit (settleEff s.mem (s.dev.takeCmd src c body))) (ha : s.dev.admits src c)
    (hx : ({ s.dev with freeCtr := fc } : Dev).Accessed x) (hbody : body s.dev = (x.startCopy src k stage dest len ws 0, []))
    (hi : s.dev.deckIdle) (hnone : s.dev.ks.copies = []) (hws : s.dev.ws.phase = .idle) (hlen : len ≠ 0)
    (hk : ∀ (d : Dev) j, j.kind = k → d.settleJob s.mem j = (d, [])) :
    ∃ t, exec i s = .next t ∧ Keeps s t ∧ t.dev.ks.jobs.map (·.kind) = [k] ∧ Begins t src stage dest len ∧ Replied s t src stAccepted 0#16 ws := by
  obtain ⟨hcalm, -, -, -, -, -, -, hhalt, -⟩ := ha.1
  have hidle : x.deckIdle := hx.idle hi
  obtain ⟨ids, hne, hreads, htraffic⟩ := startCopy_begins (src := src) (k := k) (ws := ws) (stage := stage) (dest := dest) (len := len) hidle
    (hx.copies.trans hnone) ((congrArg WriteSeq.phase hx.sequencer).trans hws) hlen
  have hacc := accept_speaks x src k ws 0
  have hans := accept_answered x src k ws 0
  have hjobs := accept_jobs x src k ws 0
  have hreq : x.request src = s.dev.request src :=
    (hx.request src).trans (by cases src with | port p => cases p <;> rfl | fwd u p => rfl)
  have hkind : (x.jobFor src k).kind = k := rfl
  rw [show x.ks.jobs = [] from hx.jobs.trans hcalm, List.nil_append] at hjobs
  rw [seqWord_of_request hreq] at hans
  generalize x.startCopy src k stage dest len ws 0 = y at hbody hreads htraffic
  generalize x.jobFor src k = j at hjobs hkind
  generalize x.accept src k ws 0 = z at hans hjobs hacc htraffic
  have hasked : ∀ v : Copy, (z.asks v ids).ks.fwd = z.ks.fwd ∧ (z.asks v ids).ks.jobs = z.ks.jobs ∧ (z.asks v ids).ks.halted = z.ks.halted
      ∧ (z.asks v ids).cores = z.cores ∧ ∀ q, (z.asks v ids).port q = z.port q := fun v => ⟨rfl, rfl, rfl, rfl, fun q => by cases q <;> rfl⟩
  obtain ⟨hafwd, hajobs, hahalt, hacores, haport⟩ := hasked (.fresh src stage dest len)
  obtain ⟨hcopies, hfwd, hyhalt⟩ := htraffic.ks
  have hyans := hans.of_eq (f := y) (fun q => (htraffic.port q).trans (haport q)) (hfwd.trans hafwd)
  have hyjobs : y.ks.jobs = [j] := (htraffic.jobs.trans hajobs).trans hjobs
  have hset := hk (y.taken src) j hkind
  obtain ⟨t, ht, hm, hp, hr, -, hcores, hks, htx⟩ := accepted_row hrow ha hbody hyans (by
      intro t ht
      unfold Txn.ofCmd
      rw [htraffic.origin t ht]
      rfl) (by rw [hyhalt, hahalt, hacc.halted, hx.halted]; exact hhalt) hyjobs hset hyans
  have hycores : y.cores = s.dev.cores := ((htraffic.cores.trans hacores).trans hacc.cores).trans hx.cores
  refine ⟨t, ht, ⟨hm, hp, hcores.trans hycores⟩, ?_, ⟨ids, hne, fun n hn => ?_, ?_⟩, hr⟩
  · rw [hks]
    show y.ks.jobs.map _ = _
    rw [hyjobs, List.map_singleton, hkind]
  · rw [htx]
    exact hreads n hn
  · rw [hks]
    exact hcopies

/-- The word of a read of a staged header. -/
theorem headerRead_plain {d : Dev} {len : Nat} {v : W32} (hawake : d.wordAsleep v.toNat = false) :
    ∀ t ∈ [headerRead v.toNat len], t.ksPlain ∧ d.wordAsleep t.addr.toNat = false := by
  intro t ht
  rw [List.mem_singleton.mp ht]
  have haddr : (headerRead v.toNat len).addr = v := BitVec.ofNat_toNat _ v |>.trans (BitVec.setWidth_eq v)
  refine ⟨⟨target_isSome rfl, rfl, rfl, rfl⟩, ?_⟩
  rw [haddr]
  exact hawake

/-- A header none of whose words is poisoned. -/
theorem badHeaderWord_none {d : Dev} (h : ∀ i, 4 * i < len → stage + i ∉ d.poison) : d.badHeaderWord stage len = none := by
  unfold Dev.badHeaderWord
  rw [List.find?_eq_none]
  intro w hw
  obtain ⟨i, -, rfl⟩ := List.mem_map.mp hw
  simp only [Nat.add_sub_cancel_left, Bool.and_eq_true, decide_eq_true_eq, not_and, Dev.poisoned, List.contains_iff_mem]
  exact h i

/-- A free choice made changes no command that runs. -/
theorem running_freeCtr (d : Dev) (n : Nat) (src : CmdSrc) : ({ d with freeCtr := n } : Dev).running src = d.running src := by
  cases src with
  | port p => cases p <;> rfl
  | fwd u p => rfl

section
variable (hslice : stagedInSlice (s.dev.pay32 src 0).toNat (s.dev.pay32 src 4).toNat = true) (hlen : (s.dev.pay32 src 4).toNat ≠ 0)
  (hwords : (s.dev.pay32 src 4).toNat % 4 = 0) (hrun : s.dev.running src = false) (hnone : s.dev.ks.copies = [])
  (hgood : ∀ i, 4 * i < (s.dev.pay32 src 4).toNat → (s.dev.pay32 src 0).toNat + i ∉ s.dev.poison) (hi : s.dev.deckIdle)
  (hawake : s.dev.wordAsleep (s.dev.pay32 src 0).toNat = false) (hws : s.dev.ws.phase = .idle)
include hslice hlen hwords hrun hnone hgood hi hawake hws

omit hslice hlen hwords hnone hws in
/-- A place found, the staged header is read, and what follows begins. -/
theorem staged_accepts (hprog : s.dev.ks.prog = none) (fc : Nat) (f : Nat → Dev → Eff) : ∃ x, ({ s.dev with freeCtr := fc } : Dev).Accessed x ∧
    ({ s.dev with freeCtr := fc } : Dev).acceptOr src (fun z => z.ksDone src [headerRead (s.dev.pay32 src 0).toNat (s.dev.pay32 src 4).toNat] (fun late x =>
      match x.badHeaderWord (s.dev.pay32 src 0).toNat (s.dev.pay32 src 4).toNat with
      | some w => ((x.sramRead w .good ksReq).2).refuse src stFaultActive 545#16
      | none => f late x)) = f 0 x := by
  obtain ⟨x, hx, hdone⟩ := ksDone_idle (d := { s.dev with freeCtr := fc }) (src := src) (go := fun late x =>
      match x.badHeaderWord (s.dev.pay32 src 0).toNat (s.dev.pay32 src 4).toNat with
      | some w => ((x.sramRead w .good ksReq).2).refuse src stFaultActive 545#16
      | none => f late x)
    (ts := [headerRead (s.dev.pay32 src 0).toNat (s.dev.pay32 src 4).toNat]) hprog hi (headerRead_plain hawake)
  have hread : x.badHeaderWord (s.dev.pay32 src 0).toNat (s.dev.pay32 src 4).toNat = none :=
    badHeaderWord_none fun i h => by
      rw [hx.poison]
      exact hgood i h
  refine ⟨x, hx, ?_⟩
  unfold Dev.acceptOr
  rw [running_freeCtr, if_neg (by simp [hrun])]
  refine hdone.trans ?_
  rw [hread]

/-- What R351 states of LOOP_LOAD. -/
def loopLoadSpec : CmdSpec := { op := 0x0301, len := exact 16, modes := modesCSRD, changes := true }

/-- LOOP_LOAD of a staged image for which there is room (R354). -/
theorem loopLoad_begins (ha : s.dev.admits src loopLoadSpec) (hsl : (s.dev.pay8 src 8).toNat < 8 ∨ (s.dev.pay8 src 8).toNat = 255)
    (hz : s.dev.payZero src 9 16 = true)
    (hroom : ∃ q ∈ s.dev.slices (s.dev.pay8 src 8).toNat, s.dev.places (((s.dev.pay32 src 4).toNat + 63) / 64) q ≠ []) :
    ∃ t line q, exec (.loopLoad src) s = .next t ∧ Keeps s t ∧ q ∈ s.dev.slices (s.dev.pay8 src 8).toNat
      ∧ line ∈ s.dev.places (((s.dev.pay32 src 4).toNat + 63) / 64) q
      ∧ t.dev.ks.jobs.map (·.kind) = [.loopLoad (BitVec.ofNat 32 (16 * line))] ∧ Begins t src (s.dev.pay32 src 0).toNat (16 * line) (s.dev.pay32 src 4).toNat
      ∧ Replied s t src stAccepted 0#16 [BitVec.ofNat 32 (16 * line), BitVec.ofNat 32 (16 * line)
          + BitVec.ofNat 32 (payloadAt (laneOf (stagedWord s.mem (s.dev.pay32 src 0).toNat (s.dev.pay32 src 4).toNat 1) 1) / 4)
          + stagedWord s.mem (s.dev.pay32 src 0).toNat (s.dev.pay32 src 4).toNat 2] := by
  obtain ⟨hprog, -⟩ := ha.fresh
  obtain ⟨line, hline, fc, hchoose⟩ := choose_place (d := s.dev) (n := ((s.dev.pay32 src 4).toNat + 63) / 64)
    (l := (s.dev.slices (s.dev.pay8 src 8).toNat).flatMap (fun q => s.dev.places (((s.dev.pay32 src 4).toNat + 63) / 64) q)) (by
      obtain ⟨q, hq, hne⟩ := hroom
      rw [ne_eq, List.flatMap_eq_nil_iff]
      exact fun h => hne (h q hq))
  obtain ⟨q, hq, hplace⟩ := List.mem_flatMap.mp hline
  have hnb : firstBad (s.dev.badStage src ++ [(8, decide (7 < (s.dev.pay8 src 8).toNat) && (s.dev.pay8 src 8).toNat != 255), (9, !s.dev.payZero src 9 16)])
      = none := by
    have hs : (decide (7 < (s.dev.pay8 src 8).toNat) && (s.dev.pay8 src 8).toNat != 255) = false := by
      obtain h | h := hsl
      · simp only [Bool.and_eq_false_imp, decide_eq_true_eq]
        omega
      · simp [h]
    simp [Dev.badStage, firstBad, hslice, hlen, hwords, hz, hs]
  obtain ⟨x, hx, hdone⟩ := staged_accepts hrun hgood hi hawake hprog fc (fun late x =>
    (x.startCopy src (.loopLoad (BitVec.ofNat 32 (16 * line))) (s.dev.pay32 src 0).toNat (16 * line) (s.dev.pay32 src 4).toNat
      [BitVec.ofNat 32 (16 * line), BitVec.ofNat 32 (16 * line)
        + BitVec.ofNat 32 (payloadAt (laneOf (stagedWord s.mem (s.dev.pay32 src 0).toNat (s.dev.pay32 src 4).toNat 1) 1) / 4)
        + stagedWord s.mem (s.dev.pay32 src 0).toNat (s.dev.pay32 src 4).toNat 2] late, []))
  obtain ⟨t, ht, hk, hj, hb, hr⟩ := startCopy_row (i := .loopLoad src) (body := fun d => d.loopLoadCmd s.mem src) rfl ha hx (by
      unfold Dev.loopLoadCmd
      dsimp only
      rw [hnb]
      dsimp only
      rw [hchoose]
      exact hdone) hi hnone hws hlen (fun d j hj => by unfold Dev.settleJob; rw [hj])
  exact ⟨t, line, q, ht, hk, hq, hplace, hj, hb, hr⟩

/-- What R351 states of SEC_IMAGE. -/
def secImageSpec : CmdSpec := { op := 0x0802, len := exact 16, modes := modesCSRD, changes := true }

/-- SEC_IMAGE of a staged image for which there is room (R367). -/
theorem secImage_begins (ha : s.dev.admits src secImageSpec) (hty : s.dev.pay8 src 8 ∈ [1#8, 3#8, 4#8, 5#8]) (hfl : (s.dev.pay8 src 9).toNat < 2)
    (hz : s.dev.payZero src 10 16 = true) (hroom : s.dev.imagePlaces (s.dev.pay8 src 8) (((s.dev.pay32 src 4).toNat + 63) / 64) ≠ []) :
    ∃ t line, exec (.secImage src) s = .next t ∧ Keeps s t ∧ line ∈ s.dev.imagePlaces (s.dev.pay8 src 8) (((s.dev.pay32 src 4).toNat + 63) / 64)
      ∧ t.dev.ks.jobs.map (·.kind) = [.secImage (BitVec.ofNat 32 (16 * line)) (s.dev.pay8 src 8) ((s.dev.pay8 src 9).getLsbD 0)]
      ∧ Begins t src (s.dev.pay32 src 0).toNat (16 * line) (s.dev.pay32 src 4).toNat
      ∧ Replied s t src stAccepted 0#16 [BitVec.ofNat 32 (16 * line)] := by
  obtain ⟨hprog, -⟩ := ha.fresh
  obtain ⟨line, hline, fc, hchoose⟩ := choose_place (d := s.dev) (n := ((s.dev.pay32 src 4).toNat + 63) / 64) hroom
  have hnb : firstBad (s.dev.badStage src ++ [(8, !([1#8, 3#8, 4#8, 5#8] : List Byte).contains (s.dev.pay8 src 8)), (9, s.dev.pay8 src 9 >>> 1 != 0#8),
      (10, !s.dev.payZero src 10 16)]) = none := by
    have hshift : s.dev.pay8 src 9 >>> 1 = 0#8 := by bv_omega
    have hkind : ([1#8, 3#8, 4#8, 5#8] : List Byte).contains (s.dev.pay8 src 8) = true := List.contains_iff_mem.mpr hty
    simp only [Dev.badStage, List.cons_append, List.nil_append, firstBad, hslice, hwords, hz, hshift, hkind]
    simp [hlen]
  obtain ⟨x, hx, hdone⟩ := staged_accepts hrun hgood hi hawake hprog fc (fun late x =>
    (x.startCopy src (.secImage (BitVec.ofNat 32 (16 * line)) (s.dev.pay8 src 8) ((s.dev.pay8 src 9).getLsbD 0)) (s.dev.pay32 src 0).toNat (16 * line)
      (s.dev.pay32 src 4).toNat [BitVec.ofNat 32 (16 * line)] late, []))
  obtain ⟨t, ht, hk, hj, hb, hr⟩ := startCopy_row (i := .secImage src) (body := fun d => d.secImageCmd src) rfl ha hx (by
      unfold Dev.secImageCmd
      dsimp only
      rw [hnb]
      dsimp only
      rw [hchoose]
      exact hdone) hi hnone hws hlen (fun d j hj => by unfold Dev.settleJob; rw [hj])
  exact ⟨t, line, ht, hk, hline, hj, hb, hr⟩

end

end Sys2Proof.Proofs
end

section
/-! SUPPORT. A loop that joins the bound ones (R355, R357). -/
namespace Sys2Proof.Machine

variable {d e f : Dev} {l : Loop} {m : List Host.Cell}

/-- A bound loop more on Keystone's list. -/
def Dev.addLoop (d : Dev) (l : Loop) : Dev := d.onKs (fun k => { k with loops := k.loops ++ [l] })

theorem addLoop_request (l : Loop) (src : CmdSrc) : (d.addLoop l).request src = d.request src := by
  cases src with
  | port p => cases p <;> rfl
  | fwd u p => rfl

theorem sec_request (sc : Sec) (src : CmdSrc) : ({ d with sec := sc } : Dev).request src = d.request src := by
  cases src with
  | port p => cases p <;> rfl
  | fwd u p => rfl

theorem freeCtr_request (n : Nat) (src : CmdSrc) : ({ d with freeCtr := n } : Dev).request src = d.request src := by
  cases src with
  | port p => cases p <;> rfl
  | fwd u p => rfl

theorem Dev.Binds.request (h : d.Binds l e) (src : CmdSrc) : e.request src = d.request src := by
  cases src with
  | port p => exact congrArg PortSt.reqBuf (h.port p)
  | fwd u p =>
    unfold Dev.request
    rw [h.ks]

/-- From d to e a loop was added to the bound ones and bound: its trigger is set up, and no command, request or transaction changed. -/
structure Dev.Lists (d : Dev) (l : Loop) (e : Dev) : Prop where
  loops : e.ks.loops = d.ks.loops ++ [l]
  jobs : e.ks.jobs = d.ks.jobs
  txns : e.txns = d.txns
  request : ∀ src, e.request src = d.request src
  en : (e.source (bentOf l.core.toNat) l.trigger.toNat).en = false
  vec : (e.source (bentOf l.core.toNat) l.trigger.toNat).vec = l.entry
  pri : (e.source (bentOf l.core.toNat) l.trigger.toNat).pri = l.pri
  mask : (e.source (bentOf l.core.toNat) l.trigger.toNat).mask = 1#16 <<< slotOf l.core.toNat

theorem Dev.Binds.lists (h : (d.addLoop l).Binds l e) (sc : Sec) : d.Lists l { e with sec := sc } where
  loops := (congrArg Keystone.loops h.ks :)
  jobs := (congrArg Keystone.jobs h.ks :)
  txns := h.txns
  request src := ((sec_request sc src).trans (h.request src)).trans (addLoop_request l src)
  en := h.en
  vec := h.vec
  pri := h.pri
  mask := h.mask

/-- A loop added, bound and its image's counter advanced. -/
theorem bindAll_lists (d : Dev) (m : List Host.Cell) (l : Loop) (margin : Byte) (addr : W32) :
    d.Lists l (((d.addLoop l).bindLoop m l margin).advanceRb m addr) := by
  obtain ⟨sc, hsec⟩ := advanceRb_sec ((d.addLoop l).bindLoop m l margin) m addr
  rw [hsec]
  exact (bindLoop_binds _ m l margin).lists sc

end Sys2Proof.Machine
end

section
/-! PROOFS. The statement on LOOP_LOAD, SEC_IMAGE and LOOP_BIND. -/
namespace Sys2Proof.Proofs
open Sys2Proof.Machine

variable {s : State} {src : CmdSrc} {im : Image}

theorem readTable_freeCtr {d : Dev} (n b : Nat) (ident : W32) : (({ d with freeCtr := n } : Dev).readTable b ident).1 = (d.readTable b ident).1 := by
  unfold Dev.readTable
  rw [show ({ d with freeCtr := n } : Dev).tableFor b ident = d.tableFor b ident from rfl]
  split <;> rfl

/-- What R351 states of LOOP_BIND. -/
def loopBindSpec : CmdSpec := { op := 0x0302, len := loopBindLen, modes := modesCSRD, changes := true }

section
variable (ha : s.dev.admits src loopBindSpec) (hbad : s.dev.badBind (s.dev.bindReq src) = none) (hshort : s.dev.bindShort (s.dev.bindReq src) = none)
  (hfree : s.dev.freeNumbers ≠ []) (hi : s.dev.deckIdle) (hawake : s.dev.wordAsleep (0x08200000 + 0x1000 * (s.dev.bindReq src).bent) = false)
  (htable : (s.dev.readTable (s.dev.bindReq src).bent (s.dev.bindReq src).unitId).1 = false)
  (hreads : ∀ x ∈ s.dev.tableReads (s.dev.bindReq src).bent (s.dev.bindReq src).unitId, s.dev.wordAsleep x.addr.toNat = false)
  (him : s.dev.image (s.dev.bindReq src).image = some im) (hver : im.verified = true)
include ha hbad hshort hfree hi hawake htable hreads him hver

/-- A LOOP_BIND that passes its checks makes a loop with a free number, adds it and binds it. -/
theorem loopBindCmd_binds : ∃ n ∈ s.dev.freeNumbers, ∃ y, (∃ fc e, ({ s.dev with freeCtr := fc } : Dev).Accessed e ∧ e.Refreshes y) ∧
    s.dev.loopBindCmd s.mem src =
      (((((y.makeLoop (s.dev.bindReq src) (BitVec.ofNat 16 n) im.entry).2.addLoop (y.makeLoop (s.dev.bindReq src) (BitVec.ofNat 16 n) im.entry).1).bindLoop s.mem
        (y.makeLoop (s.dev.bindReq src) (BitVec.ofNat 16 n) im.entry).1 (s.dev.bindReq src).margin).advanceRb s.mem (s.dev.bindReq src).image).reply src
        stDone 0#16 (y.makeLoop (s.dev.bindReq src) (BitVec.ofNat 16 n) im.entry).1.report, []) := by
  obtain ⟨hprog, -⟩ := ha.fresh
  obtain ⟨n, hn, hchosen⟩ := choose_mem (d := s.dev) hfree
  obtain ⟨fc, hframe⟩ := choose_frame s.dev s.dev.freeNumbers
  have hchoose : s.dev.choose s.dev.freeNumbers = (some n, { s.dev with freeCtr := fc }) := Prod.ext hchosen hframe
  have hbent : (s.dev.bindReq src).bent < 128 := by
    have := coreId_lt (s.dev.bindReq src)
    unfold BindReq.bent bentOf
    omega
  obtain ⟨e, he, hdone⟩ := ksDone_idle (d := { s.dev with freeCtr := fc }) (src := src) (go := fun late e =>
      e.reverify s.mem src (s.dev.bindReq src).image (fun d2' =>
        let tab := d2'.readTable (s.dev.bindReq src).bent (s.dev.bindReq src).unitId
        let d2 := tab.2
        if tab.1 then d2.refuse src stFaultActive 547#16 else
        let l := d2.makeLoop (s.dev.bindReq src) (BitVec.ofNat 16 n) (((d2.image (s.dev.bindReq src).image).map (fun i => i.entry)).getD 0#32)
        let d3 := (l.2.onKs (fun k => { k with loops := k.loops ++ [l.1] })).bindLoop s.mem l.1 (s.dev.bindReq src).margin
        let st := doneOr late
        ((d3.advanceRb s.mem (s.dev.bindReq src).image).reply src st.1 st.2 l.1.report, [])))
    (ts := bentAccess (s.dev.bindReq src).bent :: s.dev.tableReads (s.dev.bindReq src).bent (s.dev.bindReq src).unitId) hprog hi (by
    intro t ht
    obtain rfl | ht := List.mem_cons.mp ht
    · exact bentAccess_plain (d := s.dev) hbent hawake _ List.mem_cons_self
    · exact ⟨tableReads_plain t ht, hreads t ht⟩)
  have htab : (e.readTable (s.dev.bindReq src).bent (s.dev.bindReq src).unitId).1 = false := ((readTable_accessed he _ _).trans (readTable_freeCtr fc _ _)).trans htable
  have hrefreshed := readTable_refreshes (d := e) (s.dev.bindReq src).bent (s.dev.bindReq src).unitId
  have hei : e.image (s.dev.bindReq src).image = some im := by
    unfold Dev.image
    rw [he.images]
    exact him
  have hyi : (e.readTable (s.dev.bindReq src).bent (s.dev.bindReq src).unitId).2.image (s.dev.bindReq src).image = some im := by
    unfold Dev.image
    rw [hrefreshed.tends.ks]
    exact hei
  refine ⟨n, hn, _, ⟨fc, e, he, hrefreshed⟩, ?_⟩
  unfold Dev.loopBindCmd
  dsimp only
  rw [hbad]
  dsimp only
  rw [hshort]
  dsimp only
  rw [hchoose]
  refine hdone.trans ?_
  unfold Dev.reverify
  rw [hei]
  dsimp only
  rw [if_pos hver, if_neg (by simp [htab]), hyi]
  rfl

/-- LOOP_BIND of declarations that pass every check and lack no resource (R355 to R357). -/
theorem loopBind_binds : ∃ t l, exec (.loopBind src) s = .next t ∧ t.mem = s.mem ∧ t.pending = s.pending ∧ t.dev.ks.loops = s.dev.ks.loops ++ [l]
    ∧ l.num.toNat ∈ s.dev.freeNumbers ∧ l.image = (s.dev.bindReq src).image ∧ l.entry = im.entry ∧ l.core.toNat = (s.dev.bindReq src).coreId
    ∧ l.period = (s.dev.bindReq src).period ∧ l.deadline = (s.dev.bindReq src).deadline
    ∧ ((s.dev.bindReq src).trigger ≠ 255 → l.trigger.toNat = (s.dev.bindReq src).trigger) ∧ l.heldStop = false
    ∧ (t.dev.source (s.dev.bindReq src).bent l.trigger.toNat).vec = im.entry
    ∧ (t.dev.source (s.dev.bindReq src).bent l.trigger.toNat).pri = (s.dev.bindReq src).pri
    ∧ (t.dev.source (s.dev.bindReq src).bent l.trigger.toNat).mask = 1#16 <<< slotOf (s.dev.bindReq src).coreId
    ∧ (t.dev.source (s.dev.bindReq src).bent l.trigger.toNat).en = false ∧ Replied s t src stDone 0#16 l.report := by
  obtain ⟨n, hn, y, ⟨fc, e, he, hy⟩, hbody⟩ := loopBindCmd_binds ha hbad hshort hfree hi hawake htable hreads him hver
  obtain ⟨-, hcalm, -⟩ := ha.fresh
  have htlt : (s.dev.bindReq src).trigger < 256 := (s.dev.pay8 src 8).isLt
  have hnlt : (BitVec.ofNat 16 n).toNat = n := by
    obtain ⟨k, hk, rfl⟩ := List.mem_map.mp (List.mem_filter.mp hn).1
    rw [List.mem_range] at hk
    rw [BitVec.toNat_ofNat]
    omega
  obtain ⟨hnamed, -⟩ := makeLoop_trigger (d := y) (r := s.dev.bindReq src) (BitVec.ofNat 16 n) im.entry htlt
  have hcore := makeLoop_core y (s.dev.bindReq src) (BitVec.ofNat 16 n) im.entry
  obtain ⟨fc', hframe⟩ := makeLoop_frame y (s.dev.bindReq src) (BitVec.ofNat 16 n) im.entry
  have hnum : (y.makeLoop (s.dev.bindReq src) (BitVec.ofNat 16 n) im.entry).1.num = BitVec.ofNat 16 n := rfl
  have himage : (y.makeLoop (s.dev.bindReq src) (BitVec.ofNat 16 n) im.entry).1.image = (s.dev.bindReq src).image := rfl
  have hentry : (y.makeLoop (s.dev.bindReq src) (BitVec.ofNat 16 n) im.entry).1.entry = im.entry := rfl
  have hperiod : (y.makeLoop (s.dev.bindReq src) (BitVec.ofNat 16 n) im.entry).1.period = (s.dev.bindReq src).period := rfl
  have hdeadline : (y.makeLoop (s.dev.bindReq src) (BitVec.ofNat 16 n) im.entry).1.deadline = (s.dev.bindReq src).deadline := rfl
  have hpri : (y.makeLoop (s.dev.bindReq src) (BitVec.ofNat 16 n) im.entry).1.pri = (s.dev.bindReq src).pri := rfl
  have hstop : (y.makeLoop (s.dev.bindReq src) (BitVec.ofNat 16 n) im.entry).1.heldStop = false := rfl
  rw [hframe] at hbody
  generalize (y.makeLoop (s.dev.bindReq src) (BitVec.ofNat 16 n) im.entry).1 = l at *
  have hlists := bindAll_lists ({ y with freeCtr := fc' } : Dev) s.mem l (s.dev.bindReq src).margin
    (s.dev.bindReq src).image
  have hyks : y.ks = e.ks := hy.tends.ks
  generalize ((({ y with freeCtr := fc' } : Dev).addLoop l).bindLoop s.mem l (s.dev.bindReq src).margin).advanceRb s.mem (s.dev.bindReq src).image = z at *
  obtain ⟨t, ht, hm, hp, hr, -, hbent, htl⟩ := answered_row (i := .loopBind src) rfl ha hbody (.inl rfl)
    (hlists.jobs.trans ((congrArg Keystone.jobs hyks).trans (he.jobs.trans hcalm)))
    ((hlists.request src).trans ((freeCtr_request fc' src).trans ((hy.tends.request src).trans ((he.request src).trans (freeCtr_request fc src)))))
    (by
      rw [hlists.txns]
      show ∀ t ∈ y.txns, _
      rw [hy.tends.txns, he.txns]
      exact admits_txns ha)
  have hbentOf : (s.dev.bindReq src).bent = bentOf l.core.toNat := by
    rw [hcore]
    rfl
  refine ⟨t, l, ht, hm, hp, ?_, by rw [hnum, hnlt]; exact hn, himage, hentry, hcore, hperiod, hdeadline, hnamed, hstop, ?_, ?_, ?_, ?_, hr⟩
  · rw [htl, hlists.loops]
    exact congrArg (· ++ [l]) ((congrArg Keystone.loops hyks).trans he.loops)
  all_goals rw [hbentOf, source_of_bent hbent]
  · rw [hlists.vec, hentry]
  · rw [hlists.pri, hpri]
  · rw [hlists.mask, hcore]
  · exact hlists.en

end

/-- Settles O36: a staged image is copied to a place that a free choice takes from those that fit, its first line read over the idle Deck; a loop is bound
with a number and a trigger that are free. -/
theorem imagesAndBindings : Obligations.ImagesAndBindings := by
  unfold Obligations.ImagesAndBindings
  exact ⟨fun s src hslice hlen hwords hrun hnone hgood hi hawake hws =>
      ⟨loopLoad_begins hslice hlen hwords hrun hnone hgood hi hawake hws, fun ha hty hfl hz hroom _ =>
        secImage_begins hslice hlen hwords hrun hnone hgood hi hawake hws ha hty hfl hz hroom⟩,
    fun s src im ha hbad hshort hfree hi hawake htable hreads him hver => loopBind_binds ha hbad hshort hfree hi hawake htable hreads him hver⟩

end Sys2Proof.Proofs
end
